-- ==== Sys2Proof/Word.lean ====
section
/-! DEFINITION. The words and numbers of the part (00_scope.md sections 5.1 and 5.4): bytes on the links,
the wrapping station clock, auth tags, and the numbers of ports, positions, banks, lanes, compressors,
classes, bands, tariff entries and store slots. -/

namespace Sys2Proof

/-- A byte of a frame. -/
abbrev Byte := BitVec 8

/-- The station clock: milliseconds since power-on, wrapping at 2^32 (R139). -/
abbrev Clock := BitVec 32

/-- The till's opaque 32-bit auth tag (section 1.2). -/
abbrev Tag := BitVec 32

/-- A link counter: unsigned, wrapping at 2^32 (R177). -/
abbrev Counter := BitVec 32

abbrev PortId := Fin 6
abbrev PosId := Fin 8
abbrev BankId := Fin 12
abbrev LaneId := Fin 4
abbrev CompId := Fin 2
abbrev ClassId := Fin 6
abbrev BandId := Fin 6
abbrev EntryId := Fin 8
abbrev SlotId := Fin 64

/-- A set of delivery classes: bit k stands for class k (R186). -/
abbrev ClassSet := BitVec 6

end Sys2Proof
end

