-- ==== Sys2Proof/Syntax.lean ====
section
/-! DEFINITION. The commands of the part: one constructor of `Instr` per row of spec/opcode_table.json.
A request carries its port and the body bytes after its kind code, as R187 lays them out; an event carries
the port, position, bank, lane, record or level it concerns. -/

namespace Sys2Proof

/-- The records of the metrology store, the unit of atomic writing (11 section 11.1). -/
inductive RecId
  | calibration
  | tariff (entry : EntryId)
  | slot (slot : SlotId)
  | nextNumber
  | totals
  | snapshot
  | resetCause
  deriving DecidableEq, Repr

/-- The commands: requests taken from a port (R170), link events, timer expiries, store completions and
line events. -/
inductive Instr
  /-- POSITION_OPEN, R5; body 0x10, 5 bytes. -/
  | positionOpen (port : PortId) (args : List Byte)
  /-- POSITION_CLOSE, R6; body 0x11, 2 bytes. -/
  | positionClose (port : PortId) (args : List Byte)
  /-- NOZZLE, R15; body 0x12, 3 bytes. -/
  | nozzle (port : PortId) (args : List Byte)
  /-- START, R16 to R18; body 0x13, 2 bytes. -/
  | start (port : PortId) (args : List Byte)
  /-- STOP, R26; body 0x14, 2 bytes. -/
  | stop (port : PortId) (args : List Byte)
  /-- POSITION_REPORT, R7; body 0x15, 4 bytes. -/
  | positionReport (port : PortId) (args : List Byte)
  /-- VEHICLE_DATA, R47; body 0x16, 9 bytes. -/
  | vehicleData (port : PortId) (args : List Byte)
  /-- LANE_ENABLE, R94; body 0x17, 3 bytes. -/
  | laneEnable (port : PortId) (args : List Byte)
  /-- STATION_CONFIG, R44, R58, R131; body 0x20, 11 bytes. -/
  | stationConfig (port : PortId) (args : List Byte)
  /-- BANK_CONFIG, R56; body 0x21, 9 bytes. -/
  | bankConfig (port : PortId) (args : List Byte)
  /-- TIER_WINDOW, R57; body 0x22, 6 bytes. -/
  | tierWindow (port : PortId) (args : List Byte)
  /-- BANK_ONLINE, R60; body 0x23, 2 bytes. -/
  | bankOnline (port : PortId) (args : List Byte)
  /-- BANK_OFFLINE, R61; body 0x24, 2 bytes. -/
  | bankOffline (port : PortId) (args : List Byte)
  /-- BANK_LOCK, R65; body 0x25, 2 bytes. -/
  | bankLock (port : PortId) (args : List Byte)
  /-- BANK_UNLOCK, R66; body 0x26, 3 bytes. -/
  | bankUnlock (port : PortId) (args : List Byte)
  /-- BANK_REPORT, R62; body 0x27, 6 bytes. -/
  | bankReport (port : PortId) (args : List Byte)
  /-- REFILL_REQUEST, R81; body 0x28, 2 bytes. -/
  | refillRequest (port : PortId) (args : List Byte)
  /-- REFILL_WITHDRAW, R87; body 0x29, 3 bytes. -/
  | refillWithdraw (port : PortId) (args : List Byte)
  /-- COMPRESSOR_CONFIG, R83; body 0x2A, 4 bytes. -/
  | compressorConfig (port : PortId) (args : List Byte)
  /-- COMPRESSOR_READY, R83; body 0x2B, 2 bytes. -/
  | compressorReady (port : PortId) (args : List Byte)
  /-- COMPRESSOR_UNAVAILABLE, R83; body 0x2C, 2 bytes. -/
  | compressorUnavailable (port : PortId) (args : List Byte)
  /-- REFILL_DONE, R86; body 0x2D, 2 bytes. -/
  | refillDone (port : PortId) (args : List Byte)
  /-- LANE_CONFIG, R93; body 0x2E, 6 bytes. -/
  | laneConfig (port : PortId) (args : List Byte)
  /-- LANE_REPORT, R96; body 0x2F, 4 bytes. -/
  | laneReport (port : PortId) (args : List Byte)
  /-- LANE_FAULT_CLEAR, R99; body 0x30, 2 bytes. -/
  | laneFaultClear (port : PortId) (args : List Byte)
  /-- COOLING_REPORT, R107; body 0x31, 3 bytes. -/
  | coolingReport (port : PortId) (args : List Byte)
  /-- AMBIENT_REPORT, R8; body 0x32, 3 bytes. -/
  | ambientReport (port : PortId) (args : List Byte)
  /-- POSITION_CONFIG, R4; body 0x33, 3 bytes. -/
  | positionConfig (port : PortId) (args : List Byte)
  /-- RAMP_TABLE, R33; body 0x34, 26 bytes. -/
  | rampTable (port : PortId) (args : List Byte)
  /-- CAL_WRITE, R137; body 0x35, 8 bytes. -/
  | calWrite (port : PortId) (args : List Byte)
  /-- ESD_CLEAR, R160; body 0x36, 2 bytes. -/
  | esdClear (port : PortId) (args : List Byte)
  /-- AUTHORIZE, R12; body 0x40, 12 bytes. -/
  | authorize (port : PortId) (args : List Byte)
  /-- CANCEL, R14; body 0x41, 6 bytes. -/
  | cancel (port : PortId) (args : List Byte)
  /-- TARIFF_SET, R141; body 0x42, 17 bytes. -/
  | tariffSet (port : PortId) (args : List Byte)
  /-- TARIFF_READ, R141; body 0x43, 2 bytes. -/
  | tariffRead (port : PortId) (args : List Byte)
  /-- SET_CLOCK, R140; body 0x44, 7 bytes. -/
  | setClock (port : PortId) (args : List Byte)
  /-- TXN_READ, R155; body 0x45, 5 bytes. -/
  | txnRead (port : PortId) (args : List Byte)
  /-- TXN_RELEASE, R156; body 0x46, 5 bytes. -/
  | txnRelease (port : PortId) (args : List Byte)
  /-- TOTALS_READ, R154; body 0x47, 2 bytes. -/
  | totalsRead (port : PortId) (args : List Byte)
  /-- TOTALS_SNAPSHOT, R157; body 0x48, 2 bytes. -/
  | totalsSnapshot (port : PortId) (args : List Byte)
  /-- SNAPSHOT_READ, R157; body 0x49, 2 bytes. -/
  | snapshotRead (port : PortId) (args : List Byte)
  /-- POSITION_QUERY, R31; body 0x4A, 2 bytes. -/
  | positionQuery (port : PortId) (args : List Byte)
  /-- SUPERVISION_SET, R163; body 0x50, 3 bytes. -/
  | supervisionSet (port : PortId) (args : List Byte)
  /-- NOTICE_SET, R176; body 0x51, 4 bytes. -/
  | noticeSet (port : PortId) (args : List Byte)
  /-- STATUS_QUERY, R178; body 0x52, 2 bytes. -/
  | statusQuery (port : PortId) (args : List Byte)
  /-- COUNTERS_READ, R177; body 0x53, 2 bytes. -/
  | countersRead (port : PortId) (args : List Byte)
  /-- COUNTERS_CLEAR, R177; body 0x54, 2 bytes. -/
  | countersClear (port : PortId) (args : List Byte)
  /-- UNKNOWN_KIND, R171: a taken request whose kind code is in no role's catalogue. -/
  | unknownKind (port : PortId) (kind : Byte) (args : List Byte)
  /-- GOOD_FRAME, R169: a frame with a matching check; `body` is its body, kind code first. -/
  | goodFrame (port : PortId) (body : List Byte)
  /-- BAD_CHECK_FRAME, R169. -/
  | badCheckFrame (port : PortId)
  /-- BAD_LENGTH_FRAGMENT, R169: the length byte received. -/
  | badLengthFragment (port : PortId) (length : Byte)
  /-- FRAME_GAP, R169. -/
  | frameGap (port : PortId)
  /-- FRAME_SENT, R172. -/
  | frameSent (port : PortId)
  /-- AUTHORIZATION_LIFE_EXPIRY, R13. -/
  | authorizationLifeExpiry (pos : PosId)
  /-- PULSE_EXPIRY, R19. -/
  | pulseExpiry (pos : PosId)
  /-- LEAK_CHECK_EXPIRY, R20. -/
  | leakCheckExpiry (pos : PosId)
  /-- HOLD_LIMIT_EXPIRY, R25. -/
  | holdLimitExpiry (pos : PosId)
  /-- SETTLE_EXPIRY, R28. -/
  | settleExpiry (pos : PosId)
  /-- PERIOD_EXPIRY, R10. -/
  | periodExpiry (pos : PosId)
  /-- SENSOR_STALE_WATCH_EXPIRY, R7. -/
  | sensorStaleWatchExpiry (pos : PosId)
  /-- BANK_STALE_WATCH_EXPIRY, R64. -/
  | bankStaleWatchExpiry (bank : BankId)
  /-- PULL_DOWN_TIMER_EXPIRY, R97. -/
  | pullDownTimerExpiry (lane : LaneId)
  /-- LANE_STALE_WATCH_EXPIRY, R98. -/
  | laneStaleWatchExpiry (lane : LaneId)
  /-- WARM_TIMER_EXPIRY, R103. -/
  | warmTimerExpiry (lane : LaneId)
  /-- SETTLE_GATE_TIMER_EXPIRY, R125. -/
  | settleGateTimerExpiry (channel : PosId)
  /-- ONE_SECOND_TIMER_EXPIRY, R139. -/
  | oneSecondTimerExpiry
  /-- INTERVAL_TIMER_EXPIRY, R164. -/
  | intervalTimerExpiry (port : PortId)
  /-- WRITE_GROUP_COMPLETION, R180: the completion of the group in flight that holds `record`. -/
  | writeGroupCompletion (record : RecId)
  /-- PULSE_EDGE, R124. -/
  | pulseEdge (channel : PosId)
  /-- ESD_N_FALLING_EDGE, R159. -/
  | esdNFallingEdge
  /-- ESD_N_RISING_EDGE, R158. -/
  | esdNRisingEdge
  /-- CAL_EN_CHANGE, R137: the level CAL_EN takes. -/
  | calEnChange (high : Bool)
  /-- POWER_APPLIED, R182. -/
  | powerApplied
  /-- POWER_LOSS, R180. -/
  | powerLoss
  /-- RESET_N_ASSERTED, R182. -/
  | resetNAsserted
  /-- RESET_N_RELEASED, R182. -/
  | resetNReleased
  /-- START_UP_SEQUENCE, R183 stages 2 to 7. -/
  | startUpSequence
  /-- START_UP_SERVE, R183 stage 8. -/
  | startUpServe
  /-- SYNC_BYTE, R169. -/
  | syncByte (port : PortId)
  /-- BR_STRAPS_CHANGE, R168: the levels BR1 and BR0 take. -/
  | brStrapsChange (br1 br0 : Bool)
  deriving DecidableEq, Repr

end Sys2Proof
end

