-- ==== Sys2Proof/Decode.lean ====
section
/-! DEFINITION. Frames and kinds (12_frame_layouts.md): the envelope and its check (R185), the catalogue of
request kinds with role and body length (R186, R187), the request a body spells and the body a request
stands for. spec/opcode_table.json gives no row any bits, so `decodeTableWord` reads nothing. -/

namespace Sys2Proof

/-- The three roles of a port (10 section 10.1). -/
inductive Role
  | island | plant | till
  deriving DecidableEq, Repr

/-- Ports 0 to 3 are islands, 4 the plant, 5 the till (00_scope.md 5.4). -/
def portRole (port : PortId) : Role :=
  if port.val < 4 then .island else if port.val = 4 then .plant else .till

/-- A row of the request catalogue (R186, R187): the constructor, its kind code, the roles that may send it
and its body length, kind code included. -/
structure KindRow where
  code : Nat
  roles : List Role
  length : Nat
  build : PortId → List Byte → Instr

/-- The kinds an island may send and no other role (R187). -/
def islandKinds : List KindRow :=
  [ ⟨0x10, [.island], 5, .positionOpen⟩,
    ⟨0x11, [.island], 2, .positionClose⟩,
    ⟨0x12, [.island], 3, .nozzle⟩,
    ⟨0x13, [.island], 2, .start⟩,
    ⟨0x14, [.island], 2, .stop⟩,
    ⟨0x15, [.island], 4, .positionReport⟩,
    ⟨0x16, [.island], 9, .vehicleData⟩,
    ⟨0x17, [.island, .plant], 3, .laneEnable⟩ ]

/-- The kinds only the plant may send (R187). LANE_ENABLE stands with the islands' kinds and names both roles. -/
def plantKinds : List KindRow :=
  [ ⟨0x20, [.plant], 11, .stationConfig⟩,
    ⟨0x21, [.plant], 9, .bankConfig⟩,
    ⟨0x22, [.plant], 6, .tierWindow⟩,
    ⟨0x23, [.plant], 2, .bankOnline⟩,
    ⟨0x24, [.plant], 2, .bankOffline⟩,
    ⟨0x25, [.plant], 2, .bankLock⟩,
    ⟨0x26, [.plant], 3, .bankUnlock⟩,
    ⟨0x27, [.plant], 6, .bankReport⟩,
    ⟨0x28, [.plant], 2, .refillRequest⟩,
    ⟨0x29, [.plant], 3, .refillWithdraw⟩,
    ⟨0x2A, [.plant], 4, .compressorConfig⟩,
    ⟨0x2B, [.plant], 2, .compressorReady⟩,
    ⟨0x2C, [.plant], 2, .compressorUnavailable⟩,
    ⟨0x2D, [.plant], 2, .refillDone⟩,
    ⟨0x2E, [.plant], 6, .laneConfig⟩,
    ⟨0x2F, [.plant], 4, .laneReport⟩,
    ⟨0x30, [.plant], 2, .laneFaultClear⟩,
    ⟨0x31, [.plant], 3, .coolingReport⟩,
    ⟨0x32, [.plant], 3, .ambientReport⟩,
    ⟨0x33, [.plant], 3, .positionConfig⟩,
    ⟨0x34, [.plant], 26, .rampTable⟩,
    ⟨0x35, [.plant], 8, .calWrite⟩,
    ⟨0x36, [.plant], 2, .esdClear⟩ ]

/-- The kinds only the till may send (R187). -/
def tillKinds : List KindRow :=
  [ ⟨0x40, [.till], 12, .authorize⟩,
    ⟨0x41, [.till], 6, .cancel⟩,
    ⟨0x42, [.till], 17, .tariffSet⟩,
    ⟨0x43, [.till], 2, .tariffRead⟩,
    ⟨0x44, [.till], 7, .setClock⟩,
    ⟨0x45, [.till], 5, .txnRead⟩,
    ⟨0x46, [.till], 5, .txnRelease⟩,
    ⟨0x47, [.till], 2, .totalsRead⟩,
    ⟨0x48, [.till], 2, .totalsSnapshot⟩,
    ⟨0x49, [.till], 2, .snapshotRead⟩,
    ⟨0x4A, [.till], 2, .positionQuery⟩ ]

/-- The kinds every port may send (R187). -/
def allPortKinds : List KindRow :=
  [ ⟨0x50, [.island, .plant, .till], 3, .supervisionSet⟩,
    ⟨0x51, [.island, .plant, .till], 4, .noticeSet⟩,
    ⟨0x52, [.island, .plant, .till], 2, .statusQuery⟩,
    ⟨0x53, [.island, .plant, .till], 2, .countersRead⟩,
    ⟨0x54, [.island, .plant, .till], 2, .countersClear⟩ ]

/-- The whole catalogue of request kinds (10 section 10.6). -/
def kindRows : List KindRow := islandKinds ++ plantKinds ++ tillKinds ++ allPortKinds

/-- The catalogue row of a kind code, none for a code in no role's catalogue (R171). -/
def kindRow (code : Nat) : Option KindRow := kindRows.find? (fun r => r.code == code)

/-- The request that a body taken from a port spells: its kind code decides, UNKNOWN_KIND for a code in no
catalogue (R171, R186). A body has at least 2 bytes (R169); an empty one spells kind code 0. -/
def requestOf (port : PortId) (body : List Byte) : Instr :=
  match body with
  | [] => .unknownKind port 0 []
  | kind :: args =>
    match kindRow kind.toNat with
    | some row => row.build port args
    | none => .unknownKind port kind args

/-- The port and body a request command stands for (R187), none for a command that is no request. -/
def requestBody : Instr → Option (PortId × List Byte)
  | .positionOpen port args => some (port, 0x10#8 :: args)
  | .positionClose port args => some (port, 0x11#8 :: args)
  | .nozzle port args => some (port, 0x12#8 :: args)
  | .start port args => some (port, 0x13#8 :: args)
  | .stop port args => some (port, 0x14#8 :: args)
  | .positionReport port args => some (port, 0x15#8 :: args)
  | .vehicleData port args => some (port, 0x16#8 :: args)
  | .laneEnable port args => some (port, 0x17#8 :: args)
  | .stationConfig port args => some (port, 0x20#8 :: args)
  | .bankConfig port args => some (port, 0x21#8 :: args)
  | .tierWindow port args => some (port, 0x22#8 :: args)
  | .bankOnline port args => some (port, 0x23#8 :: args)
  | .bankOffline port args => some (port, 0x24#8 :: args)
  | .bankLock port args => some (port, 0x25#8 :: args)
  | .bankUnlock port args => some (port, 0x26#8 :: args)
  | .bankReport port args => some (port, 0x27#8 :: args)
  | .refillRequest port args => some (port, 0x28#8 :: args)
  | .refillWithdraw port args => some (port, 0x29#8 :: args)
  | .compressorConfig port args => some (port, 0x2A#8 :: args)
  | .compressorReady port args => some (port, 0x2B#8 :: args)
  | .compressorUnavailable port args => some (port, 0x2C#8 :: args)
  | .refillDone port args => some (port, 0x2D#8 :: args)
  | .laneConfig port args => some (port, 0x2E#8 :: args)
  | .laneReport port args => some (port, 0x2F#8 :: args)
  | .laneFaultClear port args => some (port, 0x30#8 :: args)
  | .coolingReport port args => some (port, 0x31#8 :: args)
  | .ambientReport port args => some (port, 0x32#8 :: args)
  | .positionConfig port args => some (port, 0x33#8 :: args)
  | .rampTable port args => some (port, 0x34#8 :: args)
  | .calWrite port args => some (port, 0x35#8 :: args)
  | .esdClear port args => some (port, 0x36#8 :: args)
  | .authorize port args => some (port, 0x40#8 :: args)
  | .cancel port args => some (port, 0x41#8 :: args)
  | .tariffSet port args => some (port, 0x42#8 :: args)
  | .tariffRead port args => some (port, 0x43#8 :: args)
  | .setClock port args => some (port, 0x44#8 :: args)
  | .txnRead port args => some (port, 0x45#8 :: args)
  | .txnRelease port args => some (port, 0x46#8 :: args)
  | .totalsRead port args => some (port, 0x47#8 :: args)
  | .totalsSnapshot port args => some (port, 0x48#8 :: args)
  | .snapshotRead port args => some (port, 0x49#8 :: args)
  | .positionQuery port args => some (port, 0x4A#8 :: args)
  | .supervisionSet port args => some (port, 0x50#8 :: args)
  | .noticeSet port args => some (port, 0x51#8 :: args)
  | .statusQuery port args => some (port, 0x52#8 :: args)
  | .countersRead port args => some (port, 0x53#8 :: args)
  | .countersClear port args => some (port, 0x54#8 :: args)
  | .unknownKind port kind args => some (port, kind :: args)
  | .goodFrame _ _ => none
  | .badCheckFrame _ => none
  | .badLengthFragment _ _ => none
  | .frameGap _ => none
  | .frameSent _ => none
  | .authorizationLifeExpiry _ => none
  | .pulseExpiry _ => none
  | .leakCheckExpiry _ => none
  | .holdLimitExpiry _ => none
  | .settleExpiry _ => none
  | .periodExpiry _ => none
  | .sensorStaleWatchExpiry _ => none
  | .bankStaleWatchExpiry _ => none
  | .pullDownTimerExpiry _ => none
  | .laneStaleWatchExpiry _ => none
  | .warmTimerExpiry _ => none
  | .settleGateTimerExpiry _ => none
  | .oneSecondTimerExpiry => none
  | .intervalTimerExpiry _ => none
  | .writeGroupCompletion _ => none
  | .pulseEdge _ => none
  | .esdNFallingEdge => none
  | .esdNRisingEdge => none
  | .calEnChange _ => none
  | .powerApplied => none
  | .powerLoss => none
  | .resetNAsserted => none
  | .resetNReleased => none
  | .startUpSequence => none
  | .startUpServe => none
  | .syncByte _ => none
  | .brStrapsChange _ _ => none

/-- One byte into the check: most significant bit first, generator 0x1021, no reflection (R185). -/
def crcByte (crc : BitVec 16) (b : Byte) : BitVec 16 :=
  (List.range 8).foldl
    (fun c _ => if c.msb then (c <<< 1) ^^^ 0x1021#16 else c <<< 1)
    (crc ^^^ (b.setWidth 16 <<< 8))

/-- CRC-16 with the register starting at 0xFFFF and no final inversion (R185). -/
def crc16 (bytes : List Byte) : BitVec 16 := bytes.foldl crcByte 0xFFFF#16

/-- The check of a frame covers its length byte and its body (R185). -/
def frameCheck (body : List Byte) : BitVec 16 := crc16 (BitVec.ofNat 8 body.length :: body)

/-- The whole frame of a body: sync 0xC5, length, body, check low byte first (R185). -/
def frameBytes (body : List Byte) : List Byte :=
  let check := frameCheck body
  [0xC5#8, BitVec.ofNat 8 body.length] ++ body ++ [check.setWidth 8, (check >>> 8).setWidth 8]

/-- The receiver's comparison of the check received with its own (R185). -/
def checkMatches (body : List Byte) (low high : Byte) : Bool :=
  frameCheck body == (high.setWidth 16 <<< 8) ||| low.setWidth 16

/-- spec/opcode_table.json gives no row any bits: no word spells a command. -/
def decodeTableWord (_nbits _w : Nat) : Option Instr := none

end Sys2Proof
end

