-- ==== Sys2Proof/Config.lean ====
section
/-! DEFINITION. The free values: what the spec leaves open while the part goes on. Neither constant has a
body, so nothing can be proved about its value. -/

namespace Sys2Proof

/-- Where the spec gives several events or blocks no order (00_scope.md 5.5, R159, R166), the n-th choice
made is `freeChoice n`, read modulo the number of alternatives. DESIGN CHOICE, safe (notes/assumptions/3.md). -/
opaque Config.freeChoice : Nat → Nat

/-- What the preset-value field of a TXN_READ reply holds for a record of preset kind NONE: R12 and the
AUTHORIZE layout leave the value unread and no rule states it. DESIGN CHOICE, safe (notes/assumptions/10.md). -/
opaque Config.presetValueOfNone : Nat

end Sys2Proof
end

