-- ==== Sys2Proof/Machine/State.lean ====
section
/-! DEFINITION. Everything the spec gives the part to hold, as plain data, block by block in the order of
the chapters, and the part right after reset. A timer is the number of milliseconds it has left, absent
while stopped. Each datum has one home: the grant and demand of a position or a compressor stand in the
grant table alone, a reservation stands with its authorization (notes/assumptions/21.md). -/

namespace Sys2Proof.Machine

/-! ### Fill sessions (chapter 01) -/

/-- Hose types (R1, section 1.2). -/
inductive HoseType
  | h35 | h70
  deriving DecidableEq, Repr

/-- The hose of an open position (section 1.2). -/
structure Hose where
  kind : HoseType
  highFlow : Bool
  deriving DecidableEq, Repr

/-- Nozzle (section 1.2). -/
inductive Nozzle
  | on | off
  deriving DecidableEq, Repr

/-- The states of a position, in the order of section 1.2. -/
inductive PosState
  | unavailable | idle | waitNozzle | waitAuth | ready | pulse | leakCheck | ramp | hold | ending | finished
  deriving DecidableEq, Repr

/-- Communication or non-communication fill (R49). -/
inductive FillMode
  | comm | noncomm
  deriving DecidableEq, Repr

/-- The preset of an authorization (R12); under NONE no value is held. -/
inductive Preset
  | none
  | mass (grams : Nat)
  | amount (money : Nat)
  deriving DecidableEq, Repr

/-- An authorization and the reservation it holds until START (section 1.2, R147). -/
structure Authorization where
  tag : Tag
  classes : ClassSet
  preset : Preset
  reservation : Bool
  deriving DecidableEq, Repr

/-- Close pending (section 1.2). -/
inductive ClosePending
  | close | linkLost
  deriving DecidableEq, Repr

/-- A reported pressure with the station clock at its arrival. -/
structure PressureSample where
  value : Nat
  arrived : Clock
  deriving DecidableEq, Repr

/-- A reported temperature in 0.1 °C with the station clock at its arrival. -/
structure TempSample where
  value : Int
  arrived : Clock
  deriving DecidableEq, Repr

/-- The pulse state of a position in PULSE (R19). -/
inductive PulseState
  | waiting | pulsing
  deriving DecidableEq, Repr

/-- Hold reasons (section 1.2). -/
inductive HoldReason
  | bank | cooling | laneWarm | vehicle
  deriving DecidableEq, Repr

/-- End reasons in the order of R26, with POWER_INTERRUPTED after them (R186). -/
inductive EndReason
  | vehiclePressure | leak | targetReached | socReached | vehicleAbort | vehicleTemp | presetReached
  | massSaturated | meterFault | holdTimeout | customerStop | tillStop | nozzleOff | sensorStale
  | overpressure | laneLost | linkLost | plantLost | esd | powerInterrupted
  deriving DecidableEq, Repr

/-- Why an authorization ended before START (R30). -/
inductive AuthEnd
  | expired | cancelled | closed | linkLost | esd
  deriving DecidableEq, Repr

/-! ### Ramp control and vehicle data (chapter 02) -/

/-- One entry of the ramp table (section 2.1). -/
structure RampEntry where
  aprr : Nat
  pnc : Nat
  deriving DecidableEq, Repr

/-- Vehicle commands (section 2.1). -/
inductive VehicleCommand
  | run | halt | abort
  deriving DecidableEq, Repr

/-- A valid vehicle report as held, clamped (section 2.1). -/
structure VehicleReport where
  volume : Nat
  pressure : Nat
  temperature : Int
  command : VehicleCommand
  sensorRange : Bool
  deriving DecidableEq, Repr

/-- The last valid report with its arrival time (section 2.1). -/
structure ValidReport where
  report : VehicleReport
  arrived : Clock
  deriving DecidableEq, Repr

/-- The ramp generator of one position (section 2.1). -/
structure RampGenerator where
  startEntry : Option RampEntry
  band : Option BandId
  inUse : Option RampEntry
  pSet : Option Nat
  pTarget : Option Nat
  buffer : List VehicleReport
  lastValid : Option ValidReport
  lastTaken : Option VehicleReport
  drops : Nat
  holds : Nat
  consecutiveHolds : Nat
  lowFlow : Nat
  previousMass : Nat
  degraded : Bool
  deriving DecidableEq, Repr

/-- R32: the ramp generator at power-on, at RESET_N and at each entry to UNAVAILABLE. -/
def RampGenerator.initial : RampGenerator where
  startEntry := none
  band := none
  inUse := none
  pSet := none
  pTarget := none
  buffer := []
  lastValid := none
  lastTaken := none
  drops := 0
  holds := 0
  consecutiveHolds := 0
  lowFlow := 0
  previousMass := 0
  degraded := false

/-- The position record of section 1.2 with its timers and its ramp generator. -/
structure Position where
  state : PosState
  hose : Option Hose
  lane : Option LaneId
  nozzle : Nozzle
  authorization : Option Authorization
  closePending : Option ClosePending
  cls : Option ClassId
  mode : Option FillMode
  transaction : Option Nat
  startTime : Option Clock
  pressure : Option PressureSample
  sensorRange : Bool
  initialPressure : Option Nat
  bank : Option BankId
  pulseState : Option PulseState
  holdReason : Option HoldReason
  endReason : Option EndReason
  periodTimer : Option Nat
  phaseTimer : Option Nat
  staleWatch : Option Nat
  ramp : RampGenerator
  deriving DecidableEq, Repr

/-- R2: the position record at power-on and at RESET_N. -/
def Position.initial : Position where
  state := .unavailable
  hose := none
  lane := none
  nozzle := .off
  authorization := none
  closePending := none
  cls := none
  mode := none
  transaction := none
  startTime := none
  pressure := none
  sensorRange := false
  initialPressure := none
  bank := none
  pulseState := none
  holdReason := none
  endReason := none
  periodTimer := none
  phaseTimer := none
  staleWatch := none
  ramp := .initial

/-- The station ambient (R8). -/
structure Ambient where
  sample : Option TempSample
  sensorRange : Bool
  deriving DecidableEq, Repr

/-! ### Storage banks (chapter 03) -/

/-- Pressure tiers (section 3.1). -/
inductive Tier
  | low | mid | high
  deriving DecidableEq, Repr

/-- What an accepted BANK_CONFIG sets; its presence is the configured flag (section 3.1). -/
structure BankConfig where
  tier : Tier
  maxPressure : Nat
  threshold : Nat
  target : Nat
  deriving DecidableEq, Repr

/-- Bank states (section 3.1). -/
inductive BankState
  | offline | idle | drawing | refilling | locked
  deriving DecidableEq, Repr

/-- A holder of a bank: a position that draws or a compressor that fills (R59). -/
inductive Holder
  | pos (p : PosId)
  | comp (c : CompId)
  deriving DecidableEq, Repr

/-- A held bank report (section 3.1). -/
structure BankReport where
  pressure : Nat
  temperature : Int
  arrived : Clock
  deriving DecidableEq, Repr

/-- The lock causes of a bank (section 3.1). -/
structure LockCauses where
  overpressure : Bool
  overtemp : Bool
  stale : Bool
  plantLock : Bool
  deriving DecidableEq, Repr

/-- One record of the bank table (section 3.1). -/
structure Bank where
  config : Option BankConfig
  state : BankState
  holder : Option Holder
  report : Option BankReport
  sensorRange : Bool
  staleWatch : Option Nat
  causes : LockCauses
  massAtGrant : Nat
  drawnMass : Nat
  deriving DecidableEq, Repr

/-- R55: a bank at power-on and at RESET_N. -/
def Bank.initial : Bank where
  config := none
  state := .offline
  holder := none
  report := none
  sensorRange := false
  staleWatch := none
  causes := ⟨false, false, false, false⟩
  massAtGrant := 0
  drawnMass := 0

/-- A tier window (section 3.1). -/
structure TierWindow where
  base : Nat
  limit : Nat
  deriving DecidableEq, Repr

/-- The two kinds of draw request (R68). -/
inductive DrawKind
  | pulse | ramp
  deriving DecidableEq, Repr

/-- An entry of the draw wait list (R70). -/
structure DrawWait where
  pos : PosId
  kind : DrawKind
  joined : Clock
  excluded : Option BankId
  deriving DecidableEq, Repr

/-! ### Compressor refill (chapter 04) -/

/-- Origins of a refill queue entry (section 4.1). -/
inductive QueueOrigin
  | lowPressure | plantRequest
  deriving DecidableEq, Repr

/-- An entry of the refill queue (section 4.1). -/
structure QueueEntry where
  bank : BankId
  tier : Tier
  time : Clock
  origin : QueueOrigin
  deriving DecidableEq, Repr

/-- Compressor states (section 4.3). -/
inductive CompState
  | unavailable | ready | coolingWait | running
  deriving DecidableEq, Repr

/-- A compressor record (section 4.3); its demand and grant stand in the grant table. -/
structure Compressor where
  configured : Bool
  state : CompState
  bank : Option BankId
  entryHeld : Option QueueEntry
  refillStart : Option Clock
  requestTime : Option Clock
  deriving DecidableEq, Repr

/-- R79: a compressor at power-on and at RESET_N. -/
def Compressor.initial : Compressor where
  configured := false
  state := .unavailable
  bank := none
  entryHeld := none
  refillStart := none
  requestTime := none

/-- REFILL_STOP causes (section 4.5). -/
inductive StopCause
  | done | target | shed | withdrawn | unavailable | esd | plantLost | bankLost
  deriving DecidableEq, Repr

/-- COMPRESSOR_STATE causes (R91). -/
inductive CompCause
  | readyReceived | unavailableReceived | coolingWait | started | queueShort
  | done | target | shed | withdrawn | unavailable | esd | plantLost | bankLost
  deriving DecidableEq, Repr

/-! ### Precooling lanes (chapter 05) -/

/-- Lane states (section 5.1). -/
inductive LaneState
  | off | pulldown | ready | fault
  deriving DecidableEq, Repr

/-- What an accepted LANE_CONFIG sets beside the class map; its presence is the configured flag. -/
structure LaneConfig where
  owner : Fin 4
  coefficient : Nat
  deriving DecidableEq, Repr

/-- One record of the lane table (section 5.1). -/
structure Lane where
  config : Option LaneConfig
  classMap : ClassSet
  plantEnable : Bool
  islandEnable : Bool
  state : LaneState
  supply : Option TempSample
  sensorRange : Bool
  pulldownTimer : Option Nat
  staleWatch : Option Nat
  warmTimer : Option Nat
  warmHold : ClassSet
  faultPulldown : Bool
  faultStale : Bool
  deriving DecidableEq, Repr

/-- R92: a lane at power-on and at RESET_N. -/
def Lane.initial : Lane where
  config := none
  classMap := 1#6
  plantEnable := false
  islandEnable := false
  state := .off
  supply := none
  sensorRange := false
  pulldownTimer := none
  staleWatch := none
  warmTimer := none
  warmHold := 0#6
  faultPulldown := false
  faultStale := false

/-- LANE_STATE causes (R106). -/
inductive LaneCause
  | enabled | withdrawn | ready | pulldownTimeout | stale | cleared | warmHold | warmLift | configured
  deriving DecidableEq, Repr

/-! ### Cooling budget (chapter 06) -/

/-- A requester of cooling (section 6.4). -/
inductive Requester
  | pos (p : PosId)
  | comp (c : CompId)
  deriving DecidableEq, Repr

/-- One entry of the grant table (section 6.3). -/
structure GrantEntry where
  demand : Nat
  floor : Nat
  grant : Nat
  time : Option Clock
  deriving DecidableEq, Repr

/-- R108: a grant table entry at power-on and at RESET_N. -/
def GrantEntry.initial : GrantEntry := ⟨0, 0, 0, none⟩

/-- An entry of the cooling wait list (section 6.4); its kind is its requester's. -/
structure CoolWait where
  who : Requester
  joined : Clock
  deriving DecidableEq, Repr

/-- The cooling budget arbiter (sections 6.1 to 6.4). `order` is the grant order of R110, oldest first. -/
structure Cooling where
  capacity : Nat
  sensorRange : Bool
  fills : Vector GrantEntry 8
  comps : Vector GrantEntry 2
  order : List Requester
  wait : List CoolWait
  deriving DecidableEq, Repr

/-- R108: the arbiter at power-on and at RESET_N. -/
def Cooling.initial : Cooling where
  capacity := 0
  sensorRange := false
  fills := Vector.replicate 8 .initial
  comps := Vector.replicate 2 .initial
  order := []
  wait := []

/-- COOLING_STATE causes (R122). -/
inductive CoolingCause
  | report | shed | release | request | served | departed | esd | plantLost
  deriving DecidableEq, Repr

/-! ### Metering (chapter 07) -/

/-- A meter channel record (section 7.1). Accumulators count 1/65 536 mg. -/
structure Channel where
  count : Nat
  creepCount : Nat
  overflow : Bool
  lastPulse : Option Clock
  acc : Nat
  creepAcc : Nat
  mass : Nat
  saturated : Bool
  creep : Bool
  gateOpen : Bool
  settleGate : Option Nat
  flowSince : Option Clock
  deriving DecidableEq, Repr

/-- R123: a channel at power-on and at RESET_N. -/
def Channel.initial : Channel where
  count := 0
  creepCount := 0
  overflow := false
  lastPulse := none
  acc := 0
  creepAcc := 0
  mass := 0
  saturated := false
  creep := false
  gateOpen := false
  settleGate := none
  flowSince := none

/-- The calibration of one channel: pulse weight w and meter factor F (section 7.1). -/
structure ChannelCal where
  weight : Nat
  factor : Nat
  deriving DecidableEq, Repr

/-- The calibration record of the store (section 7.1). -/
structure Calibration where
  channels : Vector ChannelCal 8
  counter : Nat
  deriving DecidableEq, Repr

/-! ### Tariffs, transactions and totals (chapter 08) -/

/-- The time of day (R139). -/
structure TimeOfDay where
  day : Nat
  second : Nat
  set : Bool
  deriving DecidableEq, Repr

/-- A station clock value with the time of day beside it (section 8.5). -/
structure Stamp where
  clock : Clock
  tod : TimeOfDay
  deriving DecidableEq, Repr

/-- A tariff entry (R141). -/
structure Tariff where
  valid : Bool
  classes : ClassSet
  allDay : Bool
  windowStart : Nat
  windowEnd : Nat
  price : Nat
  deriving DecidableEq, Repr

/-- An invalid tariff entry, its other fields 0 (R141). -/
def Tariff.invalid : Tariff := ⟨false, 0#6, false, 0, 0, 0⟩

/-- Segment end causes (R151). -/
inductive SegmentEnd
  | switchPressure | switchFlow | hold | bankWithdrawn | ended
  deriving DecidableEq, Repr

/-- Where a segment drew from: one bank with its tier, or MIXED after a merge (R151, R152). -/
inductive SegmentSource
  | bank (b : BankId) (tier : Tier)
  | mixed
  deriving DecidableEq, Repr

/-- A segment entry (R151). -/
structure Segment where
  source : SegmentSource
  massStart : Nat
  pressureStart : Option Nat
  massEnd : Option Nat
  pressureEnd : Option Nat
  cause : Option SegmentEnd
  deriving DecidableEq, Repr

/-- The flags of a record (section 8.5). -/
structure RecordFlags where
  derated : Bool
  degraded : Bool
  creep : Bool
  saturated : Bool
  overrun : Bool
  interrupted : Bool
  segmentsMerged : Bool
  deriving DecidableEq, Repr

/-- The state of a record (section 8.5). -/
inductive TxnState
  | opened | closed
  deriving DecidableEq, Repr

/-- A transaction record (section 8.5). -/
structure TxnRecord where
  number : Nat
  state : TxnState
  pos : PosId
  cls : ClassId
  tag : Tag
  mode : FillMode
  price : Nat
  startTime : Stamp
  endTime : Option Stamp
  initialPressure : Option Nat
  finalPSet : Option Nat
  mass : Nat
  amount : Nat
  billed : Nat
  preset : Preset
  presetMass : Option Nat
  overrunMass : Nat
  endReason : Option EndReason
  flags : RecordFlags
  checkpointMass : Nat
  tankVolume : Option Nat
  tankTemp : Option Int
  segments : List Segment
  deriving DecidableEq, Repr

/-- A slot of the transaction store (section 8.4). -/
inductive Slot
  | free
  | txn (r : TxnRecord)
  deriving DecidableEq, Repr

/-- The totals record (R154). -/
structure Totals where
  posMass : Vector Nat 8
  classMass : Vector Nat 6
  classBilled : Vector Nat 6
  grandMass : Nat
  grandBilled : Nat
  highestClosed : Nat
  deriving DecidableEq, Repr

/-- Totals of zero (R154). -/
def Totals.zero : Totals :=
  ⟨Vector.replicate 8 0, Vector.replicate 6 0, Vector.replicate 6 0, 0, 0, 0⟩

/-- The snapshot record: the totals with the highest closed number, and the time (R157). -/
structure Snapshot where
  totals : Totals
  time : Stamp
  deriving DecidableEq, Repr

/-! ### The metrology store (chapter 11) -/

/-- The recorded cause of a start-up (R182). -/
inductive ResetCause
  | powerOn | resetLine
  deriving DecidableEq, Repr

/-- One copy of every record of the store: the stored contents, or the working copies (section 11.1). -/
structure StoreData where
  calibration : Calibration
  tariffs : Vector Tariff 8
  slots : Vector Slot 64
  nextNumber : Nat
  totals : Totals
  snapshot : Snapshot
  resetCause : ResetCause
  deriving DecidableEq, Repr

/-- R179: the store at manufacture. -/
def StoreData.manufactured : StoreData where
  calibration := ⟨Vector.replicate 8 ⟨500, 65536⟩, 0⟩
  tariffs := Vector.replicate 8 .invalid
  slots := Vector.replicate 64 .free
  nextNumber := 1
  totals := .zero
  snapshot := ⟨.zero, ⟨0#32, ⟨0, 0, false⟩⟩⟩
  resetCause := .powerOn

/-- A record with the content a block gives it (R180). -/
inductive RecWrite
  | calibration (c : Calibration)
  | tariff (entry : EntryId) (t : Tariff)
  | slot (i : SlotId) (x : Slot)
  | nextNumber (n : Nat)
  | totals (t : Totals)
  | snapshot (x : Snapshot)
  | resetCause (c : ResetCause)
  deriving DecidableEq, Repr

/-- A write group in flight: the pending contents and the milliseconds left of its 8 (R180). -/
structure WriteGroup where
  writes : List RecWrite
  left : Nat
  deriving DecidableEq, Repr

/-! ### Shutdown and link supervision (chapter 09) -/

/-- Causes of a change of the ESD latch (R158). -/
inductive EsdCause
  | startLow | edge | cleared
  deriving DecidableEq, Repr

/-- The last recorded change of the latch (R158, R161). -/
structure EsdChange where
  cause : EsdCause
  time : Stamp
  deriving DecidableEq, Repr

/-- The ESD latch (R158). -/
structure EsdLatch where
  latched : Bool
  change : Option EsdChange
  deriving DecidableEq, Repr

/-- The state of a port (R163). -/
inductive LinkState
  | silent | alive | late | lost
  deriving DecidableEq, Repr

/-- A supervision record (R163). -/
structure Supervision where
  interval : Nat
  count : Nat
  state : LinkState
  timer : Option Nat
  deriving DecidableEq, Repr

/-! ### Station links (chapter 10) -/

/-- Receiver states (R169). -/
inductive RxState
  | hunting | inFrame
  deriving DecidableEq, Repr

/-- Refusal codes, in the order of the table of R171. -/
inductive RefusalCode
  | badState | busy | range | unknownKind | role | unknownSubject | notConfigured | storeFull | noClass
  | esdActive | ambientLimit | calLocked | calExhausted
  deriving DecidableEq, Repr

/-- A field of a frame body, by its type in R186; `none` is the absent mark of its type. -/
inductive Field
  /-- one byte: a number, an enumerated value, a count; absent 0xFF -/
  | byte (v : Option Nat)
  /-- one byte: a class set, a lock cause set or a flag set -/
  | bits (v : Byte)
  /-- one byte: a flag -/
  | flag (v : Bool)
  /-- two bytes, unsigned; absent 0xFFFF -/
  | half (v : Option Nat)
  /-- two bytes, a temperature; absent 0x8000 -/
  | temp (v : Option Int)
  /-- four bytes, unsigned; absent 0xFFFF_FFFF -/
  | word (v : Option Nat)
  /-- four bytes: an auth tag, a station clock or a counter -/
  | raw (v : BitVec 32)
  /-- eight bytes: a total -/
  | total (v : Nat)
  /-- seven bytes: a time of day; absent by set flag 0xFF -/
  | tod (v : Option TimeOfDay)
  deriving DecidableEq, Repr

/-- A reply in the queue (R171): the kind it answers, ACCEPTED with its data or REFUSED with a code and the
subject bytes, and the record whose write it is held on (R181). -/
structure Reply where
  kind : Byte
  refusal : Option RefusalCode
  data : List Field
  heldOn : Option RecId
  deriving DecidableEq, Repr

/-- The valve picture of a position (R9). -/
inductive Picture
  | closed
  | pulse (b : BankId)
  | flow (b : BankId) (setPoint : Nat)
  deriving DecidableEq, Repr

/-- The directives of the part (R173). -/
inductive Directive
  | valve (p : PosId) (picture : Picture) (lane : Option LaneId)
  | refillOrder (c : CompId) (b : BankId) (target : Nat)
  | refillStop (c : CompId) (b : BankId) (cause : StopCause)
  deriving DecidableEq, Repr

/-- Notice kinds in the order of the table of R174. -/
inductive NoticeKind
  | esd | overpressure | txnRecovered | portLost | authEnded | portLate | portAlive | fillState
  | vehicleDegraded | laneState | bankState | compressorState | coolingState
  deriving DecidableEq, Repr

/-- A pending notice, keyed by kind and subject (R174). The subject is the number of R186, 255 for the station. -/
structure Notice where
  kind : NoticeKind
  subject : Nat
  data : List Field
  coalesced : Nat
  joined : Clock
  deriving DecidableEq, Repr

/-- The link counters of a port (R177). -/
structure LinkCounters where
  good : Counter
  badCheck : Counter
  fragment : Counter
  overrun : Counter
  refused : Counter
  replies : Counter
  directives : Counter
  directivesSuperseded : Counter
  notices : Counter
  noticesCoalesced : Counter
  noticesMasked : Counter
  deriving DecidableEq, Repr

/-- Every counter 0 (R168, R177). -/
def LinkCounters.zero : LinkCounters := ⟨0, 0, 0, 0, 0, 0, 0, 0, 0, 0, 0⟩

/-- The frame on an output line (R172). -/
inductive TxFrame
  | reply (r : Reply)
  | directive (d : Directive)
  | notice (n : Notice)
  deriving DecidableEq, Repr

/-- A port: receiver, buffers, transmitter, notice settings, counters, supervision record. -/
structure Port where
  rx : RxState
  rxBuffer : List (List Byte)
  replies : List Reply
  directives : List Directive
  pending : List Notice
  mask : Nat
  promoted : List NoticeKind
  counters : LinkCounters
  supervision : Supervision
  line : Option TxFrame
  deriving DecidableEq, Repr

/-- R163, R168: a port at power-on and at RESET_N. -/
def Port.initial : Port where
  rx := .hunting
  rxBuffer := []
  replies := []
  directives := []
  pending := []
  mask := 6
  promoted := []
  counters := .zero
  supervision := ⟨1000, 0, .silent, none⟩
  line := none

/-! ### The whole part -/

/-- Where the part stands between power and service (R182, R183): without power; held by RESET_N; waiting
for the store at stage 1; waiting for the store at stage 8; serving. -/
inductive Phase
  | off | held | settling | recovering | serving
  deriving DecidableEq, Repr

/-- Levels of the hard-wired lines (00_scope.md 3.3); `true` is high. -/
structure Pins where
  esdN : Bool
  resetN : Bool
  calEn : Bool
  br1 : Bool
  br0 : Bool
  deriving DecidableEq, Repr

/-- The rates the BR straps select (R168, section 11.5). -/
inductive BaudRate
  | r57600 | r115200 | r230400 | r460800
  deriving DecidableEq, Repr

/-- The MODEL's scratch within one event, empty between events: whether the budget changed and for which
cause (R122), which compressors entered COOLING_WAIT (R91), whether the event is the loss of the plant port (R77),
and whether it is a clear of the ESD latch with a falling edge of ESD_N beside it (R160).
notes/assumptions/11.md, 12.md, 28.md and 31.md. -/
structure Scratch where
  coolingChanged : Bool
  coolingCause : Option CoolingCause
  waitNotices : List CompId
  plantLost : Bool
  edgeNext : Bool
  deriving DecidableEq, Repr

/-- No budget change, no compressor notice outstanding, no loss of the plant port under way, no edge beside a
clear. -/
def Scratch.empty : Scratch := ⟨false, none, [], false, false⟩

/-- Everything the part holds, the queue of commands that wait for it, and the model's own `freeCtr` (how
many free values have been read) and `evt`. -/
structure State where
  pending : List Instr
  phase : Phase
  powerFresh : Bool
  pins : Pins
  rate : BaudRate
  clock : Clock
  tod : TimeOfDay
  oneSecond : Option Nat
  positions : Vector Position 8
  ambient : Ambient
  rampTable : Vector (Vector (Option RampEntry) 6) 6
  switchMass : Nat
  creepLimit : Nat
  margin : Nat
  channels : Vector Channel 8
  banks : Vector Bank 12
  windows : Vector (Option TierWindow) 3
  drawList : List DrawWait
  queue : List QueueEntry
  comps : Vector Compressor 2
  lanes : Vector Lane 4
  cooling : Cooling
  work : StoreData
  store : StoreData
  groups : List WriteGroup
  esd : EsdLatch
  tripped : Vector Bool 8
  ports : Vector Port 6
  freeCtr : Nat
  evt : Scratch
  deriving DecidableEq, Repr

/-- The one way the model stops. -/
inductive Fault
  /-- An accepted START finds no FREE slot for its reservation, which R147 says cannot be. Raised by START
  alone, in states no run reaches. Safe: the model stops where the spec gives no effect
  (notes/assumptions/17.md). -/
  | noFreeSlot
  deriving DecidableEq, Repr

/-- The model's refusals. -/
inductive Refusal
  /-- A command that has no meaning yet; raised by a refused arm of `exec`, of which there is none. Safe. -/
  | notModelled (mnemonic : String)
  deriving DecidableEq, Repr

/-- The part right after its first start-up: manufactured store, every volatile item at its reset value,
ESD_N and RESET_N high, CAL_EN and the straps low, every port SILENT. DESIGN CHOICE for the lines and the
phase (notes/assumptions/1.md). -/
def State.reset : State where
  pending := []
  phase := .serving
  powerFresh := false
  pins := ⟨true, true, false, false, false⟩
  rate := .r57600
  clock := 0#32
  tod := ⟨0, 0, false⟩
  oneSecond := none
  positions := Vector.replicate 8 .initial
  ambient := ⟨none, false⟩
  rampTable := Vector.replicate 6 (Vector.replicate 6 none)
  switchMass := 3
  creepLimit := 20
  margin := 200
  channels := Vector.replicate 8 .initial
  banks := Vector.replicate 12 .initial
  windows := Vector.replicate 3 none
  drawList := []
  queue := []
  comps := Vector.replicate 2 .initial
  lanes := Vector.replicate 4 .initial
  cooling := .initial
  work := .manufactured
  store := .manufactured
  groups := []
  esd := ⟨false, none⟩
  tripped := Vector.replicate 8 false
  ports := Vector.replicate 6 .initial
  freeCtr := 0
  evt := .empty

end Sys2Proof.Machine
end

