-- ==== Sys2Proof/Machine/Flags.lean ====
section
/-! DEFINITION. Clamps with their SENSOR_RANGE flags (00_scope.md 5.1), the roundings of 00_scope.md 5.2,
saturating counts (5.3), ages of clock values (R139) and timers. -/

namespace Sys2Proof.Machine

/-- A delivered pressure, clamped to 12 000, and whether it was clamped (R7, R47, R62). -/
def clampPressure (v : Nat) : Nat × Bool := (min v 12000, decide (12000 < v))

/-- A delivered temperature, clamped to −600 to +1200, and whether it was clamped (R8, R47, R62, R96). -/
def clampTemp (t : Int) : Int × Bool := (max (-600) (min t 1200), decide (t < -600 ∨ 1200 < t))

/-- A reported capacity, clamped to 5000, and whether it was clamped (R107). -/
def clampCapacity (v : Nat) : Nat × Bool := (min v 5000, decide (5000 < v))

/-- Round half to even of n / d (00_scope.md 5.2). -/
def rne (n d : Nat) : Nat :=
  let q := n / d
  let r := n % d
  if 2 * r < d then q else if d < 2 * r then q + 1 else if q % 2 = 0 then q else q + 1

/-- The least integer not below n / d (00_scope.md 5.2). -/
def ceilDiv (n d : Nat) : Nat := (n + (d - 1)) / d

/-- One more, saturating at 65 535 (drops, holds, calibration counter; R47, section 2.1, R138). -/
def satSucc (n : Nat) : Nat := if n < 65535 then n + 1 else 65535

/-- `k` more, saturating at 65 535 (drops, R50). -/
def satAdd (n k : Nat) : Nat := min (n + k) 65535

/-- The age of a clock value, modulo 2^32 (R139). -/
def age (now t : Clock) : Nat := (now - t).toNat

/-- One millisecond of a running timer; a timer at 0 is due and waits for its expiry to be taken. -/
def tickTimer (t : Option Nat) : Option Nat := t.map (fun n => n - 1)

/-- A timer is due when it runs and no time is left. -/
def due (t : Option Nat) : Bool := t == some 0

end Sys2Proof.Machine
end

