-- ==== Sys2Proof/Machine/Operands.lean ====
section
/-! DEFINITION. Operands: numbers read from body bytes, the codes of enumerated values (R186), the delivery
classes (R1), the ambient bands (R34), and the bytes of the fields and frames the part sends (R185 to R187). -/

namespace Sys2Proof.Machine

/-! ### Reading fields (R186: little-endian) -/

/-- An unsigned two-byte field. -/
def u16 (lo hi : Byte) : Nat := lo.toNat + 256 * hi.toNat

/-- A signed two-byte field, two's complement. -/
def i16 (lo hi : Byte) : Int := (hi ++ lo : BitVec 16).toInt

/-- A four-byte field. -/
def w32 (a b c d : Byte) : BitVec 32 := d ++ c ++ b ++ a

/-- An unsigned four-byte field. -/
def u32 (a b c d : Byte) : Nat := (w32 a b c d).toNat

/-- The number a byte names, when it is below `n`. -/
def idOf (n : Nat) (b : Byte) : Option (Fin n) :=
  if h : b.toNat < n then some ⟨b.toNat, h⟩ else none

/-- A flag byte: any value but 0 is set. -/
def flagOf (b : Byte) : Bool := b != 0

/-- A class set byte; none when bit 6 or bit 7 names a class above 5. -/
def classSetOf (b : Byte) : Option ClassSet :=
  if b.toNat < 64 then some (b.setWidth 6) else none

/-- Hose type code. -/
def hoseTypeOf (b : Byte) : Option HoseType :=
  if b = 0 then some .h35 else if b = 1 then some .h70 else none

/-- Nozzle code. -/
def nozzleOf (b : Byte) : Option Nozzle :=
  if b = 0 then some .on else if b = 1 then some .off else none

/-- ON or OFF of LANE_ENABLE, coded as the nozzle. -/
def onOffOf (b : Byte) : Option Bool :=
  if b = 0 then some true else if b = 1 then some false else none

/-- Tier code. -/
def tierOf (b : Byte) : Option Tier :=
  if b = 0 then some .low else if b = 1 then some .mid else if b = 2 then some .high else none

/-- Vehicle command code. -/
def commandOf (b : Byte) : Option VehicleCommand :=
  if b = 0 then some .run else if b = 1 then some .halt else if b = 2 then some .abort else none

/-- Lock cause set; none when any of bits 4 to 7 is set. -/
def causesOf (b : Byte) : Option LockCauses :=
  if b.toNat < 16 then some ⟨b.getLsbD 0, b.getLsbD 1, b.getLsbD 2, b.getLsbD 3⟩ else none

/-- Notice kinds by their place in the table of R174. -/
def noticeKinds : List NoticeKind :=
  [.esd, .overpressure, .txnRecovered, .portLost, .authEnded, .portLate, .portAlive, .fillState,
    .vehicleDegraded, .laneState, .bankState, .compressorState, .coolingState]

/-! ### Codes of enumerated values: the place in the list where the manual first enumerates them (R186) -/

def PosState.code : PosState → Nat
  | .unavailable => 0 | .idle => 1 | .waitNozzle => 2 | .waitAuth => 3 | .ready => 4 | .pulse => 5
  | .leakCheck => 6 | .ramp => 7 | .hold => 8 | .ending => 9 | .finished => 10

def HoseType.code : HoseType → Nat
  | .h35 => 0 | .h70 => 1

def Nozzle.code : Nozzle → Nat
  | .on => 0 | .off => 1

def FillMode.code : FillMode → Nat
  | .comm => 0 | .noncomm => 1

def HoldReason.code : HoldReason → Nat
  | .bank => 0 | .cooling => 1 | .laneWarm => 2 | .vehicle => 3

/-- End reasons follow the table of R26; POWER_INTERRUPTED is 19 (R186). -/
def EndReason.code : EndReason → Nat
  | .vehiclePressure => 0 | .leak => 1 | .targetReached => 2 | .socReached => 3 | .vehicleAbort => 4
  | .vehicleTemp => 5 | .presetReached => 6 | .massSaturated => 7 | .meterFault => 8 | .holdTimeout => 9
  | .customerStop => 10 | .tillStop => 11 | .nozzleOff => 12 | .sensorStale => 13 | .overpressure => 14
  | .laneLost => 15 | .linkLost => 16 | .plantLost => 17 | .esd => 18 | .powerInterrupted => 19

def AuthEnd.code : AuthEnd → Nat
  | .expired => 0 | .cancelled => 1 | .closed => 2 | .linkLost => 3 | .esd => 4

def Tier.code : Tier → Nat
  | .low => 0 | .mid => 1 | .high => 2

def BankState.code : BankState → Nat
  | .offline => 0 | .idle => 1 | .drawing => 2 | .refilling => 3 | .locked => 4

def QueueOrigin.code : QueueOrigin → Nat
  | .lowPressure => 0 | .plantRequest => 1

def CompState.code : CompState → Nat
  | .unavailable => 0 | .ready => 1 | .coolingWait => 2 | .running => 3

def StopCause.code : StopCause → Nat
  | .done => 0 | .target => 1 | .shed => 2 | .withdrawn => 3 | .unavailable => 4 | .esd => 5
  | .plantLost => 6 | .bankLost => 7

def CompCause.code : CompCause → Nat
  | .readyReceived => 0 | .unavailableReceived => 1 | .coolingWait => 2 | .started => 3 | .queueShort => 4
  | .done => 5 | .target => 6 | .shed => 7 | .withdrawn => 8 | .unavailable => 9 | .esd => 10
  | .plantLost => 11 | .bankLost => 12

def LaneState.code : LaneState → Nat
  | .off => 0 | .pulldown => 1 | .ready => 2 | .fault => 3

def LaneCause.code : LaneCause → Nat
  | .enabled => 0 | .withdrawn => 1 | .ready => 2 | .pulldownTimeout => 3 | .stale => 4 | .cleared => 5
  | .warmHold => 6 | .warmLift => 7 | .configured => 8

def CoolingCause.code : CoolingCause → Nat
  | .report => 0 | .shed => 1 | .release => 2 | .request => 3 | .served => 4 | .departed => 5 | .esd => 6
  | .plantLost => 7

def SegmentEnd.code : SegmentEnd → Nat
  | .switchPressure => 0 | .switchFlow => 1 | .hold => 2 | .bankWithdrawn => 3 | .ended => 4

def TxnState.code : TxnState → Nat
  | .opened => 0 | .closed => 1

def ResetCause.code : ResetCause → Nat
  | .powerOn => 0 | .resetLine => 1

def EsdCause.code : EsdCause → Nat
  | .startLow => 0 | .edge => 1 | .cleared => 2

def LinkState.code : LinkState → Nat
  | .silent => 0 | .alive => 1 | .late => 2 | .lost => 3

def BaudRate.code : BaudRate → Nat
  | .r57600 => 0 | .r115200 => 1 | .r230400 => 2 | .r460800 => 3

/-- Refusal codes are numbered 1 to 13 in the order of R171. -/
def RefusalCode.code : RefusalCode → Nat
  | .badState => 1 | .busy => 2 | .range => 3 | .unknownKind => 4 | .role => 5 | .unknownSubject => 6
  | .notConfigured => 7 | .storeFull => 8 | .noClass => 9 | .esdActive => 10 | .ambientLimit => 11
  | .calLocked => 12 | .calExhausted => 13

/-- Notice kind codes 0xC0 to 0xCC (R186). -/
def NoticeKind.code : NoticeKind → Nat
  | .esd => 0xC0 | .overpressure => 0xC1 | .txnRecovered => 0xC2 | .portLost => 0xC3 | .authEnded => 0xC4
  | .portLate => 0xC5 | .portAlive => 0xC6 | .fillState => 0xC7 | .vehicleDegraded => 0xC8
  | .laneState => 0xC9 | .bankState => 0xCA | .compressorState => 0xCB | .coolingState => 0xCC

/-- Notice levels (R174). -/
def NoticeKind.level : NoticeKind → Nat
  | .esd => 7 | .overpressure => 7 | .txnRecovered => 7 | .portLost => 6 | .authEnded => 5
  | .portLate => 5 | .portAlive => 5 | .fillState => 4 | .vehicleDegraded => 4 | .laneState => 4
  | .bankState => 3 | .compressorState => 3 | .coolingState => 2

/-- The notice kinds a port of a role is ever sent (R174). -/
def NoticeKind.sentTo : NoticeKind → Role → Bool
  | .esd, _ => true
  | .overpressure, r => r != .till
  | .txnRecovered, r => r == .till
  | .portLost, r => r != .island
  | .authEnded, r => r == .till
  | .portLate, r => r != .island
  | .portAlive, r => r != .island
  | .fillState, r => r != .plant
  | .vehicleDegraded, r => r != .plant
  | .laneState, r => r != .till
  | .bankState, r => r == .plant
  | .compressorState, r => r == .plant
  | .coolingState, r => r == .plant

def Role.code : Role → Nat
  | .island => 0 | .plant => 1 | .till => 2

/-! ### Delivery classes (R1) -/

/-- One row of the class table of R1. -/
structure ClassRow where
  hose : HoseType
  needsHighFlow : Bool
  pNom : Nat
  pMax : Nat
  threshold : Option Int
  maxFlow : Nat
  deriving DecidableEq, Repr

/-- The class table of R1; the threshold is present for the cooled classes alone. -/
def classRow (k : ClassId) : ClassRow :=
  match k.val with
  | 0 => ⟨.h35, false, 3500, 4375, none, 20⟩
  | 1 => ⟨.h35, false, 3500, 4375, some (-175), 60⟩
  | 2 => ⟨.h35, true, 3500, 4375, some (-175), 120⟩
  | 3 => ⟨.h70, false, 7000, 8750, some (-330), 60⟩
  | 4 => ⟨.h70, false, 7000, 8750, some (-260), 40⟩
  | _ => ⟨.h70, true, 7000, 8750, some (-330), 120⟩

/-- Classes 1 to 5 are cooled (R1). -/
def cooled (k : ClassId) : Bool := k != 0

/-- A class suits a hose (R1). -/
def suits (h : Hose) (k : ClassId) : Bool :=
  (classRow k).hose == h.kind && (!(classRow k).needsHighFlow || h.highFlow)

/-- Preference order at START (R1). -/
def preference : HoseType → List ClassId
  | .h70 => [5, 3, 4]
  | .h35 => [2, 1, 0]

/-- The demand of a class on a lane of coefficient c (R109). -/
def classDemand (k : ClassId) (c : Nat) : Nat :=
  if cooled k then ceilDiv ((classRow k).maxFlow * c) 100 else 0

/-- The floor of a fill's demand (R109). -/
def demandFloor (demand : Nat) : Nat := ceilDiv demand 4

/-! ### Ambient bands (R34) -/

/-- The band of a fresh ambient value (R34). -/
def bandOfTemp (t : Int) : BandId :=
  if t ≤ -101 then 0 else if t ≤ -1 then 1 else if t ≤ 149 then 2 else if t ≤ 299 then 3
  else if t ≤ 399 then 4 else 5

/-- The ambient is fresh while present and under 10 000 ms old (R8). -/
def freshAmbient (now : Clock) (a : Ambient) : Option Int :=
  match a.sample with
  | some x => if age now x.arrived < 10000 then some x.value else none
  | none => none

/-- The ambient band; band 5 for a stale or absent ambient (R34). -/
def bandOf (now : Clock) (a : Ambient) : BandId :=
  match freshAmbient now a with
  | some t => bandOfTemp t
  | none => 5

/-- P_target of a COMM fill at a tank temperature, capped at P_max (R38). -/
def commTarget (k : ClassId) (temp : Int) : Nat :=
  min ((classRow k).pNom * (temp + 2732).toNat / 2882) (classRow k).pMax

/-! ### Bytes sent (R185 to R187) -/

/-- The low `n` bytes of a number, little-endian. -/
def leBytes (n v : Nat) : List Byte := (List.range n).map (fun i => BitVec.ofNat 8 (v >>> (8 * i)))

/-- The bytes of a field (R186). -/
def Field.bytes : Field → List Byte
  | .byte v => [BitVec.ofNat 8 (v.getD 0xFF)]
  | .bits v => [v]
  | .flag v => [if v then 1 else 0]
  | .half v => leBytes 2 (v.getD 0xFFFF)
  | .temp none => leBytes 2 0x8000
  | .temp (some t) => leBytes 2 (BitVec.ofInt 16 t).toNat
  | .word v => leBytes 4 (v.getD 0xFFFFFFFF)
  | .raw v => leBytes 4 v.toNat
  | .total v => leBytes 8 v
  | .tod none => [0, 0, 0, 0, 0, 0, 0xFF]
  | .tod (some t) => leBytes 2 t.day ++ leBytes 4 t.second ++ [if t.set then 1 else 0]

/-- The four subject bytes of a refusal, as received, padded with 0xFF (R186). -/
def subjectFields (args : List Byte) : List Field :=
  ((args ++ List.replicate 4 0xFF#8).take 4).map .bits

/-- The body of a reply: 0x80, the kind answered, the status, then the data or the subject (R186). -/
def Reply.body (r : Reply) : List Byte :=
  [0x80#8, r.kind, BitVec.ofNat 8 (match r.refusal with | some c => c.code | none => 0)]
    ++ r.data.flatMap Field.bytes

/-- The body of a directive: the valve directive of R187, and the plant directives with their fields in the
order R85 and section 4.5 name them. -/
def Directive.body : Directive → List Byte
  | .valve p picture lane =>
    [0x90#8, BitVec.ofNat 8 p.val] ++
      (match picture with
       | .closed => [0, 0xFF, 0xFF, 0xFF]
       | .pulse b => [1, BitVec.ofNat 8 b.val, 0xFF, 0xFF]
       | .flow b sp => [2, BitVec.ofNat 8 b.val] ++ leBytes 2 sp) ++
      [BitVec.ofNat 8 (match lane with | some l => l.val | none => 0xFF)]
  | .refillOrder c b target => [0x91#8, BitVec.ofNat 8 c.val, BitVec.ofNat 8 b.val] ++ leBytes 2 target
  | .refillStop c b cause =>
    [0x92#8, BitVec.ofNat 8 c.val, BitVec.ofNat 8 b.val, BitVec.ofNat 8 cause.code]

/-- The body of a notice: its code, its subject, its coalesce count, its data (R186). -/
def Notice.body (n : Notice) : List Byte :=
  [BitVec.ofNat 8 n.kind.code, BitVec.ofNat 8 n.subject, BitVec.ofNat 8 n.coalesced]
    ++ n.data.flatMap Field.bytes

/-- The body of the frame on a line. -/
def TxFrame.body : TxFrame → List Byte
  | .reply r => r.body
  | .directive d => d.body
  | .notice n => n.body

/-- The whole frame on a line: envelope and check (R185). -/
def TxFrame.bytes (f : TxFrame) : List Byte := frameBytes f.body

/-! ### Field groups several messages carry -/

/-- The bits of a lock cause set (R186). -/
def LockCauses.bits (c : LockCauses) : Byte :=
  BitVec.ofNat 8 (c.overpressure.toNat + 2 * c.overtemp.toNat + 4 * c.stale.toNat + 8 * c.plantLock.toNat)

/-- A class set as sent (R186). -/
def classBits (c : ClassSet) : Byte := c.setWidth 8

/-- The fault causes of a lane as sent: one byte, bit 0 PULLDOWN_TIMEOUT, bit 1 STALE, the order of section 5.1. R186
types no such set; this is the model's choice (notes/assumptions/35.md). -/
def faultBits (l : Lane) : Byte := BitVec.ofNat 8 (l.faultPulldown.toNat + 2 * l.faultStale.toNat)

/-- The flag set of a record, DERATED being bit 0 (R186, section 8.5). -/
def RecordFlags.bits (f : RecordFlags) : Byte :=
  BitVec.ofNat 8 (f.derated.toNat + 2 * f.degraded.toNat + 4 * f.creep.toNat + 8 * f.saturated.toNat
    + 16 * f.overrun.toNat + 32 * f.interrupted.toNat + 64 * f.segmentsMerged.toNat)

/-- Preset kind and value as sent; under NONE the value is the free one of Config (R12). -/
def Preset.fields : Preset → List Field
  | .none => [.byte (some 0), .word (some Config.presetValueOfNone)]
  | .mass g => [.byte (some 1), .word (some g)]
  | .amount m => [.byte (some 2), .word (some m)]

/-- A station clock followed by a time of day; absent by the set flag (R186). -/
def stampFields : Option Stamp → List Field
  | none => [.raw 0, .tod none]
  | some x => [.raw x.clock, .tod (some x.tod)]

/-- The 15 bytes of a segment entry (R187); bank MIXED is 12 and tier MIXED 3 (R186). -/
def Segment.fields (x : Segment) : List Field :=
  (match x.source with
   | .bank b t => [.byte (some b.val), .byte (some t.code)]
   | .mixed => [.byte (some 12), .byte (some 3)]) ++
  [.word (some x.massStart), .half x.pressureStart, .word x.massEnd, .half x.pressureEnd,
    .byte (x.cause.map SegmentEnd.code)]

/-- The record as TXN_READ carries it: 78 bytes, then the segments (R187). -/
def TxnRecord.fields (r : TxnRecord) : List Field :=
  [.word (some r.number), .byte (some r.state.code), .byte (some r.pos.val), .byte (some r.cls.val),
    .raw r.tag, .byte (some r.mode.code), .word (some r.price)]
  ++ stampFields (some r.startTime) ++ stampFields r.endTime
  ++ [.half r.initialPressure, .half r.finalPSet, .word (some r.mass), .word (some r.amount),
    .word (some r.billed)]
  ++ r.preset.fields
  ++ [.word r.presetMass, .word (some r.overrunMass), .byte (r.endReason.map EndReason.code),
    .bits r.flags.bits, .word (some r.checkpointMass), .half r.tankVolume, .temp r.tankTemp,
    .byte (some r.segments.length)]
  ++ r.segments.flatMap Segment.fields

/-- The totals as TOTALS_READ carries them: totals, highest closed number, time of day (R187). -/
def Totals.fields (t : Totals) (tod : TimeOfDay) : List Field :=
  t.posMass.toList.map .total ++ t.classMass.toList.map .total ++ t.classBilled.toList.map .total
  ++ [.total t.grandMass, .total t.grandBilled, .word (some t.highestClosed), .tod (some tod)]

/-- The snapshot as TOTALS_SNAPSHOT and SNAPSHOT_READ carry it (R187). -/
def Snapshot.fields (x : Snapshot) : List Field :=
  x.totals.fields x.time.tod ++ [.raw x.time.clock]

/-- A tariff entry as TARIFF_READ carries it, in the order of R141. -/
def Tariff.fields (t : Tariff) : List Field :=
  [.flag t.valid, .bits (classBits t.classes), .flag t.allDay, .word (some t.windowStart),
    .word (some t.windowEnd), .word (some t.price)]

/-- The eleven link counters in the order of R177, in 4 bytes each, which R186 leaves open (notes/assumptions/35.md). -/
def LinkCounters.fields (c : LinkCounters) : List Field :=
  [.raw c.good, .raw c.badCheck, .raw c.fragment, .raw c.overrun, .raw c.refused, .raw c.replies,
    .raw c.directives, .raw c.directivesSuperseded, .raw c.notices, .raw c.noticesCoalesced,
    .raw c.noticesMasked]

end Sys2Proof.Machine
end

