-- ==== Sys2Proof/Machine/Ops.lean ====
section
/-! DEFINITION. The operations every block shares: reading and writing one record of State, posting
replies, directives and notices, starting transmissions, issuing and completing store writes, the open
record of a position, taking a request, ending an event. -/

namespace Sys2Proof.Machine

/-! ### Records of State, read and written in one place -/

def State.pos (s : State) (p : PosId) : Position := s.positions[p]
def State.setPos (s : State) (p : PosId) (x : Position) : State :=
  { s with positions := s.positions.set p x }
def State.modPos (s : State) (p : PosId) (f : Position → Position) : State := s.setPos p (f (s.pos p))

def State.chan (s : State) (p : PosId) : Channel := s.channels[p]
def State.setChan (s : State) (p : PosId) (x : Channel) : State :=
  { s with channels := s.channels.set p x }
def State.modChan (s : State) (p : PosId) (f : Channel → Channel) : State := s.setChan p (f (s.chan p))

def State.bank (s : State) (b : BankId) : Bank := s.banks[b]
def State.setBank (s : State) (b : BankId) (x : Bank) : State := { s with banks := s.banks.set b x }
def State.modBank (s : State) (b : BankId) (f : Bank → Bank) : State := s.setBank b (f (s.bank b))

def State.lane (s : State) (l : LaneId) : Lane := s.lanes[l]
def State.setLane (s : State) (l : LaneId) (x : Lane) : State := { s with lanes := s.lanes.set l x }
def State.modLane (s : State) (l : LaneId) (f : Lane → Lane) : State := s.setLane l (f (s.lane l))

def State.comp (s : State) (c : CompId) : Compressor := s.comps[c]
def State.setComp (s : State) (c : CompId) (x : Compressor) : State := { s with comps := s.comps.set c x }
def State.modComp (s : State) (c : CompId) (f : Compressor → Compressor) : State := s.setComp c (f (s.comp c))

def State.port (s : State) (n : PortId) : Port := s.ports[n]
def State.setPort (s : State) (n : PortId) (x : Port) : State := { s with ports := s.ports.set n x }
def State.modPort (s : State) (n : PortId) (f : Port → Port) : State := s.setPort n (f (s.port n))

/-- The grant table entry of a requester (section 6.3). -/
def State.grantOf (s : State) : Requester → GrantEntry
  | .pos p => s.cooling.fills[p]
  | .comp c => s.cooling.comps[c]

def State.setGrantOf (s : State) (r : Requester) (x : GrantEntry) : State :=
  match r with
  | .pos p => { s with cooling := { s.cooling with fills := s.cooling.fills.set p x } }
  | .comp c => { s with cooling := { s.cooling with comps := s.cooling.comps.set c x } }

/-- Station clock and time of day as they stand. -/
def State.stamp (s : State) : Stamp := ⟨s.clock, s.tod⟩

def allPositions : List PosId := [0, 1, 2, 3, 4, 5, 6, 7]
def allPorts : List PortId := [0, 1, 2, 3, 4, 5]
def allBanks : List BankId := [0, 1, 2, 3, 4, 5, 6, 7, 8, 9, 10, 11]
def allLanes : List LaneId := [0, 1, 2, 3]
def allComps : List CompId := [0, 1]

def plantPort : PortId := 4
def tillPort : PortId := 5

/-- Island port n owns positions P(2n) and P(2n+1) (00_scope.md 5.4). -/
def islandPort (p : PosId) : PortId := ⟨p.val / 2, by omega⟩

/-- An end request moves these states to ENDING (R27). -/
def endable (x : PosState) : Bool :=
  match x with
  | .pulse | .leakCheck | .ramp | .hold => true
  | _ => false

/-- The fuelling states (section 1.5). -/
def fuelling (x : PosState) : Bool := endable x || x == .ending

/-- The held dispenser pressure, or 0 without a report (R18, R19, R68). -/
def heldPressure (x : Position) : Nat := (x.pressure.map (·.value)).getD 0

/-! ### Choices the spec leaves open -/

/-- A permutation of a list picked by the free choices from the `k`-th on; a list of one is itself. -/
def permuteBy {α : Type} : Nat → Nat → List α → List α
  | 0, _, l => l
  | _ + 1, _, [] => []
  | _ + 1, _, [x] => [x]
  | n + 1, k, x :: y :: l =>
    let all := x :: y :: l
    let i := Config.freeChoice k % all.length
    all.getD i x :: permuteBy n (k + 1) (all.eraseIdx i)

/-- The list in the order the free choices pick, and the count of choices spent (notes/assumptions/3.md). -/
def State.permute {α : Type} (s : State) (l : List α) : State × List α :=
  ({ s with freeCtr := s.freeCtr + l.length }, permuteBy l.length s.freeCtr l)

/-! ### Link counters (R177) -/

def State.modCounters (s : State) (n : PortId) (f : LinkCounters → LinkCounters) : State :=
  s.modPort n (fun x => { x with counters := f x.counters })

/-! ### Notices (R174 to R176) -/

/-- A notice passes a port's mask (R174). -/
def Port.passes (x : Port) (k : NoticeKind) : Bool :=
  k.level == 7 || (x.promoted.contains k && decide (x.mask ≤ 5)) || decide (x.mask < k.level)

/-- Replacement of a pending notice: data replaced, coalesce count up to 255, joined time kept (R174). -/
def Notice.coalesce (n : Notice) (data : List Field) : Notice :=
  { n with data := data, coalesced := if n.coalesced < 255 then n.coalesced + 1 else 255 }

/-- A notice judged and entered at one port (R174). -/
def Port.post (x : Port) (now : Clock) (k : NoticeKind) (subject : Nat) (data : List Field) : Port :=
  if x.passes k then
    if x.pending.any (fun n => n.kind == k && n.subject == subject) then
      { x with
        pending := x.pending.map (fun n => if n.kind == k && n.subject == subject then n.coalesce data else n)
        counters := { x.counters with noticesCoalesced := x.counters.noticesCoalesced + 1 } }
    else
      { x with pending := x.pending ++ [⟨k, subject, data, 0, now⟩] }
  else
    { x with counters := { x.counters with noticesMasked := x.counters.noticesMasked + 1 } }

/-- A notice posted to each of the ports its owning rule names (R174). -/
def postNotice (k : NoticeKind) (subject : Nat) (data : List Field) (ports : List PortId) (s : State) : State :=
  ports.foldl (fun s n => s.modPort n (fun x => x.post s.clock k subject data)) s

/-! ### Directives (R173) -/

/-- The subject of a directive at its port: the position or the compressor (R173). -/
def Directive.subject : Directive → Nat
  | .valve p _ _ => p.val
  | .refillOrder c _ _ => c.val
  | .refillStop c _ _ => c.val

/-- A directive posted at a port: over 32 entries the oldest of its subject gives way, else the oldest (R173). -/
def Port.direct (x : Port) (d : Directive) : Port :=
  if x.directives.length < 32 then { x with directives := x.directives ++ [d] }
  else
    let rest :=
      if x.directives.any (fun e => e.subject == d.subject) then
        x.directives.eraseP (fun e => e.subject == d.subject)
      else x.directives.drop 1
    { x with
      directives := rest ++ [d]
      counters := { x.counters with directivesSuperseded := x.counters.directivesSuperseded + 1 } }

def postDirective (n : PortId) (d : Directive) (s : State) : State := s.modPort n (fun x => x.direct d)

/-- The valve picture of a position, derived from its state (section 1.5). -/
def Position.picture (x : Position) : Picture :=
  match x.state, x.bank with
  | .pulse, some b => .pulse b
  | .ramp, some b => .flow b (x.ramp.pSet.getD 0)
  | _, _ => .closed

/-- The lane a directive carries: NONE for CLOSED and for class 0 (R9). -/
def Position.directiveLane (x : Position) : Option LaneId :=
  match x.picture with
  | .closed => none
  | _ => if (x.cls.map cooled).getD false then x.lane else none

/-- A valve directive with the present picture goes to the position's island port (R9). -/
def sendValve (p : PosId) (s : State) : State :=
  postDirective (islandPort p) (.valve p (s.pos p).picture (s.pos p).directiveLane) s

/-! ### The metrology store (R180) -/

/-- The record a write names. -/
def RecWrite.key : RecWrite → RecId
  | .calibration _ => .calibration
  | .tariff e _ => .tariff e
  | .slot i _ => .slot i
  | .nextNumber _ => .nextNumber
  | .totals _ => .totals
  | .snapshot _ => .snapshot
  | .resetCause _ => .resetCause

/-- One record's new content in a copy of the store. -/
def StoreData.apply (d : StoreData) : RecWrite → StoreData
  | .calibration c => { d with calibration := c }
  | .tariff e t => { d with tariffs := d.tariffs.set e t }
  | .slot i x => { d with slots := d.slots.set i x }
  | .nextNumber n => { d with nextNumber := n }
  | .totals t => { d with totals := t }
  | .snapshot x => { d with snapshot := x }
  | .resetCause c => { d with resetCause := c }

/-- A group holds a record. -/
def WriteGroup.holds (g : WriteGroup) (r : RecId) : Bool := g.writes.any (fun w => w.key == r)

/-- A store operation: it forms a group, or joins and unites the groups that hold its records; the content
it carries replaces the pending content, and the 8 ms start again (R180). -/
def issue (ws : List RecWrite) (s : State) : State :=
  let joins := fun g : WriteGroup => ws.any (fun w => g.holds w.key)
  let kept := ((s.groups.filter joins).flatMap (·.writes)).filter (fun w => !ws.any (fun v => v.key == w.key))
  { s with groups := s.groups.filter (fun g => !joins g) ++ [⟨kept ++ ws, 8⟩] }

/-- A record stands in a group in flight. -/
def State.inFlight (s : State) (r : RecId) : Bool := s.groups.any (fun g => g.holds r)

/-- Replies held on a record of a completed group become ordinary replies (R181). -/
def Port.unhold (g : WriteGroup) (x : Port) : Port :=
  { x with
    replies := x.replies.map (fun r =>
      match r.heldOn with
      | some k => if g.holds k then { r with heldOn := none } else r
      | none => r) }

/-- The completion of the group that holds a record: its contents become stored together, and replies held
on them are released (R180, R181). No group, no completion. -/
def completeGroup (r : RecId) (s : State) : State :=
  match s.groups.find? (fun g => g.holds r) with
  | none => s
  | some g =>
    allPorts.foldl (fun s n => s.modPort n (fun x => x.unhold g))
      { s with
        store := g.writes.foldl StoreData.apply s.store
        groups := s.groups.filter (fun h => !h.holds r) }

/-! ### Transaction records -/

/-- A slot of the working copy. -/
def State.slot (s : State) (i : SlotId) : Slot := s.work.slots[i]

def State.setSlot (s : State) (i : SlotId) (x : Slot) : State :=
  { s with work := { s.work with slots := s.work.slots.set i x } }

def allSlots : List SlotId := List.finRange 64

/-- The slot holds the OPEN record of a position. -/
def Slot.opensFor (p : PosId) : Slot → Bool
  | .free => false
  | .txn r => r.state == .opened && r.pos == p

/-- The slot of a position's OPEN record. -/
def State.openSlot (s : State) (p : PosId) : Option SlotId := allSlots.find? (fun i => (s.slot i).opensFor p)

/-- The OPEN record of a position. -/
def State.openRecord (s : State) (p : PosId) : Option TxnRecord :=
  match s.openSlot p with
  | none => none
  | some i => match s.slot i with | .txn r => some r | .free => none

/-- A change of the OPEN record of a position in the billing unit's copy (R150). -/
def modRecord (p : PosId) (f : TxnRecord → TxnRecord) (s : State) : State :=
  match s.openSlot p with
  | none => s
  | some i => match s.slot i with | .txn r => s.setSlot i (.txn (f r)) | .free => s

/-- A checkpoint: the open record is written whole, its checkpoint mass set to the billing mass, with the
further records `also` in the same operation (R136, R149). -/
def checkpoint (p : PosId) (also : List RecWrite) (s : State) : State :=
  let s := modRecord p (fun r => { r with checkpointMass := (s.chan p).mass }) s
  match s.openSlot p with
  | none => s
  | some i => issue (.slot i (s.slot i) :: also) s

def isFree : Slot → Bool
  | .free => true
  | .txn _ => false

/-- A FREE slot of the store, the first one. A slot has no number a master can see (section 8.4). -/
def State.freeSlot (s : State) : Option SlotId := allSlots.find? (fun i => isFree (s.slot i))

/-- Reservations held by authorizations (R147). -/
def State.reservations (s : State) : Nat :=
  (allPositions.filter (fun p => ((s.pos p).authorization.map (·.reservation)).getD false)).length

/-- Slots that are not FREE: OPEN and CLOSED records (R147). -/
def State.records (s : State) : Nat := (allSlots.filter (fun i => !isFree (s.slot i))).length

/-- A CLOSED record is collectable once its close write is complete (R153). -/
def State.collectable (s : State) (i : SlotId) : Bool :=
  match s.slot i with
  | .txn r => r.state == .closed && !s.inFlight (.slot i)
  | .free => false

/-- A close write is in flight exactly while a group holds the totals: only a close writes them (R153, R180). -/
def State.closeInFlight (s : State) : Bool := s.inFlight .totals

/-! ### FILL_STATE and AUTH_ENDED (R30) -/

/-- A FILL_STATE notice to the till and the owning island, under a given auth tag (R30). -/
def postFillState (p : PosId) (tag : Tag) (s : State) : State :=
  let x := s.pos p
  postNotice .fillState p.val
    [.raw tag, .byte (some x.state.code), .byte (x.cls.map (·.val)), .byte (x.mode.map FillMode.code),
      .word x.transaction, .byte (x.holdReason.map HoldReason.code), .byte (x.endReason.map EndReason.code)]
    [tillPort, islandPort p] s

/-- The auth tag a position echoes, 0 when it has no authorization (R12, R186). -/
def Position.tag (x : Position) : Tag := (x.authorization.map (·.tag)).getD 0#32

/-- FILL_STATE while the transaction is OPEN, with the checkpoint of R136 and the records written with it. -/
def fillStateWith (p : PosId) (also : List RecWrite) (s : State) : State :=
  checkpoint p also (postFillState p (s.pos p).tag s)

def fillState (p : PosId) (s : State) : State := fillStateWith p [] s

/-- Removal of an authorization before START: its reservation goes with it, the life timer stops, AUTH_ENDED
goes to the till (R6, R13, R14, R29, R30). -/
def removeAuthorization (p : PosId) (why : AuthEnd) (s : State) : State :=
  let tag := (s.pos p).tag
  postNotice .authEnded p.val [.raw tag, .byte (some why.code)] [tillPort]
    (s.modPos p (fun x => { x with authorization := none, phaseTimer := none }))

/-! ### Segments (R151, R152) -/

/-- A segment joins the list; the eighth entry absorbs a ninth and becomes MIXED (R151, R152). -/
def TxnRecord.openSegment (r : TxnRecord) (x : Segment) : TxnRecord :=
  if r.segments.length < 8 then { r with segments := r.segments ++ [x] }
  else
    { r with
      segments := r.segments.dropLast ++
        (r.segments.getLast?.toList.map (fun y =>
          { y with source := .mixed, massEnd := none, pressureEnd := none, cause := none }))
      flags := { r.flags with segmentsMerged := true } }

/-- The running segment ends with its end values (R151). -/
def TxnRecord.endSegment (r : TxnRecord) (mass : Nat) (pressure : Option Nat) (cause : SegmentEnd) : TxnRecord :=
  match r.segments.getLast? with
  | some y =>
    if y.cause.isNone then
      { r with
        segments := r.segments.dropLast ++
          [{ y with massEnd := some mass, pressureEnd := pressure, cause := some cause }] }
    else r
  | none => r

/-- A segment opens on a bank the position has just been granted (R151). -/
def openSegment (p : PosId) (b : BankId) (s : State) : State :=
  let tier := ((s.bank b).config.map (·.tier)).getD .low
  modRecord p (fun r =>
    r.openSegment ⟨.bank b tier, (s.chan p).mass, (s.pos p).pressure.map (·.value), none, none, none⟩) s

/-- The running segment of a position ends (R151). -/
def endSegment (p : PosId) (cause : SegmentEnd) (s : State) : State :=
  modRecord p (fun r => r.endSegment (s.chan p).mass ((s.pos p).pressure.map (·.value)) cause) s

/-! ### The transmitter (R172, R175) -/

/-- The place of a pending notice among the sources of R175: level 7, promoted kinds, then by level. -/
def Port.rank (x : Port) (n : Notice) : Nat :=
  if n.kind.level == 7 then 0
  else if x.promoted.contains n.kind && decide (x.mask ≤ 5) then 1
  else 8 - n.kind.level

/-- R175: which of two pending notices is sent first. -/
def Port.sendsBefore (x : Port) (now : Clock) (a b : Notice) : Bool :=
  if x.rank a ≠ x.rank b then x.rank a < x.rank b
  else if age now a.joined ≠ age now b.joined then age now b.joined < age now a.joined
  else if a.kind.code ≠ b.kind.code then a.kind.code < b.kind.code
  else a.subject < b.subject

/-- The first pending notice in the order of R175. -/
def Port.nextNotice (x : Port) (now : Clock) : Option Notice :=
  x.pending.foldl (fun best n =>
    match best with
    | none => some n
    | some b => if x.sendsBefore now n b then some n else some b) none

/-- A port sends while ALIVE or LATE (R172). -/
def Port.maySend (x : Port) : Bool :=
  match x.supervision.state with
  | .alive | .late => true
  | .silent | .lost => false

/-- The transmitter begins the next frame on a free line: a reply, else a directive, else a notice; none
while the reply at the head is held (R172, R177, R181). -/
def Port.transmit (x : Port) (now : Clock) : Port :=
  if x.line.isNone && x.maySend then
    match x.replies with
    | r :: rest =>
      if r.heldOn.isSome then x
      else
        { x with
          replies := rest
          line := some (.reply r)
          counters := { x.counters with
            replies := x.counters.replies + 1
            refused := if r.refusal.isSome then x.counters.refused + 1 else x.counters.refused } }
    | [] =>
      match x.directives with
      | d :: rest =>
        { x with
          directives := rest
          line := some (.directive d)
          counters := { x.counters with directives := x.counters.directives + 1 } }
      | [] =>
        match x.nextNotice now with
        | some n =>
          { x with
            pending := x.pending.filter (fun m => !(m.kind == n.kind && m.subject == n.subject))
            line := some (.notice n)
            counters := { x.counters with notices := x.counters.notices + 1 } }
        | none => x
  else x

/-! ### Ending an event -/

/-- Σ grants (R107). -/
def State.sumGrants (s : State) : Nat :=
  (allPositions.map (fun p => (s.grantOf (.pos p)).grant)).sum
    + (allComps.map (fun c => (s.grantOf (.comp c)).grant)).sum

/-- Free capacity (R107). -/
def State.freeCapacity (s : State) : Nat := s.cooling.capacity - s.sumGrants

def isFill : Requester → Bool
  | .pos _ => true
  | .comp _ => false

/-- A grant above 0 and below demand (R110). -/
def GrantEntry.derated (e : GrantEntry) : Bool := decide (0 < e.grant) && decide (e.grant < e.demand)

/-- The data of COMPRESSOR_STATE as held now: the state, the refill while RUNNING, grant, demand, cause, queue
length (R91). -/
def compData (c : CompId) (cause : CompCause) (s : State) : List Field :=
  let x := s.comp c
  let running := x.state == .running
  [.byte (some x.state.code)]
    ++ (if running then
          [.byte (x.bank.map (·.val)), .byte (x.entryHeld.map (·.tier.code)),
            .raw ((x.entryHeld.map (·.time)).getD 0), .byte (x.entryHeld.map (·.origin.code)),
            .raw (x.refillStart.getD 0)]
        else [])
    ++ [.half (some (s.grantOf (.comp c)).grant), .half (some (s.grantOf (.comp c)).demand),
      .byte (some cause.code), .byte (some s.queue.length)]

/-- COMPRESSOR_STATE to the plant with the data of a change (R91). -/
def postCompData (c : CompId) (data : List Field) (s : State) : State :=
  postNotice .compressorState c.val data [plantPort] s

/-- COMPRESSOR_STATE posted at its change (R91, notes/assumptions/12.md). -/
def postCompState (c : CompId) (cause : CompCause) (s : State) : State := postCompData c (compData c cause s) s

/-- The budget changed in this event; the first cause named stands (R122, notes/assumptions/11.md). -/
def budgetChanged (cause : CoolingCause) (s : State) : State :=
  { s with evt := { s.evt with
      coolingChanged := true
      coolingCause := some (s.evt.coolingCause.getD cause) } }

/-- The event itself names the cause of its COOLING_STATE (R122). -/
def budgetCause (cause : CoolingCause) (s : State) : State :=
  { s with evt := { s.evt with coolingCause := some cause } }

/-- COOLING_STATE to the plant after an event that changed the budget (R122). -/
def postCoolingState (s : State) : State :=
  match s.evt.coolingChanged, s.evt.coolingCause with
  | true, some cause =>
    postNotice .coolingState plantPort.val
      [.half (some s.cooling.capacity), .flag s.cooling.sensorRange, .half (some s.sumGrants),
        .half (some s.freeCapacity),
        .byte (some (allPositions.filter (fun p => (s.grantOf (.pos p)).derated)).length),
        .byte (some (s.cooling.wait.filter (fun w => isFill w.who)).length),
        .byte (some (s.cooling.wait.filter (fun w => !isFill w.who)).length),
        .byte (some cause.code)]
      [plantPort] s
  | _, _ => s

/-- COMPRESSOR_STATE for the compressors that entered COOLING_WAIT in the event and are still there (R91). -/
def postWaitNotices (s : State) : State :=
  s.evt.waitNotices.foldl
    (fun s c => if (s.comp c).state == .coolingWait then postCompState c .coolingWait s else s) s

/-- Every free line begins its next frame, while the part serves (R172, R182). -/
def transmitAll (s : State) : State :=
  if s.phase == .serving then
    allPorts.foldl (fun s n => s.modPort n (fun x => x.transmit s.clock)) s
  else s

/-- The end of an event: the notices that are posted once per event, then the transmitters. A free line begins its
frame here, before the next event is taken, but after a clear of the ESD latch that a falling edge of ESD_N came
together with (R160, notes/assumptions/31.md). -/
def endEvent (s : State) : State :=
  let s := postCoolingState (postWaitNotices s)
  { (if s.evt.edgeNext then s else transmitAll s) with evt := .empty }

/-! ### Taking a request (R170, R171, R181) -/

/-- What an owning rule answers: ACCEPTED with data, held or not, or REFUSED. -/
inductive Answer
  | accepted (data : List Field) (heldOn : Option RecId)
  | refused (code : RefusalCode)
  deriving DecidableEq, Repr

/-- The screen of R171 that comes before the owning rule. -/
def screen (port : PortId) (kind : Byte) (args : List Byte) : Option RefusalCode :=
  match kindRow kind.toNat with
  | none => some .unknownKind
  | some row =>
    if !row.roles.contains (portRole port) then some .role
    else if args.length + 1 ≠ row.length then some .range
    else none

/-- A request is taken while the part serves, the port's reply queue holds fewer than 8 replies, and the
frame is the head of the receive buffer, or no frame is buffered (R170, notes/assumptions/5.md). -/
def canTake (port : PortId) (kind : Byte) (args : List Byte) (s : State) : Bool :=
  let x := s.port port
  s.phase == .serving && decide (x.replies.length < 8) &&
    (match x.rxBuffer with
     | [] => true
     | body :: _ => body == kind :: args)

/-- The one reply joins the tail of the reply queue; a refusal carries the subject as received (R171). -/
def pushReply (port : PortId) (kind : Byte) (args : List Byte) (a : Answer) (s : State) : State :=
  let r : Reply :=
    match a with
    | .accepted data held => ⟨kind, none, data, held⟩
    | .refused code => ⟨kind, some code, subjectFields args, none⟩
  s.modPort port (fun x => { x with replies := x.replies ++ [r] })

/-- Taking removes the frame from the buffer (R170). -/
def dropFrame (port : PortId) (s : State) : State :=
  s.modPort port (fun x => { x with rxBuffer := x.rxBuffer.drop 1 })

/-- A taken request: screened, handed to its owning rule, answered once, all in one event (R170, R171). -/
def takeRequest (kind : Byte) (port : PortId) (args : List Byte) (owner : State → State × Answer)
    (s : State) : State :=
  if canTake port kind args s then
    let s := dropFrame port s
    let r : State × Answer := match screen port kind args with
      | some code => (s, .refused code)
      | none => owner s
    endEvent (pushReply port kind args r.2 r.1)
  else s

/-- An event that is no request: it is taken while the part serves (R182). -/
def takeEvent (f : State → State) (s : State) : State :=
  if s.phase == .serving then endEvent (f s) else s

def accept (data : List Field) (s : State) : State × Answer := (s, .accepted data none)

def refuse (code : RefusalCode) (s : State) : State × Answer := (s, .refused code)

end Sys2Proof.Machine
end

