-- ==== Sys2Proof/Machine/AllPorts.lean ====
section
/-! DEFINITION. The requests every port may send (chapters 09 and 10), and a taken request of no catalogue
(R171). -/

namespace Sys2Proof.Machine

/-- The interval timer of a port runs in ALIVE and LATE only (R163). -/
def Supervision.timed (x : Supervision) : Bool :=
  match x.state with
  | .alive | .late => true
  | .silent | .lost => false

/-- R163: SUPERVISION_SET at a port. -/
def setInterval (port : PortId) (v : Nat) (s : State) : State × Answer :=
  if v = 250 ∨ v = 500 ∨ v = 1000 ∨ v = 2000 then
    let s := s.modPort port (fun x =>
      { x with supervision := { x.supervision with
          interval := v
          timer := if x.supervision.timed then some v else x.supervision.timer } })
    accept [.half (some v), .byte (some (s.port port).supervision.state.code)] s
  else refuse .range s

/-- SUPERVISION_SET (R163). -/
def execSupervisionSet (port : PortId) (args : List Byte) (s : State) : Host.Outcome State Fault Refusal :=
  .next (takeRequest 0x50#8 port args (fun s =>
    match args with
    | [i0, i1] => setInterval port (u16 i0 i1) s
    | _ => refuse .range s) s)

/-- A promoted slot of NOTICE_SET: 0xFF names none; none of Lean for a kind a port of the role may not
promote (R176, R187). -/
def promotedOf (r : Role) (b : Byte) : Option (List NoticeKind) :=
  if b = 0xFF#8 then some []
  else
    match noticeKinds.find? (fun k => k.code == b.toNat) with
    | some k => if k.level ≠ 7 ∧ k.sentTo r = true then some [k] else none
    | none => none

/-- The kinds two slots name; a kind named twice counts once (R176). -/
def promotedKinds (a b : List NoticeKind) : List NoticeKind := a ++ b.filter (fun k => !a.contains k)

/-- R176: the new settings of a port, and the removal of the pending entries that no longer pass. -/
def Port.setNotices (x : Port) (mask : Nat) (promoted : List NoticeKind) : Port :=
  let y := { x with mask := mask, promoted := promoted }
  let kept := x.pending.filter (fun n => y.passes n.kind)
  { y with
    pending := kept
    counters := { x.counters with
      noticesMasked := x.counters.noticesMasked + BitVec.ofNat 32 (x.pending.length - kept.length) } }

/-- R176: NOTICE_SET at a port. The reply always has two bytes for the promoted kinds, those set first, 0xFF for
each one missing (notes/assumptions/35.md). -/
def setNotices (port : PortId) (mask a b : Byte) (s : State) : State × Answer :=
  if 7 < mask.toNat then refuse .range s
  else
    match promotedOf (portRole port) a, promotedOf (portRole port) b with
    | some ka, some kb =>
      let kinds := promotedKinds ka kb
      let s := s.modPort port (fun x => x.setNotices mask.toNat kinds)
      accept [.byte (some mask.toNat), .byte (kinds[0]?.map NoticeKind.code),
        .byte (kinds[1]?.map NoticeKind.code), .byte (some (s.port port).pending.length)] s
    | _, _ => refuse .range s

/-- NOTICE_SET (R176). -/
def execNoticeSet (port : PortId) (args : List Byte) (s : State) : Host.Outcome State Fault Refusal :=
  .next (takeRequest 0x51#8 port args (fun s =>
    match args with
    | [mask, a, b] => setNotices port mask a b s
    | _ => refuse .range s) s)

/-- The data of STATUS_QUERY in the order of R178; the level of ESD_N is sent as a flag, 1 for high
(notes/assumptions/35.md). The calibration counter is that of the working copy, which runs ahead of the store while a
CAL_WRITE is in flight; the manual does not say which of the two it is (notes/assumptions/39.md). -/
def statusFields (s : State) (port : PortId) : List Field :=
  let x := (s.port port).supervision
  [.byte (some port.val), .byte (some (Role.code (portRole port))), .byte (some x.state.code),
    .half (some x.interval), .byte (some s.work.resetCause.code), .flag s.esd.latched,
    .byte (s.esd.change.map (·.cause.code))]
  ++ stampFields (s.esd.change.map (·.time))
  ++ [.flag s.pins.esdN, .flag s.tod.set, .half (some s.work.calibration.counter),
    .byte (some s.rate.code)]

/-- STATUS_QUERY (R178). -/
def execStatusQuery (port : PortId) (args : List Byte) (s : State) : Host.Outcome State Fault Refusal :=
  .next (takeRequest 0x52#8 port args (fun s => accept (statusFields s port) s) s)

/-- COUNTERS_READ (R177). -/
def execCountersRead (port : PortId) (args : List Byte) (s : State) : Host.Outcome State Fault Refusal :=
  .next (takeRequest 0x53#8 port args (fun s => accept (s.port port).counters.fields s) s)

/-- COUNTERS_CLEAR (R177). -/
def execCountersClear (port : PortId) (args : List Byte) (s : State) : Host.Outcome State Fault Refusal :=
  .next (takeRequest 0x54#8 port args (fun s => accept [] (s.modCounters port (fun _ => .zero))) s)

/-- UNKNOWN_KIND: a taken request whose kind code is in no catalogue is refused (R171). -/
def execUnknownKind (port : PortId) (kind : Byte) (args : List Byte) (s : State) :
    Host.Outcome State Fault Refusal :=
  .next (takeRequest kind port args (fun s => refuse .unknownKind s) s)

end Sys2Proof.Machine
end

