-- ==== Sys2Proof/Machine/Cascade.lean ====
section
/-! DEFINITION. The operations that cross blocks, from the bottom up: bank grants and offers, refill
assignment, the RAMP entry checks, cooling redistribution, the release of banks and grants, ENDING, the ends
of refills, shedding, withdrawal of banks, lanes leaving READY. None calls one below it again, but for the
redistribution of a hand-back, which takes at most one further round per compressor. -/

namespace Sys2Proof.Machine

/-! ### Bank states -/

/-- BANK_STATE to the plant: state, holder, causes, pressure, SENSOR_RANGE, drawn mass (R76). A holder is
sent as two bytes: the position, the compressor. -/
def postBankState (b : BankId) (s : State) : State :=
  let x := s.bank b
  postNotice .bankState b.val
    [.byte (some x.state.code),
      .byte (match x.holder with | some (.pos p) => some p.val | _ => none),
      .byte (match x.holder with | some (.comp c) => some c.val | _ => none),
      .bits x.causes.bits, .half (x.report.map (·.pressure)), .flag x.sensorRange, .word (some x.drawnMass)]
    [plantPort] s

/-- A bank takes a state and a holder, and BANK_STATE is posted; a bank that leaves IDLE ends every exclusion
of it (R59, R73, R76). -/
def moveBank (b : BankId) (state : BankState) (holder : Option Holder) (s : State) : State :=
  let wasIdle := (s.bank b).state == .idle
  let s := s.modBank b (fun x => { x with state := state, holder := holder })
  let s :=
    if wasIdle && state != .idle then
      { s with drawList := s.drawList.map (fun w =>
          if w.excluded == some b then { w with excluded := none } else w) }
    else s
  postBankState b s

/-! ### The bank arbiter (R68 to R72) -/

def tierRank : Option Tier → Nat
  | some .low => 0
  | some .mid => 1
  | some .high => 2
  | none => 3

/-- The window of a tier (section 3.1). -/
def State.window (s : State) : Tier → Option TierWindow
  | .low => s.windows[0]
  | .mid => s.windows[1]
  | .high => s.windows[2]

/-- R68: the bank may serve this request of the position. While the loss of the plant port is being taken no
bank may: R77 has every withdrawn request wait and no waiter take a bank released (notes/assumptions/28.md). -/
def eligible (s : State) (p : PosId) (kind : DrawKind) (excluded : Option BankId) (b : BankId) : Bool :=
  let x := s.bank b
  let disp := heldPressure (s.pos p)
  match x.report, x.config with
  | some report, some config =>
    x.state == .idle && !s.evt.plantLost && decide (disp + s.margin ≤ report.pressure) &&
      (match kind with
       | .pulse => config.tier == .low
       | .ramp =>
         (match s.window config.tier with
          | some w => decide (w.base ≤ disp) && decide (disp ≤ w.limit)
          | none => false) && excluded != some b)
  | _, _ => false

/-- R68: the order among eligible banks: tier, then pressure, then number. -/
def bankBefore (s : State) (a b : BankId) : Bool :=
  let ra : Nat := tierRank ((s.bank a).config.map (·.tier))
  let rb : Nat := tierRank ((s.bank b).config.map (·.tier))
  let pa : Nat := ((s.bank a).report.map (·.pressure)).getD 0
  let pb : Nat := ((s.bank b).report.map (·.pressure)).getD 0
  if ra ≠ rb then ra < rb else if pa ≠ pb then pa < pb else a < b

/-- The first eligible bank of a request (R68). -/
def bestBank (s : State) (p : PosId) (kind : DrawKind) (excluded : Option BankId) : Option BankId :=
  (allBanks.filter (eligible s p kind excluded)).foldl
    (fun best b => match best with
      | none => some b
      | some a => if bankBefore s b a then some b else some a) none

/-- The position begins to flow on a bank it has been granted: a segment opens, the hold limit stops, one
FLOW directive goes out, the creep gate shuts (R21, R22, R25, R43, R125, R151). A position that changes its
bank within one event stays in RAMP: its flow since stands, and no FILL_STATE is posted
(notes/assumptions/14.md). -/
def enterRamp (p : PosId) (b : BankId) (s : State) : State :=
  let stays := (s.pos p).state == .ramp
  let s := s.modPos p (fun x =>
    { x with
      state := .ramp
      bank := some b
      holdReason := none
      phaseTimer := none
      ramp := { x.ramp with lowFlow := 0 } })
  let s := openSegment p b s
  let s := s.modChan p (fun c =>
    { c with gateOpen := false, flowSince := if stays then c.flowSince else some s.clock })
  let s := sendValve p s
  if stays then s else fillState p s

/-- R19: a position in PULSE holds its bank and pulses for 1000 ms. -/
def startPulse (p : PosId) (b : BankId) (s : State) : State :=
  sendValve p (s.modPos p (fun x =>
    { x with bank := some b, pulseState := some .pulsing, phaseTimer := some 1000 }))

/-- A bank is granted to a position, and the position acts on it in the same event (R69, R75). -/
def grantBank (p : PosId) (b : BankId) (s : State) : State :=
  let s := s.modBank b (fun x => { x with massAtGrant := (s.chan p).mass, drawnMass := 0 })
  let s := { s with drawList := s.drawList.filter (fun w => w.pos != p) }
  let s := moveBank b .drawing (some (.pos p)) s
  if (s.pos p).state == .pulse then startPulse p b s else enterRamp p b s

/-- R69, R70: the request is granted the first eligible bank, or the position joins the draw wait list at
the tail. The excluded bank of R73 belongs to this request and its entry alone: a later request of the position,
after a hold or a withdrawal, excludes none (notes/assumptions/32.md). -/
def drawRequest (p : PosId) (kind : DrawKind) (excluded : Option BankId) (s : State) : State :=
  match bestBank s p kind excluded with
  | some b => grantBank p b s
  | none =>
    { s with drawList := s.drawList.filter (fun w => w.pos != p) ++ [⟨p, kind, s.clock, excluded⟩] }

/-- R71: one candidate offered to the waiters from the oldest. -/
def offerBank (b : BankId) (s : State) : State :=
  match s.drawList.find? (fun w => eligible s w.pos w.kind w.excluded b) with
  | some w => grantBank w.pos b s
  | none => s

/-- Insertion in the order of R68. -/
def insertBank (s : State) (b : BankId) : List BankId → List BankId
  | [] => [b]
  | a :: l => if bankBefore s b a then b :: a :: l else a :: insertBank s b l

/-- R71: an offer pass over candidate banks, taken in the order of R68; none is made while the ESD latch is
set. -/
def offerPass (candidates : List BankId) (s : State) : State :=
  if s.esd.latched then s
  else
    let sorted := candidates.foldl (fun l b => insertBank s b l) []
    sorted.foldl (fun s b => if (s.bank b).state == .idle then offerBank b s else s) s

/-- R72: a waiter whose dispenser pressure changed is tested against the IDLE banks; it keeps its place when
none is eligible. -/
def retestWaiter (p : PosId) (s : State) : State :=
  match s.drawList.find? (fun w => w.pos == p) with
  | none => s
  | some w =>
    match bestBank s p w.kind w.excluded with
    | some b => grantBank p b s
    | none => s

/-! ### Grants (R110) -/

/-- A requester's grant takes a value: a rise from 0 takes the newest place in grant order and its time, a
fall to 0 leaves the order, any other change keeps the place (R110). -/
def setGrant (r : Requester) (g : Nat) (s : State) : State :=
  let e := s.grantOf r
  let rises := e.grant == 0 && g != 0
  let time := if g == 0 then none else if rises then some s.clock else e.time
  let order :=
    if g == 0 then s.cooling.order.filter (fun q => q != r)
    else if rises then s.cooling.order.filter (fun q => q != r) ++ [r]
    else s.cooling.order
  let s := s.setGrantOf r { e with grant := g, time := time }
  { s with cooling := { s.cooling with order := order } }

/-- The billing unit is told DERATED (R110, R150). -/
def tellDerated (p : PosId) (s : State) : State :=
  modRecord p (fun r => { r with flags := { r.flags with derated := true } }) s

/-- A fill is given `g` of its demand; below demand the billing unit is told (R110, R112, R115). -/
def grantFill (p : PosId) (g : Nat) (s : State) : State :=
  let s := setGrant (.pos p) g s
  if g < (s.grantOf (.pos p)).demand then tellDerated p s else s

/-! ### Refill queue and assignment (chapter 04) -/

def State.queued (s : State) (b : BankId) : Bool := s.queue.any (fun e => e.bank == b)

/-- Tier order of the queue: HIGH, MID, LOW (R78). -/
def queueRank : Tier → Nat
  | .high => 0
  | .mid => 1
  | .low => 2

/-- R78: tier, then the greater age, then the lower bank number. -/
def queueBefore (now : Clock) (a b : QueueEntry) : Bool :=
  if queueRank a.tier ≠ queueRank b.tier then queueRank a.tier < queueRank b.tier
  else if age now a.time ≠ age now b.time then age now b.time < age now a.time
  else a.bank < b.bank

def insertQueue (now : Clock) (e : QueueEntry) : List QueueEntry → List QueueEntry
  | [] => [e]
  | a :: l => if queueBefore now e a then e :: a :: l else a :: insertQueue now e l

/-- R78 at a station clock: the entries in the order of their ages at that moment. -/
def orderQueue (now : Clock) (l : List QueueEntry) : List QueueEntry :=
  l.foldl (fun q e => insertQueue now e q) []

/-- An entry takes its place in the queue (R78). -/
def enqueueEntry (e : QueueEntry) (s : State) : State := { s with queue := insertQueue s.clock e s.queue }

/-- A new entry for a bank at the present station clock (R80, R81). -/
def enqueue (b : BankId) (origin : QueueOrigin) (s : State) : State :=
  enqueueEntry ⟨b, ((s.bank b).config.map (·.tier)).getD .low, s.clock, origin⟩ s

/-- The entry's bank is IDLE (section 4.1). -/
def assignable (s : State) (e : QueueEntry) : Bool := (s.bank e.bank).state == .idle

/-- Compressors in COOLING_WAIT (R84). -/
def State.coolingWaiters (s : State) : Nat :=
  (allComps.filter (fun c => (s.comp c).state == .coolingWait)).length

/-- The notice of a compressor that entered COOLING_WAIT in this event is no longer outstanding (R91). -/
def dropWaitNotice (c : CompId) (s : State) : State :=
  { s with evt := { s.evt with waitNotices := s.evt.waitNotices.filter (fun d => d != c) } }

/-- R91: a compressor that entered COOLING_WAIT in this event is about to leave it without a refill, so the
change to COOLING_WAIT posts its notice now (notes/assumptions/12.md). -/
def flushWaitNotice (c : CompId) (s : State) : State :=
  if s.evt.waitNotices.contains c then postCompState c .coolingWait (dropWaitNotice c s) else s

/-- R85: a compressor with its full demand takes the first assignable bank; without one it goes READY and
hands its grant back. Answers whether it handed back. -/
def startRefill (c : CompId) (s : State) : State × Bool :=
  let s := s.modComp c (fun x => { x with requestTime := none })
  match s.queue.find? (assignable s) with
  | some e =>
    let s := moveBank e.bank .refilling (some (.comp c)) (dropWaitNotice c s)
    let s := { s with queue := s.queue.filter (fun q => q.bank != e.bank) }
    let s := s.modComp c (fun x =>
      { x with
        state := .running
        bank := some e.bank
        entryHeld := some e
        refillStart := some s.clock })
    let target := ((s.bank e.bank).config.map (·.target)).getD 0
    (postCompState c .started (postDirective plantPort (.refillOrder c e.bank target) s), false)
  | none =>
    let s := setGrant (.comp c) 0 (budgetChanged .release (flushWaitNotice c s))
    (postCompState c .coolingWait (s.modComp c (fun x => { x with state := .ready })), true)

/-- R113: a compressor asks for its full demand; it is served only when nobody waits and the demand is free.
Otherwise it joins the tail and enters COOLING_WAIT (R84). SERVED and REQUEST are named as for a fill
(notes/assumptions/34.md). -/
def compressorAsks (c : CompId) (s : State) : State :=
  let demand := (s.grantOf (.comp c)).demand
  if s.cooling.wait.isEmpty && decide (demand ≤ s.freeCapacity) then
    (startRefill c (setGrant (.comp c) demand (budgetChanged .served s))).1
  else
    let s := budgetChanged .request s
    let s := { s with cooling := { s.cooling with wait := s.cooling.wait ++ [(⟨.comp c, s.clock⟩ : CoolWait)] } }
    let s := s.modComp c (fun x => { x with state := .coolingWait, requestTime := some s.clock })
    { s with evt := { s.evt with waitNotices := s.evt.waitNotices ++ [c] } }

/-- R84: READY compressors ask in number order while assignable entries exceed the compressors in
COOLING_WAIT; no pass is made while the ESD latch is set. -/
def assignmentPass (s : State) : State :=
  if s.esd.latched then s
  else
    allComps.foldl (fun s c =>
      if (s.comp c).state == .ready &&
          decide (s.coolingWaiters < (s.queue.filter (assignable s)).length) then
        compressorAsks c s
      else s) s

/-- R80: the refill scheduler is told that a bank has become IDLE. -/
def tellIdle (b : BankId) (s : State) : State :=
  if s.queued b then assignmentPass s
  else
    match (s.bank b).report, (s.bank b).config with
    | some report, some config =>
      if report.pressure ≤ config.threshold then assignmentPass (enqueue b .lowPressure s) else s
    | _, _ => s

/-- A bank has entered IDLE: the offer pass comes first, and the scheduler is told when no waiter took it
(R71, R73). -/
def bankIdle (b : BankId) (s : State) : State :=
  let s := offerPass [b] s
  if (s.bank b).state == .idle then tellIdle b s else s

/-- R73: the position releases its bank. -/
def releaseBank (p : PosId) (s : State) : State :=
  match (s.pos p).bank with
  | none => s
  | some b =>
    let s := s.modPos p (fun x => { x with bank := none })
    bankIdle b (moveBank b .idle none s)

/-! ### Holds and the RAMP entry checks (R21 to R25) -/

/-- The position enters HOLD without a bank: timer, gate, CLOSED, FILL_STATE. A hold that begins here loads
the hold limit; a change of reason leaves it running (R11, R21, R23, R24, R125). -/
def enterHold (p : PosId) (reason : HoldReason) (s : State) : State :=
  let old := s.pos p
  let s := s.modPos p (fun x =>
    { x with
      state := .hold
      holdReason := some reason
      phaseTimer := if old.state == .hold then x.phaseTimer else some 120000
      ramp := { x.ramp with lowFlow := 0 } })
  let s := s.modChan p (fun c => { c with gateOpen := true, flowSince := none })
  let s := if old.state == .ramp then sendValve p s else s
  fillState p s

/-- Entry to HOLD from RAMP with a bank: the segment ends, the bank is released, the hold begins (R23). -/
def holdFromRamp (p : PosId) (reason : HoldReason) (s : State) : State :=
  enterHold p reason (releaseBank p (endSegment p .hold s))

/-- The lane holds the fill's class under warm hold (R21 check (c), R100). -/
def warmHeld (s : State) (p : PosId) : Bool :=
  match (s.pos p).lane, (s.pos p).cls with
  | some l, some k => cooled k && (s.lane l).warmHold.getLsbD k
  | _, _ => false

/-- R21 checks (c) and (d). The request excludes no bank (notes/assumptions/32.md). -/
def checksCD (p : PosId) (s : State) : State :=
  if warmHeld s p then enterHold p .laneWarm s
  else
    let s := drawRequest p .ramp none s
    if (s.pos p).bank.isSome then s else enterHold p .bank s

/-! ### Redistribution (R114 to R116) -/

/-- Pass 1: derated fills in grant order are raised toward their demand (R115). -/
def raiseDerated (s : State) : State :=
  s.cooling.order.foldl (fun s r =>
    match r with
    | .pos p =>
      let e := s.grantOf r
      if e.derated && decide (0 < s.freeCapacity) then
        setGrant (.pos p) (e.grant + min (e.demand - e.grant) s.freeCapacity) (budgetChanged .served s)
      else s
    | .comp _ => s) s

/-- A requester leaves the cooling wait list (R111). -/
def dropWait (r : Requester) (s : State) : State :=
  { s with cooling := { s.cooling with wait := s.cooling.wait.filter (fun w => w.who != r) } }

/-- Pass 2: waiting fills in list order, stopping at the first whose floor does not fit (R115). Answers the
fills served. -/
def serveFills : List CoolWait → State → State × List PosId
  | [], s => (s, [])
  | w :: l, s =>
    match w.who with
    | .comp _ => (s, [])
    | .pos p =>
      let e := s.grantOf (.pos p)
      if e.floor ≤ s.freeCapacity then
        let s := grantFill p (min e.demand s.freeCapacity) (dropWait (.pos p) (budgetChanged .served s))
        let r := serveFills l s
        (r.1, p :: r.2)
      else (s, [])

/-- Pass 3: waiting compressors in list order, each its full demand (R115). Answers those served. -/
def serveComps : List CoolWait → State → State × List CompId
  | [], s => (s, [])
  | w :: l, s =>
    match w.who with
    | .pos _ => (s, [])
    | .comp c =>
      let e := s.grantOf (.comp c)
      if e.demand ≤ s.freeCapacity then
        let s := setGrant (.comp c) e.demand (dropWait (.comp c) (budgetChanged .served s))
        let r := serveComps l s
        (r.1, c :: r.2)
      else (s, [])

/-- The three passes on the grant table and the wait list; none is made while the ESD latch is set (R115).
Answers the fills and the compressors served. -/
def redistributePasses (s : State) : State × List PosId × List CompId :=
  if s.esd.latched then (s, [], [])
  else
    let s := raiseDerated s
    let r2 := serveFills s.cooling.wait s
    let r3 := serveComps r2.1.cooling.wait r2.1
    (r3.1, r2.2, r3.2)

/-- The holders are told: a served fill resolves its hold, a served compressor assigns a bank (R116). Answers
whether a compressor handed its grant back. -/
def tellServed (fills : List PosId) (comps : List CompId) (s : State) : State × Bool :=
  let s := fills.foldl (fun s p => checksCD p s) s
  comps.foldl (fun r c =>
    let q := startRefill c r.1
    (q.1, r.2 || q.2)) (s, false)

/-- Redistribution, repeated after a hand-back (R85, R116). Each round after the first follows a hand-back,
which takes a compressor out of COOLING_WAIT for good, so `rounds` = 3 is enough for two compressors. -/
def redistributeN : Nat → State → State
  | 0, s => s
  | n + 1, s =>
    let r := redistributePasses s
    let t := tellServed r.2.1 r.2.2 r.1
    if t.2 then redistributeN n t.1 else t.1

def redistribute (s : State) : State := redistributeN 3 s

/-- R114: a holder releases its grant; a redistribution follows a release of a grant above 0. -/
def releaseGrant (r : Requester) (s : State) : State :=
  if (s.grantOf r).grant = 0 then s
  else redistribute (setGrant r 0 (budgetChanged .release s))

/-- R114: a requester leaves the cooling wait list other than by service; a redistribution follows. -/
def departWait (r : Requester) (s : State) : State :=
  if s.cooling.wait.any (fun w => w.who == r) then
    redistribute (dropWait r (budgetChanged .departed s))
  else s

/-- R112: the request of a cooled fill below its floor, answered at once or by a place behind the last FILL
entry (R111). Answers whether it was served. The budget notice names SERVED for a request granted at once and
REQUEST for one that joins the list (notes/assumptions/34.md). -/
def fillAsks (p : PosId) (s : State) : State × Bool :=
  let e := s.grantOf (.pos p)
  let fillWaits := s.cooling.wait.any (fun w => isFill w.who)
  if !fillWaits && decide (e.floor ≤ s.freeCapacity) then
    (grantFill p (min e.demand s.freeCapacity) (budgetChanged .served s), true)
  else
    let s := budgetChanged .request s
    let wait := s.cooling.wait.filter (fun w => isFill w.who) ++ [(⟨.pos p, s.clock⟩ : CoolWait)]
      ++ s.cooling.wait.filter (fun w => !isFill w.who)
    ({ s with cooling := { s.cooling with wait := wait } }, false)

/-! ### Lanes: the fills on a lane and the warm test (R102) -/

/-- A counted fill of the lane: a cooled class, attached, in PULSE, LEAKCHECK, RAMP or HOLD (R102). -/
def counted (s : State) (l : LaneId) (p : PosId) : Bool :=
  (s.pos p).lane == some l && endable (s.pos p).state && ((s.pos p).cls.map cooled).getD false

/-- A class is warm at a supply temperature: above its threshold + 20 (R102). -/
def warmAt (supply : Int) (k : ClassId) : Bool :=
  match (classRow k).threshold with
  | some t => decide (t + 20 < supply)
  | none => false

/-- A counted fill that is warm and whose class is not in the warm hold set (R102). -/
def unheldWarm (s : State) (l : LaneId) (p : PosId) : Bool :=
  counted s l p &&
    (match (s.lane l).supply, (s.pos p).cls with
     | some t, some k => warmAt t.value k && !(s.lane l).warmHold.getLsbD k
     | _, _ => false)

/-- R102: in READY the warm timer runs while an unheld warm fill is present. -/
def warmTest (l : LaneId) (s : State) : State :=
  if (s.lane l).state == .ready then
    if allPositions.any (unheldWarm s l) then
      s.modLane l (fun x => { x with warmTimer := some (x.warmTimer.getD 10000) })
    else s.modLane l (fun x => { x with warmTimer := none })
  else s

def warmTestOf (l : Option LaneId) (s : State) : State :=
  match l with
  | some l => warmTest l s
  | none => s

/-! ### Ending a fill (R27) -/

/-- R27: the first end request taken in PULSE, LEAKCHECK, RAMP or HOLD moves the position to ENDING; in any
other state it is ignored. A position that holds a bank stands in no draw wait list (R59), so it leaves the
list before it releases its bank. -/
def endFill (p : PosId) (reason : EndReason) (s : State) : State :=
  let old := s.pos p
  if endable old.state then
    let s := s.modPos p (fun x =>
      { x with state := .ending, endReason := some reason, holdReason := none, pulseState := none })
    let s := modRecord p (fun r => { r with endReason := some reason, finalPSet := old.ramp.pSet }) s
    let s := endSegment p .ended s
    let s := { s with drawList := s.drawList.filter (fun w => w.pos != p) }
    let s := releaseBank p s
    let s := departWait (.pos p) s
    let s := releaseGrant (.pos p) s
    let s := s.modPos p (fun x => { x with phaseTimer := some 3000, staleWatch := none })
    let s := s.modChan p (fun c =>
      { c with gateOpen := false, settleGate := some 2000, flowSince := none })
    let s := if old.picture == .closed then s else sendValve p s
    let s := fillState p s
    warmTestOf old.lane s
  else s

/-! ### The end of a refill (R82, R86 to R88) -/

/-- The last compressor of the cooling wait list (R82). -/
def lastWaitingComp (s : State) : Option CompId :=
  s.cooling.wait.foldl (fun last w => match w.who with | .comp c => some c | .pos _ => last) none

/-- R82: while entries are fewer than the compressors in COOLING_WAIT, the one that joined last goes READY. Its
notice is posted at the change (notes/assumptions/12.md). -/
def matchQueue : Nat → State → State
  | 0, s => s
  | n + 1, s =>
    if s.queue.length < s.coolingWaiters then
      match lastWaitingComp s with
      | some c =>
        let s := (flushWaitNotice c s).modComp c (fun x => { x with state := .ready, requestTime := none })
        let s := postCompState c .queueShort s
        matchQueue n (departWait (.comp c) s)
      | none => s
    else s

/-- R82: an entry leaves the queue other than by assignment. -/
def dequeue (b : BankId) (s : State) : State :=
  if s.queued b then matchQueue 2 { s with queue := s.queue.filter (fun e => e.bank != b) } else s

/-- The compressor leaves RUNNING: its bank, entry and start are made absent (R86 to R88). -/
def stopRunning (c : CompId) (state : CompState) (s : State) : State :=
  s.modComp c (fun x =>
    { x with state := state, bank := none, entryHeld := none, refillStart := none })

/-- R86: the running refill of a compressor is complete. Its COMPRESSOR_STATE is posted at step 6, after the
assignment pass, and carries the change it is for: the state READY, no refill, grant and queue length as they stood
before the pass (notes/assumptions/12.md). -/
def completeRefill (c : CompId) (stop : StopCause) (cause : CompCause) (s : State) : State :=
  match (s.comp c).bank with
  | none => s
  | some b =>
    let s := postDirective plantPort (.refillStop c b stop) s
    let s := if (s.bank b).state == .refilling then bankIdle b (moveBank b .idle none s) else s
    let s := stopRunning c .ready s
    let s := releaseGrant (.comp c) s
    postCompData c (compData c cause s) (assignmentPass s)

/-- R87: the running refill of a compressor is withdrawn and its bank re-enqueued with the entry held; one
assignment pass follows, at step 5, for a compressor that ends READY (notes/assumptions/15.md). COMPRESSOR_STATE is
posted after it, at step 6, with the data of the withdrawal (notes/assumptions/12.md). -/
def withdrawRefill (c : CompId) (stop : StopCause) (cause : CompCause) (next : CompState) (s : State) : State :=
  match (s.comp c).bank, (s.comp c).entryHeld with
  | some b, some e =>
    let s := postDirective plantPort (.refillStop c b stop) s
    let s :=
      if (s.bank b).state == .refilling then enqueueEntry e (offerPass [b] (moveBank b .idle none s)) else s
    let s := stopRunning c next s
    let s := releaseGrant (.comp c) s
    postCompData c (compData c cause s) (if next == .ready then assignmentPass s else s)
  | _, _ => s

/-- R88: a refill ends by loss of its bank. COMPRESSOR_STATE is posted at step 4, after the assignment pass, with
the data of the loss (notes/assumptions/12.md). -/
def loseBank (c : CompId) (s : State) : State :=
  let s := stopRunning c .ready s
  let s := releaseGrant (.comp c) s
  postCompData c (compData c .bankLost s) (assignmentPass s)

/-- A compressor leaves COOLING_WAIT for another state by a cause of its own (R83, R89, R90). The manual does not
say which queue length its notice shows; the model posts it at the change, before the redistribution of the departure
(notes/assumptions/12.md). -/
def leaveCoolingWait (c : CompId) (next : CompState) (cause : CompCause) (s : State) : State :=
  let s := (flushWaitNotice c s).modComp c (fun x => { x with state := next, requestTime := none })
  departWait (.comp c) (postCompState c cause s)

/-! ### Banks leaving service (R67) -/

/-- R19, R22, R67: a position loses the bank it held and asks again as a new waiter, with no bank excluded
(notes/assumptions/32.md). -/
def withdrawPosition (p : PosId) (s : State) : State :=
  let old := s.pos p
  let s := s.modPos p (fun x => { x with bank := none })
  match old.state with
  | .pulse =>
    let s := s.modPos p (fun x => { x with pulseState := some .waiting, phaseTimer := none })
    drawRequest p .pulse none (sendValve p s)
  | .ramp =>
    let s := drawRequest p .ramp none (endSegment p .bankWithdrawn s)
    if (s.pos p).bank.isSome then s else enterHold p .bank s
  | _ => s

/-- R67: the bank takes its new state, the holder is made absent, and a position that drew from it holds it no
longer. -/
def vacateBank (b : BankId) (next : BankState) (s : State) : State :=
  let t := moveBank b next none s
  match (s.bank b).state, (s.bank b).holder with
  | .drawing, some (.pos p) => t.modPos p (fun x => { x with bank := none })
  | _, _ => t

/-- R67: the bank, `old` before, has left service: its holder is told of the withdrawal or its refill is ended,
and the refill scheduler removes a queued entry. -/
def tellBankLeft (b : BankId) (old : Bank) (s : State) : State :=
  match old.state, old.holder with
  | .drawing, some (.pos p) => dequeue b (withdrawPosition p s)
  | .refilling, some (.comp c) => dequeue b (loseBank c (postDirective plantPort (.refillStop c b .bankLost) s))
  | _, _ => dequeue b s

/-- R67: a bank in IDLE, DRAWING or REFILLING enters LOCKED or OFFLINE. -/
def bankLeaves (b : BankId) (next : BankState) (s : State) : State :=
  tellBankLeft b (s.bank b) (vacateBank b next s)

/-! ### Shedding (R117, R118) -/

/-- Pass 1: compressor grants, newest first, until Σ grants fits. Answers those withdrawn. -/
def shedComps : List Requester → State → State × List CompId
  | [], s => (s, [])
  | .pos _ :: l, s => shedComps l s
  | .comp c :: l, s =>
    if s.cooling.capacity < s.sumGrants then
      let r := shedComps l (setGrant (.comp c) 0 s)
      (r.1, c :: r.2)
    else (s, [])

/-- Pass 2: fill grants above their floors are cut, newest first, by the excess still left. -/
def shedCuts : List Requester → State → State
  | [], s => s
  | .comp _ :: l, s => shedCuts l s
  | .pos p :: l, s =>
    let e := s.grantOf (.pos p)
    let excess := s.sumGrants - s.cooling.capacity
    if 0 < excess ∧ e.floor < e.grant then
      shedCuts l (tellDerated p (setGrant (.pos p) (e.grant - min excess (e.grant - e.floor)) s))
    else shedCuts l s

/-- Pass 3: fill grants go to 0, newest first. Answers the fills held, in the order taken. -/
def shedHolds : List Requester → State → State × List PosId
  | [], s => (s, [])
  | .comp _ :: l, s => shedHolds l s
  | .pos p :: l, s =>
    if s.cooling.capacity < s.sumGrants then
      let r := shedHolds l (setGrant (.pos p) 0 s)
      (r.1, p :: r.2)
    else (s, [])

/-- A fill held by shedding: from RAMP under R23, from another hold under R24. It already stands in the
cooling wait list. -/
def holdByShedding (p : PosId) (s : State) : State :=
  match (s.pos p).state with
  | .ramp => holdFromRamp p .cooling s
  | .hold =>
    enterHold p .cooling { s with drawList := s.drawList.filter (fun w => w.pos != p) }
  | _ => s

/-- R117, R118: the capacity has been replaced and lies below Σ grants. Table first, then redistribution when
capacity is left, then the holders are told: those shed, newest first, then those served. -/
def shed (s : State) : State :=
  let s := budgetChanged .shed s
  let r1 := shedComps s.cooling.order.reverse s
  let s2 := shedCuts r1.1.cooling.order.reverse r1.1
  let r3 := shedHolds s2.cooling.order.reverse s2
  let s := r3.1
  let group := r3.2.reverse.map (fun p => (⟨.pos p, s.clock⟩ : CoolWait))
  let s := { s with cooling := { s.cooling with wait := group ++ s.cooling.wait } }
  let r : State × List PosId × List CompId :=
    if 0 < s.freeCapacity then redistributePasses s else (s, [], [])
  let s := r1.2.foldl (fun s c => withdrawRefill c .shed .shed .ready s) r.1
  let s := r3.2.foldl (fun s p => holdByShedding p s) s
  let t := tellServed r.2.1 r.2.2 s
  if t.2 then redistribute t.1 else t.1

/-! ### Lanes (chapter 05) -/

/-- LANE_STATE to the plant and to the owning island: state, enables, fault causes, supply, SENSOR_RANGE,
warm hold set, counted fills, cause (R106). -/
def postLaneState (l : LaneId) (cause : LaneCause) (s : State) : State :=
  let x := s.lane l
  postNotice .laneState l.val
    [.byte (some x.state.code), .flag x.plantEnable, .flag x.islandEnable, .bits (faultBits x),
      .temp (x.supply.map (·.value)), .flag x.sensorRange, .bits (classBits x.warmHold),
      .byte (some (allPositions.filter (counted s l)).length), .byte (some cause.code)]
    (plantPort :: (x.config.map (fun g => (⟨g.owner.val, by omega⟩ : PortId))).toList) s

/-- Entry to PULLDOWN: 600 000 ms to show a cold report (R97). -/
def enterPulldown (l : LaneId) (cause : LaneCause) (s : State) : State :=
  postLaneState l cause (s.modLane l (fun x => { x with state := .pulldown, pulldownTimer := some 600000 }))

/-- R101: the lane leaves READY; its cooled fills end with LANE_LOST in position order. -/
def laneLeavesReady (l : LaneId) (next : LaneState) (cause : LaneCause) (s : State) : State :=
  let s := s.modLane l (fun x => { x with staleWatch := none, warmTimer := none })
  let s := allPositions.foldl (fun s p => if counted s l p then endFill p .laneLost s else s) s
  postLaneState l cause (s.modLane l (fun x =>
    { x with state := next, warmHold := 0#6, warmTimer := none }))

/-- R95: an enable that was absent has become present. -/
def enablePresent (l : LaneId) (s : State) : State :=
  let x := s.lane l
  if x.plantEnable && x.islandEnable && x.state == .off then
    if x.faultPulldown || x.faultStale then
      postLaneState l .enabled (s.modLane l (fun x => { x with state := .fault }))
    else enterPulldown l .enabled s
  else s

/-- R95: an enable that was present has been withdrawn (its flag is already clear). -/
def enableWithdrawn (l : LaneId) (s : State) : State :=
  match (s.lane l).state with
  | .off => s
  | .pulldown =>
    postLaneState l .withdrawn (s.modLane l (fun x => { x with state := .off, pulldownTimer := none }))
  | .ready => laneLeavesReady l .off .withdrawn s
  | .fault => postLaneState l .withdrawn (s.modLane l (fun x => { x with state := .off }))

/-- The plant enable of a lane takes a value; a value equal to the one held changes nothing (R94). -/
def setPlantEnable (l : LaneId) (v : Bool) (s : State) : State :=
  if (s.lane l).plantEnable == v then s
  else
    let s := s.modLane l (fun x => { x with plantEnable := v })
    if v then enablePresent l s else enableWithdrawn l s

/-- The island enable of a lane takes a value (R94). -/
def setIslandEnable (l : LaneId) (v : Bool) (s : State) : State :=
  if (s.lane l).islandEnable == v then s
  else
    let s := s.modLane l (fun x => { x with islandEnable := v })
    if v then enablePresent l s else enableWithdrawn l s

/-! ### Entry to UNAVAILABLE (R2, R32, R109) -/

/-- Every later entry to UNAVAILABLE: the record and the ramp generator take their reset values, the lane
attachment is kept, demand and floor go to 0. -/
def makeUnavailable (p : PosId) (s : State) : State :=
  let s := s.modPos p (fun x => { Position.initial with lane := x.lane })
  let s := { s with drawList := s.drawList.filter (fun w => w.pos != p) }
  s.setGrantOf (.pos p) { s.grantOf (.pos p) with demand := 0, floor := 0 }

end Sys2Proof.Machine
end

