-- ==== Sys2Proof/Machine/Billing.lean ====
section
/-! DEFINITION. The billing unit (chapter 08): the tariff lookup, amounts, presets and the billed value, the
opening, the close and the recovery of a transaction record, the time of day. -/

namespace Sys2Proof.Machine

/-! ### Time of day (R139) -/

/-- One second of the time of day, over midnight and over day 65 535 (R139). -/
def TimeOfDay.tick (t : TimeOfDay) : TimeOfDay :=
  if t.second + 1 < 86400 then { t with second := t.second + 1 }
  else { t with second := 0, day := if t.day + 1 < 65536 then t.day + 1 else 0 }

/-! ### The tariff lookup (R142) -/

/-- The window of an entry holds a time of day (R142). -/
def Tariff.windowHolds (t : Tariff) (now : TimeOfDay) : Bool :=
  if t.allDay then true
  else if !now.set then false
  else if t.windowStart < t.windowEnd then
    decide (t.windowStart ≤ now.second) && decide (now.second < t.windowEnd)
  else decide (t.windowStart ≤ now.second) || decide (now.second < t.windowEnd)

/-- The entry matches a class at a time of day (R142). -/
def Tariff.matchesAt (t : Tariff) (k : ClassId) (now : TimeOfDay) : Bool :=
  t.valid && t.classes.getLsbD k && t.windowHolds now

/-- The tariff lookup of a class: the matching entry of the lowest number (R142). -/
def tariffLookup (d : StoreData) (k : ClassId) (now : TimeOfDay) : Option Tariff :=
  d.tariffs.toList.find? (fun t => t.matchesAt k now)

/-! ### Amounts and presets (R144 to R146) -/

/-- The amount of a mass at a price (R144). -/
def amountOf (mass price : Nat) : Nat := rne (mass * price) 1000000

/-- The preset check (R145). -/
def Preset.reached (x : Preset) (mass amount : Nat) : Bool :=
  match x with
  | .none => false
  | .mass g => decide (g ≤ mass)
  | .amount m => decide (m ≤ amount)

/-- The billed value of an amount (R146). -/
def Preset.billed (x : Preset) (amount : Nat) : Nat :=
  match x with
  | .amount m => min amount m
  | .none | .mass _ => amount

/-- The overrun mass (R146). -/
def Preset.overrun (x : Preset) (mass : Nat) (presetMass : Option Nat) : Nat :=
  match x with
  | .none => 0
  | .mass g => mass - g
  | .amount _ =>
    match presetMass with
    | some m => mass - m
    | .none => 0

/-- Mass, amount, billed, OVERRUN and overrun mass of a record from a mass (R144, R146). -/
def TxnRecord.bill (r : TxnRecord) (mass : Nat) : TxnRecord :=
  let amount := amountOf mass r.price
  let billed := r.preset.billed amount
  { r with
    mass := mass
    amount := amount
    billed := billed
    overrunMass := r.preset.overrun mass r.presetMass
    flags := { r.flags with overrun := r.flags.overrun || decide (billed < amount) } }

/-- The preset mass is recorded at the first passing check (R145). -/
def TxnRecord.notePreset (r : TxnRecord) (mass : Nat) : TxnRecord :=
  if r.preset.reached mass (amountOf mass r.price) then
    { r with presetMass := some (r.presetMass.getD mass) }
  else r

/-- Stage 5 of a meter update on the record: amount, preset check, billed value and overrun (R150). -/
def TxnRecord.update (r : TxnRecord) (mass : Nat) : TxnRecord := (r.notePreset mass).bill mass

/-- The preset check of the open record of a position passes at a mass (R145). -/
def presetReached (s : State) (p : PosId) (mass : Nat) : Bool :=
  match s.openRecord p with
  | some r => r.preset.reached mass (amountOf mass r.price)
  | none => false

/-! ### Totals and the close (R153, R154) -/

/-- A total takes an addition, modulo 10^12 (R153). -/
def addTotal (total n : Nat) : Nat := (total + n) % 1000000000000

/-- The totals with a closed record added (R153). -/
def Totals.add (t : Totals) (r : TxnRecord) : Totals where
  posMass := t.posMass.set r.pos (addTotal t.posMass[r.pos] r.mass)
  classMass := t.classMass.set r.cls (addTotal t.classMass[r.cls] r.mass)
  classBilled := t.classBilled.set r.cls (addTotal t.classBilled[r.cls] r.billed)
  grandMass := addTotal t.grandMass r.mass
  grandBilled := addTotal t.grandBilled r.billed
  highestClosed := max t.highestClosed r.number

/-- A completed record is closed by one store operation with the totals (R153, R180). -/
def closeSlot (i : SlotId) (r : TxnRecord) (s : State) : State :=
  let s := s.setSlot i (.txn r)
  let s := { s with work := { s.work with totals := s.work.totals.add r } }
  issue [.slot i (.txn r), .totals s.work.totals] s

/-- The tank data handed at the close of a fill that was COMM at START: of the last taken report, else of the
last valid one (R54). -/
def RampGenerator.closingReport (g : RampGenerator) : Option VehicleReport :=
  match g.lastTaken with
  | some r => some r
  | none => g.lastValid.map (·.report)

/-- R153: the record completed at the close, its mass, amount and billed being those of the closing update. -/
def TxnRecord.complete (r : TxnRecord) (g : RampGenerator) (now : Stamp) : TxnRecord :=
  { r with
    state := .closed
    endTime := some now
    flags := { r.flags with degraded := r.flags.degraded || g.degraded }
    tankVolume := if r.mode == .comm then g.closingReport.map (·.volume) else r.tankVolume
    tankTemp := if r.mode == .comm then g.closingReport.map (·.temperature) else r.tankTemp }

/-- The close of the open transaction of a position (R153). -/
def closeTransaction (p : PosId) (s : State) : State :=
  match s.openSlot p with
  | none => s
  | some i =>
    match s.slot i with
    | .free => s
    | .txn r => closeSlot i (r.complete (s.pos p).ramp s.stamp) s

/-! ### Recovery (R184) -/

/-- A segment with no end takes the checkpoint mass and cause END; its pressure at end stays absent (R184). -/
def Segment.recover (x : Segment) (mass : Nat) : Segment :=
  if x.cause.isNone then { x with massEnd := some mass, cause := some .ended } else x

/-- An OPEN record completed from its stored content (R184). -/
def TxnRecord.recover (r : TxnRecord) (now : Stamp) : TxnRecord :=
  let r := r.bill r.checkpointMass
  { r with
    state := .closed
    endReason := some .powerInterrupted
    flags := { r.flags with interrupted := true }
    endTime := some now
    segments := r.segments.map (fun x => x.recover r.checkpointMass) }

/-- TXN_RECOVERED to the till: number, auth tag, mass, amount, billed, start and end time (R184). -/
def postRecovered (r : TxnRecord) (s : State) : State :=
  postNotice .txnRecovered r.pos.val
    ([.word (some r.number), .raw r.tag, .word (some r.mass), .word (some r.amount),
      .word (some r.billed)] ++ stampFields (some r.startTime) ++ stampFields r.endTime)
    [tillPort] s

/-- The number of the OPEN record in a slot. -/
def Slot.openNumber : Slot → Option Nat
  | .txn r => if r.state == .opened then some r.number else none
  | .free => none

/-- Insertion of a slot in the order of transaction number. -/
def insertByNumber (i : SlotId) (n : Nat) : List (SlotId × Nat) → List (SlotId × Nat)
  | [] => [(i, n)]
  | (j, m) :: l => if n < m then (i, n) :: (j, m) :: l else (j, m) :: insertByNumber i n l

/-- The slots that hold OPEN records, in the order of transaction number (R184). -/
def openSlots (d : StoreData) : List SlotId :=
  (allSlots.foldl (fun l i =>
    match (d.slots[i]).openNumber with
    | some n => insertByNumber i n l
    | none => l) []).map (·.1)

/-- One recovery close with its notice (R184). -/
def recoverSlot (i : SlotId) (s : State) : State :=
  match s.slot i with
  | .free => s
  | .txn r =>
    let r := r.recover s.stamp
    postRecovered r (closeSlot i r s)

/-! ### Reading records (R155) -/

/-- The slot that holds a transaction number. -/
def State.slotOf (s : State) (number : Nat) : Option SlotId :=
  allSlots.find? (fun i => match s.slot i with | .txn r => r.number == number | .free => false)

/-- The collectable CLOSED records (R153). -/
def State.collectables (s : State) : List SlotId := allSlots.filter s.collectable

def Slot.number : Slot → Nat
  | .txn r => r.number
  | .free => 0

/-- The collectable CLOSED record of the lowest number (R155). -/
def State.oldestCollectable (s : State) : Option SlotId :=
  s.collectables.foldl (fun best i =>
    match best with
    | none => some i
    | some j => if (s.slot i).number < (s.slot j).number then some i else some j) none

end Sys2Proof.Machine
end

