-- ==== Sys2Proof/Machine/Ramp.lean ====
section
/-! DEFINITION. The ramp generator (chapter 02): the target at RAMP entry, the consumption of vehicle
reports, the degrade, the ramp step and the vehicle update. -/

namespace Sys2Proof.Machine

/-- The ramp table entry of a class and band (section 2.1). -/
def State.rampEntry (s : State) (k : ClassId) (b : BandId) : Option RampEntry := (s.rampTable[k])[b]

/-! ### RAMP entry (R21, R36) -/

/-- R36 to R38: band, entry in use, last taken report and P_target are fixed; P_set is the dispenser
pressure, and P_target when the dispenser pressure has reached it (R21 check (a)). -/
def fixTarget (p : PosId) (k : ClassId) (s : State) : State :=
  s.modPos p (fun x =>
    let band := bandOf s.clock s.ambient
    let inUse := match s.rampEntry k band with
      | some e => some e
      | none => x.ramp.startEntry
    let taken := if x.mode == some .comm then x.ramp.lastValid.map (·.report) else x.ramp.lastTaken
    let target := match x.mode, taken with
      | some .comm, some r => commTarget k r.temperature
      | _, _ => (inUse.map (·.pnc)).getD 0
    { x with ramp := { x.ramp with
        band := some band
        inUse := inUse
        lastTaken := taken
        pTarget := some target
        pSet := some (min (heldPressure x) target) } })

/-- The end reason of a target reached: SOC_REACHED in COMM, TARGET_REACHED in NONCOMM (R21, R41). -/
def targetReason (x : Position) : EndReason := if x.mode == some .comm then .socReached else .targetReached

/-- The RAMP entry checks of a fill whose leak test has passed (R21). -/
def rampEntryChecks (p : PosId) (s : State) : State :=
  match (s.pos p).cls with
  | none => s
  | some k =>
    let s := fixTarget p k s
    let x := s.pos p
    if x.ramp.pTarget.getD 0 ≤ heldPressure x then endFill p (targetReason x) s
    else
      let e := s.grantOf (.pos p)
      if cooled k && decide (e.grant < e.floor) then
        let r := fillAsks p s
        if r.2 then checksCD p r.1 else enterHold p .cooling r.1
      else checksCD p s

/-! ### Vehicle reports (R47 to R54) -/

/-- A report joins the buffer; the fifth displaces the oldest, which is a drop (R48). -/
def RampGenerator.push (g : RampGenerator) (r : VehicleReport) : RampGenerator :=
  if g.buffer.length < 4 then { g with buffer := g.buffer ++ [r] }
  else { g with buffer := g.buffer.drop 1 ++ [r], drops := satSucc g.drops }

/-- R50: the consumption of the buffer. The newest report is taken and the others are drops; an empty buffer
reuses the last taken report and is a hold. -/
def RampGenerator.consume (g : RampGenerator) : RampGenerator :=
  match g.buffer.getLast? with
  | some r =>
    { g with
      lastTaken := some r
      drops := satAdd g.drops (g.buffer.length - 1)
      buffer := []
      consecutiveHolds := 0 }
  | none =>
    { g with
      holds := satSucc g.holds
      consecutiveHolds := min (g.consecutiveHolds + 1) 3 }

/-- What a consumption asks for (R51, R52). A temperature at or above 850 and ABORT come first; at the third
empty consumption in a row a COMM fill degrades, and the reused HALT no longer acts
(notes/assumptions/23.md). -/
inductive VehicleAction
  | endWith (reason : EndReason)
  | degrade
  | hold
  | resume
  | nothing
  deriving DecidableEq, Repr

/-- The action of the report of a consumption, by the mode at the consumption (R51, R52); `x` is the position
after it. -/
def vehicleAction (x : Position) : VehicleAction :=
  let comm := x.mode == some .comm
  let degrades := comm && x.ramp.consecutiveHolds == 3
  match x.ramp.lastTaken with
  | some r =>
    if 850 ≤ r.temperature then .endWith .vehicleTemp
    else if r.command == .abort then .endWith .vehicleAbort
    else if degrades then .degrade
    else if comm && r.command == .halt then .hold
    else if comm then .resume
    else .nothing
  | none => if degrades then .degrade else .nothing

/-- A consumption at a position (R50). -/
def consumeAt (p : PosId) (s : State) : State := s.modPos p (fun x => { x with ramp := x.ramp.consume })

/-- VEHICLE_DEGRADED to the till and the owning island (R54); drops and holds are sent in 2 bytes each
(notes/assumptions/35.md). -/
def postDegraded (p : PosId) (s : State) : State :=
  let x := s.pos p
  postNotice .vehicleDegraded p.val
    [.raw x.tag, .word x.transaction, .half x.ramp.pTarget, .half (some x.ramp.drops), .half (some x.ramp.holds)]
    [tillPort, islandPort p] s

/-- R52: the degrade. -/
def degrade (p : PosId) (s : State) : State :=
  let x := s.pos p
  let pnc := (x.ramp.inUse.map (·.pnc)).getD 0
  let pSet := x.ramp.pSet.getD 0
  let above := decide (pnc < pSet)
  let s := s.modPos p (fun x =>
    { x with
      mode := some .noncomm
      ramp := { x.ramp with degraded := true, pTarget := some (if above then pSet else pnc) } })
  let s := modRecord p (fun r => { r with flags := { r.flags with degraded := true } }) s
  let s := if above then endFill p .targetReached s else s
  postDegraded p s

/-! ### The ramp step (R40 to R46) -/

/-- R22: the position leaves its bank at a switch and asks again; the bank it left is excluded while it is
still IDLE (R73). -/
def switchBank (p : PosId) (cause : SegmentEnd) (s : State) : State :=
  match (s.pos p).bank with
  | none => s
  | some b =>
    let s := releaseBank p (endSegment p cause s)
    let s := drawRequest p .ramp (if (s.bank b).state == .idle then some b else none) s
    if (s.pos p).bank.isSome then s else enterHold p .bank s

/-- The last reported pressure of a bank, 0 without a report. -/
def State.bankPressure (s : State) (b : BankId) : Nat := ((s.bank b).report.map (·.pressure)).getD 0

/-- R45: the effective rate. -/
def effectiveRate (k : ClassId) (aprr grant demand : Nat) : Nat :=
  if cooled k then aprr * grant / demand else aprr

/-- R46: the new set-point. -/
def nextSetPoint (pSet pTarget rate bank margin : Nat) : Nat :=
  max pSet (min (min (pSet + rate) pTarget) (bank - margin))

/-- Stage 5: the new set-point and its FLOW directive (R45, R46). -/
def setPointStage (p : PosId) (k : ClassId) (b : BankId) (s : State) : State :=
  let e := s.grantOf (.pos p)
  sendValve p (s.modPos p (fun x =>
    let aprr := (x.ramp.inUse.map (·.aprr)).getD 0
    { x with ramp := { x.ramp with
        pSet := some (nextSetPoint (x.ramp.pSet.getD 0) (x.ramp.pTarget.getD 0)
          (effectiveRate k aprr e.grant e.demand) (s.bankPressure b) s.margin) } }))

/-- Stage 4: the pressure test, then the low-flow test; a switch ends the step (R42, R43). -/
def switchStage (p : PosId) (k : ClassId) (b : BankId) (mass : Nat) (s : State) : State :=
  let x := s.pos p
  if s.bankPressure b < heldPressure x + s.margin then
    switchBank p .switchPressure (s.modPos p (fun x => { x with ramp := { x.ramp with lowFlow := 0 } }))
  else
    let low := decide (mass - x.ramp.previousMass < s.switchMass) &&
      decide (x.ramp.pSet.getD 0 < x.ramp.pTarget.getD 0)
    let count := if low then x.ramp.lowFlow + 1 else 0
    if 2 ≤ count then
      switchBank p .switchFlow (s.modPos p (fun x => { x with ramp := { x.ramp with lowFlow := 0 } }))
    else
      setPointStage p k b (s.modPos p (fun x => { x with ramp := { x.ramp with lowFlow := count } }))

/-- Stage 3: the end test (R41). -/
def endTest (x : Position) : Bool :=
  let target := x.ramp.pTarget.getD 0
  (x.ramp.pSet == x.ramp.pTarget && decide (target ≤ heldPressure x + 20)) ||
    (x.mode == some .comm &&
      (match x.ramp.lastTaken with
       | some r => decide (target ≤ r.pressure)
       | none => false))

/-- Stages 3 to 5 of a ramp step. -/
def stages3to5 (p : PosId) (k : ClassId) (b : BankId) (mass : Nat) (s : State) : State :=
  let x := s.pos p
  if endTest x then endFill p (targetReason x) s else switchStage p k b mass s

/-- Stage 2 and the stages after it: a COMM fill recomputes its target (R39). -/
def stages2to5 (p : PosId) (k : ClassId) (b : BankId) (mass : Nat) (s : State) : State :=
  let x := s.pos p
  match x.mode, x.ramp.lastTaken with
  | some .comm, some r =>
    let target := commTarget k r.temperature
    let pSet := x.ramp.pSet.getD 0
    let s := s.modPos p (fun x => { x with ramp := { x.ramp with pTarget := some (max target pSet) } })
    if target < pSet then endFill p .socReached s else stages3to5 p k b mass s
  | _, _ => stages3to5 p k b mass s

/-- A ramp step with the billing mass of the update (R40). -/
def rampStep (p : PosId) (k : ClassId) (b : BankId) (mass : Nat) (s : State) : State :=
  let s := consumeAt p s
  match vehicleAction (s.pos p) with
  | .endWith reason => endFill p reason s
  | .degrade =>
    let s := degrade p s
    if (s.pos p).state == .ramp then stages2to5 p k b mass s else s
  | .hold => holdFromRamp p .vehicle s
  | .resume | .nothing => stages2to5 p k b mass s

/-- A vehicle update in HOLD(VEHICLE) (R53). -/
def vehicleUpdate (p : PosId) (s : State) : State :=
  let s := consumeAt p s
  match vehicleAction (s.pos p) with
  | .endWith reason => endFill p reason s
  | .degrade =>
    let s := degrade p s
    if (s.pos p).state == .hold then checksCD p s else s
  | .resume => checksCD p s
  | .hold | .nothing => s

end Sys2Proof.Machine
end

