-- ==== Sys2Proof/Machine/Meter.lean ====
section
/-! DEFINITION. The meter channels (chapter 07): edges, the stages of a meter update, the faults, the closing
update, the opening of a channel; and the close of a fill, which the closing update begins (R28). -/

namespace Sys2Proof.Machine

/-- One gram in units of the accumulator (R127). -/
def gramUnits : Nat := 65536000

/-- The greatest billing mass (R128). -/
def maxMass : Nat := 999999

/-- R124: a rising edge. -/
def Channel.edge (c : Channel) (now : Clock) : Channel :=
  if c.count < 65535 then
    { c with
      lastPulse := some now
      count := c.count + 1
      creepCount := if c.gateOpen then c.creepCount + 1 else c.creepCount
      overflow := c.overflow || decide (c.count + 1 = 65535) }
  else { c with lastPulse := some now }

/-- Stage 2: both accumulators (R127, R130); nothing is added to A while SATURATED is set (R128). -/
def Channel.accumulate (c : Channel) (cal : ChannelCal) : Channel :=
  { c with
    acc := if c.saturated then c.acc else c.acc + c.count * cal.weight * cal.factor
    creepAcc := c.creepAcc + c.creepCount * cal.weight * cal.factor }

/-- Stage 3 exceeds the range of the billing mass (R128). -/
def Channel.exceeds (c : Channel) : Bool := decide (maxMass < rne c.acc gramUnits)

/-- Stage 3: the billing mass, with the saturation clamp (R127, R128). -/
def Channel.weigh (c : Channel) : Channel :=
  if c.exceeds then { c with acc := maxMass * gramUnits, mass := maxMass, saturated := true }
  else { c with mass := rne c.acc gramUnits }

/-- Stages 1 to 3: counts taken and cleared, accumulators, mass (R126). -/
def Channel.take (c : Channel) (cal : ChannelCal) : Channel :=
  { (c.accumulate cal).weigh with count := 0, creepCount := 0, overflow := false }

/-- R130: the creep mass is above the limit, compared exactly. -/
def Channel.creepAbove (c : Channel) (limit : Nat) : Bool := decide (limit * gramUnits < c.creepAcc)

/-- R132: the stall test. -/
def Channel.stalled (c : Channel) (now : Clock) : Bool :=
  (match c.flowSince with
   | some t => decide (5000 ≤ age now t)
   | none => false) &&
  (match c.lastPulse with
   | some t => decide (5000 < age now t)
   | none => true)

/-- R134: the channel at the opening of a transaction; the last-pulse time is kept. -/
def Channel.opening (c : Channel) : Channel := { Channel.initial with lastPulse := c.lastPulse }

/-- The calibration of a channel, from the working copy (section 7.1). -/
def State.cal (s : State) (p : PosId) : ChannelCal := s.work.calibration.channels[p]

/-- Stages 1 to 3 at a channel; the billing unit is told SATURATED when the clamp is made (R128). -/
def meterTake (p : PosId) (s : State) : State :=
  let clamped := ((s.chan p).accumulate (s.cal p)).exceeds
  let s := s.modChan p (fun c => c.take (s.cal p))
  if clamped then modRecord p (fun r => { r with flags := { r.flags with saturated := true } }) s else s

/-- CREEP is set once, on the channel and on the open record (R130). -/
def tellCreep (p : PosId) (s : State) : State :=
  if (s.chan p).creepAbove s.creepLimit && !(s.chan p).creep then
    modRecord p (fun r => { r with flags := { r.flags with creep := true } })
      (s.modChan p (fun c => { c with creep := true }))
  else s

/-- The creep test of stage 4, by the state of the position (R130). -/
def creepTest (p : PosId) (state : PosState) (s : State) : State :=
  match state with
  | .leakCheck => if (s.chan p).creepAbove s.creepLimit then endFill p .leak s else s
  | .hold | .ending => tellCreep p s
  | _ => s

/-- Stage 4: saturation, overflow, creep, stall, in that order (R126, R128 to R133). `before` is the channel
as the update found it. The tests read the state of the position at the start of the stage
(notes/assumptions/19.md). -/
def meterFaults (p : PosId) (before : Channel) (s : State) : State :=
  let state := (s.pos p).state
  let stalled := state == .ramp && (s.chan p).stalled s.clock
  let s := if (before.accumulate (s.cal p)).exceeds then endFill p .massSaturated s else s
  let s := if before.overflow then endFill p .meterFault s else s
  let s := creepTest p state s
  if stalled then endFill p .meterFault s else s

/-- Stage 5: the billing unit takes the mass, and may raise PRESET_REACHED (R133, R144 to R146, R150). -/
def meterBill (p : PosId) (s : State) : State :=
  let mass := (s.chan p).mass
  let reached := presetReached s p mass
  let s := modRecord p (fun r => r.update mass) s
  if reached then endFill p .presetReached s else s

/-- Stage 6: the crossing test (R136). -/
def meterCross (p : PosId) (old : Nat) (s : State) : State :=
  if old / 100 < (s.chan p).mass / 100 then checkpoint p [] s else s

/-- The drawn mass of the bank the position draws from (R75). -/
def setDrawn (p : PosId) (s : State) : State :=
  match (s.pos p).bank with
  | some b =>
    if (s.bank b).state == .drawing then
      s.modBank b (fun x => { x with drawnMass := (s.chan p).mass - x.massAtGrant })
    else s
  | none => s

/-- The previous mass, recorded after any ramp step has used the old one (R40, R133). -/
def setPrevious (p : PosId) (s : State) : State :=
  s.modPos p (fun x => { x with ramp := { x.ramp with previousMass := (s.chan p).mass } })

/-- Stage 7: the drawn mass, then the work of the position by its state (R10, R133). -/
def meterComplete (p : PosId) (s : State) : State :=
  let s := setDrawn p s
  let x := s.pos p
  let s :=
    match x.state, x.bank, x.holdReason, x.cls with
    | .ramp, some b, _, some k => rampStep p k b (s.chan p).mass s
    | .hold, _, some .vehicle, _ => vehicleUpdate p s
    | _, _, _, _ => s
  setPrevious p s

/-- A meter update (R126). -/
def meterUpdate (p : PosId) (s : State) : State :=
  let before := s.chan p
  let s := meterTake p s
  let s := meterFaults p before s
  let s := meterBill p s
  let s := meterCross p before.mass s
  meterComplete p s

/-- The closing update: the same stages without end requests, checkpoint and ramp work; the settle gate timer
stops and the gate is SHUT (R135). -/
def closingUpdate (p : PosId) (s : State) : State :=
  let s := tellCreep p (meterTake p s)
  let s := modRecord p (fun r => r.update (s.chan p).mass) s
  let s := setPrevious p s
  s.modChan p (fun c => { c with gateOpen := false, settleGate := none })

/-- R28: the close of a fill at settle expiry. The start entry is absent outside a fill (section 2.1). The
FILL_STATE of a close into UNAVAILABLE carries the class, mode and end reason of the fill: it is posted before the
record takes its reset values (notes/assumptions/30.md). -/
def closeFill (p : PosId) (s : State) : State :=
  let s := closeTransaction p (closingUpdate p s)
  let old := s.pos p
  let next : PosState :=
    if old.closePending == some .linkLost then .unavailable
    else if old.nozzle == .off then .idle else .finished
  let s := s.modPos p (fun x =>
    { x with
      state := next, periodTimer := none, phaseTimer := none, authorization := none
      ramp := { x.ramp with startEntry := none } })
  let s := postFillState p old.tag s
  if next == .unavailable then makeUnavailable p s else s

end Sys2Proof.Machine
end

