-- ==== Sys2Proof/Machine/Island.lean ====
section
/-! DEFINITION. The requests of the islands (chapters 01, 02, 05): one meaning per kind, each the screen of
R171, the owning rule and its one reply. -/

namespace Sys2Proof.Machine

/-- R3: a request of an island reaches a position of the receiving island alone. -/
def forOwn (port : PortId) (b : Byte) (f : PosId → State → State × Answer) (s : State) : State × Answer :=
  match idOf 8 b with
  | some p => if islandPort p = port then f p s else refuse .unknownSubject s
  | none => refuse .unknownSubject s

/-- R5: the checks and effect of POSITION_OPEN at a position. -/
def openPosition (hose high nozzle : Byte) (p : PosId) (s : State) : State × Answer :=
  if (s.pos p).state ≠ .unavailable then refuse .badState s
  else if (s.pos p).lane.isNone then refuse .notConfigured s
  else
    match hoseTypeOf hose, nozzleOf nozzle with
    | some kind, some n =>
      let s := s.modPos p (fun x =>
        { x with
          hose := some ⟨kind, flagOf high⟩
          nozzle := n
          state := if n == .off then .idle else .waitAuth })
      accept [] (sendValve p s)
    | _, _ => refuse .range s

/-- POSITION_OPEN (R5). -/
def execPositionOpen (port : PortId) (args : List Byte) (s : State) : Host.Outcome State Fault Refusal :=
  .next (takeRequest 0x10#8 port args (fun s =>
    match args with
    | [b, hose, high, nozzle] => forOwn port b (openPosition hose high nozzle) s
    | _ => refuse .range s) s)

/-- R6: POSITION_CLOSE by the state of the position. -/
def closePosition (p : PosId) (s : State) : State × Answer :=
  match (s.pos p).state with
  | .unavailable => refuse .badState s
  | .idle | .waitAuth => accept [] (makeUnavailable p s)
  | .waitNozzle | .ready => accept [] (makeUnavailable p (removeAuthorization p .closed s))
  | .pulse | .leakCheck | .ramp | .hold | .ending => refuse .busy s
  | .finished => accept [] (s.modPos p (fun x => { x with closePending := some .close }))

/-- POSITION_CLOSE (R6). -/
def execPositionClose (port : PortId) (args : List Byte) (s : State) : Host.Outcome State Fault Refusal :=
  .next (takeRequest 0x11#8 port args (fun s =>
    match args with
    | [b] => forOwn port b closePosition s
    | _ => refuse .range s) s)

/-- R15: the effect of a nozzle that has moved. -/
def moveNozzle (p : PosId) (n : Nozzle) (s : State) : State :=
  let old := s.pos p
  let s := s.modPos p (fun x => { x with nozzle := n })
  match n, old.state with
  | .on, .idle => s.modPos p (fun x => { x with state := .waitAuth })
  | .on, .waitNozzle => s.modPos p (fun x => { x with state := .ready })
  | .off, .waitAuth => s.modPos p (fun x => { x with state := .idle })
  | .off, .ready => s.modPos p (fun x => { x with state := .waitNozzle })
  | .off, .finished =>
    if old.closePending == some .close then makeUnavailable p s
    else s.modPos p (fun x => { x with state := .idle })
  | .off, _ => endFill p .nozzleOff s
  | .on, _ => s

/-- R15: the checks of NOZZLE; a report equal to the held value changes nothing. -/
def setNozzle (code : Byte) (p : PosId) (s : State) : State × Answer :=
  if (s.pos p).state = .unavailable then refuse .badState s
  else
    match nozzleOf code with
    | none => refuse .range s
    | some n => accept [] (if (s.pos p).nozzle = n then s else moveNozzle p n s)

/-- NOZZLE (R15). -/
def execNozzle (port : PortId) (args : List Byte) (s : State) : Host.Outcome State Fault Refusal :=
  .next (takeRequest 0x12#8 port args (fun s =>
    match args with
    | [b, code] => forOwn port b (setNozzle code) s
    | _ => refuse .range s) s)

/-! ### START (R16 to R18) -/

/-- Test 3 of the class filter: lane-usable (R17, R100). -/
def laneUsable (s : State) (p : PosId) (k : ClassId) : Bool :=
  !cooled k ||
    (match (s.pos p).lane with
     | some l =>
       (s.lane l).state == .ready && (s.lane l).classMap.getLsbD k &&
         (match (s.lane l).supply, (classRow k).threshold with
          | some t, some limit => decide (t.value ≤ limit)
          | _, _ => false)
     | none => false)

/-- The class filter keeps a class (R17). -/
def keepsClass (s : State) (p : PosId) (a : Authorization) (h : Hose) (k : ClassId) : Bool :=
  a.classes.getLsbD k && suits h k && laneUsable s p k && (tariffLookup s.work k s.tod).isSome
    && (s.rampEntry k (bandOf s.clock s.ambient)).isSome

/-- The class the filter chooses at a position, with the tariff entry it found (R17, R143). -/
def chooseClass (s : State) (p : PosId) : Option (ClassId × Tariff) :=
  match (s.pos p).authorization, (s.pos p).hose with
  | some a, some h =>
    match (preference h.kind).find? (keepsClass s p a h) with
    | some k =>
      match tariffLookup s.work k s.tod with
      | some t => some (k, t)
      | none => none
    | none => none
  | _, _ => none

/-- What the checks of R16 answer. -/
inductive StartCheck
  | refused (code : RefusalCode)
  | chosen (k : ClassId) (t : Tariff)
  deriving DecidableEq, Repr

/-- The checks of START in their order (R16). -/
def startCheck (s : State) (p : PosId) : StartCheck :=
  if s.esd.latched then .refused .esdActive
  else if (s.pos p).state ≠ .ready then .refused .badState
  else
    match freshAmbient s.clock s.ambient with
    | none => .refused .ambientLimit
    | some t =>
      if 500 < t then .refused .ambientLimit
      else
        match chooseClass s p with
        | some (k, t) => .chosen k t
        | none => .refused .noClass

/-- The mode decided at START (R49). -/
def startMode (now : Clock) (g : RampGenerator) : FillMode :=
  match g.lastValid with
  | some r => if age now r.arrived ≤ 2000 then .comm else .noncomm
  | none => .noncomm

/-- R32: the ramp generator at an accepted START. -/
def RampGenerator.starting (g : RampGenerator) (entry : Option RampEntry) : RampGenerator :=
  { RampGenerator.initial with startEntry := entry, lastValid := g.lastValid }

/-- R149: the record opened. -/
def openingRecord (n : Nat) (p : PosId) (k : ClassId) (a : Authorization) (m : FillMode) (price : Nat)
    (now : Stamp) : TxnRecord where
  number := n
  state := .opened
  pos := p
  cls := k
  tag := a.tag
  mode := m
  price := price
  startTime := now
  endTime := none
  initialPressure := none
  finalPSet := none
  mass := 0
  amount := 0
  billed := 0
  preset := a.preset
  presetMass := none
  overrunMass := 0
  endReason := none
  flags := ⟨false, false, false, false, false, false, false⟩
  checkpointMass := 0
  tankVolume := none
  tankTemp := none
  segments := []

/-- The demand of a fill of a class at a position (R109). -/
def fillDemand (s : State) (p : PosId) (k : ClassId) : Nat :=
  match (s.pos p).lane with
  | some l => classDemand k (((s.lane l).config.map (·.coefficient)).getD 0)
  | none => 0

/-- The steps of an accepted START in the slot `i` (R18, R32, R109, R134, R149, R162). -/
def startFill (p : PosId) (k : ClassId) (t : Tariff) (a : Authorization) (i : SlotId) (s : State) : State :=
  let n := s.work.nextNumber
  let m := startMode s.clock (s.pos p).ramp
  let demand := fillDemand s p k
  let entry := s.rampEntry k (bandOf s.clock s.ambient)
  let s := s.setSlot i (.txn (openingRecord n p k a m t.price s.stamp))
  let s := { s with work := { s.work with nextNumber := n + 1 } }
  let s := s.modChan p Channel.opening
  let s := s.modPos p (fun x =>
    { x with
      state := .pulse
      pulseState := some .waiting
      cls := some k
      mode := some m
      transaction := some n
      startTime := some s.clock
      endReason := none
      holdReason := none
      authorization := some { a with reservation := false }
      phaseTimer := none
      periodTimer := some 1000
      staleWatch := some 2000
      ramp := x.ramp.starting entry })
  let s := s.setGrantOf (.pos p)
    { s.grantOf (.pos p) with demand := demand, floor := demandFloor demand }
  let s := { s with tripped := s.tripped.set p false }
  let s := drawRequest p .pulse none s
  let s := fillStateWith p [.nextNumber (n + 1)] s
  warmTestOf (s.pos p).lane s

/-- START at a position: refused by R16, or accepted with class, mode and number, held on the opening write
(R18, R181). -/
def startPosition (p : PosId) (s : State) : State × Answer :=
  match startCheck s p with
  | .refused code => refuse code s
  | .chosen k t =>
    match (s.pos p).authorization, s.freeSlot with
    | some a, some i =>
      let n := s.work.nextNumber
      let s := startFill p k t a i s
      (s, .accepted [.byte (some k.val), .byte ((s.pos p).mode.map FillMode.code), .word (some n)]
        (some (.slot i)))
    | _, _ => refuse .storeFull s

/-- An accepted START finds no FREE slot, which R147 says cannot be (notes/assumptions/17.md). -/
def startWithoutSlot (port : PortId) (args : List Byte) (s : State) : Bool :=
  canTake port 0x13#8 args s && (screen port 0x13#8 args).isNone &&
    (match args with
     | [b] =>
       match idOf 8 b with
       | some p =>
         decide (islandPort p = port) && s.freeSlot.isNone &&
           (match startCheck s p with
            | .chosen _ _ => true
            | .refused _ => false)
       | none => false
     | _ => false)

/-- START (R16 to R18). -/
def execStart (port : PortId) (args : List Byte) (s : State) : Host.Outcome State Fault Refusal :=
  if startWithoutSlot port args s then .fault .noFreeSlot
  else
    .next (takeRequest 0x13#8 port args (fun s =>
      match args with
      | [b] => forOwn port b startPosition s
      | _ => refuse .range s) s)

/-- R26: STOP by the state of the position. -/
def stopPosition (p : PosId) (s : State) : State × Answer :=
  if endable (s.pos p).state then accept [] (endFill p .customerStop s)
  else if (s.pos p).state = .ending then accept [] s
  else refuse .badState s

/-- STOP (R26). -/
def execStop (port : PortId) (args : List Byte) (s : State) : Host.Outcome State Fault Refusal :=
  .next (takeRequest 0x14#8 port args (fun s =>
    match args with
    | [b] => forOwn port b stopPosition s
    | _ => refuse .range s) s)

/-! ### POSITION_REPORT (R7, R72, R162) -/

/-- OVERPRESSURE to the owning island and the plant (R162). -/
def postOverpressure (p : PosId) (k : ClassId) (s : State) : State :=
  let x := s.pos p
  postNotice .overpressure p.val
    [.raw x.tag, .word x.transaction, .byte (some k.val), .half (some (heldPressure x)), .flag x.sensorRange,
      .half (some (classRow k).pMax)]
    [islandPort p, plantPort] s

/-- R162: the overpressure trip of a fuelling position. -/
def overpressureTrip (p : PosId) (s : State) : State :=
  match (s.pos p).cls with
  | some k =>
    if fuelling (s.pos p).state && decide ((classRow k).pMax + 200 < heldPressure (s.pos p)) then
      let s := endFill p .overpressure s
      if s.tripped[p] then s else postOverpressure p k { s with tripped := s.tripped.set p true }
    else s
  | none => s

/-- R7: the report is held, the watch restarts, a waiter is tested again (R72), the trip is made (R162). The chapters
order these two nowhere; the model tests the waiter first (notes/assumptions/29.md). -/
def reportPressure (v : Nat) (p : PosId) (s : State) : State × Answer :=
  let old := s.pos p
  if old.state = .unavailable then refuse .badState s
  else
    let c := clampPressure v
    let s := s.modPos p (fun x =>
      { x with
        pressure := some ⟨c.1, s.clock⟩
        sensorRange := c.2
        staleWatch := if endable x.state then some 2000 else x.staleWatch })
    let s := if old.pressure.map (·.value) = some c.1 then s else retestWaiter p s
    accept [] (overpressureTrip p s)

/-- POSITION_REPORT (R7). -/
def execPositionReport (port : PortId) (args : List Byte) (s : State) : Host.Outcome State Fault Refusal :=
  .next (takeRequest 0x15#8 port args (fun s =>
    match args with
    | [b, lo, hi] => forOwn port b (reportPressure (u16 lo hi)) s
    | _ => refuse .range s) s)

/-! ### VEHICLE_DATA (R47, R48) -/

/-- R47: a valid report, clamped; none for an invalid one. -/
def vehicleReportOf (volume pressure : Nat) (temperature : Int) (command : Byte) : Option VehicleReport :=
  if volume < 10 ∨ 5000 < volume then none
  else
    match commandOf command with
    | none => none
    | some c =>
      let pr := clampPressure pressure
      let tp := clampTemp temperature
      some ⟨volume, pr.1, tp.1, c, pr.2 || tp.2⟩

/-- R47, R48: the report is judged at a position; the reply carries disposition, buffer count, drops, holds,
and the flag of a valid report. Drops and holds are sent in 2 bytes each (notes/assumptions/35.md). -/
def reportVehicle (r : Option VehicleReport) (p : PosId) (s : State) : State × Answer :=
  if (s.pos p).state = .unavailable then refuse .badState s
  else
    match r with
    | none =>
      let s := s.modPos p (fun x => { x with ramp := { x.ramp with drops := satSucc x.ramp.drops } })
      let g := (s.pos p).ramp
      accept [.byte (some 2), .byte (some g.buffer.length), .half (some g.drops), .half (some g.holds)] s
    | some r =>
      let full := decide (4 ≤ (s.pos p).ramp.buffer.length)
      let s := s.modPos p (fun x => { x with ramp := { x.ramp.push r with lastValid := some ⟨r, s.clock⟩ } })
      let g := (s.pos p).ramp
      accept [.byte (some (if full then 1 else 0)), .byte (some g.buffer.length), .half (some g.drops),
        .half (some g.holds), .flag r.sensorRange] s

/-- VEHICLE_DATA (R47). -/
def execVehicleData (port : PortId) (args : List Byte) (s : State) : Host.Outcome State Fault Refusal :=
  .next (takeRequest 0x16#8 port args (fun s =>
    match args with
    | [b, v0, v1, p0, p1, t0, t1, command] =>
      forOwn port b (reportVehicle (vehicleReportOf (u16 v0 v1) (u16 p0 p1) (i16 t0 t1) command)) s
    | _ => refuse .range s) s)

/-! ### LANE_ENABLE (R94) -/

/-- R94: the lane, its state, both enables and the fault causes. -/
def laneEnableReply (l : LaneId) (s : State) : State × Answer :=
  let x := s.lane l
  accept [.byte (some l.val), .byte (some x.state.code), .flag x.plantEnable, .flag x.islandEnable,
    .bits (faultBits x)] s

/-- R94: the checks and effect of LANE_ENABLE at a lane; the port decides which enable it names. -/
def laneEnable (port : PortId) (l : LaneId) (value : Byte) (s : State) : State × Answer :=
  match onOffOf value with
  | none => refuse .range s
  | some v =>
    match (s.lane l).config with
    | none => refuse .notConfigured s
    | some g =>
      if portRole port = .island then
        if g.owner.val ≠ port.val then refuse .unknownSubject s
        else laneEnableReply l (setIslandEnable l v s)
      else laneEnableReply l (setPlantEnable l v s)

/-- LANE_ENABLE, from the plant or an island (R94, R95). -/
def execLaneEnable (port : PortId) (args : List Byte) (s : State) : Host.Outcome State Fault Refusal :=
  .next (takeRequest 0x17#8 port args (fun s =>
    match args with
    | [b, value] =>
      match idOf 4 b with
      | none => refuse .unknownSubject s
      | some l => laneEnable port l value s
    | _ => refuse .range s) s)

end Sys2Proof.Machine
end

