-- ==== Sys2Proof/Machine/Links.lean ====
section
/-! DEFINITION. The events of the six links (chapter 10, R164): bytes and frames received, frames sent. -/

namespace Sys2Proof.Machine

/-- PORT_LOST, PORT_LATE or PORT_ALIVE to the plant and the till: role, interval, station clock (R164). -/
def postPortNotice (k : NoticeKind) (port : PortId) (s : State) : State :=
  postNotice k port.val
    [.byte (some (Role.code (portRole port))), .half (some (s.port port).supervision.interval), .raw s.clock]
    [plantPort, tillPort] s

/-- R164: a good frame refreshes its port's record. -/
def Port.refresh (x : Port) : Port :=
  { x with supervision := { x.supervision with
      count := 0, state := .alive, timer := some x.supervision.interval } }

/-- Bytes of length and body held in a receive buffer (R170). -/
def Port.buffered (x : Port) : Nat := (x.rxBuffer.map (fun b => b.length + 1)).sum

/-- R170: a good frame enters the buffer, or is discarded and counted OVERRUN. -/
def Port.receive (x : Port) (body : List Byte) : Port :=
  if x.buffered + (body.length + 1) ≤ 512 then { x with rxBuffer := x.rxBuffer ++ [body] }
  else { x with counters := { x.counters with overrun := x.counters.overrun + 1 } }

/-- A good frame: counted, the receiver hunts again, the record is refreshed with its notice, the frame is
buffered (R164, R169, R170). -/
def goodFrame (port : PortId) (body : List Byte) (s : State) : State :=
  let found := (s.port port).supervision.state
  let s := s.modPort port (fun x =>
    { x.refresh with rx := .hunting, counters := { x.counters with good := x.counters.good + 1 } })
  let s := if found == .late || found == .lost then postPortNotice .portAlive port s else s
  s.modPort port (fun x => x.receive body)

/-- GOOD_FRAME (R164, R169, R170). -/
def execGoodFrame (port : PortId) (body : List Byte) (s : State) : Host.Outcome State Fault Refusal :=
  .next (takeEvent (goodFrame port body) s)

/-- BAD_CHECK_FRAME (R169). -/
def execBadCheckFrame (port : PortId) (s : State) : Host.Outcome State Fault Refusal :=
  .next (takeEvent (fun s => s.modPort port (fun x =>
    { x with rx := .hunting, counters := { x.counters with badCheck := x.counters.badCheck + 1 } })) s)

/-- A frame in progress is discarded as a FRAGMENT; a receiver that hunts has none (R169). -/
def Port.fragment (x : Port) : Port :=
  match x.rx with
  | .inFrame =>
    { x with rx := .hunting, counters := { x.counters with fragment := x.counters.fragment + 1 } }
  | .hunting => x

/-- BAD_LENGTH_FRAGMENT: a length byte below 2 or above 250 (R169). -/
def execBadLengthFragment (port : PortId) (length : Byte) (s : State) : Host.Outcome State Fault Refusal :=
  .next (takeEvent (fun s =>
    if length.toNat < 2 ∨ 250 < length.toNat then s.modPort port Port.fragment else s) s)

/-- FRAME_GAP (R169). -/
def execFrameGap (port : PortId) (s : State) : Host.Outcome State Fault Refusal :=
  .next (takeEvent (fun s => s.modPort port Port.fragment) s)

/-- FRAME_SENT: the line is free, and the transmitter chooses the next frame (R172). -/
def execFrameSent (port : PortId) (s : State) : Host.Outcome State Fault Refusal :=
  .next (takeEvent (fun s => s.modPort port (fun x => { x with line := none })) s)

/-- SYNC_BYTE: a hunting receiver starts a frame; inside a frame it is data (R169). -/
def execSyncByte (port : PortId) (s : State) : Host.Outcome State Fault Refusal :=
  .next (takeEvent (fun s => s.modPort port (fun x => { x with rx := .inFrame })) s)

end Sys2Proof.Machine
end

