-- ==== Sys2Proof/Machine/Plant.lean ====
section
/-! DEFINITION. The requests of the plant (chapters 01 to 07, 09): one meaning per kind, each the screen of
R171, the owning rule and its one reply. -/

namespace Sys2Proof.Machine

/-- A request that names a bank; a number above 11 is refused (R56, R60 to R66, R81). -/
def forBank (b : Byte) (f : BankId → State → State × Answer) (s : State) : State × Answer :=
  match idOf 12 b with
  | some n => f n s
  | none => refuse .unknownSubject s

/-- A request that names a compressor; a number above 1 is refused (R83, R86, R87). -/
def forComp (b : Byte) (f : CompId → State → State × Answer) (s : State) : State × Answer :=
  match idOf 2 b with
  | some n => f n s
  | none => refuse .unknownSubject s

/-- A request that names a lane; a number above 3 is refused (R93, R96, R99). -/
def forLane (b : Byte) (f : LaneId → State → State × Answer) (s : State) : State × Answer :=
  match idOf 4 b with
  | some n => f n s
  | none => refuse .unknownSubject s

/-- A request of the plant or the till that names any position (R3). -/
def forPosition (b : Byte) (f : PosId → State → State × Answer) (s : State) : State × Answer :=
  match idOf 8 b with
  | some n => f n s
  | none => refuse .unknownSubject s

/-! ### Station settings -/

/-- R44, R58, R131: three values taken together or not at all; a changed margin makes an offer pass. -/
def setStation (margin switchMass creepLimit : Nat) (s : State) : State × Answer :=
  if margin < 50 ∨ 1000 < margin ∨ switchMass < 1 ∨ 100 < switchMass ∨ creepLimit < 1 ∨ 500 < creepLimit then
    refuse .range s
  else
    let changed := decide (s.margin ≠ margin)
    let s := { s with margin := margin, switchMass := switchMass, creepLimit := creepLimit }
    accept [] (if changed then offerPass allBanks s else s)

/-- STATION_CONFIG (R44, R58, R131). -/
def execStationConfig (port : PortId) (args : List Byte) (s : State) : Host.Outcome State Fault Refusal :=
  .next (takeRequest 0x20#8 port args (fun s =>
    match args with
    | [m0, m1, w0, w1, w2, w3, c0, c1, c2, c3] => setStation (u16 m0 m1) (u32 w0 w1 w2 w3) (u32 c0 c1 c2 c3) s
    | _ => refuse .range s) s)

/-! ### Banks (chapter 03) -/

/-- Steps 1 to 4 of R81 for a bank reconfigured in IDLE: its entry moves, leaves or joins, and an assignment
pass follows a changed queue. -/
def reconfigureQueue (b : BankId) (g : BankConfig) (s : State) : State :=
  let before : List QueueEntry := s.queue
  let pressure := (s.bank b).report.map (·.pressure)
  let s :=
    match s.queue.find? (fun e => e.bank == b) with
    | some e =>
      enqueueEntry { e with tier := g.tier } { s with queue := s.queue.filter (fun q => q.bank != b) }
    | none => s
  let s :=
    match pressure with
    | some v =>
      if s.queued b then (if g.target ≤ v then dequeue b s else s)
      else if v ≤ g.threshold then enqueue b .lowPressure s else s
    | none => s
  if s.queue == before then s else assignmentPass s

/-- R56: the checks and effect of BANK_CONFIG at a bank. The reply shows the state after the offer pass and any
refill assignment of the event, which the manual leaves open (notes/assumptions/37.md). -/
def configureBank (tier : Byte) (maxP threshold target : Nat) (b : BankId) (s : State) : State × Answer :=
  match tierOf tier with
  | none => refuse .range s
  | some t =>
    if maxP < 100 ∨ 12000 < maxP ∨ target ≤ threshold ∨ maxP < target then refuse .range s
    else
      let old := (s.bank b).state
      if old ≠ .offline ∧ old ≠ .idle then refuse .busy s
      else
        let g : BankConfig := ⟨t, maxP, threshold, target⟩
        let s := s.modBank b (fun x => { x with config := some g })
        let s := if old = .idle then reconfigureQueue b g (offerPass [b] s) else s
        accept [.byte (some b.val), .byte (some (s.bank b).state.code)] s

/-- BANK_CONFIG (R56, R81). -/
def execBankConfig (port : PortId) (args : List Byte) (s : State) : Host.Outcome State Fault Refusal :=
  .next (takeRequest 0x21#8 port args (fun s =>
    match args with
    | [b, t, m0, m1, h0, h1, g0, g1] => forBank b (configureBank t (u16 m0 m1) (u16 h0 h1) (u16 g0 g1)) s
    | _ => refuse .range s) s)

def State.setWindow (s : State) (t : Tier) (w : Option TierWindow) : State :=
  match t with
  | .low => { s with windows := s.windows.set 0 w }
  | .mid => { s with windows := s.windows.set 1 w }
  | .high => { s with windows := s.windows.set 2 w }

/-- R57: the window of a tier is replaced; a change makes an offer pass over the IDLE banks of the tier. -/
def setTierWindow (tier : Byte) (base limit : Nat) (s : State) : State × Answer :=
  match tierOf tier with
  | none => refuse .range s
  | some t =>
    let absent := decide (base = 0xFFFF ∧ limit = 0xFFFF)
    if !absent && decide (limit < base ∨ 12000 < limit) then refuse .range s
    else
      let w : Option TierWindow := if absent then none else some ⟨base, limit⟩
      let changed := decide (s.window t ≠ w)
      let s := s.setWindow t w
      let banks := allBanks.filter (fun b => (s.bank b).config.map (·.tier) == some t)
      accept [] (if changed then offerPass banks s else s)

/-- TIER_WINDOW (R57). -/
def execTierWindow (port : PortId) (args : List Byte) (s : State) : Host.Outcome State Fault Refusal :=
  .next (takeRequest 0x22#8 port args (fun s =>
    match args with
    | [t, b0, b1, l0, l1] => setTierWindow t (u16 b0 b1) (u16 l0 l1) s
    | _ => refuse .range s) s)

/-- The three tests of R63 on the causes of a bank: overpressure, overtemperature, freshness. -/
def testedCauses (x : Bank) : LockCauses :=
  match x.report, x.config with
  | some r, some g =>
    { x.causes with
      overpressure := x.causes.overpressure || decide (g.maxPressure + 100 < r.pressure)
      overtemp := x.causes.overtemp || decide (850 < r.temperature)
      stale := x.causes.stale && x.sensorRange }
  | _, _ => x.causes

/-- No lock cause is held. -/
def LockCauses.isEmpty (c : LockCauses) : Bool := !(c.overpressure || c.overtemp || c.stale || c.plantLock)

/-- R60: the checks and effect of BANK_ONLINE at a bank. The reply shows the state after the offer pass and any
refill assignment (notes/assumptions/37.md). Causes found by the tests and the entry to LOCKED post one BANK_STATE
(notes/assumptions/38.md). -/
def bringOnline (b : BankId) (s : State) : State × Answer :=
  if s.esd.latched then refuse .esdActive s
  else if (s.bank b).state ≠ .offline then refuse .badState s
  else if (s.bank b).config.isNone then refuse .notConfigured s
  else
    let causes := testedCauses (s.bank b)
    let s := s.modBank b (fun x => { x with staleWatch := some 5000, causes := causes })
    let s := if causes.isEmpty then bankIdle b (moveBank b .idle none s) else moveBank b .locked none s
    accept [.byte (some b.val), .byte (some (s.bank b).state.code), .bits (s.bank b).causes.bits] s

/-- BANK_ONLINE (R60). -/
def execBankOnline (port : PortId) (args : List Byte) (s : State) : Host.Outcome State Fault Refusal :=
  .next (takeRequest 0x23#8 port args (fun s =>
    match args with
    | [b] => forBank b bringOnline s
    | _ => refuse .range s) s)

/-- R61: BANK_OFFLINE at a bank. The removal of STALE and the entry to OFFLINE post one BANK_STATE
(notes/assumptions/38.md). -/
def takeOffline (b : BankId) (s : State) : State × Answer :=
  if (s.bank b).state = .offline then accept [] s
  else
    let s := s.modBank b (fun x => { x with staleWatch := none, causes := { x.causes with stale := false } })
    accept [] (bankLeaves b .offline s)

/-- BANK_OFFLINE (R61). -/
def execBankOffline (port : PortId) (args : List Byte) (s : State) : Host.Outcome State Fault Refusal :=
  .next (takeRequest 0x24#8 port args (fun s =>
    match args with
    | [b] => forBank b takeOffline s
    | _ => refuse .range s) s)

/-- A bank whose causes have just grown: out of service it keeps its state, in service it enters LOCKED
(R63, R64, R65, R67, R76, R77). One BANK_STATE stands for the causes and the state together
(notes/assumptions/38.md). -/
def causesGrown (b : BankId) (s : State) : State :=
  match (s.bank b).state with
  | .offline | .locked => postBankState b s
  | .idle | .drawing | .refilling => bankLeaves b .locked s

/-- R65: BANK_LOCK at a bank. -/
def lockBank (b : BankId) (s : State) : State × Answer :=
  if (s.bank b).causes.plantLock then accept [] s
  else
    accept [] (causesGrown b (s.modBank b (fun x => { x with causes := { x.causes with plantLock := true } })))

/-- BANK_LOCK (R65). -/
def execBankLock (port : PortId) (args : List Byte) (s : State) : Host.Outcome State Fault Refusal :=
  .next (takeRequest 0x25#8 port args (fun s =>
    match args with
    | [b] => forBank b lockBank s
    | _ => refuse .range s) s)

/-- The causes without those named (R66). -/
def LockCauses.without (c d : LockCauses) : LockCauses :=
  ⟨c.overpressure && !d.overpressure, c.overtemp && !d.overtemp, c.stale && !d.stale,
    c.plantLock && !d.plantLock⟩

/-- A LOCKED bank whose causes have changed returns to IDLE when none is left (R63, R66). One BANK_STATE stands for
the causes and the state together (notes/assumptions/38.md). -/
def causesShrunk (b : BankId) (s : State) : State :=
  match (s.bank b).state with
  | .locked =>
    if (s.bank b).causes.isEmpty then bankIdle b (moveBank b .idle none s) else postBankState b s
  | .offline => postBankState b s
  | .idle | .drawing | .refilling => s

/-- R66: the checks and effect of BANK_UNLOCK at a bank. The reply shows the state after the offer pass and any
refill assignment (notes/assumptions/37.md). -/
def unlockBank (code : Byte) (b : BankId) (s : State) : State × Answer :=
  match causesOf code with
  | none => refuse .range s
  | some named =>
    let old := s.bank b
    let causes := old.causes.without named
    let restarts := old.causes.stale && named.stale && old.state != .offline
    let s := s.modBank b (fun x =>
      { x with causes := causes, staleWatch := if restarts then some 5000 else x.staleWatch })
    let s := if causes = old.causes then s else causesShrunk b s
    accept [.byte (some b.val), .byte (some (s.bank b).state.code), .bits (s.bank b).causes.bits] s

/-- BANK_UNLOCK (R66). -/
def execBankUnlock (port : PortId) (args : List Byte) (s : State) : Host.Outcome State Fault Refusal :=
  .next (takeRequest 0x26#8 port args (fun s =>
    match args with
    | [b, c] => forBank b (unlockBank c) s
    | _ => refuse .range s) s)

/-- R80: the refill scheduler is told of a report taken in IDLE, after its offer pass. -/
def tellReport (b : BankId) (s : State) : State :=
  match (s.bank b).report, (s.bank b).config with
  | some r, some g =>
    if s.queued b then (if g.target ≤ r.pressure then dequeue b s else s)
    else if r.pressure ≤ g.threshold then assignmentPass (enqueue b .lowPressure s) else s
  | _, _ => s

/-- R62, R86: what a report does further, by the state the bank is in after the tests. -/
def reportFurther (b : BankId) (differs : Bool) (s : State) : State :=
  match (s.bank b).state with
  | .idle => tellReport b (if differs then offerPass [b] s else s)
  | .refilling =>
    match (s.bank b).holder, (s.bank b).report, (s.bank b).config with
    | some (.comp c), some r, some g =>
      if g.target ≤ r.pressure then completeRefill c .target .target s else s
    | _, _, _ => s
  | .offline | .drawing | .locked => s

/-- R62 to R64: a report of a bank in service or LOCKED. -/
def testReport (b : BankId) (differs : Bool) (s : State) : State :=
  let old := s.bank b
  let causes := testedCauses old
  let s := s.modBank b (fun x => { x with staleWatch := some 5000, causes := causes })
  let s :=
    if causes = old.causes then s
    else if old.state = .locked then causesShrunk b s
    else causesGrown b s
  reportFurther b differs s

/-- R62: BANK_REPORT at a bank. -/
def reportBank (pressure : Nat) (temperature : Int) (b : BankId) (s : State) : State × Answer :=
  let pr := clampPressure pressure
  let tp := clampTemp temperature
  let differs := decide ((s.bank b).report.map (·.pressure) ≠ some pr.1)
  let s := s.modBank b (fun x =>
    { x with report := some ⟨pr.1, tp.1, s.clock⟩, sensorRange := pr.2 || tp.2 })
  let s := if (s.bank b).state = .offline then s else testReport b differs s
  let x := s.bank b
  accept [.byte (some b.val), .byte (some x.state.code),
    .byte (match x.holder with | some (.pos p) => some p.val | _ => none),
    .byte (match x.holder with | some (.comp c) => some c.val | _ => none),
    .bits x.causes.bits, .word (some x.drawnMass)] s

/-- BANK_REPORT (R62 to R64, R80, R86). -/
def execBankReport (port : PortId) (args : List Byte) (s : State) : Host.Outcome State Fault Refusal :=
  .next (takeRequest 0x27#8 port args (fun s =>
    match args with
    | [b, p0, p1, t0, t1] => forBank b (reportBank (u16 p0 p1) (i16 t0 t1)) s
    | _ => refuse .range s) s)

/-! ### Refill (chapter 04) -/

/-- The place of a bank in the queue, counted from 1. -/
def State.queuePlace (s : State) (b : BankId) : Option Nat :=
  (s.queue.findIdx? (fun e => e.bank == b)).map (· + 1)

/-- R81: the checks and effect of REFILL_REQUEST; disposition 0 REFILLING, 1 ALREADY_QUEUED, 2 NOT_NEEDED,
3 QUEUED. The entry count and the place of the reply are those after the assignment pass
(notes/assumptions/33.md). -/
def requestRefill (b : BankId) (s : State) : State × Answer :=
  let x := s.bank b
  let reply := fun (d : Nat) (s : State) =>
    accept [.byte (some b.val), .byte (some d), .byte (some s.queue.length), .byte (s.queuePlace b)] s
  if x.state = .offline ∨ x.state = .locked then refuse .badState s
  else if x.state = .refilling then reply 0 s
  else if s.queued b then reply 1 s
  else
    let full := match x.report, x.config with
      | some r, some g => decide (g.target ≤ r.pressure)
      | _, _ => false
    if full then reply 2 s
    else
      let s := enqueue b .plantRequest s
      reply 3 (if x.state = .idle then assignmentPass s else s)

/-- REFILL_REQUEST (R81). -/
def execRefillRequest (port : PortId) (args : List Byte) (s : State) : Host.Outcome State Fault Refusal :=
  .next (takeRequest 0x28#8 port args (fun s =>
    match args with
    | [b] => forBank b requestRefill s
    | _ => refuse .range s) s)

/-- R87: the checks and effect of REFILL_WITHDRAW; next state 0 UNAVAILABLE, 1 READY (R187). -/
def withdrawRequest (next : Byte) (c : CompId) (s : State) : State × Answer :=
  if 2 ≤ next.toNat then refuse .range s
  else if (s.comp c).state ≠ .running then refuse .badState s
  else accept [] (withdrawRefill c .withdrawn .withdrawn (if next = 0#8 then .unavailable else .ready) s)

/-- REFILL_WITHDRAW (R87). -/
def execRefillWithdraw (port : PortId) (args : List Byte) (s : State) : Host.Outcome State Fault Refusal :=
  .next (takeRequest 0x29#8 port args (fun s =>
    match args with
    | [c, next] => forComp c (withdrawRequest next) s
    | _ => refuse .range s) s)

/-- The reply of R83: the compressor's state after the message. -/
def compReply (c : CompId) (s : State) : State × Answer :=
  accept [.byte (some (s.comp c).state.code)] s

/-- R83: COMPRESSOR_CONFIG at a compressor; the floor equals the demand (R109). -/
def configureComp (demand : Nat) (c : CompId) (s : State) : State × Answer :=
  if demand < 1 ∨ 5000 < demand then refuse .range s
  else if (s.comp c).state = .coolingWait ∨ (s.comp c).state = .running then refuse .busy s
  else
    let s := s.setGrantOf (.comp c) { s.grantOf (.comp c) with demand := demand, floor := demand }
    compReply c (s.modComp c (fun x => { x with configured := true }))

/-- COMPRESSOR_CONFIG (R83). -/
def execCompressorConfig (port : PortId) (args : List Byte) (s : State) : Host.Outcome State Fault Refusal :=
  .next (takeRequest 0x2A#8 port args (fun s =>
    match args with
    | [c, d0, d1] => forComp c (configureComp (u16 d0 d1)) s
    | _ => refuse .range s) s)

/-- R83: COMPRESSOR_READY at a compressor. -/
def readyComp (c : CompId) (s : State) : State × Answer :=
  if s.esd.latched then refuse .esdActive s
  else if !(s.comp c).configured then refuse .notConfigured s
  else if (s.comp c).state = .unavailable then
    let s := s.modComp c (fun x => { x with state := .ready })
    compReply c (assignmentPass (postCompState c .readyReceived s))
  else compReply c s

/-- COMPRESSOR_READY (R83). -/
def execCompressorReady (port : PortId) (args : List Byte) (s : State) : Host.Outcome State Fault Refusal :=
  .next (takeRequest 0x2B#8 port args (fun s =>
    match args with
    | [c] => forComp c readyComp s
    | _ => refuse .range s) s)

/-- R83: COMPRESSOR_UNAVAILABLE by the state of the compressor. -/
def unavailableComp (c : CompId) (s : State) : State × Answer :=
  match (s.comp c).state with
  | .unavailable => compReply c s
  | .ready =>
    compReply c (postCompState c .unavailableReceived (s.modComp c (fun x => { x with state := .unavailable })))
  | .coolingWait => compReply c (leaveCoolingWait c .unavailable .unavailableReceived s)
  | .running => compReply c (withdrawRefill c .unavailable .unavailable .unavailable s)

/-- COMPRESSOR_UNAVAILABLE (R83). -/
def execCompressorUnavailable (port : PortId) (args : List Byte) (s : State) :
    Host.Outcome State Fault Refusal :=
  .next (takeRequest 0x2C#8 port args (fun s =>
    match args with
    | [c] => forComp c unavailableComp s
    | _ => refuse .range s) s)

/-- R86: REFILL_DONE at a compressor. -/
def refillDone (c : CompId) (s : State) : State × Answer :=
  if (s.comp c).state ≠ .running then refuse .badState s
  else accept [] (completeRefill c .done .done s)

/-- REFILL_DONE (R86). -/
def execRefillDone (port : PortId) (args : List Byte) (s : State) : Host.Outcome State Fault Refusal :=
  .next (takeRequest 0x2D#8 port args (fun s =>
    match args with
    | [c] => forComp c refillDone s
    | _ => refuse .range s) s)

/-! ### Lanes (chapter 05) -/

/-- A fuelling position is attached to the lane (R93). -/
def laneBusy (s : State) (l : LaneId) : Bool :=
  allPositions.any (fun p => (s.pos p).lane == some l && fuelling (s.pos p).state)

/-- R93: the effect of an accepted LANE_CONFIG. -/
def applyLaneConfig (g : LaneConfig) (map : ClassSet) (l : LaneId) (s : State) : State :=
  let old := s.lane l
  let kept := old.warmHold &&& (map ||| 1#6)
  let s := s.modLane l (fun x =>
    { x with config := some g, classMap := map ||| 1#6, warmHold := kept })
  let s := if kept = old.warmHold then s else warmTest l (postLaneState l .configured s)
  if old.islandEnable && decide (old.config.map (·.owner) ≠ some g.owner) then setIslandEnable l false s else s

/-- R93: the checks and reply of LANE_CONFIG at a lane. The reply shows the state after any withdrawal of the island
enable (notes/assumptions/37.md). -/
def configureLane (owner : Byte) (coefficient : Nat) (map : Byte) (l : LaneId) (s : State) : State × Answer :=
  match idOf 4 owner, classSetOf map with
  | some o, some m =>
    if coefficient < 100 ∨ 800 < coefficient then refuse .range s
    else if laneBusy s l then refuse .busy s
    else
      let s := applyLaneConfig ⟨o, coefficient⟩ m l s
      accept [.byte (some l.val), .byte (some (s.lane l).state.code), .byte (some o.val),
        .bits (classBits (s.lane l).classMap)] s
  | _, _ => refuse .range s

/-- LANE_CONFIG (R93). -/
def execLaneConfig (port : PortId) (args : List Byte) (s : State) : Host.Outcome State Fault Refusal :=
  .next (takeRequest 0x2E#8 port args (fun s =>
    match args with
    | [b, owner, c0, c1, map] => forLane b (configureLane owner (u16 c0 c1) map) s
    | _ => refuse .range s) s)

/-- The classes of the warm hold set whose threshold a supply temperature meets (R104). -/
def liftedClasses (x : Lane) (supply : Int) : ClassSet :=
  ([1, 2, 3, 4, 5] : List ClassId).foldl (fun (m : ClassSet) (k : ClassId) =>
    if x.warmHold.getLsbD k &&
        (match (classRow k).threshold with
         | some t => decide (supply ≤ t)
         | none => false)
    then m ||| (1#6 <<< k.val) else m) 0#6

/-- A position held for warmth whose class has been lifted resolves its hold (R25, R104). -/
def tellLifted (l : LaneId) (lifted : ClassSet) (s : State) (p : PosId) : State :=
  let x := s.pos p
  if x.lane == some l && x.state == .hold && x.holdReason == some .laneWarm &&
      (match x.cls with | some k => lifted.getLsbD k | none => false) then
    checksCD p s
  else s

/-- R104: the lift test. -/
def liftTest (l : LaneId) (supply : Int) (s : State) : State :=
  let lifted := liftedClasses (s.lane l) supply
  if lifted = 0#6 then s
  else
    let s := s.modLane l (fun x => { x with warmHold := x.warmHold &&& ~~~lifted })
    postLaneState l .warmLift (allPositions.foldl (tellLifted l lifted) s)

/-- What a report does further, by the state of the lane (R96 to R98, R102, R104). -/
def laneReportFurther (l : LaneId) (supply : Int) (clamped : Bool) (s : State) : State :=
  match (s.lane l).state with
  | .off | .fault => s
  | .pulldown =>
    if !clamped && decide (supply ≤ -175) then
      postLaneState l .ready (s.modLane l (fun x =>
        { x with
          state := .ready
          pulldownTimer := none
          staleWatch := some 5000
          warmHold := 0#6
          warmTimer := none }))
    else s
  | .ready =>
    warmTest l (liftTest l supply (s.modLane l (fun x => { x with staleWatch := some 5000 })))

/-- R96: LANE_REPORT at a lane. -/
def reportLane (temperature : Int) (l : LaneId) (s : State) : State × Answer :=
  let c := clampTemp temperature
  let s := s.modLane l (fun x => { x with supply := some ⟨c.1, s.clock⟩, sensorRange := c.2 })
  let s := laneReportFurther l c.1 c.2 s
  let x := s.lane l
  accept [.byte (some l.val), .byte (some x.state.code), .bits (faultBits x), .bits (classBits x.warmHold),
    .flag x.warmTimer.isSome] s

/-- LANE_REPORT (R96). -/
def execLaneReport (port : PortId) (args : List Byte) (s : State) : Host.Outcome State Fault Refusal :=
  .next (takeRequest 0x2F#8 port args (fun s =>
    match args with
    | [b, t0, t1] => forLane b (reportLane (i16 t0 t1)) s
    | _ => refuse .range s) s)

/-- R99: LANE_FAULT_CLEAR at a lane. -/
def clearLaneFault (l : LaneId) (s : State) : State × Answer :=
  let old := s.lane l
  let s := s.modLane l (fun x => { x with faultPulldown := false, faultStale := false })
  let s :=
    match old.state with
    | .fault =>
      let s := postLaneState l .cleared (s.modLane l (fun x => { x with state := .off }))
      if old.plantEnable && old.islandEnable then enterPulldown l .cleared s else s
    | .off | .pulldown | .ready =>
      if old.faultPulldown || old.faultStale then postLaneState l .cleared s else s
  let x := s.lane l
  accept [.byte (some l.val), .byte (some x.state.code), .flag x.plantEnable, .flag x.islandEnable] s

/-- LANE_FAULT_CLEAR (R99). -/
def execLaneFaultClear (port : PortId) (args : List Byte) (s : State) : Host.Outcome State Fault Refusal :=
  .next (takeRequest 0x30#8 port args (fun s =>
    match args with
    | [b] => forLane b clearLaneFault s
    | _ => refuse .range s) s)

/-! ### Cooling capacity and ambient -/

/-- A requester as sent: the position and the compressor, one of them absent. -/
def Requester.fields : Requester → List Field
  | .pos p => [.byte (some p.val), .byte none]
  | .comp c => [.byte none, .byte (some c.val)]

/-- The reply of R107: capacity and flag, Σ grants, free capacity, waiting fills and compressors, the wait
list, the grants in grant order after their number, and whether the report shed. -/
def coolingReply (shed : Bool) (s : State) : State × Answer :=
  accept
    ([.half (some s.cooling.capacity), .flag s.cooling.sensorRange, .half (some s.sumGrants),
        .half (some s.freeCapacity),
        .byte (some (s.cooling.wait.filter (fun w => isFill w.who)).length),
        .byte (some (s.cooling.wait.filter (fun w => !isFill w.who)).length)]
      ++ s.cooling.wait.flatMap (fun w => w.who.fields ++ [.raw w.joined])
      ++ [.byte (some s.cooling.order.length)]
      ++ s.cooling.order.flatMap (fun r =>
          r.fields ++ [.half (some (s.grantOf r).grant), .raw ((s.grantOf r).time.getD 0)])
      ++ [.flag shed]) s

/-- The capacity takes a value in this event (R107, R121). -/
def setCapacity (capacity : Nat) (flag : Bool) (s : State) : State :=
  { s with cooling := { s.cooling with capacity := capacity, sensorRange := flag } }

/-- R107: COOLING_REPORT. -/
def reportCapacity (v : Nat) (s : State) : State × Answer :=
  let c := clampCapacity v
  let old := s.cooling.capacity
  let s := setCapacity c.1 c.2 s
  if c.1 < s.sumGrants then coolingReply true (shed (budgetChanged .shed s))
  else if c.1 = old then coolingReply false s
  else
    let s := budgetChanged .report s
    coolingReply false (if old < c.1 then redistribute s else s)

/-- COOLING_REPORT (R107). -/
def execCoolingReport (port : PortId) (args : List Byte) (s : State) : Host.Outcome State Fault Refusal :=
  .next (takeRequest 0x31#8 port args (fun s =>
    match args with
    | [c0, c1] => reportCapacity (u16 c0 c1) s
    | _ => refuse .range s) s)

/-- R8: AMBIENT_REPORT. -/
def reportAmbient (temperature : Int) (s : State) : State × Answer :=
  let c := clampTemp temperature
  accept [.temp (some c.1), .flag c.2] { s with ambient := ⟨some ⟨c.1, s.clock⟩, c.2⟩ }

/-- AMBIENT_REPORT (R8). -/
def execAmbientReport (port : PortId) (args : List Byte) (s : State) : Host.Outcome State Fault Refusal :=
  .next (takeRequest 0x32#8 port args (fun s =>
    match args with
    | [t0, t1] => reportAmbient (i16 t0 t1) s
    | _ => refuse .range s) s)

/-! ### Positions, ramp table, calibration, shutdown -/

/-- R4: POSITION_CONFIG at a position. -/
def attachLane (lane : Byte) (p : PosId) (s : State) : State × Answer :=
  match idOf 4 lane with
  | none => refuse .range s
  | some l =>
    if (s.pos p).state ≠ .unavailable ∧ (s.pos p).state ≠ .idle then refuse .busy s
    else accept [] (s.modPos p (fun x => { x with lane := some l }))

/-- POSITION_CONFIG (R4). -/
def execPositionConfig (port : PortId) (args : List Byte) (s : State) : Host.Outcome State Fault Refusal :=
  .next (takeRequest 0x33#8 port args (fun s =>
    match args with
    | [b, lane] => forPosition b (attachLane lane) s
    | _ => refuse .range s) s)

/-- One band field of RAMP_TABLE: an APRR of 0xFFFF marks the entry absent (R187); none outside its range
(R33). -/
def rampEntryOf (k : ClassId) (aprr pnc : Nat) : Option (Option RampEntry) :=
  if aprr = 0xFFFF then some none
  else if 1 ≤ aprr ∧ aprr ≤ 200 ∧ pnc ≤ (classRow k).pNom then some (some ⟨aprr, pnc⟩)
  else none

/-- The band fields of RAMP_TABLE in turn; none when one is out of range. -/
def rampRowOf (k : ClassId) : List Byte → Option (List (Option RampEntry))
  | a0 :: a1 :: p0 :: p1 :: rest =>
    match rampEntryOf k (u16 a0 a1) (u16 p0 p1), rampRowOf k rest with
    | some e, some l => some (e :: l)
    | _, _ => none
  | _ => some []

/-- R33: the checks and effect of RAMP_TABLE. -/
def loadRampRow (c : Byte) (bands : List Byte) (s : State) : State × Answer :=
  match idOf 6 c with
  | none => refuse .range s
  | some k =>
    match rampRowOf k bands with
    | none => refuse .range s
    | some row =>
      if allPositions.any (fun p => (s.pos p).state == .ramp || (s.pos p).state == .hold) then refuse .busy s
      else
        accept [.byte (some k.val)]
          { s with rampTable := s.rampTable.set k (Vector.ofFn (fun b : BandId => row.getD b.val none)) }

/-- RAMP_TABLE (R33). -/
def execRampTable (port : PortId) (args : List Byte) (s : State) : Host.Outcome State Fault Refusal :=
  .next (takeRequest 0x34#8 port args (fun s =>
    match args with
    | c :: bands => loadRampRow c bands s
    | [] => refuse .range s) s)

/-- The position holds a reservation or has an OPEN transaction (R137). -/
def calibrationBusy (s : State) (p : PosId) : Bool :=
  ((s.pos p).authorization.map (·.reservation)).getD false || (s.openSlot p).isSome

/-- R137, R138: the checks and effect of CAL_WRITE at a channel; the reply is held on the write (R181). -/
def writeCalibration (w f : Nat) (p : PosId) (s : State) : State × Answer :=
  if w < 1 ∨ 5000 < w ∨ f < 62259 ∨ 68813 < f then refuse .range s
  else if !s.pins.calEn then refuse .calLocked s
  else if calibrationBusy s p then refuse .busy s
  else
    let old := s.work.calibration
    if old.counter = 65535 then refuse .calExhausted s
    else
      let new : Calibration := ⟨old.channels.set p ⟨w, f⟩, satSucc old.counter⟩
      let s := issue [.calibration new] { s with work := { s.work with calibration := new } }
      (s, .accepted [.byte (some p.val), .half (some w), .raw (BitVec.ofNat 32 f), .half (some new.counter)]
        (some .calibration))

/-- CAL_WRITE (R137). -/
def execCalWrite (port : PortId) (args : List Byte) (s : State) : Host.Outcome State Fault Refusal :=
  .next (takeRequest 0x35#8 port args (fun s =>
    match args with
    | [b, w0, w1, f0, f1, f2, f3] => forPosition b (writeCalibration (u16 w0 w1) (u32 f0 f1 f2 f3)) s
    | _ => refuse .range s) s)

/-- ESD to every port: latch, cause, time, level of ESD_N (R161), sent as a flag (notes/assumptions/35.md). -/
def postEsd (s : State) : State :=
  postNotice .esd 255
    ([.flag s.esd.latched, .byte (s.esd.change.map (·.cause.code))]
      ++ stampFields (s.esd.change.map (·.time)) ++ [.flag s.pins.esdN])
    allPorts s

/-- The latch takes a state with a recorded cause (R158). -/
def setLatch (latched : Bool) (cause : EsdCause) (s : State) : State :=
  { s with esd := ⟨latched, some ⟨cause, s.stamp⟩⟩ }

/-- R160, the clear first: a falling edge of ESD_N that reached the part together with the clear is the next
command that waits, and no line begins a frame between the two (notes/assumptions/31.md). -/
def awaitEdge (s : State) : State :=
  { s with evt := { s.evt with edgeNext := s.pending.head? == some .esdNFallingEdge } }

/-- R160: ESD_CLEAR. -/
def clearEsd (s : State) : State × Answer :=
  if !s.pins.esdN then refuse .badState s
  else
    let s := if s.esd.latched then awaitEdge (postEsd (assignmentPass (setLatch false .cleared s))) else s
    accept [.flag s.esd.latched, .flag s.pins.esdN] s

/-- ESD_CLEAR (R160). -/
def execEsdClear (port : PortId) (args : List Byte) (s : State) : Host.Outcome State Fault Refusal :=
  .next (takeRequest 0x36#8 port args clearEsd s)

end Sys2Proof.Machine
end

