-- ==== Sys2Proof/Machine/Till.lean ====
section
/-! DEFINITION. The requests of the till (chapters 01 and 08): one meaning per kind, each the screen of R171,
the owning rule and its one reply. -/

namespace Sys2Proof.Machine

/-! ### AUTHORIZE and CANCEL -/

/-- R12 check 4: the preset named by a kind code and a value; none outside its range. The value is not read
under NONE. -/
def presetOf (kind : Byte) (value : Nat) : Option Preset :=
  if kind = 0 then some .none
  else if kind = 1 then (if 1 ≤ value ∧ value ≤ 999999 then some (.mass value) else none)
  else if kind = 2 then (if 1 ≤ value ∧ value ≤ 99999999 then some (.amount value) else none)
  else none

/-- R12 check 5: no room, or no number left for a new reservation. -/
def storeFull (s : State) : Bool :=
  decide (64 ≤ s.reservations + s.records) || decide (4294967295 ≤ s.reservations + s.work.nextNumber)

/-- R12: the checks and effect of AUTHORIZE at a position. -/
def authorizePosition (tag : Tag) (classes kind : Byte) (value : Nat) (p : PosId) (s : State) : State × Answer :=
  let old := s.pos p
  if s.esd.latched then refuse .esdActive s
  else if old.state ≠ .idle ∧ old.state ≠ .waitAuth then refuse .badState s
  else
    match classSetOf classes, presetOf kind value with
    | some set, some preset =>
      if set = 0#6 then refuse .range s
      else if storeFull s then refuse .storeFull s
      else
        let s := s.modPos p (fun x =>
          { x with
            authorization := some ⟨tag, set, preset, true⟩
            phaseTimer := some 180000
            state := if x.state == .idle then .waitNozzle else .ready })
        accept [.byte (some p.val), .raw tag, .byte (some (s.pos p).state.code)] s
    | _, _ => refuse .range s

/-- AUTHORIZE (R12). -/
def execAuthorize (port : PortId) (args : List Byte) (s : State) : Host.Outcome State Fault Refusal :=
  .next (takeRequest 0x40#8 port args (fun s =>
    match args with
    | [b, g0, g1, g2, g3, classes, kind, v0, v1, v2, v3] =>
      forPosition b (authorizePosition (w32 g0 g1 g2 g3) classes kind (u32 v0 v1 v2 v3)) s
    | _ => refuse .range s) s)

/-- A position gives up its authorization before START and keeps its nozzle: WAIT_NOZZLE becomes IDLE, READY
becomes WAIT_AUTH (R13, R14, R29). -/
def loseAuthorization (p : PosId) (why : AuthEnd) (s : State) : State :=
  match (s.pos p).state with
  | .waitNozzle => (removeAuthorization p why s).modPos p (fun x => { x with state := .idle })
  | .ready => (removeAuthorization p why s).modPos p (fun x => { x with state := .waitAuth })
  | _ => s

/-- R14: the checks and effect of CANCEL at a position. -/
def cancelPosition (tag : Tag) (p : PosId) (s : State) : State × Answer :=
  match (s.pos p).state with
  | .unavailable | .idle | .waitAuth | .finished => refuse .badState s
  | .waitNozzle | .ready =>
    if (s.pos p).tag = tag then accept [] (loseAuthorization p .cancelled s) else refuse .unknownSubject s
  | .pulse | .leakCheck | .ramp | .hold | .ending =>
    if (s.pos p).tag = tag then accept [] (endFill p .tillStop s) else refuse .unknownSubject s

/-- CANCEL (R14). -/
def execCancel (port : PortId) (args : List Byte) (s : State) : Host.Outcome State Fault Refusal :=
  .next (takeRequest 0x41#8 port args (fun s =>
    match args with
    | [b, g0, g1, g2, g3] => forPosition b (cancelPosition (w32 g0 g1 g2 g3)) s
    | _ => refuse .range s) s)

/-! ### Tariffs and clock -/

/-- R141: the entry TARIFF_SET carries; none outside its ranges. -/
def tariffOf (valid classes allDay : Byte) (ws we price : Nat) : Option Tariff :=
  if flagOf valid then
    match classSetOf classes with
    | some set =>
      if set = 0#6 ∨ price < 1 ∨ 99999999 < price ∨ 86399 < ws ∨ 86399 < we ∨
          (flagOf allDay = false ∧ ws = we) then none
      else some ⟨true, set, flagOf allDay, ws, we, price⟩
    | none => none
  else some .invalid

/-- R141: the effect of TARIFF_SET; the reply is held on the write (R181). -/
def setTariff (e : EntryId) (t : Tariff) (s : State) : State × Answer :=
  let s := { s with work := { s.work with tariffs := s.work.tariffs.set e t } }
  (issue [.tariff e t] s, .accepted (.byte (some e.val) :: t.fields) (some (.tariff e)))

/-- TARIFF_SET (R141). -/
def execTariffSet (port : PortId) (args : List Byte) (s : State) : Host.Outcome State Fault Refusal :=
  .next (takeRequest 0x42#8 port args (fun s =>
    match args with
    | [b, valid, classes, allDay, s0, s1, s2, s3, e0, e1, e2, e3, p0, p1, p2, p3] =>
      match idOf 8 b with
      | none => refuse .unknownSubject s
      | some e =>
        match tariffOf valid classes allDay (u32 s0 s1 s2 s3) (u32 e0 e1 e2 e3) (u32 p0 p1 p2 p3) with
        | none => refuse .range s
        | some t => setTariff e t s
    | _ => refuse .range s) s)

/-- TARIFF_READ (R141). -/
def execTariffRead (port : PortId) (args : List Byte) (s : State) : Host.Outcome State Fault Refusal :=
  .next (takeRequest 0x43#8 port args (fun s =>
    match args with
    | [b] =>
      match idOf 8 b with
      | none => refuse .unknownSubject s
      | some e => accept (s.work.tariffs[e]).fields s
    | _ => refuse .range s) s)

/-- R140: the checks and effect of SET_CLOCK. -/
def setTimeOfDay (day second : Nat) (s : State) : State × Answer :=
  if 86399 < second then refuse .range s
  else
    let t : TimeOfDay := ⟨day, second, true⟩
    accept [.tod (some t)] { s with tod := t, oneSecond := some 1000 }

/-- SET_CLOCK (R140). -/
def execSetClock (port : PortId) (args : List Byte) (s : State) : Host.Outcome State Fault Refusal :=
  .next (takeRequest 0x44#8 port args (fun s =>
    match args with
    | [d0, d1, x0, x1, x2, x3] => setTimeOfDay (u16 d0 d1) (u32 x0 x1 x2 x3) s
    | _ => refuse .range s) s)

/-! ### Collection, totals, snapshot -/

/-- The acceptance of TXN_READ: the count of collectable CLOSED records, then the record (R155, R187). -/
def recordReply (r : TxnRecord) (s : State) : State × Answer :=
  accept (.byte (some s.collectables.length) :: r.fields) s

/-- R155: TXN_READ; number 0 asks for the oldest record (R186). -/
def readRecord (number : Nat) (s : State) : State × Answer :=
  let slot := if number = 0 then s.oldestCollectable else s.slotOf number
  match slot with
  | none => refuse .unknownSubject s
  | some i =>
    match s.slot i with
    | .free => refuse .unknownSubject s
    | .txn r =>
      if r.state = .closed ∧ s.inFlight (.slot i) = true then refuse .busy s else recordReply r s

/-- TXN_READ (R155). -/
def execTxnRead (port : PortId) (args : List Byte) (s : State) : Host.Outcome State Fault Refusal :=
  .next (takeRequest 0x45#8 port args (fun s =>
    match args with
    | [n0, n1, n2, n3] => readRecord (u32 n0 n1 n2 n3) s
    | _ => refuse .range s) s)

/-- R156: TXN_RELEASE; the reply is held on the write of the FREE slot (R181). -/
def releaseRecord (number : Nat) (s : State) : State × Answer :=
  match s.slotOf number with
  | none => refuse .unknownSubject s
  | some i =>
    match s.slot i with
    | .free => refuse .unknownSubject s
    | .txn r =>
      if r.state = .opened then refuse .badState s
      else if s.inFlight (.slot i) then refuse .busy s
      else (issue [.slot i .free] (s.setSlot i .free), .accepted [] (some (.slot i)))

/-- TXN_RELEASE (R156). -/
def execTxnRelease (port : PortId) (args : List Byte) (s : State) : Host.Outcome State Fault Refusal :=
  .next (takeRequest 0x46#8 port args (fun s =>
    match args with
    | [n0, n1, n2, n3] => releaseRecord (u32 n0 n1 n2 n3) s
    | _ => refuse .range s) s)

/-- TOTALS_READ (R154). -/
def execTotalsRead (port : PortId) (args : List Byte) (s : State) : Host.Outcome State Fault Refusal :=
  .next (takeRequest 0x47#8 port args (fun s =>
    if s.closeInFlight then refuse .busy s else accept (s.work.totals.fields s.tod) s) s)

/-- R157: TOTALS_SNAPSHOT; the reply is held on the write (R181). -/
def takeSnapshot (s : State) : State × Answer :=
  if s.closeInFlight then refuse .busy s
  else
    let x : Snapshot := ⟨s.work.totals, s.stamp⟩
    (issue [.snapshot x] { s with work := { s.work with snapshot := x } }, .accepted x.fields (some .snapshot))

/-- TOTALS_SNAPSHOT (R157). -/
def execTotalsSnapshot (port : PortId) (args : List Byte) (s : State) : Host.Outcome State Fault Refusal :=
  .next (takeRequest 0x48#8 port args takeSnapshot s)

/-- SNAPSHOT_READ (R157). -/
def execSnapshotRead (port : PortId) (args : List Byte) (s : State) : Host.Outcome State Fault Refusal :=
  .next (takeRequest 0x49#8 port args (fun s => accept s.work.snapshot.fields s) s)

/-! ### POSITION_QUERY -/

/-- The place of a position in the draw wait list, from 1, with its joined time (R31). -/
def drawPlace (s : State) (p : PosId) : List Field :=
  match s.drawList.findIdx? (fun w => w.pos == p), s.drawList.find? (fun w => w.pos == p) with
  | some i, some w => [.byte (some (i + 1)), .raw w.joined]
  | _, _ => []

/-- The data of R31 in its order. R186 gives the ambient band no type: it is sent in one byte, 0xFF when absent; the
high-flow flag of an absent hose is sent as 0 (notes/assumptions/35.md). -/
def queryFields (s : State) (p : PosId) : List Field :=
  let x := s.pos p
  let e := s.grantOf (.pos p)
  [.byte (some x.state.code), .byte (some x.nozzle.code), .byte (x.hose.map (·.kind.code)),
    .flag ((x.hose.map (·.highFlow)).getD false), .byte (x.lane.map (·.val)), .raw x.tag,
    .byte (x.cls.map (·.val)), .byte (x.mode.map FillMode.code), .word x.transaction,
    .half (x.pressure.map (·.value)), .word (x.pressure.map (fun r => age s.clock r.arrived)),
    .flag x.sensorRange, .half x.ramp.pSet, .half x.ramp.pTarget, .byte (x.ramp.band.map (·.val)),
    .half (x.ramp.inUse.map (·.aprr)), .half (x.ramp.inUse.map (·.pnc)), .byte (x.bank.map (·.val)),
    .half (some e.grant), .half (some e.demand), .byte (x.holdReason.map HoldReason.code),
    .byte (x.endReason.map EndReason.code)]
  ++ drawPlace s p

/-- POSITION_QUERY (R31). -/
def execPositionQuery (port : PortId) (args : List Byte) (s : State) : Host.Outcome State Fault Refusal :=
  .next (takeRequest 0x4A#8 port args (fun s =>
    match args with
    | [b] => forPosition b (fun p s => accept (queryFields s p) s) s
    | _ => refuse .range s) s)

end Sys2Proof.Machine
end

