-- ==== Sys2Proof/Machine/Timers.lean ====
section
/-! DEFINITION. The expiries of the part's timers (R11, R64, R97, R98, R103, R125, R139, R164). A timer
expires when it runs with no time left; a stopped timer does not expire (notes/assumptions/4.md). The loss
teardown of a port stands here (R165 to R167). -/

namespace Sys2Proof.Machine

/-! ### Timers of a position -/

/-- AUTHORIZATION_LIFE_EXPIRY (R13). -/
def execAuthorizationLifeExpiry (p : PosId) (s : State) : Host.Outcome State Fault Refusal :=
  .next (takeEvent (fun s =>
    if due (s.pos p).phaseTimer then loseAuthorization p .expired s else s) s)

/-- R19: pulse expiry. The initial pressure is taken; outside its limits the fill ends, else LEAKCHECK. -/
def pulseExpired (p : PosId) (k : ClassId) (s : State) : State :=
  let v := heldPressure (s.pos p)
  let s := s.modPos p (fun x => { x with phaseTimer := none, initialPressure := some v })
  let s := modRecord p (fun r => { r with initialPressure := some v }) s
  if v < 50 ∨ (classRow k).pMax < v then endFill p .vehiclePressure s
  else
    let s := releaseBank p s
    let s := s.modPos p (fun x =>
      { x with state := .leakCheck, pulseState := none, phaseTimer := some 5000 })
    let s := s.modChan p (fun c => { c with gateOpen := true })
    fillState p (sendValve p s)

/-- PULSE_EXPIRY (R19). -/
def execPulseExpiry (p : PosId) (s : State) : Host.Outcome State Fault Refusal :=
  .next (takeEvent (fun s =>
    match (s.pos p).state, (s.pos p).pulseState, (s.pos p).cls with
    | .pulse, some .pulsing, some k => if due (s.pos p).phaseTimer then pulseExpired p k s else s
    | _, _, _ => s) s)

/-- R20: the leak test fails: a drop above 50, or a creep mass above the limit. -/
def leaks (s : State) (p : PosId) : Bool :=
  let x := s.pos p
  decide (heldPressure x + 50 < x.initialPressure.getD 0) || (s.chan p).creepAbove s.creepLimit

/-- LEAK_CHECK_EXPIRY (R20, R21). -/
def execLeakCheckExpiry (p : PosId) (s : State) : Host.Outcome State Fault Refusal :=
  .next (takeEvent (fun s =>
    if (s.pos p).state == .leakCheck && due (s.pos p).phaseTimer then
      let t := s.modPos p (fun x => { x with phaseTimer := none })
      if leaks s p then endFill p .leak t else rampEntryChecks p t
    else s) s)

/-- HOLD_LIMIT_EXPIRY (R25). -/
def execHoldLimitExpiry (p : PosId) (s : State) : Host.Outcome State Fault Refusal :=
  .next (takeEvent (fun s =>
    if (s.pos p).state == .hold && due (s.pos p).phaseTimer then endFill p .holdTimeout s else s) s)

/-- SETTLE_EXPIRY (R28). -/
def execSettleExpiry (p : PosId) (s : State) : Host.Outcome State Fault Refusal :=
  .next (takeEvent (fun s =>
    if (s.pos p).state == .ending && due (s.pos p).phaseTimer then closeFill p s else s) s)

/-- PERIOD_EXPIRY (R10, R126). -/
def execPeriodExpiry (p : PosId) (s : State) : Host.Outcome State Fault Refusal :=
  .next (takeEvent (fun s =>
    if due (s.pos p).periodTimer then
      meterUpdate p (s.modPos p (fun x => { x with periodTimer := some 1000 }))
    else s) s)

/-- SENSOR_STALE_WATCH_EXPIRY (R7). -/
def execSensorStaleWatchExpiry (p : PosId) (s : State) : Host.Outcome State Fault Refusal :=
  .next (takeEvent (fun s =>
    if due (s.pos p).staleWatch then endFill p .sensorStale s else s) s)

/-! ### Timers of banks, lanes, channels and the time of day -/

/-- R64: expiry of a bank's stale watch. -/
def bankStale (b : BankId) (s : State) : State :=
  let held := (s.bank b).causes.stale
  let s := s.modBank b (fun x => { x with staleWatch := none, causes := { x.causes with stale := true } })
  if held then s else causesGrown b s

/-- BANK_STALE_WATCH_EXPIRY (R64). -/
def execBankStaleWatchExpiry (b : BankId) (s : State) : Host.Outcome State Fault Refusal :=
  .next (takeEvent (fun s => if due (s.bank b).staleWatch then bankStale b s else s) s)

/-- PULL_DOWN_TIMER_EXPIRY (R97). -/
def execPullDownTimerExpiry (l : LaneId) (s : State) : Host.Outcome State Fault Refusal :=
  .next (takeEvent (fun s =>
    if (s.lane l).state == .pulldown && due (s.lane l).pulldownTimer then
      postLaneState l .pulldownTimeout (s.modLane l (fun x =>
        { x with state := .fault, pulldownTimer := none, faultPulldown := true }))
    else s) s)

/-- LANE_STALE_WATCH_EXPIRY (R98, R101). -/
def execLaneStaleWatchExpiry (l : LaneId) (s : State) : Host.Outcome State Fault Refusal :=
  .next (takeEvent (fun s =>
    if (s.lane l).state == .ready && due (s.lane l).staleWatch then
      laneLeavesReady l .fault .stale (s.modLane l (fun x => { x with faultStale := true }))
    else s) s)

/-- The classes that have an unheld warm fill (R103). -/
def warmClasses (s : State) (l : LaneId) : ClassSet :=
  allPositions.foldl (fun (m : ClassSet) p =>
    if unheldWarm s l p then
      match (s.pos p).cls with
      | some k => m ||| (1#6 <<< k.val)
      | none => m
    else m) 0#6

/-- R103: a position of a class that has just joined the warm hold set. A bank it releases is offered at once, so
it may go to a fill of the set in HOLD(BANK) that is told later (notes/assumptions/36.md). -/
def tellWarm (l : LaneId) (joined : ClassSet) (s : State) (p : PosId) : State :=
  let x := s.pos p
  if x.lane == some l && (match x.cls with | some k => joined.getLsbD k | none => false) then
    match x.state, x.holdReason with
    | .ramp, _ => holdFromRamp p .laneWarm s
    | .hold, some .bank | .hold, some .vehicle =>
      enterHold p .laneWarm { s with drawList := s.drawList.filter (fun w => w.pos != p) }
    | _, _ => s
  else s

/-- R103: expiry of the warm timer. The positions are told in number order, which is the model's choice
(notes/assumptions/36.md). -/
def warmExpired (l : LaneId) (s : State) : State :=
  let joined := warmClasses s l
  let s := s.modLane l (fun x => { x with warmTimer := none, warmHold := x.warmHold ||| joined })
  if joined = 0#6 then s
  else
    let s := allPositions.foldl (tellWarm l joined) s
    warmTest l (postLaneState l .warmHold s)

/-- WARM_TIMER_EXPIRY (R103). -/
def execWarmTimerExpiry (l : LaneId) (s : State) : Host.Outcome State Fault Refusal :=
  .next (takeEvent (fun s =>
    if (s.lane l).state == .ready && due (s.lane l).warmTimer then warmExpired l s else s) s)

/-- SETTLE_GATE_TIMER_EXPIRY (R125). -/
def execSettleGateTimerExpiry (p : PosId) (s : State) : Host.Outcome State Fault Refusal :=
  .next (takeEvent (fun s =>
    if due (s.chan p).settleGate then
      s.modChan p (fun c => { c with settleGate := none, gateOpen := true })
    else s) s)

/-- ONE_SECOND_TIMER_EXPIRY: it runs on through a reset, not through a loss of power (R139, R182). -/
def execOneSecondTimerExpiry (s : State) : Host.Outcome State Fault Refusal :=
  .next (
    if s.phase ≠ .off ∧ due s.oneSecond = true then
      let s := { s with oneSecond := some 1000, tod := s.tod.tick }
      if s.phase == .serving then endEvent s else s
    else s)

/-! ### Port supervision and the loss teardown (R164 to R167) -/

/-- The blocks told of a loss or of the ESD latch; the spec gives them no order (R159, R166). -/
inductive LossAction
  | position (p : PosId)
  | lanes
  | cooling
  | refill
  | banks
  deriving DecidableEq, Repr

/-- R29: an island port loss at a position. -/
def islandLossAt (p : PosId) (s : State) : State :=
  match (s.pos p).state with
  | .pulse | .leakCheck | .ramp | .hold =>
    endFill p .linkLost (s.modPos p (fun x => { x with closePending := some .linkLost }))
  | .ending => s.modPos p (fun x => { x with closePending := some .linkLost })
  | .waitNozzle | .ready => makeUnavailable p (removeAuthorization p .linkLost s)
  | .idle | .waitAuth | .finished => makeUnavailable p s
  | .unavailable => s

/-- R105: the lanes an island owns lose their island enable. -/
def islandLanesLost (port : PortId) (s : State) : State :=
  allLanes.foldl (fun s l =>
    if (s.lane l).config.map (·.owner.val) == some port.val then setIslandEnable l false s else s) s

/-- R165: what a block does on the loss of an island port. -/
def islandLossAction (port : PortId) (s : State) : LossAction → State
  | .position p => islandLossAt p s
  | .lanes => islandLanesLost port s
  | .cooling | .refill | .banks => s

/-- R121: the capacity becomes 0, which sheds every grant. -/
def capacityLost (s : State) : State :=
  let changed := decide (s.cooling.capacity ≠ 0)
  let s := setCapacity 0 false s
  let s := if changed then budgetChanged .plantLost s else s
  if 0 < s.sumGrants then shed s else s

/-- R90: a compressor on the loss of the plant port. -/
def compressorLost (s : State) (c : CompId) : State :=
  match (s.comp c).state with
  | .running => withdrawRefill c .plantLost .plantLost .unavailable s
  | .coolingWait => leaveCoolingWait c .unavailable .plantLost s
  | .ready => postCompState c .plantLost (s.modComp c (fun x => { x with state := .unavailable }))
  | .unavailable => s

/-- The bank is IDLE, DRAWING or REFILLING. -/
def inService (x : Bank) : Bool :=
  match x.state with
  | .idle | .drawing | .refilling => true
  | .offline | .locked => false

/-- R77: a bank takes STALE and, when in service, LOCKED, on the loss of the plant port, with one BANK_STATE
(notes/assumptions/38.md). -/
def lockStale (s : State) (b : BankId) : State :=
  let t := s.modBank b (fun x => { x with causes := { x.causes with stale := true } })
  match (s.bank b).state with
  | .offline => s
  | .locked => if (s.bank b).causes.stale then s else postBankState b t
  | .idle | .drawing | .refilling => vacateBank b .locked t

/-- R77: every bank is locked before any holder is told, so that a withdrawn position finds no bank and a
compressor without its bank finds none to fill (notes/assumptions/28.md). -/
def banksLinkLost (s : State) : State :=
  allBanks.foldl (fun t b => if inService (s.bank b) then tellBankLeft b (s.bank b) t else t)
    (allBanks.foldl lockStale s)

/-- R166: what a block does on the loss of the plant port. -/
def plantLossAction (s : State) : LossAction → State
  | .position p => endFill p .plantLost s
  | .lanes => allLanes.foldl (fun s l => setPlantEnable l false s) s
  | .cooling => capacityLost s
  | .refill => allComps.foldl compressorLost s
  | .banks => banksLinkLost s

/-- The actions in an order the free choices pick, each taken whole (notes/assumptions/3.md). -/
def takeActions (actions : List LossAction) (f : State → LossAction → State) (s : State) : State :=
  let r := s.permute actions
  r.2.foldl f r.1

/-- The event under way is the loss of the plant port (R77, notes/assumptions/28.md). -/
def plantLossBegins (s : State) : State := { s with evt := { s.evt with plantLost := true } }

/-- R165 to R167: the loss teardown by the role of the port. -/
def teardown (port : PortId) (s : State) : State :=
  match portRole port with
  | .island =>
    takeActions (((allPositions.filter (fun p => islandPort p = port)).map .position) ++ [.lanes])
      (islandLossAction port) s
  | .plant =>
    takeActions (allPositions.map .position ++ [.lanes, .cooling, .refill, .banks]) plantLossAction
      (budgetCause .plantLost (plantLossBegins s))
  | .till => s

/-- R164: expiry of the interval timer of a port. -/
def intervalExpired (port : PortId) (s : State) : State :=
  if (s.port port).supervision.count = 0 then
    postPortNotice .portLate port (s.modPort port (fun x =>
      { x with supervision := { x.supervision with
          count := 1, state := .late, timer := some x.supervision.interval } }))
  else
    teardown port (postPortNotice .portLost port (s.modPort port (fun x =>
      { x with supervision := { x.supervision with count := 2, state := .lost, timer := none } })))

/-- INTERVAL_TIMER_EXPIRY (R164). -/
def execIntervalTimerExpiry (port : PortId) (s : State) : Host.Outcome State Fault Refusal :=
  .next (takeEvent (fun s =>
    if due (s.port port).supervision.timer then intervalExpired port s else s) s)

end Sys2Proof.Machine
end

