-- ==== Sys2Proof/Machine/Lines.lean ====
section
/-! DEFINITION. Store completions, meter pulses and the hard-wired lines; power, reset and start-up
(R124, R137, R158, R159, R168, R180 to R184). -/

namespace Sys2Proof.Machine

/-! ### The store -/

/-- WRITE_GROUP_COMPLETION: groups run on through a reset, not through a loss of power (R180 to R182). -/
def execWriteGroupCompletion (r : RecId) (s : State) : Host.Outcome State Fault Refusal :=
  .next (
    if s.phase = .off then s
    else if s.phase == .serving then endEvent (completeGroup r s)
    else completeGroup r s)

/-! ### Pulses and lines -/

/-- PULSE_EDGE: taken while the part serves and during the start-up sequence (R124, R183). -/
def execPulseEdge (p : PosId) (s : State) : Host.Outcome State Fault Refusal :=
  .next (
    match s.phase with
    | .serving => endEvent (s.modChan p (fun c => c.edge s.clock))
    | .settling | .recovering => s.modChan p (fun c => c.edge s.clock)
    | .off | .held => s)

/-- R29: the latch at a position. -/
def esdAt (p : PosId) (s : State) : State :=
  match (s.pos p).state with
  | .waitNozzle | .ready => loseAuthorization p .esd s
  | _ => endFill p .esd s

/-- R89: the latch at a compressor. -/
def compressorEsd (s : State) (c : CompId) : State :=
  match (s.comp c).state with
  | .running => withdrawRefill c .esd .esd .ready s
  | .coolingWait => leaveCoolingWait c .ready .esd s
  | .ready | .unavailable => s

/-- R120: every compressor grant goes to 0 at the latch. -/
def compressorGrantsGone (s : State) : State :=
  allComps.foldl (fun s c =>
    if (s.grantOf (.comp c)).grant = 0 then s else setGrant (.comp c) 0 (budgetChanged .esd s)) s

/-- R159: what a block does when the latch is set. -/
def esdAction (s : State) : LossAction → State
  | .position p => esdAt p s
  | .refill => allComps.foldl compressorEsd s
  | .cooling => compressorGrantsGone s
  | .lanes | .banks => s

/-- R159: the setting of the latch by an edge, and every block's action in the same event. -/
def setEsd (s : State) : State :=
  let s := postEsd (setLatch true .edge s)
  takeActions (allPositions.map .position ++ [.refill, .cooling]) esdAction (budgetCause .esd s)

/-- ESD_N_FALLING_EDGE: it sets a CLEAR latch; during start-up the level alone is kept (R159, R183). -/
def execEsdNFallingEdge (s : State) : Host.Outcome State Fault Refusal :=
  let s := { s with pins := { s.pins with esdN := false } }
  .next (takeEvent (fun s => if s.esd.latched then s else setEsd s) s)

/-- ESD_N_RISING_EDGE: the level alone changes (R158). -/
def execEsdNRisingEdge (s : State) : Host.Outcome State Fault Refusal :=
  .next { s with pins := { s.pins with esdN := true } }

/-- CAL_EN_CHANGE: no state of the part changes, the level alone (R137). -/
def execCalEnChange (high : Bool) (s : State) : Host.Outcome State Fault Refusal :=
  .next { s with pins := { s.pins with calEn := high } }

/-- BR_STRAPS_CHANGE: no effect until the next start-up reads the straps (R168). -/
def execBrStrapsChange (br1 br0 : Bool) (s : State) : Host.Outcome State Fault Refusal :=
  .next { s with pins := { s.pins with br1 := br1, br0 := br0 } }

/-! ### Power, reset and start-up (R182 to R184) -/

/-- Every volatile item at its reset value (R183 stage 2, with R2, R8, R32, R44, R55, R58, R79, R92, R108,
R123, R162, R163, R168). The lines, the clock, the time of day, the store with its groups and copies, the
ESD latch and the command queue are not volatile items of stage 2. -/
def State.volatileReset (s : State) : State :=
  { s with
    positions := Vector.replicate 8 .initial
    ambient := ⟨none, false⟩
    rampTable := Vector.replicate 6 (Vector.replicate 6 none)
    switchMass := 3
    creepLimit := 20
    margin := 200
    channels := Vector.replicate 8 .initial
    banks := Vector.replicate 12 .initial
    windows := Vector.replicate 3 none
    drawList := []
    queue := []
    comps := Vector.replicate 2 .initial
    lanes := Vector.replicate 4 .initial
    cooling := .initial
    tripped := Vector.replicate 8 false
    ports := Vector.replicate 6 .initial
    evt := .empty }

/-- POWER_APPLIED: the clock starts at 0, the time of day is UNSET, and the sequence begins unless RESET_N is
low (R139, R182, R183). -/
def execPowerApplied (s : State) : Host.Outcome State Fault Refusal :=
  .next (
    if s.phase = .off then
      { s.volatileReset with
        phase := if s.pins.resetN then .settling else .held
        powerFresh := true
        clock := 0#32
        tod := ⟨0, 0, false⟩
        oneSecond := none
        esd := ⟨false, none⟩ }
    else s)

/-- POWER_LOSS: groups in flight end without completion, with their old content; all volatile state is lost
(R180, notes/assumptions/7.md). -/
def execPowerLoss (s : State) : Host.Outcome State Fault Refusal :=
  .next (
    if s.phase = .off then s
    else
      { s.volatileReset with
        phase := .off
        clock := 0#32
        tod := ⟨0, 0, false⟩
        oneSecond := none
        esd := ⟨false, none⟩
        groups := []
        work := s.store })

/-- RESET_N_ASSERTED: the part is held; a start-up sequence is abandoned (R182). -/
def execResetNAsserted (s : State) : Host.Outcome State Fault Refusal :=
  .next { s with
    pins := { s.pins with resetN := false }
    phase := if s.phase = .off then .off else .held }

/-- RESET_N_RELEASED: the start-up sequence begins with stage 1 (R182, R183). -/
def execResetNReleased (s : State) : Host.Outcome State Fault Refusal :=
  .next { s with
    pins := { s.pins with resetN := true }
    phase := if s.phase = .held then .settling else s.phase }

/-- The rate the BR straps select (R168, section 11.5). -/
def Pins.rate (x : Pins) : BaudRate :=
  match x.br1, x.br0 with
  | false, false => .r57600
  | false, true => .r115200
  | true, false => .r230400
  | true, true => .r460800

/-- Stage 6: the reset cause is written (R182, R183). -/
def writeCause (s : State) : State :=
  let cause : ResetCause := if s.powerFresh then .powerOn else .resetLine
  issue [.resetCause cause] { s with work := { s.work with resetCause := cause } }

/-- Stage 7: the straps and ESD_N are read; a latch set here is noticed to every port (R158, R161, R168). -/
def readLines (s : State) : State :=
  let s := { s with rate := s.pins.rate }
  if s.pins.esdN then { s with esd := ⟨false, none⟩ } else postEsd (setLatch true .startLow s)

/-- Stages 2 to 7 (R183, R184). -/
def startUpStages (s : State) : State :=
  let s := { s.volatileReset with work := s.store }
  let s := (openSlots s.work).foldl (fun s i => recoverSlot i s) s
  { readLines (writeCause s) with phase := .recovering }

/-- START_UP_SEQUENCE: stages 2 to 7, once stage 1 finds no group in flight (R183). -/
def execStartUpSequence (s : State) : Host.Outcome State Fault Refusal :=
  .next (if s.phase = .settling ∧ s.groups = [] then startUpStages s else s)

/-- START_UP_SERVE: stage 8, once the groups of stages 5 and 6 are complete; the sequence has reached its end
(R182, R183). -/
def execStartUpServe (s : State) : Host.Outcome State Fault Refusal :=
  .next (if s.phase = .recovering ∧ s.groups = [] then { s with phase := .serving, powerFresh := false } else s)

end Sys2Proof.Machine
end

