-- ==== Sys2Proof/Machine/Dispatch.lean ====
section
/-! DEFINITION. The dispatch of the commands: one arm per constructor, one direct call of its meaning. -/

namespace Sys2Proof.Machine

def exec (i : Instr) (s : State) : Host.Outcome State Fault Refusal :=
  match i with
  | .positionOpen port args => Sys2Proof.Machine.execPositionOpen port args s
  | .positionClose port args => Sys2Proof.Machine.execPositionClose port args s
  | .nozzle port args => Sys2Proof.Machine.execNozzle port args s
  | .start port args => Sys2Proof.Machine.execStart port args s
  | .stop port args => Sys2Proof.Machine.execStop port args s
  | .positionReport port args => Sys2Proof.Machine.execPositionReport port args s
  | .vehicleData port args => Sys2Proof.Machine.execVehicleData port args s
  | .laneEnable port args => Sys2Proof.Machine.execLaneEnable port args s
  | .stationConfig port args => Sys2Proof.Machine.execStationConfig port args s
  | .bankConfig port args => Sys2Proof.Machine.execBankConfig port args s
  | .tierWindow port args => Sys2Proof.Machine.execTierWindow port args s
  | .bankOnline port args => Sys2Proof.Machine.execBankOnline port args s
  | .bankOffline port args => Sys2Proof.Machine.execBankOffline port args s
  | .bankLock port args => Sys2Proof.Machine.execBankLock port args s
  | .bankUnlock port args => Sys2Proof.Machine.execBankUnlock port args s
  | .bankReport port args => Sys2Proof.Machine.execBankReport port args s
  | .refillRequest port args => Sys2Proof.Machine.execRefillRequest port args s
  | .refillWithdraw port args => Sys2Proof.Machine.execRefillWithdraw port args s
  | .compressorConfig port args => Sys2Proof.Machine.execCompressorConfig port args s
  | .compressorReady port args => Sys2Proof.Machine.execCompressorReady port args s
  | .compressorUnavailable port args => Sys2Proof.Machine.execCompressorUnavailable port args s
  | .refillDone port args => Sys2Proof.Machine.execRefillDone port args s
  | .laneConfig port args => Sys2Proof.Machine.execLaneConfig port args s
  | .laneReport port args => Sys2Proof.Machine.execLaneReport port args s
  | .laneFaultClear port args => Sys2Proof.Machine.execLaneFaultClear port args s
  | .coolingReport port args => Sys2Proof.Machine.execCoolingReport port args s
  | .ambientReport port args => Sys2Proof.Machine.execAmbientReport port args s
  | .positionConfig port args => Sys2Proof.Machine.execPositionConfig port args s
  | .rampTable port args => Sys2Proof.Machine.execRampTable port args s
  | .calWrite port args => Sys2Proof.Machine.execCalWrite port args s
  | .esdClear port args => Sys2Proof.Machine.execEsdClear port args s
  | .authorize port args => Sys2Proof.Machine.execAuthorize port args s
  | .cancel port args => Sys2Proof.Machine.execCancel port args s
  | .tariffSet port args => Sys2Proof.Machine.execTariffSet port args s
  | .tariffRead port args => Sys2Proof.Machine.execTariffRead port args s
  | .setClock port args => Sys2Proof.Machine.execSetClock port args s
  | .txnRead port args => Sys2Proof.Machine.execTxnRead port args s
  | .txnRelease port args => Sys2Proof.Machine.execTxnRelease port args s
  | .totalsRead port args => Sys2Proof.Machine.execTotalsRead port args s
  | .totalsSnapshot port args => Sys2Proof.Machine.execTotalsSnapshot port args s
  | .snapshotRead port args => Sys2Proof.Machine.execSnapshotRead port args s
  | .positionQuery port args => Sys2Proof.Machine.execPositionQuery port args s
  | .supervisionSet port args => Sys2Proof.Machine.execSupervisionSet port args s
  | .noticeSet port args => Sys2Proof.Machine.execNoticeSet port args s
  | .statusQuery port args => Sys2Proof.Machine.execStatusQuery port args s
  | .countersRead port args => Sys2Proof.Machine.execCountersRead port args s
  | .countersClear port args => Sys2Proof.Machine.execCountersClear port args s
  | .unknownKind port kind args => Sys2Proof.Machine.execUnknownKind port kind args s
  | .goodFrame port body => Sys2Proof.Machine.execGoodFrame port body s
  | .badCheckFrame port => Sys2Proof.Machine.execBadCheckFrame port s
  | .badLengthFragment port length => Sys2Proof.Machine.execBadLengthFragment port length s
  | .frameGap port => Sys2Proof.Machine.execFrameGap port s
  | .frameSent port => Sys2Proof.Machine.execFrameSent port s
  | .authorizationLifeExpiry pos => Sys2Proof.Machine.execAuthorizationLifeExpiry pos s
  | .pulseExpiry pos => Sys2Proof.Machine.execPulseExpiry pos s
  | .leakCheckExpiry pos => Sys2Proof.Machine.execLeakCheckExpiry pos s
  | .holdLimitExpiry pos => Sys2Proof.Machine.execHoldLimitExpiry pos s
  | .settleExpiry pos => Sys2Proof.Machine.execSettleExpiry pos s
  | .periodExpiry pos => Sys2Proof.Machine.execPeriodExpiry pos s
  | .sensorStaleWatchExpiry pos => Sys2Proof.Machine.execSensorStaleWatchExpiry pos s
  | .bankStaleWatchExpiry bank => Sys2Proof.Machine.execBankStaleWatchExpiry bank s
  | .pullDownTimerExpiry lane => Sys2Proof.Machine.execPullDownTimerExpiry lane s
  | .laneStaleWatchExpiry lane => Sys2Proof.Machine.execLaneStaleWatchExpiry lane s
  | .warmTimerExpiry lane => Sys2Proof.Machine.execWarmTimerExpiry lane s
  | .settleGateTimerExpiry channel => Sys2Proof.Machine.execSettleGateTimerExpiry channel s
  | .oneSecondTimerExpiry => Sys2Proof.Machine.execOneSecondTimerExpiry s
  | .intervalTimerExpiry port => Sys2Proof.Machine.execIntervalTimerExpiry port s
  | .writeGroupCompletion record => Sys2Proof.Machine.execWriteGroupCompletion record s
  | .pulseEdge channel => Sys2Proof.Machine.execPulseEdge channel s
  | .esdNFallingEdge => Sys2Proof.Machine.execEsdNFallingEdge s
  | .esdNRisingEdge => Sys2Proof.Machine.execEsdNRisingEdge s
  | .calEnChange high => Sys2Proof.Machine.execCalEnChange high s
  | .powerApplied => Sys2Proof.Machine.execPowerApplied s
  | .powerLoss => Sys2Proof.Machine.execPowerLoss s
  | .resetNAsserted => Sys2Proof.Machine.execResetNAsserted s
  | .resetNReleased => Sys2Proof.Machine.execResetNReleased s
  | .startUpSequence => Sys2Proof.Machine.execStartUpSequence s
  | .startUpServe => Sys2Proof.Machine.execStartUpServe s
  | .syncByte port => Sys2Proof.Machine.execSyncByte port s
  | .brStrapsChange br1 br0 => Sys2Proof.Machine.execBrStrapsChange br1 br0 s

end Sys2Proof.Machine
end

