-- ==== Sys2Proof/Machine/Idle.lean ====
section
/-! DEFINITION. What the part does of itself when no command waits: the events that are ready (timers that
have run out, frames to be taken, write groups at the end of their 8 ms, start-up stages), and the passing of
one millisecond when none is (notes/assumptions/2.md). -/

namespace Sys2Proof.Machine

/-- The command list of a condition. -/
def when (c : Bool) (i : Instr) : List Instr := if c then [i] else []

/-- Completions of the groups whose 8 ms are over (R180). -/
def readyGroups (s : State) : List Instr :=
  s.groups.flatMap (fun g =>
    match g.left, g.writes with
    | 0, w :: _ => [.writeGroupCompletion w.key]
    | _, _ => [])

/-- The expiry of the phase timer of a position, by its state (R11). -/
def phaseExpiry (p : PosId) (x : Position) : List Instr :=
  if due x.phaseTimer then
    match x.state with
    | .waitNozzle | .ready => [.authorizationLifeExpiry p]
    | .pulse => when (x.pulseState == some .pulsing) (.pulseExpiry p)
    | .leakCheck => [.leakCheckExpiry p]
    | .hold => [.holdLimitExpiry p]
    | .ending => [.settleExpiry p]
    | .unavailable | .idle | .waitAuth | .ramp | .finished => []
  else []

/-- The expiries of a position and its channel. -/
def positionExpiries (s : State) (p : PosId) : List Instr :=
  phaseExpiry p (s.pos p) ++ when (due (s.pos p).periodTimer) (.periodExpiry p)
    ++ when (endable (s.pos p).state && due (s.pos p).staleWatch) (.sensorStaleWatchExpiry p)
    ++ when (due (s.chan p).settleGate) (.settleGateTimerExpiry p)

/-- The expiries of a lane. -/
def laneExpiries (s : State) (l : LaneId) : List Instr :=
  let x := s.lane l
  when (x.state == .pulldown && due x.pulldownTimer) (.pullDownTimerExpiry l)
    ++ when (x.state == .ready && due x.staleWatch) (.laneStaleWatchExpiry l)
    ++ when (x.state == .ready && due x.warmTimer) (.warmTimerExpiry l)

/-- What a port has ready: the head of its receive buffer (R170), the expiry of its interval timer (R164). -/
def portReady (s : State) (n : PortId) : List Instr :=
  let x := s.port n
  (match x.rxBuffer with
   | body :: _ => when (decide (x.replies.length < 8)) (requestOf n body)
   | [] => [])
  ++ when (due x.supervision.timer) (.intervalTimerExpiry n)

/-- Everything that is ready at this moment. -/
def readyEvents (s : State) : List Instr :=
  match s.phase with
  | .off => []
  | .held => readyGroups s ++ when (due s.oneSecond) .oneSecondTimerExpiry
  | .settling =>
    readyGroups s ++ when (due s.oneSecond) .oneSecondTimerExpiry ++ when s.groups.isEmpty .startUpSequence
  | .recovering =>
    readyGroups s ++ when (due s.oneSecond) .oneSecondTimerExpiry ++ when s.groups.isEmpty .startUpServe
  | .serving =>
    readyGroups s ++ when (due s.oneSecond) .oneSecondTimerExpiry
      ++ allPorts.flatMap (portReady s)
      ++ allPositions.flatMap (positionExpiries s)
      ++ allBanks.flatMap (fun b => when (due (s.bank b).staleWatch) (.bankStaleWatchExpiry b))
      ++ allLanes.flatMap (laneExpiries s)

/-- One millisecond of a position's timers. -/
def Position.tick (x : Position) : Position :=
  { x with
    periodTimer := tickTimer x.periodTimer
    phaseTimer := tickTimer x.phaseTimer
    staleWatch := tickTimer x.staleWatch }

/-- One millisecond of a lane's timers. -/
def Lane.tick (x : Lane) : Lane :=
  { x with
    pulldownTimer := tickTimer x.pulldownTimer
    staleWatch := tickTimer x.staleWatch
    warmTimer := tickTimer x.warmTimer }

/-- One millisecond of the timers that run only while the part serves. -/
def State.tickBlocks (s : State) : State :=
  { s with
    positions := s.positions.map Position.tick
    banks := s.banks.map (fun x => { x with staleWatch := tickTimer x.staleWatch })
    lanes := s.lanes.map Lane.tick
    channels := s.channels.map (fun x => { x with settleGate := tickTimer x.settleGate })
    ports := s.ports.map (fun x =>
      { x with supervision := { x.supervision with timer := tickTimer x.supervision.timer } }) }

/-- One millisecond: the station clock, the one-second timer and the groups in flight run in every phase with
power (R139, R180, R182), the other timers while the part serves. The refill queue keeps the order of R78 at the
new clock, where an age may have wrapped to 0. -/
def State.tick (s : State) : State :=
  if s.phase = .off then s
  else
    let s := { s with
      clock := s.clock + 1
      queue := orderQueue (s.clock + 1) s.queue
      oneSecond := tickTimer s.oneSecond
      groups := s.groups.map (fun g => { g with left := g.left - 1 }) }
    if s.phase == .serving then s.tickBlocks else s

/-- The part with no command waiting: the ready events join the queue in an order the free choices pick, or a
millisecond passes (notes/assumptions/2.md and 3.md). -/
def idle (s : State) : State :=
  match readyEvents s with
  | [] => s.tick
  | events =>
    let r := s.permute events
    { r.1 with pending := r.1.pending ++ r.2 }

end Sys2Proof.Machine
end

