-- ==== Sys2Proof/WellFormed.lean ====
section
/-! DEFINITION. Which commands the links can make: what R169 and R171 say of the frames behind them. -/

namespace Sys2Proof

/-- A frame's body has 2 to 250 bytes (R169). -/
def bodyFits (body : List Byte) : Bool := 2 ≤ body.length && body.length ≤ 250

/-- A command is well formed when a receiver or a line of the part can give it: a request comes from a body
of 2 to 250 bytes, an UNKNOWN_KIND has a kind code in no catalogue (R171), and a bad length byte is below 2
or above 250 (R169). -/
def Instr.wellFormed (c : Instr) : Bool :=
  (match requestBody c with
   | some (_, body) => bodyFits body
   | none => true) &&
  (match c with
   | .unknownKind _ kind _ => (kindRow kind.toNat).isNone
   | .goodFrame _ body => bodyFits body
   | .badLengthFragment _ length => length.toNat < 2 || 250 < length.toNat
   | _ => true)

end Sys2Proof
end

