-- ==== Sys2Proof/Safety.lean ====
section
/-! DEFINITION. The terms the claims are stated in: what a port sends, states that agree but for what a
transmitter or a cascade may change, how a command completes, and the laws every step keeps. -/

namespace Sys2Proof.Machine

/-! ### What a port sends (R172) -/

/-- The replies of a port in the order of their requests, the one on the line first (R171, R172). -/
def Port.outReplies (x : Port) : List Reply :=
  (match x.line with
   | some (.reply r) => [r]
   | _ => []) ++ x.replies

/-- The directives of a port in the order posted, the one on the line first (R172, R173). -/
def Port.outDirectives (x : Port) : List Directive :=
  (match x.line with
   | some (.directive d) => [d]
   | _ => []) ++ x.directives

/-- The notices of a port: the one on the line, and those pending (R172, R174). -/
def Port.outNotices (x : Port) : List Notice :=
  (match x.line with
   | some (.notice n) => [n]
   | _ => []) ++ x.pending

/-- A port as it stands before its transmitter has begun anything: line free, what is on it back in front of
its queue, no notice, and the four counters that a beginning frame raises at 0 (R177). -/
def Port.settled (x : Port) : Port :=
  { x with
    line := none
    replies := x.outReplies
    directives := x.outDirectives
    pending := []
    counters := { x.counters with refused := 0, replies := 0, directives := 0, notices := 0 } }

/-- The state with every port settled and the scratch of the event empty. -/
def State.settled (s : State) : State := { s with ports := s.ports.map Port.settled, evt := .empty }

/-- A notice has the kind and the subject of another: the key of the pending set (R174). -/
def Notice.sameKey (a b : Notice) : Prop := a.kind = b.kind ∧ a.subject = b.subject

/-- `t` is `e` but for frames that the transmitters have begun: everything else is equal, no notice is new,
and none is gone. -/
structure Delivers (e t : State) : Prop where
  rest : t.settled = e.settled
  noNew : ∀ n : PortId, (t.port n).outNotices ⊆ (e.port n).outNotices
  noneLost : ∀ n : PortId, ∀ m ∈ (e.port n).outNotices, ∃ m' ∈ (t.port n).outNotices, m'.sameKey m

/-! ### Requests -/

/-- A request body can be taken at its port: the part serves, the reply queue has room, the body is the head
of the receive buffer or nothing is buffered, and no event is under way (R170). -/
structure Ready (port : PortId) (body : List Byte) (s : State) : Prop where
  serving : s.phase = .serving
  room : (s.port port).replies.length < 8
  head : (s.port port).rxBuffer = [] ∨ (s.port port).rxBuffer.head? = some body
  between : s.evt = .empty

/-- The request a command stands for is ready to be taken. -/
def Standing (c : Instr) (s : State) : Prop :=
  match requestBody c with
  | some (port, body) => Ready port body s
  | none => False

/-- The byte that names a number. -/
def byteOf (n : Nat) : Byte := BitVec.ofNat 8 n

/-- A request of a catalogue kind, from a port of its role and of its length, that names a subject above its
range or a position of another island (R3, R56, R60 to R66, R81, R83, R86, R87, R93, R94, R96, R99, R141). -/
def NamesUnknown : Instr → Prop
  | .positionOpen port [b, _, _, _] | .positionClose port [b] | .nozzle port [b, _] | .start port [b]
  | .stop port [b] | .positionReport port [b, _, _] | .vehicleData port [b, _, _, _, _, _, _, _] =>
    portRole port = .island ∧ (8 ≤ b.toNat ∨ b.toNat / 2 ≠ port.val)
  | .laneEnable port [b, _] => portRole port ≠ .till ∧ 4 ≤ b.toNat
  | .bankConfig port [b, _, _, _, _, _, _, _] | .bankOnline port [b] | .bankOffline port [b]
  | .bankLock port [b] | .bankUnlock port [b, _] | .bankReport port [b, _, _, _, _]
  | .refillRequest port [b] => port = plantPort ∧ 12 ≤ b.toNat
  | .refillWithdraw port [b, _] | .compressorConfig port [b, _, _] | .compressorReady port [b]
  | .compressorUnavailable port [b] | .refillDone port [b] => port = plantPort ∧ 2 ≤ b.toNat
  | .laneConfig port [b, _, _, _, _] | .laneReport port [b, _, _] | .laneFaultClear port [b] =>
    port = plantPort ∧ 4 ≤ b.toNat
  | .positionConfig port [b, _] | .calWrite port [b, _, _, _, _, _, _] => port = plantPort ∧ 8 ≤ b.toNat
  | .authorize port [b, _, _, _, _, _, _, _, _, _, _] | .cancel port [b, _, _, _, _]
  | .tariffSet port [b, _, _, _, _, _, _, _, _, _, _, _, _, _, _, _] | .tariffRead port [b]
  | .positionQuery port [b] => port = tillPort ∧ 8 ≤ b.toNat
  | _ => False

/-- An event that is no request can be taken: the part serves and no event is under way. -/
structure Quiet (s : State) : Prop where
  serving : s.phase = .serving
  between : s.evt = .empty

/-- The state with the head of a port's receive buffer taken and a reply at the tail of its queue (R170, R171). -/
def State.replied (s : State) (port : PortId) (r : Reply) : State :=
  s.modPort port (fun x => { x with rxBuffer := x.rxBuffer.drop 1, replies := x.replies ++ [r] })

/-- The request is accepted: it answers a next state that is `e` with the one reply, held or not. -/
def Accepts (c : Instr) (s : State) (data : List Field) (held : Option RecId) (e : State) : Prop :=
  match requestBody c with
  | some (port, kind :: _) =>
    ∃ t, exec c s = .next t ∧ Delivers (e.replied port ⟨kind, none, data, held⟩) t
  | _ => False

/-- The request is refused with a code and the subject it named (R171): nothing else changes. -/
def Refuses (c : Instr) (s : State) (code : RefusalCode) : Prop :=
  match requestBody c with
  | some (port, kind :: args) =>
    ∃ t, exec c s = .next t ∧ Delivers (s.replied port ⟨kind, some code, subjectFields args, none⟩) t
  | _ => False

/-- The event is taken: it answers a next state that is `e` but for begun frames. -/
def Takes (c : Instr) (s : State) (e : State) : Prop := ∃ t, exec c s = .next t ∧ Delivers e t

/-! ### What a cascade leaves alone -/

def Position.steady (x : Position) : Position :=
  { x with
    state := .idle
    bank := none
    pulseState := none
    holdReason := none
    endReason := none
    phaseTimer := none
    staleWatch := none
    ramp := { x.ramp with lowFlow := 0 } }

def Channel.steady (c : Channel) : Channel :=
  { c with gateOpen := false, settleGate := none, flowSince := none }

def Bank.steady (x : Bank) : Bank :=
  { x with state := .offline, holder := none, massAtGrant := 0, drawnMass := 0 }

def Compressor.steady (x : Compressor) : Compressor := { Compressor.initial with configured := x.configured }

def Lane.steady (x : Lane) : Lane := { x with warmTimer := none }

def GrantEntry.steady (e : GrantEntry) : GrantEntry := { e with grant := 0, time := none }

def Cooling.steady (c : Cooling) : Cooling :=
  { c with
    fills := c.fills.map GrantEntry.steady
    comps := c.comps.map GrantEntry.steady
    order := []
    wait := [] }

def TxnRecord.steady (r : TxnRecord) : TxnRecord :=
  { r with
    finalPSet := none
    endReason := none
    flags := ⟨false, false, false, false, false, false, false⟩
    checkpointMass := 0
    segments := [] }

def Slot.steady : Slot → Slot
  | .free => .free
  | .txn r => .txn r.steady

def StoreData.steady (d : StoreData) : StoreData := { d with slots := d.slots.map Slot.steady }

/-- A port but for its output: settled, with no directive and no notice counted. -/
def Port.steady (x : Port) : Port :=
  { x.settled with
    directives := []
    counters := { x.counters with
      refused := 0, replies := 0, directives := 0, directivesSuperseded := 0, notices := 0
      noticesCoalesced := 0, noticesMasked := 0 } }

/-- The part of the state that bank grants, offers, refill assignments, holds, ends of fills and
redistributions of cooling leave alone. Erased: the phase of each fill and its bank, gates, bank and
compressor states, the refill queue, warm timers, grants, both wait lists, the marks of open records, write
groups, directives and notices. Kept, among others: every configuration and setting, replies, demands,
masses, prices, totals, the stored records, the clock, the lines and the ESD latch. -/
def State.steady (s : State) : State :=
  { s with
    positions := s.positions.map Position.steady
    channels := s.channels.map Channel.steady
    banks := s.banks.map Bank.steady
    drawList := []
    queue := []
    comps := s.comps.map Compressor.steady
    lanes := s.lanes.map Lane.steady
    cooling := s.cooling.steady
    work := s.work.steady
    groups := []
    ports := s.ports.map Port.steady
    evt := .empty }

/-- The request is accepted and brings about a cascade: it answers a next state with its one reply, held or
not, whose data is `data`; outside what cascades change, that state is `e`, and `post` holds of the reply's
data and of it. -/
def Completes (c : Instr) (s : State) (held : Option RecId) (e : State) (post : List Field → State → Prop) : Prop :=
  match requestBody c with
  | some (port, kind :: _) =>
    ∃ t data, exec c s = .next t ∧ t.steady = (e.replied port ⟨kind, none, data, held⟩).steady ∧ post data t
  | _ => False

/-- The event is taken and brings about a cascade: it answers a next state that is `e` outside what cascades
change, and `post` holds of it. -/
def Brings (c : Instr) (s : State) (e : State) (post : State → Prop) : Prop :=
  ∃ t, exec c s = .next t ∧ t.steady = e.steady ∧ post t

/-- A position stands in one of the two wait lists (R70, section 6.4). -/
def Waits (s : State) (p : PosId) : Prop :=
  (∃ w ∈ s.drawList, w.pos = p) ∨ (∃ w ∈ s.cooling.wait, w.who = .pos p)

/-- How a fill in PULSE, LEAKCHECK, RAMP or HOLD enters ENDING (R27): the position, its channel, its grant,
the lists it leaves, its open record, its valve. -/
structure Ended (p : PosId) (reason : EndReason) (s t : State) : Prop where
  position : t.pos p = { s.pos p with
    state := .ending, endReason := some reason, holdReason := none, pulseState := none, bank := none,
    phaseTimer := some 3000, staleWatch := none }
  channel : t.chan p = { s.chan p with gateOpen := false, settleGate := some 2000, flowSince := none }
  noGrant : (t.grantOf (.pos p)).grant = 0
  notWaiting : ¬ Waits t p
  released : ∀ b, (t.bank b).holder = some (.pos p) → (s.pos p).bank ≠ some b
  record : ∀ r, s.openRecord p = some r →
    ∃ r', t.openRecord p = some r' ∧ r'.endReason = some reason ∧ r'.finalPSet = (s.pos p).ramp.pSet ∧
      r'.checkpointMass = (s.chan p).mass ∧ r'.mass = r.mass
  closedSent : (s.pos p).picture ≠ .closed →
    .valve p .closed none ∈ (t.port (islandPort p)).outDirectives
  others : ∀ q, q ≠ p → ¬ Waits s q → t.pos q = s.pos q ∧ t.chan q = s.chan q

/-- A position begins or resumes a hold without a bank that loads the hold limit (R23, R25, R125). -/
structure Held (p : PosId) (reason : HoldReason) (s t : State) : Prop where
  position : t.pos p = { s.pos p with
    state := .hold, holdReason := some reason, phaseTimer := some 120000
    ramp := { (s.pos p).ramp with lowFlow := 0 } }
  channel : t.chan p = { s.chan p with gateOpen := true, flowSince := none }

/-- A position begins to flow on a bank it has been granted (R21, R43, R69, R75, R125, R151): the position, its
channel, the bank, the FLOW directive, the segment of its open record. -/
structure Flows (p : PosId) (b : BankId) (s t : State) : Prop where
  position : t.pos p = { s.pos p with
    state := .ramp, bank := some b, holdReason := none, phaseTimer := none
    ramp := { (s.pos p).ramp with lowFlow := 0 } }
  channel : t.chan p = { s.chan p with gateOpen := false, flowSince := some s.clock }
  bank : t.bank b = { s.bank b with
    state := .drawing, holder := some (.pos p), massAtGrant := (s.chan p).mass, drawnMass := 0 }
  notWaiting : ∀ w ∈ t.drawList, w.pos ≠ p
  flowSent : .valve p (.flow b ((s.pos p).ramp.pSet.getD 0)) (t.pos p).directiveLane ∈
    (t.port (islandPort p)).outDirectives
  segment : ∀ r, s.openRecord p = some r → r.segments.length < 8 → ∃ r', t.openRecord p = some r' ∧
    r'.segments = r.segments ++ [⟨.bank b (((s.bank b).config.map (·.tier)).getD .low), (s.chan p).mass,
      (s.pos p).pressure.map (·.value), none, none, none⟩]

/-- Every position but `p` that waits for nothing is as it was, and so is its channel. -/
def OthersKept (p : PosId) (s t : State) : Prop :=
  ∀ q, q ≠ p → ¬ Waits s q → t.pos q = s.pos q ∧ t.chan q = s.chan q

/-- Every position that waits for nothing is as it was, and so is its channel. -/
def FillsKept (s t : State) : Prop := ∀ q, ¬ Waits s q → t.pos q = s.pos q ∧ t.chan q = s.chan q

/-- No waiter could be granted an IDLE bank of the kind (R68, R71). -/
def NoneEligible (ok : BankId → Prop) (t : State) : Prop :=
  ∀ w ∈ t.drawList, ∀ b, ok b → eligible t w.pos w.kind w.excluded b = false

/-- R68: the tests that make a bank eligible for a request of a position. -/
def Serves (s : State) (p : PosId) (kind : DrawKind) (excluded : Option BankId) (b : BankId) : Prop :=
  let pressure := ((s.pos p).pressure.map (·.value)).getD 0
  (s.bank b).state = .idle ∧ ∃ r g, (s.bank b).report = some r ∧ (s.bank b).config = some g ∧
    pressure + s.margin ≤ r.pressure ∧
    match kind with
    | .pulse => g.tier = .low
    | .ramp => excluded ≠ some b ∧ ∃ w, s.window g.tier = some w ∧ w.base ≤ pressure ∧ pressure ≤ w.limit

/-- R68: of two banks that serve a request the one of the lower tier is taken, then the one of the lower pressure,
then the one of the lower number. -/
def TakenBefore (s : State) (a b : BankId) : Prop :=
  ∃ ra ga rb gb, (s.bank a).report = some ra ∧ (s.bank a).config = some ga ∧
    (s.bank b).report = some rb ∧ (s.bank b).config = some gb ∧
    (ga.tier.code < gb.tier.code ∨ ga.tier = gb.tier ∧
      (ra.pressure < rb.pressure ∨ ra.pressure = rb.pressure ∧ a < b))

/-- A bank out of service in a state: no holder, no place in the refill queue (R67, R82). -/
structure OutOfService (b : BankId) (state : BankState) (t : State) : Prop where
  state : (t.bank b).state = state
  holder : (t.bank b).holder = none
  queue : t.queued b = false

/-- The state with a position, its channel, its demand and floor, a slot of the working copy and the totals
at their initial values: what a meter update or a close of the position may change is gone. -/
def State.without (s : State) (p : PosId) (i : SlotId) : State :=
  { ((s.setPos p .initial).setChan p .initial).setGrantOf (.pos p) .initial with
    work := { s.work with slots := s.work.slots.set i .free, totals := .zero } }

/-- The period of a fill that waits for nothing is over, and its meter update raises no end of its own: no mass
out of range, no overflow, no stall, no preset (R126, R128, R129, R132, R145). -/
structure Metered (s : State) (p : PosId) (k : ClassId) (i : SlotId) (r : TxnRecord) : Prop where
  quiet : Quiet s
  due : (s.pos p).periodTimer = some 0
  notWaiting : ¬ Waits s p
  cls : (s.pos p).cls = some k
  opens : s.openSlot p = some i
  record : s.slot i = .txn r
  noPreset : r.preset = .none
  inRange : ((s.chan p).accumulate (s.cal p)).exceeds = false
  noOverflow : (s.chan p).overflow = false
  noStall : (s.chan p).stalled s.clock = false

/-- A notice of a kind and subject is pending at a port or on its line. -/
def Noticed (t : State) (n : PortId) (k : NoticeKind) (subject : Nat) : Prop :=
  ∃ m ∈ (t.port n).outNotices, m.kind = k ∧ m.subject = subject

/-- A directive is queued at a port or on its line. -/
def Directed (t : State) (n : PortId) (d : Directive) : Prop := d ∈ (t.port n).outDirectives

/-- The bookkeeping of an accepted START before its bank request (R18 steps 1 to 5, R32, R109, R134, R149,
R162), in the slot `i`. -/
def State.started (s : State) (p : PosId) (k : ClassId) (t : Tariff) (a : Authorization) (i : SlotId) : State :=
  let n := s.work.nextNumber
  let m := startMode s.clock (s.pos p).ramp
  let d := fillDemand s p k
  let s1 := { s with
    work := { s.work with
      slots := s.work.slots.set i (.txn (openingRecord n p k a m t.price s.stamp))
      nextNumber := n + 1 }
    tripped := s.tripped.set p false }
  ((s1.setChan p { Channel.initial with lastPulse := (s.chan p).lastPulse }).setPos p
    { s.pos p with
      state := .pulse, pulseState := some .waiting, cls := some k, mode := some m, transaction := some n
      startTime := some s.clock, endReason := none, holdReason := none
      authorization := some { a with reservation := false }
      phaseTimer := none, periodTimer := some 1000, staleWatch := some 2000
      ramp := { RampGenerator.initial with
        startEntry := s.rampEntry k (bandOf s.clock s.ambient)
        lastValid := (s.pos p).ramp.lastValid } }).setGrantOf (.pos p)
    { s.grantOf (.pos p) with demand := d, floor := demandFloor d }

/-- The lane after its plant or island enable has taken a value, fills apart (R94, R95, R97, R101). -/
def Lane.enabled (x : Lane) (plant value : Bool) : Lane :=
  if (if plant then x.plantEnable else x.islandEnable) = value then x
  else
    let y := if plant then { x with plantEnable := value } else { x with islandEnable := value }
    match value, x.state with
    | true, .off =>
      if y.plantEnable && y.islandEnable then
        if x.faultPulldown || x.faultStale then { y with state := .fault }
        else { y with state := .pulldown, pulldownTimer := some 600000 }
      else y
    | true, _ => y
    | false, .off => y
    | false, .pulldown => { y with state := .off, pulldownTimer := none }
    | false, .ready => { y with state := .off, staleWatch := none, warmTimer := none, warmHold := 0#6 }
    | false, .fault => { y with state := .off }

/-- Every counted fill of the lane ends with LANE_LOST, and a fill that is not counted and waits for nothing
goes on (R101). -/
def LaneLost (l : LaneId) (s t : State) : Prop :=
  ∀ p, (counted s l p = true → (t.pos p).state = .ending ∧ (t.pos p).endReason = some .laneLost) ∧
    (counted s l p = false → ¬ Waits s p → t.pos p = s.pos p)

/-! ### Holds and the cooling budget -/

/-- A fill in HOLD without a bank takes the checks (c) and (d) of R21, as R25 states: it stays in HOLD for warmth
while its lane holds its class; else it flows on a bank that it then holds, or waits in HOLD for a bank in the draw
wait list. In HOLD its hold limit runs on. -/
def Resolved (p : PosId) (warm : Bool) (s t : State) : Prop :=
  if warm = true then
    t.pos p = { s.pos p with holdReason := some .laneWarm, ramp := { (s.pos p).ramp with lowFlow := 0 } }
  else
    (∃ b, t.pos p = { s.pos p with
        state := .ramp, bank := some b, holdReason := none, phaseTimer := none
        ramp := { (s.pos p).ramp with lowFlow := 0 } } ∧
      (t.bank b).state = .drawing ∧ (t.bank b).holder = some (.pos p) ∧ ∀ w ∈ t.drawList, w.pos ≠ p) ∨
    (t.pos p = { s.pos p with holdReason := some .bank, ramp := { (s.pos p).ramp with lowFlow := 0 } } ∧
      ∃ w ∈ t.drawList, w.pos = p ∧ w.kind = .ramp ∧ w.excluded = none)

/-- What a list of requesters adds up to. -/
def total (f : Requester → Nat) (l : List Requester) : Nat := (l.map f).sum

/-- What a fill's grant lacks of its demand (R115). -/
def State.shortfall (s : State) : Requester → Nat
  | .pos p => (s.grantOf (.pos p)).demand - (s.grantOf (.pos p)).grant
  | .comp _ => 0

/-- The grant of a compressor, 0 for a fill (R117). -/
def State.compGrant (s : State) : Requester → Nat
  | .pos _ => 0
  | .comp c => (s.grantOf (.comp c)).grant

/-- What a fill's grant has above its floor (R117). -/
def State.slack (s : State) : Requester → Nat
  | .pos p => (s.grantOf (.pos p)).grant - (s.grantOf (.pos p)).floor
  | .comp _ => 0

/-- The floor of a fill, 0 for a compressor (R117). -/
def State.fillFloor (s : State) : Requester → Nat
  | .pos p => (s.grantOf (.pos p)).floor
  | .comp _ => 0

/-- A redistribution of `free` cooling, ESD latch clear (R115, R116). Pass 1 raises the derated fills from the oldest
grant on. Pass 2 serves the waiting fills from the head while the floor fits in what is left; the holds of those
served are resolved and their grants are the newest. Pass 3 is made when no fill is left: the first compressor is
served when its demand fits, and runs on the first assignable bank, or hands its grant back when no bank is left. -/
structure Redistributed (free : Nat) (s t : State) : Prop where
  raised : ∀ p older newer, s.cooling.order = older ++ .pos p :: newer →
    (t.grantOf (.pos p)).grant = (s.grantOf (.pos p)).grant
      + min (s.shortfall (.pos p)) (free - total s.shortfall older)
  fills : ∀ w ahead behind p, s.cooling.wait = ahead ++ w :: behind → w.who = .pos p →
    let e := s.grantOf (.pos p)
    let left := free - total s.shortfall s.cooling.order - total (fun r => (s.grantOf r).demand) (ahead.map (·.who))
    if e.floor ≤ left then
      (t.grantOf (.pos p)).grant = min e.demand left ∧ (t.grantOf (.pos p)).time = some s.clock ∧
      (∀ u ∈ t.cooling.wait, u.who ≠ .pos p) ∧ Resolved p (warmHeld s p) s t ∧
      ∀ r, left < e.demand → s.openRecord p = some r →
        ∃ r', t.openRecord p = some r' ∧ r'.flags.derated = true
    else (t.grantOf (.pos p)).grant = 0 ∧ w ∈ t.cooling.wait ∧ t.pos p = s.pos p
  newest : t.cooling.order.filter isFill = s.cooling.order.filter isFill ++
    (s.cooling.wait.filter (fun w => isFill w.who && decide (w ∉ t.cooling.wait))).map (·.who)
  fillsFirst : (∃ w ∈ t.cooling.wait, isFill w.who = true) →
    t.comps = s.comps ∧ t.queue = s.queue ∧
      ∀ n, (t.grantOf (.comp n)).grant = (s.grantOf (.comp n)).grant
  comps : ∀ w ahead behind n, s.cooling.wait = ahead ++ w :: behind → w.who = .comp n →
    (∀ u ∈ ahead, isFill u.who = true) → (∀ u ∈ t.cooling.wait, isFill u.who = false) →
    let d := (s.grantOf (.comp n)).demand
    let left := free - total s.shortfall s.cooling.order - total (fun r => (s.grantOf r).demand) (ahead.map (·.who))
    if d ≤ left then
      (∀ u ∈ t.cooling.wait, u.who ≠ .comp n) ∧
      ((t.comp n).state = .running ∧ (t.grantOf (.comp n)).grant = d ∨
        (t.comp n).state = .ready ∧ (t.grantOf (.comp n)).grant = 0) ∧
      ∀ e b, ahead = [] → s.queue.find? (assignable s) = some e → e.bank = b →
        t.comp n = { s.comp n with
          state := .running, bank := some b, entryHeld := some e, refillStart := some s.clock, requestTime := none } ∧
        (t.bank b).state = .refilling ∧ (t.bank b).holder = some (.comp n)
    else t.comps = s.comps ∧ t.queue = s.queue ∧ ∀ u ∈ w :: behind, u ∈ t.cooling.wait

/-- A shedding that must remove `excess` (R117, R118): compressor grants from the newest on, then what fills have
above their floors from the newest on, then the floors themselves from the newest on, each no further than needed.
A compressor withdrawn stops, a fill held goes to HOLD for cooling at the head of the wait list, the oldest grant
first. What a pass leaves free goes to redistribution, so that grants left may rise again. -/
structure Shed (excess : Nat) (s t : State) : Prop where
  comps : ∀ n older newer, s.cooling.order = older ++ .comp n :: newer →
    if total s.compGrant newer < excess then
      (∀ b, (s.comp n).bank = some b → (s.port plantPort).directives.length < 28 →
        Directed t plantPort (.refillStop n b .shed)) ∧
      (excess ≤ total s.compGrant newer + (s.grantOf (.comp n)).grant →
        (t.comp n).state ≠ .running ∧ (t.grantOf (.comp n)).grant = 0)
    else t.comp n = s.comp n ∧ (t.grantOf (.comp n)).grant = (s.grantOf (.comp n)).grant
  fills : ∀ p older newer, s.cooling.order = older ++ .pos p :: newer →
    let e := s.grantOf (.pos p)
    let afterComps := excess - total s.compGrant s.cooling.order
    let afterCuts := afterComps - total s.slack s.cooling.order
    if total s.fillFloor newer < afterCuts then
      (t.grantOf (.pos p)).grant = 0 ∧ (t.pos p).state = .hold ∧ (t.pos p).holdReason = some .cooling ∧
      (t.pos p).bank = none ∧ (∀ w ∈ t.drawList, w.pos ≠ p) ∧
      ((s.pos p).state = .ramp → (t.pos p).phaseTimer = some 120000)
    else if 0 < afterCuts then e.floor ≤ (t.grantOf (.pos p)).grant
    else if 0 < afterComps then
      (t.grantOf (.pos p)).grant = e.grant - min (afterComps - total s.slack newer) (s.slack (.pos p))
    else e.grant ≤ (t.grantOf (.pos p)).grant
  cut : ∀ p older newer, s.cooling.order = older ++ .pos p :: newer → 0 < s.slack (.pos p) →
    total s.compGrant s.cooling.order + total s.slack newer < excess → ∀ r, s.openRecord p = some r →
    ∃ r', t.openRecord p = some r' ∧ r'.flags.derated = true
  held : s.cooling.order.filter (fun r => isFill r && (t.grantOf r).grant == 0) <+: t.cooling.wait.map (·.who)

/-! ### Laws that every step keeps -/

/-- Between events nothing of an event is left. -/
def EvtLaw (s : State) : Prop := s.evt = .empty

/-- R110: Σ grants is within the capacity, and every grant above 0 stands in grant order. -/
def CoolingLaw (s : State) : Prop :=
  s.sumGrants ≤ s.cooling.capacity ∧ ∀ r, (s.grantOf r).grant ≠ 0 → r ∈ s.cooling.order

/-- R144, R146: the amount and the billed value of a record are those of its mass, price and preset. -/
def TxnRecord.billLaw (r : TxnRecord) : Prop :=
  r.amount = amountOf r.mass r.price ∧ r.billed = r.preset.billed r.amount

def Slot.billLaw : Slot → Prop
  | .free => True
  | .txn r => r.billLaw

def RecWrite.billLaw : RecWrite → Prop
  | .slot _ x => x.billLaw
  | _ => True

/-- R144: every record of the working copy, of the store and of the groups in flight obeys the billing law. -/
def BillLaw (s : State) : Prop :=
  (∀ i : SlotId, (s.work.slots[i]).billLaw) ∧ (∀ i : SlotId, (s.store.slots[i]).billLaw) ∧
    ∀ g ∈ s.groups, ∀ w ∈ g.writes, w.billLaw

/-- R154: modulo 10^12 the grand totals are the sums of the class totals and of the position totals. -/
def Totals.law (t : Totals) : Prop :=
  t.posMass.toList.sum % 1000000000000 = t.grandMass ∧
    t.classMass.toList.sum % 1000000000000 = t.grandMass ∧
    t.classBilled.toList.sum % 1000000000000 = t.grandBilled

def RecWrite.totalsLaw : RecWrite → Prop
  | .totals t => t.law
  | .snapshot x => x.totals.law
  | _ => True

/-- R154, R157: the totals and the snapshot agree in the working copy, in the store and in flight. -/
def TotalsLaw (s : State) : Prop :=
  s.work.totals.law ∧ s.store.totals.law ∧ s.work.snapshot.totals.law ∧ s.store.snapshot.totals.law ∧
    ∀ g ∈ s.groups, ∀ w ∈ g.writes, w.totalsLaw

/-- Section 5.1 and 5.4: class 0 is in every map, and what runs or is held in one lane state alone is stopped
or empty in the others. -/
structure Lane.law (x : Lane) : Prop where
  classZero : x.classMap.getLsbD 0 = true
  readyOnly : x.state ≠ .ready → x.warmHold = 0#6 ∧ x.warmTimer = none ∧ x.staleWatch = none
  pulldownOnly : x.state ≠ .pulldown → x.pulldownTimer = none
  bothEnables : x.state ≠ .off → x.plantEnable = true ∧ x.islandEnable = true

def LaneLaw (s : State) : Prop := ∀ l : LaneId, (s.lane l).law

/-- R124, R128: the creep count never exceeds the pulse count, which saturates, and the mass has a top. -/
def ChannelLaw (s : State) : Prop :=
  ∀ p : PosId, (s.chan p).creepCount ≤ (s.chan p).count ∧ (s.chan p).count ≤ 65535 ∧ (s.chan p).mass ≤ 999999

/-- R163, R164: interval, count, timer and state of a supervision record agree. -/
def Supervision.law (x : Supervision) : Prop :=
  x.interval ∈ [250, 500, 1000, 2000] ∧
    match x.state with
    | .silent => x.count = 0 ∧ x.timer = none
    | .alive => x.count = 0 ∧ ∃ n, x.timer = some n ∧ n ≤ 2000
    | .late => x.count = 1 ∧ ∃ n, x.timer = some n ∧ n ≤ 2000
    | .lost => x.count = 2 ∧ x.timer = none

/-- R163, R170, R173, R176: the bounds of a port. -/
structure Port.law (x : Port) : Prop where
  replies : x.replies.length ≤ 8
  directives : x.directives.length ≤ 32
  buffer : x.buffered ≤ 512
  mask : x.mask ≤ 7
  promoted : x.promoted.length ≤ 2
  supervision : x.supervision.law

def PortLaw (s : State) : Prop := ∀ n : PortId, (s.port n).law

/-- R39, R46: P_set never exceeds P_target, and P_target never exceeds P_max of the class; the ramp entries a
fill holds keep the bound of the table (R33). -/
def setPointLaw (x : Position) : Prop :=
  ∀ k, x.cls = some k →
    (∀ e, x.ramp.startEntry = some e → e.pnc ≤ (classRow k).pNom) ∧
    (∀ e, x.ramp.inUse = some e → e.pnc ≤ (classRow k).pNom) ∧
    x.ramp.pSet.getD 0 ≤ x.ramp.pTarget.getD 0 ∧ x.ramp.pTarget.getD 0 ≤ (classRow k).pMax

def SetPointLaw (s : State) : Prop :=
  (∀ (k : ClassId) (b : BandId) (e : RampEntry), s.rampEntry k b = some e → e.pnc ≤ (classRow k).pNom) ∧
    ∀ p : PosId, setPointLaw (s.pos p)

/-- R59, R60, R63 to R67: a bank in service has no lock cause, a LOCKED one has some. -/
def BankLaw (s : State) : Prop :=
  ∀ b : BankId,
    match (s.bank b).state with
    | .offline => True
    | .locked => (s.bank b).causes ≠ ⟨false, false, false, false⟩
    | .idle | .drawing | .refilling => (s.bank b).causes = ⟨false, false, false, false⟩

/-- R59, R69, R70, R85: a fill that pulses or flows and a compressor that runs hold their bank exactly as the bank
says, and a fill that waits for a bank holds none and is in PULSE, waiting, for a pulse bank, in HOLD(BANK) for a
ramp bank. -/
structure HolderLaw (s : State) : Prop where
  fills : ∀ (p : PosId) (b : BankId), (s.pos p).bank = some b →
    ((s.pos p).state = .pulse ∨ (s.pos p).state = .ramp) ∧
      (s.bank b).state = .drawing ∧ (s.bank b).holder = some (.pos p)
  refills : ∀ (n : CompId) (b : BankId), (s.comp n).bank = some b →
    (s.comp n).state = .running ∧ (s.bank b).state = .refilling ∧ (s.bank b).holder = some (.comp n)
  drawn : ∀ (b : BankId) (p : PosId), (s.bank b).holder = some (.pos p) → (s.pos p).bank = some b
  refilled : ∀ (b : BankId) (n : CompId), (s.bank b).holder = some (.comp n) → (s.comp n).bank = some b
  drawers : ∀ w ∈ s.drawList, (s.pos w.pos).bank = none ∧
    match w.kind with
    | .pulse => (s.pos w.pos).state = .pulse ∧ (s.pos w.pos).pulseState = some .waiting
    | .ramp => (s.pos w.pos).state = .hold ∧ (s.pos w.pos).holdReason = some .bank

/-- R111: each compressor stands at most once in the cooling wait list. -/
def WaitLaw (s : State) : Prop :=
  ((s.cooling.wait.filter (fun w => !isFill w.who)).map (fun w => w.who)).Nodup

/-- R78: of two entries of the refill queue the one of the higher tier stands first, then the older, then the one of
the lower bank. -/
def QueueEntry.precedes (now : Clock) (a b : QueueEntry) : Prop :=
  queueRank a.tier < queueRank b.tier ∨ queueRank a.tier = queueRank b.tier ∧
    ((now - b.time).toNat < (now - a.time).toNat ∨ (now - a.time).toNat = (now - b.time).toNat ∧ a.bank < b.bank)

/-- R78, R82, R85: the refill queue names each bank once, none that is OFFLINE, LOCKED or REFILLING, in its order, it
has an entry for each compressor in COOLING_WAIT, and the entry that a compressor holds is that of the bank it fills. -/
structure QueueLaw (s : State) : Prop where
  once : (s.queue.map (·.bank)).Nodup
  inService : ∀ e ∈ s.queue, (s.bank e.bank).state = .idle ∨ (s.bank e.bank).state = .drawing
  ordered : s.queue.Pairwise (QueueEntry.precedes s.clock)
  matched : (allComps.filter (fun c => (s.comp c).state == .coolingWait)).length ≤ s.queue.length
  held : ∀ (c : CompId) (e : QueueEntry), (s.comp c).entryHeld = some e → (s.comp c).bank = some e.bank

/-- R69 to R73: a position stands once at most in the draw wait list, and no bank serves any entry of it. -/
structure DrawLaw (s : State) : Prop where
  once : (s.drawList.map (·.pos)).Nodup
  noneServes : ∀ w ∈ s.drawList, ∀ b, ¬ Serves s w.pos w.kind w.excluded b

/-- R109 to R113, R115: a fill's floor is a quarter of its demand, rounded up, and a compressor's is its demand. Every
grant is at most the demand, a compressor's nothing or all of it. A cooled fill holds at least its floor while it
flows, and in HOLD but for cooling. The wait list holds each requester once, fills before compressors, each without a
grant. A derated fill leaves no capacity free, and what is free is below the floor of the head of the wait list. -/
structure BudgetLaw (s : State) : Prop where
  floors : ∀ r, (s.grantOf r).floor = match r with
    | .pos _ => ((s.grantOf r).demand + 3) / 4
    | .comp _ => (s.grantOf r).demand
  grants : ∀ r, (s.grantOf r).grant ≤ (s.grantOf r).demand
  whole : ∀ c, (s.grantOf (.comp c)).grant = 0 ∨ (s.grantOf (.comp c)).grant = (s.grantOf (.comp c)).demand
  flowing : ∀ p k, (s.pos p).cls = some k → k ≠ 0 →
    (s.pos p).state = .ramp ∨ (s.pos p).state = .hold ∧ (s.pos p).holdReason ≠ some .cooling →
    (s.grantOf (.pos p)).floor ≤ (s.grantOf (.pos p)).grant
  asking : ∀ c, ((s.comp c).configured = true → 0 < (s.grantOf (.comp c)).demand) ∧
    ((s.comp c).state ≠ .unavailable → (s.comp c).configured = true)
  waiting : ∀ w ∈ s.cooling.wait, (s.grantOf w.who).grant = 0 ∧ 0 < (s.grantOf w.who).floor
  once : (s.cooling.wait.map (·.who)).Nodup
  fillsFirst : s.cooling.wait =
    s.cooling.wait.filter (fun w => isFill w.who) ++ s.cooling.wait.filter (fun w => !isFill w.who)
  derated : ∀ p, (s.grantOf (.pos p)).grant ≠ 0 → (s.grantOf (.pos p)).grant < (s.grantOf (.pos p)).demand →
    s.cooling.capacity ≤ s.sumGrants
  head : ∀ w rest, s.cooling.wait = w :: rest → s.cooling.capacity - s.sumGrants < (s.grantOf w.who).floor

/-- R147: reservations and records have room in the 64 slots, and a position in WAIT_NOZZLE or READY holds a
reservation, the one that its START turns into a record. -/
structure RoomLaw (s : State) : Prop where
  room : s.reservations + s.records ≤ 64
  reserved : ∀ p, (s.pos p).state = .waitNozzle ∨ (s.pos p).state = .ready →
    ∃ a, (s.pos p).authorization = some a ∧ a.reservation = true

/-- R84 to R88: a compressor holds a bank and an entry exactly while it runs, and one that waits for cooling is
in COOLING_WAIT. -/
structure CompLaw (s : State) : Prop where
  running : ∀ c : CompId, (s.comp c).state = .running →
    (s.comp c).bank.isSome = true ∧ (s.comp c).entryHeld.isSome = true
  resting : ∀ c : CompId, (s.comp c).state ≠ .running → (s.comp c).bank = none ∧ (s.comp c).entryHeld = none
  waiting : ∀ c : CompId, (∃ w ∈ s.cooling.wait, w.who = .comp c) → (s.comp c).state = .coolingWait

/-- R110, R111, R114: grant order lists each requester with a grant once and no other, only a fill in RAMP or HOLD and a
running compressor hold a grant, and a fill in the cooling wait list is in HOLD(COOLING). -/
structure GrantLaw (s : State) : Prop where
  ordered : ∀ r, r ∈ s.cooling.order ↔ (s.grantOf r).grant ≠ 0
  once : s.cooling.order.Nodup
  fills : ∀ p, (s.grantOf (.pos p)).grant ≠ 0 → (s.pos p).state = .ramp ∨ (s.pos p).state = .hold
  refills : ∀ c, (s.grantOf (.comp c)).grant ≠ 0 → (s.comp c).state = .running
  waiters : ∀ p, (∃ w ∈ s.cooling.wait, w.who = .pos p) →
    (s.pos p).state = .hold ∧ (s.pos p).holdReason = some .cooling

/-- R29, R70, R114, R159: only a fill that an end request would end waits for a bank, waits for cooling or
holds a grant, and while the ESD latch is set there is no such fill and no compressor runs, waits or holds a
grant. -/
structure EsdLaw (s : State) : Prop where
  drawers : ∀ w ∈ s.drawList, endable (s.pos w.pos).state = true
  coolers : ∀ p, (∃ w ∈ s.cooling.wait, w.who = .pos p) → endable (s.pos p).state = true
  granted : ∀ p, (s.grantOf (.pos p)).grant ≠ 0 → endable (s.pos p).state = true
  noFill : s.esd.latched = true → ∀ p, endable (s.pos p).state = false
  noRefill : s.esd.latched = true → ∀ c : CompId,
    ((s.comp c).state = .ready ∨ (s.comp c).state = .unavailable) ∧ (s.grantOf (.comp c)).grant = 0

end Sys2Proof.Machine
end

