-- ==== Sys2Proof/Certificates/Slice0/Obligations.lean ====
section
/-! DEFINITION. The statements for the provers, in the order of the manual's chapters: the queue and the
requests, then each command's result with its frame, then what every step keeps.

Choices of the model that the premises and conclusions share. `Standing` lets a request be taken when its frame
heads the receive buffer, or when nothing is buffered (notes/assumptions/5.md). An expiry whose timer is not due
changes nothing (notes/assumptions/4.md); `Quiet` says that the part serves and no event is under way
(notes/assumptions/6.md). Reply data that R187 does not table follows notes/assumptions/9.md. An order that the
manual leaves open is a free choice (notes/assumptions/3.md), and no statement rests on its value. -/

open Sys2Proof Sys2Proof.Machine

/-! ### The queue, the bodies, the links -/

/-- A step takes the command at the front of the queue and runs it on the state with the rest (the model's
queue of waiting commands; R170 for requests). -/
def Obligations.StepRunsFrontCommand : Prop :=
  ∀ (c : Instr) (rest : List Instr) (s : State), s.pending = c :: rest →
    step s = exec c { s with pending := rest }

/-- The model's choice (notes/assumptions/2.md and 3.md): with no command waiting, the events that are ready
join the queue, each once and in some order, or, when none is ready, one millisecond passes. -/
def Obligations.IdleStepQueuesReadyEvents : Prop :=
  ∀ s : State, s.pending = [] →
    (readyEvents s = [] → step s = .next s.tick) ∧
    (readyEvents s ≠ [] → ∃ (l : List Instr) (n : Nat), l.Perm (readyEvents s) ∧
      step s = .next { s with pending := l, freeCtr := n })

/-- R186, R187: a request and the body it stands for determine each other: every well-formed request is read
back from its port and body, and every body is the body of the request read from it. -/
def Obligations.BodiesAndRequestsAgree : Prop :=
  (∀ (c : Instr) (port : PortId) (body : List Byte),
    requestBody c = some (port, body) → c.wellFormed = true → requestOf port body = c) ∧
  ∀ (port : PortId) (kind : Byte) (args : List Byte),
    requestBody (requestOf port (kind :: args)) = some (port, kind :: args)

/-- R185: the two check bytes of a frame, low byte first, are the only ones the receiver's comparison
accepts; the frame is sync, length, body, check; the CRC of the manual's nine bytes is 0x29B1. -/
def Obligations.FrameCheckIsExact : Prop :=
  (∀ (body : List Byte) (low high : Byte), checkMatches body low high = true ↔
    frameBytes body = [0xC5#8, BitVec.ofNat 8 body.length] ++ body ++ [low, high]) ∧
  crc16 [0x31#8, 0x32#8, 0x33#8, 0x34#8, 0x35#8, 0x36#8, 0x37#8, 0x38#8, 0x39#8] = 0x29B1#16

/-- R170, R171: a taken request leaves the receive buffer and gets exactly one reply, of its kind, at the tail
of the replies of its port; no other port's replies or buffer change. -/
def Obligations.TakenRequestIsAnsweredOnce : Prop :=
  ∀ (c : Instr) (s t : State) (port : PortId) (kind : Byte) (args : List Byte),
    requestBody c = some (port, kind :: args) → Standing c s → exec c s = .next t →
    (∃ r : Reply, r.kind = kind ∧ (t.port port).outReplies = (s.port port).outReplies ++ [r]) ∧
    (t.port port).rxBuffer = (s.port port).rxBuffer.drop 1 ∧
    ∀ n : PortId, n ≠ port →
      (t.port n).outReplies = (s.port n).outReplies ∧ (t.port n).rxBuffer = (s.port n).rxBuffer

/-- R170, R182 and the model's choice (notes/assumptions/5.md and 6.md): while its port's reply queue holds 8
replies, while the part does not serve, or while another frame is at the head of the buffer, a request is not
taken; outside service no frame and no timer of service is taken either. -/
def Obligations.UntakenCommandsChangeNothing : Prop :=
  (∀ (c : Instr) (s : State) (port : PortId) (body : List Byte), requestBody c = some (port, body) →
    (8 ≤ (s.port port).replies.length ∨ s.phase ≠ .serving ∨
      ∃ other rest, (s.port port).rxBuffer = other :: rest ∧ other ≠ body) →
    exec c s = .next s) ∧
  ∀ (s : State) (c : Instr), s.phase ≠ .serving →
    (∃ p, c = .authorizationLifeExpiry p ∨ c = .pulseExpiry p ∨ c = .leakCheckExpiry p ∨
      c = .holdLimitExpiry p ∨ c = .settleExpiry p ∨ c = .periodExpiry p ∨ c = .sensorStaleWatchExpiry p ∨
      c = .settleGateTimerExpiry p) ∨
    (∃ n, c = .intervalTimerExpiry n ∨ c = .frameSent n ∨ c = .frameGap n ∨ c = .badCheckFrame n ∨
      c = .syncByte n ∨ ∃ body, c = .goodFrame n body) ∨
    (∃ l, c = .pullDownTimerExpiry l ∨ c = .laneStaleWatchExpiry l ∨ c = .warmTimerExpiry l) ∨
    (∃ b, c = .bankStaleWatchExpiry b) →
    exec c s = .next s

/-- R171: a refused request changes no state: the one reply, with its code and the subject as received, is all. -/
def Obligations.RefusedRequestChangesNothing : Prop :=
  ∀ (c : Instr) (s t : State) (port : PortId) (kind : Byte) (args : List Byte) (r : Reply) (code : RefusalCode),
    requestBody c = some (port, kind :: args) → Standing c s → exec c s = .next t →
    (t.port port).outReplies = (s.port port).outReplies ++ [r] → r.refusal = some code →
    r = ⟨kind, some code, subjectFields args, none⟩ ∧ Refuses c s code

/-- R171: the screen that comes before every owning rule: a kind code in no catalogue, a kind the port's role
may not send, a body of the wrong length. R3 and the rules of banks, compressors, lanes and tariff entries: a
subject the port cannot name. -/
def Obligations.ScreenAndSubjectRefusals : Prop :=
  (∀ (c : Instr) (s : State) (port : PortId) (kind : Byte) (args : List Byte),
    requestBody c = some (port, kind :: args) → Standing c s →
    match kindRow kind.toNat with
    | none => Refuses c s .unknownKind
    | some row =>
      if portRole port ∉ row.roles then Refuses c s .role
      else args.length + 1 ≠ row.length → Refuses c s .range) ∧
  ∀ (c : Instr) (s : State), NamesUnknown c → Standing c s → Refuses c s .unknownSubject

/-- R172, R175, R177, R181: FRAME_SENT frees the line, and every free line of a port that is ALIVE or LATE
begins the first reply, unless it is held; with no reply the first directive; with neither the notice that no
pending notice precedes. Nothing else of the state changes. Level 7 precedes the promoted kinds, which count while
the mask is 5 or below, and these the other levels from 6 down; then the older notice, the lower kind code and the
lower subject go first. That a free line begins its next frame in the very event is the model's choice
(notes/assumptions/31.md); a tie among promoted kinds of different levels is its reading
(notes/assumptions/26.md). -/
def Obligations.TransmitterTakesTheNextFrame : Prop :=
  (∀ (s : State) (n : PortId), Quiet s →
    exec (.frameSent n) s = .next { s with
      ports := (s.ports.set n { s.port n with line := none }).map (fun x => x.transmit s.clock) }) ∧
  (∀ (x : Port) (now : Clock) (m n : Notice),
    let place := fun y : Notice =>
      if y.kind.level = 7 then 0 else if y.kind ∈ x.promoted ∧ x.mask ≤ 5 then 1 else 8 - y.kind.level
    let held := fun y : Notice => (now - y.joined).toNat
    x.sendsBefore now m n = true ↔
      place m < place n ∨ place m = place n ∧
        (held n < held m ∨ held m = held n ∧
          (m.kind.code < n.kind.code ∨ m.kind.code = n.kind.code ∧ m.subject < n.subject))) ∧
  ∀ (x : Port) (now : Clock),
    (x.line ≠ none ∨ x.maySend = false → x.transmit now = x) ∧
    (x.line = none → x.maySend = true →
      (∀ r rest, x.replies = r :: rest → r.heldOn ≠ none → x.transmit now = x) ∧
      (∀ r rest, x.replies = r :: rest → r.heldOn = none →
        x.transmit now = { x with
          line := some (.reply r), replies := rest
          counters := { x.counters with
            replies := x.counters.replies + 1
            refused := if r.refusal = none then x.counters.refused else x.counters.refused + 1 } }) ∧
      (∀ d rest, x.replies = [] → x.directives = d :: rest →
        x.transmit now = { x with
          line := some (.directive d), directives := rest
          counters := { x.counters with directives := x.counters.directives + 1 } }) ∧
      (x.replies = [] → x.directives = [] → x.pending = [] → x.transmit now = x) ∧
      (x.replies = [] → x.directives = [] → x.pending ≠ [] →
        ∃ n ∈ x.pending, (∀ m ∈ x.pending, x.sendsBefore now m n = false) ∧
          x.transmit now = { x with
            line := some (.notice n)
            pending := x.pending.filter (fun m => !(m.kind == n.kind && m.subject == n.subject))
            counters := { x.counters with notices := x.counters.notices + 1 } }))

/-! ### Positions (chapter 01) -/

/-- R5: the checks of POSITION_OPEN in their order; an accepted one sets hose and nozzle, takes IDLE or WAIT_AUTH by
the nozzle, and sends a CLOSED valve directive. -/
def Obligations.PositionOpenResult : Prop :=
  ∀ (s : State) (p : PosId) (hose high nozzle : Byte) (c : Instr),
    c = .positionOpen (islandPort p) [byteOf p.val, hose, high, nozzle] → Standing c s →
    if (s.pos p).state ≠ .unavailable then Refuses c s .badState
    else if (s.pos p).lane = none then Refuses c s .notConfigured
    else
      match hoseTypeOf hose, nozzleOf nozzle with
      | some kind, some n =>
        Accepts c s [] none
          (postDirective (islandPort p) (.valve p .closed none) (s.setPos p { s.pos p with
            hose := some ⟨kind, high != 0⟩
            nozzle := n
            state := if n = .off then .idle else .waitAuth }))
      | _, _ => Refuses c s .range

/-- R6, with R2's entry to UNAVAILABLE: what POSITION_CLOSE does in each state. -/
def Obligations.PositionCloseResult : Prop :=
  ∀ (s : State) (p : PosId) (c : Instr), c = .positionClose (islandPort p) [byteOf p.val] → Standing c s →
    match (s.pos p).state with
    | .unavailable => Refuses c s .badState
    | .pulse | .leakCheck | .ramp | .hold | .ending => Refuses c s .busy
    | .idle | .waitAuth => Accepts c s [] none (makeUnavailable p s)
    | .waitNozzle | .ready =>
      Accepts c s [] none (makeUnavailable p
        (postNotice .authEnded p.val [.raw (s.pos p).tag, .byte (some AuthEnd.closed.code)] [tillPort] s))
    | .finished => Accepts c s [] none (s.setPos p { s.pos p with closePending := some .close })

/-- R15: a nozzle that moves changes IDLE, WAIT_NOZZLE, WAIT_AUTH, READY and FINISHED; OFF ends a fill in
PULSE, LEAKCHECK, RAMP or HOLD with NOZZLE_OFF. -/
def Obligations.NozzleResult : Prop :=
  ∀ (s : State) (p : PosId) (code : Byte) (c : Instr),
    c = .nozzle (islandPort p) [byteOf p.val, code] → Standing c s →
    if (s.pos p).state = .unavailable then Refuses c s .badState
    else
      match nozzleOf code with
      | none => Refuses c s .range
      | some n =>
        let moved := fun st : PosState => s.setPos p { s.pos p with nozzle := n, state := st }
        if (s.pos p).nozzle = n then Accepts c s [] none s
        else
          match n, (s.pos p).state with
          | .on, .idle => Accepts c s [] none (moved .waitAuth)
          | .on, .waitNozzle => Accepts c s [] none (moved .ready)
          | .off, .waitAuth => Accepts c s [] none (moved .idle)
          | .off, .ready => Accepts c s [] none (moved .waitNozzle)
          | .off, .finished =>
            if (s.pos p).closePending = some .close then Accepts c s [] none (makeUnavailable p s)
            else Accepts c s [] none (moved .idle)
          | .off, .pulse | .off, .leakCheck | .off, .ramp | .off, .hold =>
            Completes c s none (moved (s.pos p).state)
              (fun data t => data = [] ∧ Ended p .nozzleOff (moved (s.pos p).state) t)
          | _, st => Accepts c s [] none (moved st)

/-- R16: the checks of START in their order, and a refused START changes no state. -/
def Obligations.StartRefusalsInOrder : Prop :=
  ∀ (s : State) (p : PosId) (c : Instr), c = .start (islandPort p) [byteOf p.val] → Standing c s →
    if s.esd.latched = true then Refuses c s .esdActive
    else if (s.pos p).state ≠ .ready then Refuses c s .badState
    else
      match freshAmbient s.clock s.ambient with
      | none => Refuses c s .ambientLimit
      | some ambient =>
        if 500 < ambient then Refuses c s .ambientLimit
        else chooseClass s p = none → Refuses c s .noClass

/-- R1, R17, R35, R142: the class filter keeps a class of the hose exactly on its five tests, a tariff entry
matches exactly as the window table says, and the lookup and the choice take the first that passes. -/
def Obligations.ClassFilterAndTariffLookup : Prop :=
  (∀ (s : State) (p : PosId) (a : Authorization) (h : Hose) (k : ClassId),
    keepsClass s p a h k = true ↔
      a.classes.getLsbD k = true ∧
      ((classRow k).hose = h.kind ∧ ((classRow k).needsHighFlow = true → h.highFlow = true)) ∧
      (k = 0 ∨ ∃ l t limit, (s.pos p).lane = some l ∧ (s.lane l).state = .ready ∧
        (s.lane l).classMap.getLsbD k = true ∧ (s.lane l).supply = some t ∧
        (classRow k).threshold = some limit ∧ t.value ≤ limit) ∧
      (∃ e, tariffLookup s.work k s.tod = some e) ∧
      ∃ e, s.rampEntry k (bandOf s.clock s.ambient) = some e) ∧
  (∀ (e : Tariff) (k : ClassId) (now : TimeOfDay), e.matchesAt k now = true ↔
    e.valid = true ∧ e.classes.getLsbD k = true ∧
      (e.allDay = true ∨ now.set = true ∧
        (e.windowStart < e.windowEnd ∧ e.windowStart ≤ now.second ∧ now.second < e.windowEnd ∨
          e.windowEnd ≤ e.windowStart ∧ (e.windowStart ≤ now.second ∨ now.second < e.windowEnd)))) ∧
  (∀ (d : StoreData) (k : ClassId) (now : TimeOfDay) (e : Tariff), tariffLookup d k now = some e ↔
    ∃ i : EntryId, d.tariffs[i] = e ∧ e.matchesAt k now = true ∧
      ∀ j : EntryId, j < i → (d.tariffs[j]).matchesAt k now = false) ∧
  ∀ (s : State) (p : PosId) (k : ClassId) (e : Tariff), chooseClass s p = some (k, e) ↔
    ∃ a h before after, (s.pos p).authorization = some a ∧ (s.pos p).hose = some h ∧
      preference h.kind = before ++ k :: after ∧ (∀ j ∈ before, keepsClass s p a h j = false) ∧
      keepsClass s p a h k = true ∧ tariffLookup s.work k s.tod = some e

/-- R18, R19, R32, R49, R68 to R70, R109, R134, R143, R149, R181: an accepted START opens the transaction in a
FREE slot, held on its write, and asks for a pulse bank. R147 says that there is a FREE slot; without one the
model stops, its one fault (notes/assumptions/17.md). The initial pressure of the fill before stands until the
next pulse expiry, which is the model's reading (notes/assumptions/25.md). -/
def Obligations.StartOpensTheTransaction : Prop :=
  ∀ (s : State) (p : PosId) (k : ClassId) (e : Tariff) (a : Authorization) (c : Instr),
    c = .start (islandPort p) [byteOf p.val] → Standing c s → s.esd.latched = false →
    (s.pos p).state = .ready → (∃ ambient, freshAmbient s.clock s.ambient = some ambient ∧ ambient ≤ 500) →
    chooseClass s p = some (k, e) → (s.pos p).authorization = some a → s.openSlot p = none →
    ((∀ i : SlotId, s.slot i ≠ .free) → exec c s = .fault .noFreeSlot) ∧
    ∀ i : SlotId, s.slot i = .free → (∀ j, j < i → s.slot j ≠ .free) →
    Completes c s (some (.slot i)) (s.started p k e a i) (fun data t =>
      let x := (s.started p k e a i).pos p
      data = [.byte (some k.val), .byte (some (startMode s.clock (s.pos p).ramp).code),
        .word (some s.work.nextNumber)] ∧
      t.inFlight (.slot i) = true ∧ t.inFlight .nextNumber = true ∧
      (∀ q, q ≠ p → t.pos q = s.pos q ∧ t.chan q = s.chan q) ∧
      match bestBank s p .pulse none with
      | some b =>
        t.pos p = { x with bank := some b, pulseState := some .pulsing, phaseTimer := some 1000 } ∧
        (t.bank b).state = .drawing ∧ (t.bank b).holder = some (.pos p) ∧
        Directed t (islandPort p) (.valve p (.pulse b) (t.pos p).directiveLane)
      | none =>
        t.pos p = x ∧
        t.drawList = s.drawList.filter (fun w => w.pos != p) ++ [⟨p, .pulse, s.clock, none⟩])

/-- R26: STOP ends a fill with CUSTOMER_STOP, does nothing in ENDING, and is refused elsewhere; R7, R25: so do
the expiry of the sensor stale watch and of the hold limit with their reasons. -/
def Obligations.StopAndExpiriesEndTheFill : Prop :=
  (∀ (s : State) (p : PosId) (c : Instr), c = .stop (islandPort p) [byteOf p.val] → Standing c s →
    if endable (s.pos p).state = true then
      Completes c s none s (fun data t => data = [] ∧ Ended p .customerStop s t)
    else if (s.pos p).state = .ending then Accepts c s [] none s
    else Refuses c s .badState) ∧
  (∀ (s : State) (p : PosId), Quiet s →
    if endable (s.pos p).state = true ∧ (s.pos p).staleWatch = some 0 then
      Brings (.sensorStaleWatchExpiry p) s s (Ended p .sensorStale s)
    else Takes (.sensorStaleWatchExpiry p) s s) ∧
  ∀ (s : State) (p : PosId), Quiet s →
    if (s.pos p).state = .hold ∧ (s.pos p).phaseTimer = some 0 then
      Brings (.holdLimitExpiry p) s s (Ended p .holdTimeout s)
    else Takes (.holdLimitExpiry p) s s

/-- R12, R147: the checks of AUTHORIZE in their order, the authorization with its reservation, the life timer
of R13. -/
def Obligations.AuthorizeResult : Prop :=
  ∀ (s : State) (p : PosId) (g0 g1 g2 g3 classes kind v0 v1 v2 v3 : Byte) (c : Instr),
    c = .authorize tillPort [byteOf p.val, g0, g1, g2, g3, classes, kind, v0, v1, v2, v3] → Standing c s →
    let v := u32 v0 v1 v2 v3
    let preset : Option Preset :=
      if kind = 0#8 then some .none
      else if kind = 1#8 ∧ 1 ≤ v ∧ v ≤ 999999 then some (.mass v)
      else if kind = 2#8 ∧ 1 ≤ v ∧ v ≤ 99999999 then some (.amount v)
      else none
    if s.esd.latched = true then Refuses c s .esdActive
    else if (s.pos p).state ≠ .idle ∧ (s.pos p).state ≠ .waitAuth then Refuses c s .badState
    else if preset = none ∨ 64 ≤ classes.toNat ∨ classes = 0#8 then Refuses c s .range
    else if 64 ≤ s.reservations + s.records ∨ 4294967295 ≤ s.reservations + s.work.nextNumber then
      Refuses c s .storeFull
    else
      let next : PosState := if (s.pos p).state = .idle then .waitNozzle else .ready
      Accepts c s [.byte (some p.val), .raw (w32 g0 g1 g2 g3), .byte (some next.code)] none
        (s.setPos p { s.pos p with
          authorization := some ⟨w32 g0 g1 g2 g3, classes.setWidth 6, preset.getD .none, true⟩
          phaseTimer := some 180000
          state := next })

/-- R13, R14, R30: CANCEL with the right auth tag takes the authorization back before START and ends the fill
with TILL_STOP after it; the end of the authorization life takes it back with cause EXPIRED. -/
def Obligations.CancelAndAuthorizationLife : Prop :=
  (∀ (s : State) (p : PosId) (g0 g1 g2 g3 : Byte) (c : Instr),
    c = .cancel tillPort [byteOf p.val, g0, g1, g2, g3] → Standing c s →
    let right := (s.pos p).tag = w32 g0 g1 g2 g3
    let back := fun next : PosState =>
      postNotice .authEnded p.val [.raw (s.pos p).tag, .byte (some AuthEnd.cancelled.code)] [tillPort]
        (s.setPos p { s.pos p with state := next, authorization := none, phaseTimer := none })
    match (s.pos p).state with
    | .unavailable | .idle | .waitAuth | .finished => Refuses c s .badState
    | .waitNozzle =>
      (right → Accepts c s [] none (back .idle)) ∧ (¬ right → Refuses c s .unknownSubject)
    | .ready =>
      (right → Accepts c s [] none (back .waitAuth)) ∧ (¬ right → Refuses c s .unknownSubject)
    | .ending => (right → Accepts c s [] none s) ∧ (¬ right → Refuses c s .unknownSubject)
    | .pulse | .leakCheck | .ramp | .hold =>
      (right → Completes c s none s (fun data t => data = [] ∧ Ended p .tillStop s t)) ∧
      (¬ right → Refuses c s .unknownSubject)) ∧
  ∀ (s : State) (p : PosId), Quiet s →
    let back := fun next : PosState =>
      postNotice .authEnded p.val [.raw (s.pos p).tag, .byte (some AuthEnd.expired.code)] [tillPort]
        (s.setPos p { s.pos p with state := next, authorization := none, phaseTimer := none })
    if (s.pos p).phaseTimer = some 0 ∧ (s.pos p).state = .waitNozzle then
      Takes (.authorizationLifeExpiry p) s (back .idle)
    else if (s.pos p).phaseTimer = some 0 ∧ (s.pos p).state = .ready then
      Takes (.authorizationLifeExpiry p) s (back .waitAuth)
    else Takes (.authorizationLifeExpiry p) s s

/-- R19: pulse expiry takes the initial pressure, ends the fill when it is outside its limits, and else
releases the bank and enters LEAKCHECK with the creep gate open. -/
def Obligations.PulseExpiryResult : Prop :=
  ∀ (s e : State) (p : PosId) (k : ClassId) (v : Nat), Quiet s →
    (s.pos p).state = .pulse → (s.pos p).pulseState = some .pulsing → (s.pos p).cls = some k →
    v = heldPressure (s.pos p) →
    e = modRecord p (fun r => { r with initialPressure := some v })
      (s.setPos p { s.pos p with initialPressure := some v, phaseTimer := none }) →
    if (s.pos p).phaseTimer ≠ some 0 then Takes (.pulseExpiry p) s s
    else if v < 50 ∨ (classRow k).pMax < v then
      Brings (.pulseExpiry p) s e (Ended p .vehiclePressure e)
    else ¬ Waits s p →
      Brings (.pulseExpiry p) s e (fun t =>
        t.pos p = { e.pos p with
          state := .leakCheck, pulseState := none, bank := none, phaseTimer := some 5000 } ∧
        t.chan p = { s.chan p with gateOpen := true } ∧
        (∀ b, (s.pos p).bank = some b → (t.bank b).holder ≠ some (.pos p)) ∧
        Directed t (islandPort p) (.valve p .closed none) ∧ OthersKept p s t)

/-- R20, R21, R23, R36 to R38, R68, R112: at the end of the leak check the fill ends with LEAK, or with its
target reached, or is held for cooling, for warmth or for a bank, or flows on the first eligible bank. -/
def Obligations.LeakCheckExpiryResult : Prop :=
  ∀ (s e : State) (p : PosId) (k : ClassId), Quiet s →
    (s.pos p).state = .leakCheck → (s.pos p).cls = some k → e = fixTarget p k s →
    let x := e.pos p
    let g := s.grantOf (.pos p)
    let asks := cooled k = true ∧ g.grant < g.floor
    let waits := asks ∧ ((∃ w ∈ s.cooling.wait, isFill w.who = true) ∨ s.freeCapacity < g.floor)
    if (s.pos p).phaseTimer ≠ some 0 then Takes (.leakCheckExpiry p) s s
    else if heldPressure x + 50 < x.initialPressure.getD 0 ∨ s.creepLimit * gramUnits < (s.chan p).creepAcc then
      Brings (.leakCheckExpiry p) s s (Ended p .leak s)
    else if x.ramp.pTarget.getD 0 ≤ heldPressure x then
      Brings (.leakCheckExpiry p) s e
        (Ended p (if x.mode = some .comm then .socReached else .targetReached) e)
    else (x.bank = none →
      Brings (.leakCheckExpiry p) s e (fun t =>
        (∀ q, q ≠ p → t.pos q = s.pos q ∧ t.chan q = s.chan q) ∧
        (if waits then
          Held p .cooling e t ∧ t.cooling.order = s.cooling.order ∧
          t.cooling.wait = s.cooling.wait.filter (fun w => isFill w.who) ++ [⟨.pos p, s.clock⟩] ++
            s.cooling.wait.filter (fun w => !isFill w.who)
        else
          (t.grantOf (.pos p)).grant = (if asks then min g.demand s.freeCapacity else g.grant) ∧
          t.cooling.wait = s.cooling.wait ∧
          if warmHeld s p = true then Held p .laneWarm e t
          else
            match bestBank s p .ramp none with
            | some b => Flows p b e t
            | none => Held p .bank e t ∧
              t.drawList = s.drawList.filter (fun w => w.pos != p) ++ [⟨p, .ramp, s.clock, none⟩])))

/-- R36 to R38: what RAMP entry fixes: the band of the ambient, the entry of the table or else the start entry,
the target by the mode and the report taken, and the set-point at the lower of the dispenser pressure and it. -/
def Obligations.RampEntryFixesTheTarget : Prop :=
  ∀ (s : State) (p : PosId) (k : ClassId), (s.pos p).cls = some k →
    let x := s.pos p
    let y := (fixTarget p k s).pos p
    y.ramp.band = some (bandOf s.clock s.ambient) ∧
    (∀ e, s.rampEntry k (bandOf s.clock s.ambient) = some e → y.ramp.inUse = some e) ∧
    (s.rampEntry k (bandOf s.clock s.ambient) = none → y.ramp.inUse = x.ramp.startEntry) ∧
    (x.mode = some .comm → y.ramp.lastTaken = x.ramp.lastValid.map (·.report) ∧
      ∀ r, x.ramp.lastValid = some r →
        y.ramp.pTarget = some (min ((classRow k).pNom * (r.report.temperature + 2732).toNat / 2882) (classRow k).pMax)) ∧
    (x.mode = some .noncomm → ∀ e, y.ramp.inUse = some e → y.ramp.pTarget = some e.pnc) ∧
    (∀ t, y.ramp.pTarget = some t → y.ramp.pSet = some (min (heldPressure x) t)) ∧
    { y with ramp := x.ramp } = x ∧
    ∀ q, q ≠ p → (fixTarget p k s).pos q = s.pos q

/-- R28, R54, R126 to R130, R135, R144 to R146, R153, R180: at the end of ENDING the record closes with the
mass of the closing update, its preset mass, overrun and flags (OVERRUN, SATURATED, CREEP and DEGRADED as the closing
update leaves them, the others as they were), the totals take it, and the position goes to IDLE, FINISHED or
UNAVAILABLE. That the initial pressure stays in the position is the model's reading (notes/assumptions/25.md). -/
def Obligations.SettleExpiryClosesTheTransaction : Prop :=
  ∀ (s : State) (p : PosId) (i : SlotId) (r : TxnRecord), Quiet s →
    (s.pos p).state = .ending → s.openSlot p = some i → s.slot i = .txn r →
    if (s.pos p).phaseTimer ≠ some 0 then Takes (.settleExpiry p) s s
    else
      let a := (s.chan p).accumulate (s.cal p)
      let exceeds := decide (999999 < rne a.acc gramUnits)
      let creep := decide (s.creepLimit * gramUnits < a.creepAcc)
      ∃ t r', exec (.settleExpiry p) s = .next t ∧ t.slot i = .txn r' ∧
        r'.state = .closed ∧ r'.endTime = some s.stamp ∧
        r'.mass = min (rne a.acc gramUnits) 999999 ∧
        r'.amount = amountOf r'.mass r.price ∧ r'.billed = r.preset.billed r'.amount ∧
        r'.presetMass = (if r.preset.reached r'.mass r'.amount = true then some (r.presetMass.getD r'.mass)
          else r.presetMass) ∧
        r'.flags = { r.flags with
          overrun := r.flags.overrun || decide (r'.billed < r'.amount)
          saturated := r.flags.saturated || exceeds
          creep := r.flags.creep || (creep && !(s.chan p).creep)
          degraded := r.flags.degraded || (s.pos p).ramp.degraded } ∧
        r'.overrunMass = r.preset.overrun r'.mass r'.presetMass ∧
        (r.mode = .comm → r'.tankVolume = (s.pos p).ramp.closingReport.map (·.volume) ∧
          r'.tankTemp = (s.pos p).ramp.closingReport.map (·.temperature)) ∧
        (r'.number, r'.pos, r'.cls, r'.tag, r'.mode, r'.price, r'.startTime, r'.initialPressure, r'.finalPSet,
            r'.preset, r'.endReason, r'.checkpointMass, r'.segments) =
          (r.number, r.pos, r.cls, r.tag, r.mode, r.price, r.startTime, r.initialPressure, r.finalPSet,
            r.preset, r.endReason, r.checkpointMass, r.segments) ∧
        t.work.totals = s.work.totals.add r' ∧
        t.inFlight (.slot i) = true ∧ t.inFlight .totals = true ∧
        (if (s.pos p).closePending = some .linkLost then
          t.pos p = { Position.initial with lane := (s.pos p).lane } ∧
          (t.grantOf (.pos p)).demand = 0 ∧ (t.grantOf (.pos p)).floor = 0
        else
          t.pos p = { s.pos p with
            state := if (s.pos p).nozzle = .off then .idle else .finished
            authorization := none, periodTimer := none, phaseTimer := none
            ramp := { (s.pos p).ramp with previousMass := r'.mass, startEntry := none } } ∧
          t.grantOf (.pos p) = s.grantOf (.pos p)) ∧
        (t.chan p).count = 0 ∧ (t.chan p).mass = r'.mass ∧ (t.chan p).gateOpen = false ∧
        (t.chan p).settleGate = none ∧ (t.chan p).saturated = ((s.chan p).saturated || exceeds) ∧
        (t.chan p).creep = ((s.chan p).creep || creep) ∧
        (∀ q, q ≠ p → t.pos q = s.pos q ∧ t.chan q = s.chan q) ∧
        t.banks = s.banks ∧ t.queue = s.queue ∧ t.comps = s.comps ∧ t.lanes = s.lanes ∧
        t.cooling.order = s.cooling.order ∧ t.cooling.wait = s.cooling.wait ∧
        (t.without p i).steady = (s.without p i).steady

/-- R10, R126 to R136, R144 to R146, R150: a meter update takes the edges into the mass, bills it with preset mass,
overrun and the flags OVERRUN, SATURATED and CREEP, keeps the period running, and ends the fill with the first reason
that its stages raise. That CREEP is tested in the state the update found is the model's reading
(notes/assumptions/19.md). -/
def Obligations.PeriodExpiryMetersAndBills : Prop :=
  ∀ (s : State) (p : PosId) (i : SlotId) (r : TxnRecord), Quiet s →
    s.openSlot p = some i → s.slot i = .txn r →
    if (s.pos p).periodTimer ≠ some 0 then Takes (.periodExpiry p) s s
    else
      let a := (s.chan p).accumulate (s.cal p)
      let exceeds := 999999 < rne a.acc gramUnits
      let mass := min (rne a.acc gramUnits) 999999
      let leak := s.creepLimit * gramUnits < a.creepAcc
      let reason : Option EndReason :=
        if exceeds then some .massSaturated
        else if (s.chan p).overflow = true then some .meterFault
        else if (s.pos p).state = .leakCheck ∧ leak then some .leak
        else if (s.pos p).state = .ramp ∧ (s.chan p).stalled s.clock = true then some .meterFault
        else if r.preset.reached mass (amountOf mass r.price) = true then some .presetReached
        else none
      ∃ t r', exec (.periodExpiry p) s = .next t ∧ t.slot i = .txn r' ∧
        (t.chan p).count = 0 ∧ (t.chan p).creepCount = 0 ∧ (t.chan p).overflow = false ∧
        (t.chan p).acc = (if exceeds then 999999 * gramUnits else a.acc) ∧ (t.chan p).creepAcc = a.creepAcc ∧
        (t.chan p).mass = mass ∧ (t.chan p).saturated = ((s.chan p).saturated || decide exceeds) ∧
        (t.chan p).lastPulse = (s.chan p).lastPulse ∧
        r'.state = .opened ∧ r'.mass = mass ∧ r'.amount = amountOf mass r.price ∧
        r'.billed = r.preset.billed r'.amount ∧
        r'.presetMass = (if r.preset.reached mass r'.amount = true then some (r.presetMass.getD mass)
          else r.presetMass) ∧
        r'.overrunMass = r.preset.overrun mass r'.presetMass ∧
        r'.flags.overrun = (r.flags.overrun || decide (r'.billed < r'.amount)) ∧
        r'.flags.saturated = (r.flags.saturated || decide exceeds) ∧
        (let told := decide (((s.pos p).state = .hold ∨ (s.pos p).state = .ending) ∧ leak) && !(s.chan p).creep
        r'.flags.creep = (r.flags.creep || told) ∧ (t.chan p).creep = ((s.chan p).creep || told)) ∧
        (r'.number, r'.pos, r'.cls, r'.tag, r'.price, r'.startTime, r'.preset) =
          (r.number, r.pos, r.cls, r.tag, r.price, r.startTime, r.preset) ∧
        ((s.chan p).mass / 100 < mass / 100 → t.inFlight (.slot i) = true) ∧
        (t.pos p).periodTimer = some 1000 ∧ (t.pos p).ramp.previousMass = mass ∧
        (∀ why, reason = some why → endable (s.pos p).state = true →
          (t.pos p).state = .ending ∧ (t.pos p).endReason = some why) ∧
        (endable (s.pos p).state = false → (t.pos p).state = (s.pos p).state) ∧
        OthersKept p s t ∧ (t.without p i).steady = (s.without p i).steady

/-- R22, R38, R39, R41 to R43, R45, R46, R50 to R54: the ramp step. At a NONCOMM fill whose update raises no end and
whose bank stays, the set-point moves by the effective rate, never down, never above the target or one margin below
the bank, and FLOW is sent. A ramp step and an update in HOLD(VEHICLE) consume the buffer and act on the report
taken: a hot tank or ABORT ends the fill; at the third empty consumption in a row a COMM fill degrades; HALT holds
a COMM fill and RUN resumes it. A COMM fill recomputes its target, ends with SOC_REACHED when the target falls
below the set-point or is reached, and else moves its set-point. A bank too low, or slow for two steps, is left for
another or the fill waits for one. That the ends come before the degrade, and the degrade before the hold, is the
model's reading (notes/assumptions/23.md), and so is it that the request of a fill that RUN resumes excludes no bank
(notes/assumptions/32.md). -/
def Obligations.RampStepMovesTheSetPoint : Prop :=
  (∀ (s : State) (p : PosId) (k : ClassId) (b : BankId) (i : SlotId) (r : TxnRecord) (pSet target : Nat)
    (entry : RampEntry), Quiet s →
    (s.pos p).periodTimer = some 0 → (s.pos p).state = .ramp → (s.pos p).bank = some b →
    (s.pos p).cls = some k → (s.pos p).mode = some .noncomm → (s.pos p).ramp.lastTaken = none →
    (s.pos p).ramp.buffer = [] → (s.pos p).ramp.inUse = some entry →
    (s.pos p).ramp.pSet = some pSet → (s.pos p).ramp.pTarget = some target →
    s.openSlot p = some i → s.slot i = .txn r → r.preset = .none →
    ((s.chan p).accumulate (s.cal p)).exceeds = false →
    (s.chan p).overflow = false → (s.chan p).stalled s.clock = false →
    (pSet = target → heldPressure (s.pos p) + 20 < target) →
    heldPressure (s.pos p) + s.margin ≤ s.bankPressure b →
    (s.pos p).ramp.lowFlow = 0 →
    let g := s.grantOf (.pos p)
    let rate := if k = 0 then entry.aprr else entry.aprr * g.grant / g.demand
    ∃ t, exec (.periodExpiry p) s = .next t ∧ (t.pos p).state = .ramp ∧ (t.pos p).bank = some b ∧
      (t.pos p).ramp.pSet = some (max pSet (min (min (pSet + rate) target) (s.bankPressure b - s.margin))) ∧
      (t.pos p).ramp.pTarget = some target ∧ (t.pos p).ramp.holds = min ((s.pos p).ramp.holds + 1) 65535 ∧
      Directed t (islandPort p) (.valve p
        (.flow b (max pSet (min (min (pSet + rate) target) (s.bankPressure b - s.margin))))
        (if k = 0 then none else (s.pos p).lane)) ∧
      t.queue = s.queue ∧ t.drawList = s.drawList ∧ ∀ q, q ≠ p → t.pos q = s.pos q ∧ t.chan q = s.chan q) ∧
  (∀ (s : State) (p : PosId) (k : ClassId) (i : SlotId) (r : TxnRecord), Metered s p k i r →
    (((s.pos p).state = .ramp ∧ ∃ b, (s.pos p).bank = some b) ∨
      ((s.pos p).state = .hold ∧ (s.pos p).holdReason = some .vehicle ∧ (s.pos p).bank = none)) →
    let g := (s.pos p).ramp
    let taken := g.buffer.getLast?.or g.lastTaken
    let comm := (s.pos p).mode = some .comm
    let third := g.buffer = [] ∧ 2 ≤ g.consecutiveHolds
    ∃ t, exec (.periodExpiry p) s = .next t ∧
      ((t.pos p).ramp.buffer = [] ∧ (t.pos p).ramp.lastTaken = taken ∧
        (g.buffer = [] → (t.pos p).ramp.drops = g.drops ∧ (t.pos p).ramp.holds = min (g.holds + 1) 65535 ∧
          (t.pos p).ramp.consecutiveHolds = min (g.consecutiveHolds + 1) 3) ∧
        (g.buffer ≠ [] → (t.pos p).ramp.drops = min (g.drops + (g.buffer.length - 1)) 65535 ∧
          (t.pos p).ramp.holds = g.holds ∧ (t.pos p).ramp.consecutiveHolds = 0)) ∧
      (∀ v, taken = some v → 850 ≤ v.temperature →
        (t.pos p).state = .ending ∧ (t.pos p).endReason = some .vehicleTemp) ∧
      (∀ v, taken = some v → v.temperature < 850 → v.command = .abort →
        (t.pos p).state = .ending ∧ (t.pos p).endReason = some .vehicleAbort) ∧
      ((∀ v, taken = some v → v.temperature < 850 ∧ v.command ≠ .abort) → comm → third →
        ∀ e pSet, g.inUse = some e → g.pSet = some pSet →
          (t.pos p).mode = some .noncomm ∧ (t.pos p).ramp.degraded = true ∧
          (t.pos p).ramp.pTarget = some (max pSet e.pnc) ∧
          (∃ r', t.slot i = .txn r' ∧ r'.flags.degraded = true) ∧
          (∀ n, n = tillPort ∨ n = islandPort p → (s.port n).mask ≤ 3 → Noticed t n .vehicleDegraded p.val) ∧
          (e.pnc < pSet → (t.pos p).state = .ending ∧ (t.pos p).endReason = some .targetReached)) ∧
      (∀ v, taken = some v → v.temperature < 850 → v.command = .halt → comm → ¬ third →
        (t.pos p).state = .hold ∧ (t.pos p).holdReason = some .vehicle ∧ (t.pos p).bank = none ∧
        t.grantOf (.pos p) = s.grantOf (.pos p) ∧
        ((s.pos p).state = .ramp →
          (t.pos p).phaseTimer = some 120000 ∧ Directed t (islandPort p) (.valve p .closed none)) ∧
        ((s.pos p).state = .hold → (t.pos p).phaseTimer = (s.pos p).phaseTimer)) ∧
      ∀ v, taken = some v → v.temperature < 850 → v.command = .run → comm → ¬ third → (s.pos p).state = .hold →
        if warmHeld s p = true then (t.pos p).state = .hold ∧ (t.pos p).holdReason = some .laneWarm
        else
          match bestBank s p .ramp none with
          | some b => (t.pos p).state = .ramp ∧ (t.pos p).bank = some b ∧ (t.pos p).phaseTimer = none ∧
            Directed t (islandPort p) (.valve p (.flow b (g.pSet.getD 0)) (t.pos p).directiveLane)
          | none => (t.pos p).state = .hold ∧ (t.pos p).holdReason = some .bank ∧ ∃ w ∈ t.drawList, w.pos = p) ∧
  (∀ (s : State) (p : PosId) (k : ClassId) (i : SlotId) (r : TxnRecord) (b : BankId) (v : VehicleReport)
    (pSet : Nat) (entry : RampEntry), Metered s p k i r →
    (s.pos p).state = .ramp → (s.pos p).bank = some b → (s.pos p).mode = some .comm →
    (s.pos p).ramp.buffer.getLast?.or (s.pos p).ramp.lastTaken = some v → v.temperature < 850 → v.command = .run →
    ((s.pos p).ramp.buffer = [] → (s.pos p).ramp.consecutiveHolds < 2) →
    (s.pos p).ramp.pSet = some pSet → (s.pos p).ramp.inUse = some entry →
    let held := heldPressure (s.pos p)
    let target := min ((classRow k).pNom * (v.temperature + 2732).toNat / 2882) (classRow k).pMax
    let e := s.grantOf (.pos p)
    let rate := if k = 0 then entry.aprr else entry.aprr * e.grant / e.demand
    let next := max pSet (min (min (pSet + rate) target) (s.bankPressure b - s.margin))
    ∃ t, exec (.periodExpiry p) s = .next t ∧
      (target < pSet → (t.pos p).state = .ending ∧ (t.pos p).endReason = some .socReached ∧
        (t.pos p).ramp.pTarget = some pSet ∧ (t.pos p).ramp.pSet = some pSet) ∧
      (pSet ≤ target → (t.pos p).ramp.pTarget = some target ∧
        (target ≤ v.pressure ∨ (pSet = target ∧ target ≤ held + 20) →
          (t.pos p).state = .ending ∧ (t.pos p).endReason = some .socReached) ∧
        (v.pressure < target → (pSet = target → held + 20 < target) → held + s.margin ≤ s.bankPressure b →
          (s.pos p).ramp.lowFlow = 0 →
          (t.pos p).state = .ramp ∧ (t.pos p).bank = some b ∧ (t.pos p).ramp.pSet = some next ∧
          Directed t (islandPort p) (.valve p (.flow b next) (if k = 0 then none else (s.pos p).lane))))) ∧
  ∀ (s : State) (p : PosId) (k : ClassId) (i : SlotId) (r : TxnRecord) (b : BankId) (pSet target : Nat),
    Metered s p k i r →
    (s.pos p).state = .ramp → (s.pos p).bank = some b → (s.pos p).mode = some .noncomm →
    (s.pos p).ramp.lastTaken = none → (s.pos p).ramp.buffer = [] →
    (s.pos p).ramp.pSet = some pSet → (s.pos p).ramp.pTarget = some target →
    (pSet = target → heldPressure (s.pos p) + 20 < target) →
    let mass := rne ((s.chan p).accumulate (s.cal p)).acc gramUnits
    let spent := s.bankPressure b < heldPressure (s.pos p) + s.margin
    let slow := mass - (s.pos p).ramp.previousMass < s.switchMass ∧ pSet < target ∧ 1 ≤ (s.pos p).ramp.lowFlow
    spent ∨ slow →
    ∃ t, exec (.periodExpiry p) s = .next t ∧
      (t.pos p).ramp.pSet = some pSet ∧ (t.pos p).ramp.pTarget = some target ∧ (t.pos p).ramp.lowFlow = 0 ∧
      ((t.pos p).state = .ramp ∧ (∃ a, (t.pos p).bank = some a ∧ a ≠ b ∧ (t.bank a).holder = some (.pos p) ∧
          Directed t (islandPort p) (.valve p (.flow a pSet) (t.pos p).directiveLane)) ∨
        (t.pos p).state = .hold ∧ (t.pos p).holdReason = some .bank ∧ (t.pos p).bank = none ∧
          (t.pos p).phaseTimer = some 120000 ∧ (∃ w ∈ t.drawList, w.pos = p ∧ w.kind = .ramp) ∧
          Directed t (islandPort p) (.valve p .closed none)) ∧
      ∀ y, r.segments.getLast? = some y → y.cause = none → r.segments.length < 8 →
        ∃ r', t.slot i = .txn r' ∧ { y with
          massEnd := some mass, pressureEnd := (s.pos p).pressure.map (·.value)
          cause := some (if spent then .switchPressure else .switchFlow) } ∈ r'.segments

/-- R7, R72, R162: a report is held, clamped; a waiter whose pressure changed is tested against the IDLE banks
again; above the trip pressure a fuelling position ends with OVERPRESSURE, noticed once a fill. -/
def Obligations.PositionReportResult : Prop :=
  ∀ (s e : State) (p : PosId) (lo hi : Byte) (v : Nat) (c : Instr),
    c = .positionReport (islandPort p) [byteOf p.val, lo, hi] → Standing c s → EsdLaw s →
    v = min (u16 lo hi) 12000 →
    e = s.setPos p { s.pos p with
      pressure := some ⟨v, s.clock⟩
      sensorRange := decide (12000 < u16 lo hi)
      staleWatch := if endable (s.pos p).state = true then some 2000 else (s.pos p).staleWatch } →
    let trip := fuelling (s.pos p).state = true ∧ ∃ k, (s.pos p).cls = some k ∧ (classRow k).pMax + 200 < v
    let tripped : State := { e with tripped := s.tripped.set p true }
    let retest := (s.pos p).pressure.map (·.value) ≠ some v ∧ ∃ w ∈ s.drawList, w.pos = p
    if (s.pos p).state = .unavailable then Refuses c s .badState
    else
      (¬ trip → ¬ retest → Accepts c s [] none e) ∧
      (¬ trip → retest → ∀ w, s.drawList.find? (fun w => w.pos == p) = some w →
        match bestBank e p w.kind w.excluded with
        | none => Accepts c s [] none e
        | some b => Completes c s none e (fun data t => data = [] ∧ (t.pos p).bank = some b ∧
            (t.bank b).state = .drawing ∧ (t.bank b).holder = some (.pos p) ∧ (∀ w ∈ t.drawList, w.pos ≠ p) ∧
            ∀ q, q ≠ p → t.pos q = s.pos q ∧ t.chan q = s.chan q)) ∧
      (trip → endable (s.pos p).state = true →
        Completes c s none tripped (fun data t => data = [] ∧
          (t.pos p).state = .ending ∧ (t.pos p).endReason = some .overpressure ∧
          (¬ retest → Ended p .overpressure e t) ∧
          (s.tripped[p] = false →
            Noticed t (islandPort p) .overpressure p.val ∧ Noticed t plantPort .overpressure p.val))) ∧
      (trip → (s.pos p).state = .ending →
        (s.tripped[p] = true → Accepts c s [] none e) ∧
        (s.tripped[p] = false → Completes c s none tripped (fun data t => data = [] ∧ FillsKept e t ∧
          Noticed t (islandPort p) .overpressure p.val ∧ Noticed t plantPort .overpressure p.val)))

/-- R47, R48: VEHICLE_DATA is judged, counted and buffered, and the reply says how. That the reply carries drops
and holds in two bytes each is the model's choice (notes/assumptions/35.md). -/
def Obligations.VehicleDataResult : Prop :=
  ∀ (s : State) (p : PosId) (v0 v1 p0 p1 t0 t1 command : Byte) (c : Instr),
    c = .vehicleData (islandPort p) [byteOf p.val, v0, v1, p0, p1, t0, t1, command] → Standing c s →
    let g := (s.pos p).ramp
    let volume := u16 v0 v1
    if (s.pos p).state = .unavailable then Refuses c s .badState
    else
      match commandOf command, decide (10 ≤ volume ∧ volume ≤ 5000) with
      | some order, true =>
        let r : VehicleReport := ⟨volume, min (u16 p0 p1) 12000, max (-600) (min (i16 t0 t1) 1200), order,
          decide (12000 < u16 p0 p1 ∨ i16 t0 t1 < -600 ∨ 1200 < i16 t0 t1)⟩
        let full := 4 ≤ g.buffer.length
        let buffer := (if full then g.buffer.drop 1 else g.buffer) ++ [r]
        let drops := if full then min (g.drops + 1) 65535 else g.drops
        Accepts c s [.byte (some (if full then 1 else 0)), .byte (some buffer.length), .half (some drops),
            .half (some g.holds), .flag r.sensorRange] none
          (s.setPos p { s.pos p with
            ramp := { g with buffer := buffer, drops := drops, lastValid := some ⟨r, s.clock⟩ } })
      | _, _ =>
        Accepts c s [.byte (some 2), .byte (some g.buffer.length), .half (some (min (g.drops + 1) 65535)),
            .half (some g.holds)] none
          (s.setPos p { s.pos p with ramp := { g with drops := min (g.drops + 1) 65535 } })

/-- R4, R8, R33: POSITION_CONFIG attaches a lane; AMBIENT_REPORT holds the ambient, clamped; RAMP_TABLE
replaces the row of a class whole. -/
def Obligations.PlantSettingsResult : Prop :=
  (∀ (s : State) (p : PosId) (lane : Byte) (c : Instr),
    c = .positionConfig plantPort [byteOf p.val, lane] → Standing c s →
    match idOf 4 lane with
    | none => Refuses c s .range
    | some l =>
      if (s.pos p).state = .unavailable ∨ (s.pos p).state = .idle then
        Accepts c s [] none (s.setPos p { s.pos p with lane := some l })
      else Refuses c s .busy) ∧
  (∀ (s : State) (t0 t1 : Byte) (c : Instr), c = .ambientReport plantPort [t0, t1] → Standing c s →
    let t := max (-600) (min (i16 t0 t1) 1200)
    let flag := decide (i16 t0 t1 < -600 ∨ 1200 < i16 t0 t1)
    Accepts c s [.temp (some t), .flag flag] none { s with ambient := ⟨some ⟨t, s.clock⟩, flag⟩ }) ∧
  ∀ (s : State) (b : Byte) (bands : List Byte) (c : Instr),
    c = .rampTable plantPort (b :: bands) → bands.length = 24 → Standing c s →
    let aprr := fun j : Nat => u16 (bands.getD (4 * j) 0#8) (bands.getD (4 * j + 1) 0#8)
    let pnc := fun j : Nat => u16 (bands.getD (4 * j + 2) 0#8) (bands.getD (4 * j + 3) 0#8)
    match idOf 6 b with
    | none => Refuses c s .range
    | some k =>
      if ∃ j : BandId, aprr j.val ≠ 0xFFFF ∧
          (aprr j.val < 1 ∨ 200 < aprr j.val ∨ (classRow k).pNom < pnc j.val) then
        Refuses c s .range
      else if ∃ p, (s.pos p).state = .ramp ∨ (s.pos p).state = .hold then Refuses c s .busy
      else
        Accepts c s [.byte (some k.val)] none { s with
          rampTable := s.rampTable.set k (Vector.ofFn (fun j : BandId =>
            if aprr j.val = 0xFFFF then none else some ⟨aprr j.val, pnc j.val⟩)) }

/-! ### Banks and refill (chapters 03 and 04) -/

/-- R44, R58, R71, R131: STATION_CONFIG takes its three values together; a changed margin offers every IDLE
bank, after which no waiter is left that an IDLE bank could serve. R57: so does TIER_WINDOW for its tier. -/
def Obligations.StationAndWindowResult : Prop :=
  (∀ (s : State) (m0 m1 w0 w1 w2 w3 c0 c1 c2 c3 : Byte) (c : Instr),
    c = .stationConfig plantPort [m0, m1, w0, w1, w2, w3, c0, c1, c2, c3] → Standing c s →
    let margin := u16 m0 m1
    let flow := u32 w0 w1 w2 w3
    let creep := u32 c0 c1 c2 c3
    let e : State := { s with margin := margin, switchMass := flow, creepLimit := creep }
    if margin < 50 ∨ 1000 < margin ∨ flow < 1 ∨ 100 < flow ∨ creep < 1 ∨ 500 < creep then Refuses c s .range
    else if s.margin = margin ∨ s.esd.latched = true then Accepts c s [] none e
    else Completes c s none e (fun data t =>
      data = [] ∧ NoneEligible (fun _ => True) t ∧ FillsKept s t ∧ t.cooling = s.cooling ∧ t.queue = s.queue)) ∧
  ∀ (s : State) (code b0 b1 l0 l1 : Byte) (c : Instr),
    c = .tierWindow plantPort [code, b0, b1, l0, l1] → Standing c s →
    let base := u16 b0 b1
    let limit := u16 l0 l1
    let w : Option TierWindow := if base = 0xFFFF ∧ limit = 0xFFFF then none else some ⟨base, limit⟩
    match tierOf code with
    | none => Refuses c s .range
    | some tier =>
      let e := s.setWindow tier w
      if w ≠ none ∧ (limit < base ∨ 12000 < limit) then Refuses c s .range
      else if s.window tier = w ∨ s.esd.latched = true then Accepts c s [] none e
      else Completes c s none e (fun data t =>
        data = [] ∧ NoneEligible (fun b => (s.bank b).config.map (·.tier) = some tier) t ∧ FillsKept s t ∧
          t.cooling = s.cooling ∧ t.queue = s.queue)

/-- R56, R60, R63, R71, R81: BANK_CONFIG sets the four values of a bank in OFFLINE or IDLE; BANK_ONLINE puts a
configured bank into service, or into LOCKED when a lock cause holds. That the replies show the state after the offer
pass and the refill assignment is the model's choice (notes/assumptions/37.md). -/
def Obligations.BankConfigAndOnlineResult : Prop :=
  (∀ (s : State) (b : BankId) (t m0 m1 h0 h1 g0 g1 : Byte) (c : Instr),
    c = .bankConfig plantPort [byteOf b.val, t, m0, m1, h0, h1, g0, g1] → Standing c s →
    let high := u16 m0 m1
    let low := u16 h0 h1
    let target := u16 g0 g1
    match tierOf t with
    | none => Refuses c s .range
    | some tier =>
      let e := s.setBank b { s.bank b with config := some ⟨tier, high, low, target⟩ }
      if high < 100 ∨ 12000 < high ∨ target ≤ low ∨ high < target then Refuses c s .range
      else
        match (s.bank b).state with
        | .offline => Accepts c s [.byte (some b.val), .byte (some BankState.offline.code)] none e
        | .idle => Completes c s none e (fun data t =>
            data = [.byte (some b.val), .byte (some (t.bank b).state.code)] ∧
            (∀ q ∈ t.queue, q.bank = b → q.tier = tier) ∧ FillsKept s t)
        | _ => Refuses c s .busy) ∧
  ∀ (s : State) (b : BankId) (c : Instr), c = .bankOnline plantPort [byteOf b.val] → Standing c s →
    let x := s.bank b
    if s.esd.latched = true then Refuses c s .esdActive
    else if x.state ≠ .offline then Refuses c s .badState
    else
      match x.config with
      | none => Refuses c s .notConfigured
      | some g =>
        let causes : LockCauses :=
          match x.report with
          | none => x.causes
          | some r =>
            { overpressure := x.causes.overpressure || decide (g.maxPressure + 100 < r.pressure)
              overtemp := x.causes.overtemp || decide (850 < r.temperature)
              stale := x.causes.stale && x.sensorRange
              plantLock := x.causes.plantLock }
        let e := s.setBank b { x with staleWatch := some 5000, causes := causes }
        Completes c s none e (fun data t =>
          data = [.byte (some b.val), .byte (some (t.bank b).state.code), .bits causes.bits] ∧ FillsKept s t ∧
          if causes = ⟨false, false, false, false⟩ then
            (t.bank b).state ≠ .offline ∧ (t.bank b).state ≠ .locked ∧
            ((t.bank b).state = .idle →
              ∀ w ∈ t.drawList, eligible t w.pos w.kind w.excluded b = false)
          else
            (t.bank b).state = .locked ∧ (t.bank b).holder = none ∧ t.drawList = s.drawList ∧
              t.queue = s.queue)

/-- R61, R64, R65, R67, R76, R82: BANK_OFFLINE, BANK_LOCK and the end of the stale watch take a bank out of
service: it has no holder and no place in the refill queue. -/
def Obligations.BankLeavesServiceResult : Prop :=
  (∀ (s : State) (b : BankId) (c : Instr), c = .bankOffline plantPort [byteOf b.val] → Standing c s →
    let e := s.setBank b { s.bank b with
      staleWatch := none, causes := { (s.bank b).causes with stale := false } }
    if (s.bank b).state = .offline then Accepts c s [] none s
    else Completes c s none e (fun data t => data = [] ∧ OutOfService b .offline t ∧
      (∀ p, (s.bank b).state = .drawing → (s.bank b).holder = some (.pos p) → (t.pos p).bank ≠ some b))) ∧
  (∀ (s : State) (b : BankId) (c : Instr), c = .bankLock plantPort [byteOf b.val] → Standing c s →
    let e := s.setBank b { s.bank b with causes := { (s.bank b).causes with plantLock := true } }
    if (s.bank b).causes.plantLock = true then Accepts c s [] none s
    else if (s.bank b).state = .offline ∨ (s.bank b).state = .locked then
      Accepts c s [] none (postBankState b e)
    else Completes c s none e (fun data t => data = [] ∧ OutOfService b .locked t ∧
      ∀ p, (s.bank b).state = .drawing → (s.bank b).holder = some (.pos p) → (t.pos p).bank ≠ some b)) ∧
  ∀ (s : State) (b : BankId), Quiet s →
    let e := s.setBank b { s.bank b with
      staleWatch := none, causes := { (s.bank b).causes with stale := true } }
    if (s.bank b).staleWatch ≠ some 0 then Takes (.bankStaleWatchExpiry b) s s
    else if (s.bank b).causes.stale = true then Takes (.bankStaleWatchExpiry b) s e
    else if (s.bank b).state = .offline ∨ (s.bank b).state = .locked then
      Takes (.bankStaleWatchExpiry b) s (postBankState b e)
    else Brings (.bankStaleWatchExpiry b) s e (fun t => OutOfService b .locked t ∧
      ∀ p, (s.bank b).state = .drawing → (s.bank b).holder = some (.pos p) → (t.pos p).bank ≠ some b)

/-- R19, R22, R67, R68, R70, R151: the fill whose bank leaves service while it flows asks for another bank and flows
on it or is held for a bank; a pulse that loses its bank waits again. The bank of a request is the first in the order
of R68 of those that serve it. That this request excludes no bank is the model's reading (notes/assumptions/32.md). -/
def Obligations.WithdrawnFillAsksAgain : Prop :=
  (∀ (s : State) (p : PosId) (kind : DrawKind) (excluded : Option BankId), EvtLaw s →
    (∀ b, eligible s p kind excluded b = true ↔ Serves s p kind excluded b) ∧
    ∀ b, bestBank s p kind excluded = some b ↔
      Serves s p kind excluded b ∧ ∀ a, a ≠ b → Serves s p kind excluded a → TakenBefore s b a) ∧
  ∀ (s : State) (b : BankId) (p : PosId) (c : Instr), c = .bankOffline plantPort [byteOf b.val] → Standing c s →
    (s.bank b).state = .drawing → (s.bank b).holder = some (.pos p) → (s.pos p).bank = some b →
    (∀ w ∈ s.drawList, w.pos ≠ p) → (∀ q ∈ s.queue, q.bank ≠ b) →
    Completes c s none
      (s.setBank b { s.bank b with staleWatch := none, causes := { (s.bank b).causes with stale := false } })
      (fun _ t =>
        let found := fun kind =>
          bestBank (s.setBank b { s.bank b with state := .offline, holder := none }) p kind none
        (∀ q, q ≠ p → t.pos q = s.pos q ∧ t.chan q = s.chan q) ∧
        ((s.pos p).state = .ramp →
          match found .ramp with
          | some a =>
            t.pos p = { s.pos p with
              bank := some a, holdReason := none, phaseTimer := none,
              ramp := { (s.pos p).ramp with lowFlow := 0 } } ∧
            (t.bank a).holder = some (.pos p) ∧
            Directed t (islandPort p) (.valve p (.flow a ((s.pos p).ramp.pSet.getD 0)) (t.pos p).directiveLane)
          | none =>
            Held p .bank (s.setPos p { s.pos p with bank := none }) t ∧
            t.drawList = s.drawList ++ [⟨p, .ramp, s.clock, none⟩] ∧
            Directed t (islandPort p) (.valve p .closed none)) ∧
        ((s.pos p).state = .pulse →
          match found .pulse with
          | some a =>
            t.pos p = { s.pos p with bank := some a, pulseState := some .pulsing, phaseTimer := some 1000 } ∧
            (t.bank a).holder = some (.pos p)
          | none =>
            t.pos p = { s.pos p with bank := none, pulseState := some .waiting, phaseTimer := none } ∧
            t.drawList = s.drawList ++ [⟨p, .pulse, s.clock, none⟩] ∧
            Directed t (islandPort p) (.valve p .closed none)))

/-- R63, R66, R76: BANK_UNLOCK removes the named causes and brings a LOCKED bank with none left back into
service. That the reply shows the state after the offer pass and the refill assignment is the model's choice
(notes/assumptions/37.md). -/
def Obligations.BankUnlockResult : Prop :=
  ∀ (s : State) (b : BankId) (code : Byte) (c : Instr),
    c = .bankUnlock plantPort [byteOf b.val, code] → Standing c s →
    let old := (s.bank b).causes
    let left : LockCauses :=
      ⟨old.overpressure && !code.getLsbD 0, old.overtemp && !code.getLsbD 1, old.stale && !code.getLsbD 2,
        old.plantLock && !code.getLsbD 3⟩
    let e := s.setBank b { s.bank b with
      causes := left
      staleWatch := if old.stale = true ∧ code.getLsbD 2 = true ∧ (s.bank b).state ≠ .offline then some 5000
        else (s.bank b).staleWatch }
    let reply := fun st : BankState => [.byte (some b.val), .byte (some st.code), .bits left.bits]
    if 16 ≤ code.toNat then Refuses c s .range
    else if left = old then Accepts c s (reply (s.bank b).state) none e
    else
      match (s.bank b).state with
      | .offline => Accepts c s (reply .offline) none (postBankState b e)
      | .locked =>
        if left = ⟨false, false, false, false⟩ then
          Completes c s none e (fun data t => data = reply (t.bank b).state ∧ FillsKept s t ∧
            (t.bank b).state ≠ .offline ∧ (t.bank b).state ≠ .locked ∧
            ((t.bank b).state = .idle → s.esd.latched = false →
              ∀ w ∈ t.drawList, eligible t w.pos w.kind w.excluded b = false))
        else Accepts c s (reply .locked) none (postBankState b e)
      | st => Accepts c s (reply st) none e

/-- R62 to R64, R71, R80, R82, R86, R91: a bank report is held, clamped and tested: causes lock a bank in service and
their end brings a LOCKED one back. A bank then IDLE whose pressure has changed serves no waiter any more; at or below
its threshold it is queued for refill, at its target it is not. A report below the target lets a refill go on; one at
or above it completes the refill: REFILL_STOP with cause TARGET, the grant released, the bank IDLE or with a fill.
Fills that neither wait nor draw from the bank go on. That the notice of the end carries the compressor as it was
before the assignment pass is the model's reading (notes/assumptions/12.md). -/
def Obligations.BankReportResult : Prop :=
  ∀ (s e : State) (b : BankId) (p0 p1 t0 t1 : Byte) (c : Instr),
    c = .bankReport plantPort [byteOf b.val, p0, p1, t0, t1] → Standing c s → BankLaw s → CompLaw s → WaitLaw s →
    let x := s.bank b
    let pressure := min (u16 p0 p1) 12000
    let temperature := max (-600) (min (i16 t0 t1) 1200)
    let clamped := decide (12000 < u16 p0 p1 ∨ i16 t0 t1 < -600 ∨ 1200 < i16 t0 t1)
    let causes : LockCauses :=
      match x.config with
      | none => x.causes
      | some g =>
        { overpressure := x.causes.overpressure || decide (g.maxPressure + 100 < pressure)
          overtemp := x.causes.overtemp || decide (850 < temperature)
          stale := x.causes.stale && clamped
          plantLock := x.causes.plantLock }
    let reply := fun t : State =>
      let y := t.bank b
      [.byte (some b.val), .byte (some y.state.code),
        .byte (match y.holder with | some (.pos p) => some p.val | _ => none),
        .byte (match y.holder with | some (.comp n) => some n.val | _ => none),
        .bits y.causes.bits, .word (some y.drawnMass)]
    let reported := { x with report := some ⟨pressure, temperature, s.clock⟩, sensorRange := clamped }
    if x.state = .offline then
      Accepts c s (reply s) none (s.setBank b reported)
    else
      e = s.setBank b { reported with staleWatch := some 5000, causes := causes } →
      Completes c s none e (fun data t => data = reply t ∧
        (causes ≠ ⟨false, false, false, false⟩ →
          (t.bank b).state = .locked ∧ (x.state ≠ .locked → (t.bank b).holder = none)) ∧
        (causes = ⟨false, false, false, false⟩ → (t.bank b).state ≠ .offline ∧ (t.bank b).state ≠ .locked) ∧
        (∀ q, ¬ Waits s q → (s.pos q).bank ≠ some b → x.holder ≠ some (.pos q) →
          t.pos q = s.pos q ∧ t.chan q = s.chan q) ∧
        (x.state = .locked ∨ x.state = .idle ∧ x.report.map (·.pressure) ≠ some pressure → s.esd.latched = false →
          (t.bank b).state = .idle → NoneEligible (fun a => a = b) t) ∧
        (causes = ⟨false, false, false, false⟩ → x.state = .drawing →
          t.banks = e.banks ∧ t.positions = s.positions ∧ t.queue = s.queue ∧ t.comps = s.comps) ∧
        (∀ n, causes = ⟨false, false, false, false⟩ → x.state = .refilling → x.holder = some (.comp n) →
          (s.comp n).state = .running → (s.comp n).bank = some b → ∀ g, x.config = some g →
          if pressure < g.target then
            t.banks = e.banks ∧ t.positions = s.positions ∧ t.queue = s.queue ∧ t.comps = s.comps ∧
              t.cooling = s.cooling
          else
            FillsKept s t ∧
            ((s.port plantPort).directives.length < 28 → Directed t plantPort (.refillStop n b .target)) ∧
            ((t.comp n).state ≠ .coolingWait → (s.port plantPort).passes .compressorState = true →
              ∃ m ∈ (t.port plantPort).outNotices, m.kind = .compressorState ∧ m.subject = n.val ∧
                ∃ q, m.data = [.byte (some CompState.ready.code), .half (some 0),
                  .half (some (s.grantOf (.comp n)).demand), .byte (some CompCause.target.code),
                  .byte (some q)]) ∧
            ((t.comp n).state ≠ .running → (t.grantOf (.comp n)).grant = 0) ∧
            ((∀ q ∈ s.queue, q.bank ≠ b) → g.threshold < g.target →
              (t.bank b).state = .idle ∨ (t.bank b).state = .drawing) ∧
            ((t.bank b).state = .idle → s.esd.latched = false → NoneEligible (fun a => a = b) t) ∧
            (s.drawList = [] → s.queue = [] → s.cooling.wait = [] → g.threshold < g.target →
              t.comp n = { s.comp n with state := .ready, bank := none, entryHeld := none, refillStart := none } ∧
              (t.grantOf (.comp n)).grant = 0 ∧ t.bank b = { e.bank b with state := .idle, holder := none } ∧
              t.queue = [])) ∧
        ∀ g, x.config = some g → g.threshold < g.target → x.state ≠ .refilling → (t.bank b).state = .idle →
          (pressure ≤ g.threshold → t.queued b = true) ∧ (g.target ≤ pressure → t.queued b = false))

/-- R78, R81, R84: REFILL_REQUEST answers REFILLING, ALREADY_QUEUED or NOT_NEEDED and changes nothing, or
queues the bank with origin PLANT_REQUEST; an IDLE bank is then open to an assignment pass. That the reply of a
queued bank shows count and place after that pass is the model's choice (notes/assumptions/33.md). -/
def Obligations.RefillRequestResult : Prop :=
  ∀ (s : State) (b : BankId) (c : Instr), c = .refillRequest plantPort [byteOf b.val] → Standing c s →
    let x := s.bank b
    let reply := fun (disposition : Nat) (t : State) =>
      [.byte (some b.val), .byte (some disposition), .byte (some t.queue.length), .byte (t.queuePlace b)]
    let entry : QueueEntry := ⟨b, (x.config.map (·.tier)).getD .low, s.clock, .plantRequest⟩
    if x.state = .offline ∨ x.state = .locked then Refuses c s .badState
    else if x.state = .refilling then Accepts c s (reply 0 s) none s
    else if ∃ q ∈ s.queue, q.bank = b then Accepts c s (reply 1 s) none s
    else if (x.report.any fun r => x.config.any fun g => decide (g.target ≤ r.pressure)) = true then
      Accepts c s (reply 2 s) none s
    else
      Completes c s none s (fun data t => data = reply 3 t ∧
        (∀ q, t.pos q = s.pos q ∧ t.chan q = s.chan q) ∧
        (entry ∈ t.queue ∨ ((t.bank b).state = .refilling ∧ ∃ n, (t.comp n).entryHeld = some entry)) ∧
        ((x.state = .drawing ∨ s.esd.latched = true) →
          t.queue.Perm (entry :: s.queue) ∧ t.banks = s.banks ∧ t.comps = s.comps))

/-- R83, R84, R91, R109: the settings of a compressor; READY asks for work at once; UNAVAILABLE gives up what
the compressor waits for or runs. -/
def Obligations.CompressorResult : Prop :=
  (∀ (s : State) (n : CompId) (d0 d1 : Byte) (c : Instr),
    c = .compressorConfig plantPort [byteOf n.val, d0, d1] → Standing c s →
    if u16 d0 d1 < 1 ∨ 5000 < u16 d0 d1 then Refuses c s .range
    else if (s.comp n).state = .coolingWait ∨ (s.comp n).state = .running then Refuses c s .busy
    else Accepts c s [.byte (some (s.comp n).state.code)] none
      ((s.setComp n { s.comp n with configured := true }).setGrantOf (.comp n)
        { s.grantOf (.comp n) with demand := u16 d0 d1, floor := u16 d0 d1 })) ∧
  (∀ (s : State) (n : CompId) (c : Instr), c = .compressorReady plantPort [byteOf n.val] → Standing c s →
    if s.esd.latched = true then Refuses c s .esdActive
    else if (s.comp n).configured = false then Refuses c s .notConfigured
    else if (s.comp n).state ≠ .unavailable then Accepts c s [.byte (some (s.comp n).state.code)] none s
    else
      Completes c s none s (fun data t => data = [.byte (some (t.comp n).state.code)] ∧
        (t.comp n).state ≠ .unavailable ∧
        ((t.comp n).state = .ready → (t.queue.filter (assignable t)).length ≤ t.coolingWaiters) ∧
        ∀ q, t.pos q = s.pos q ∧ t.chan q = s.chan q)) ∧
  ∀ (s : State) (n : CompId) (c : Instr), c = .compressorUnavailable plantPort [byteOf n.val] → Standing c s →
    CompLaw s →
    match (s.comp n).state with
    | .unavailable => Accepts c s [.byte (some CompState.unavailable.code)] none s
    | .ready =>
      Accepts c s [.byte (some CompState.unavailable.code)] none
        (postCompState n .unavailableReceived (s.setComp n { s.comp n with state := .unavailable }))
    | .coolingWait =>
      Completes c s none s (fun data t => data = [.byte (some CompState.unavailable.code)] ∧
        t.comp n = { s.comp n with state := .unavailable, requestTime := none } ∧
        (∀ w ∈ t.cooling.wait, w.who ≠ .comp n) ∧ FillsKept s t)
    | .running =>
      Completes c s none s (fun data t => data = [.byte (some CompState.unavailable.code)] ∧
        t.comp n = { s.comp n with
          state := .unavailable, bank := none, entryHeld := none, refillStart := none } ∧
        (t.grantOf (.comp n)).grant = 0 ∧ FillsKept s t)

/-- R80, R84, R86, R87, R91, R114: REFILL_DONE completes and REFILL_WITHDRAW withdraws the refill of a running
compressor. REFILL_STOP goes out while the directive queue has room; with nobody waiting, DONE leaves the
compressor READY without a grant and the bank IDLE; a withdrawn entry is queued again or runs again. The notice of the
end stands after those of the assignment pass, so it is the one left pending where the compressor runs again, and not
where it then waits for cooling. That it carries the compressor as it was before the pass is the model's reading
(notes/assumptions/12.md). -/
def Obligations.RefillEndsResult : Prop :=
  (∀ (s : State) (n : CompId) (b : BankId) (c : Instr), c = .refillDone plantPort [byteOf n.val] → Standing c s →
    CompLaw s → WaitLaw s →
    if (s.comp n).state ≠ .running then Refuses c s .badState
    else
      (s.comp n).bank = some b →
      Completes c s none s (fun data t => data = [] ∧ FillsKept s t ∧
        ((s.port plantPort).directives.length < 28 → Directed t plantPort (.refillStop n b .done)) ∧
        ((t.comp n).state ≠ .coolingWait → (s.port plantPort).passes .compressorState = true →
          ∃ m ∈ (t.port plantPort).outNotices, m.kind = .compressorState ∧ m.subject = n.val ∧
            ∃ q, m.data = [.byte (some CompState.ready.code), .half (some 0),
              .half (some (s.grantOf (.comp n)).demand), .byte (some CompCause.done.code), .byte (some q)]) ∧
        (s.drawList = [] → s.queue = [] → s.cooling.wait = [] → (s.bank b).state = .refilling →
          (∃ r g, (s.bank b).report = some r ∧ (s.bank b).config = some g ∧ g.threshold < r.pressure) →
          t.comp n = { s.comp n with state := .ready, bank := none, entryHeld := none, refillStart := none } ∧
          (t.grantOf (.comp n)).grant = 0 ∧ t.bank b = { s.bank b with state := .idle, holder := none } ∧
          t.queue = []))) ∧
  ∀ (s : State) (n : CompId) (next : Byte) (b : BankId) (e : QueueEntry) (c : Instr),
    c = .refillWithdraw plantPort [byteOf n.val, next] → Standing c s → CompLaw s → WaitLaw s →
    if 2 ≤ next.toNat then Refuses c s .range
    else if (s.comp n).state ≠ .running then Refuses c s .badState
    else
      (s.comp n).bank = some b → (s.comp n).entryHeld = some e → e.bank = b → (s.bank b).state = .refilling →
      (∀ q ∈ s.queue, q.bank ≠ b) →
      Completes c s none s (fun data t => data = [] ∧ FillsKept s t ∧
        ((s.port plantPort).directives.length < 28 → Directed t plantPort (.refillStop n b .withdrawn)) ∧
        ((t.comp n).state ≠ .coolingWait → (s.port plantPort).passes .compressorState = true →
          ∃ m ∈ (t.port plantPort).outNotices, m.kind = .compressorState ∧ m.subject = n.val ∧
            ∃ q, m.data = [.byte (some (if next = 0#8 then CompState.unavailable else CompState.ready).code),
              .half (some 0), .half (some (s.grantOf (.comp n)).demand), .byte (some CompCause.withdrawn.code),
              .byte (some q)]) ∧
        (e ∈ t.queue ∨ ∃ m, (t.comp m).state = .running ∧ (t.comp m).entryHeld = some e) ∧
        (next = 0#8 → (t.grantOf (.comp n)).grant = 0 ∧ t.comp n = { s.comp n with
          state := .unavailable, bank := none, entryHeld := none, refillStart := none }) ∧
        (next = 1#8 → (t.comp n).state ≠ .unavailable))

/-! ### Lanes and cooling (chapters 05 and 06) -/

/-- R93 to R95, R97, R100, R101, R106: LANE_CONFIG sets owner, coefficient and class map of a lane no fuelling
position is attached to; LANE_ENABLE sets the sender's enable, which may start the pull-down, bring back a
fault, or take the lane off and end its cooled fills. That the reply of LANE_CONFIG shows the state after any
withdrawal is the model's choice (notes/assumptions/37.md), and so is the byte that carries the fault causes
(notes/assumptions/35.md). -/
def Obligations.LaneConfigAndEnableResult : Prop :=
  (∀ (s : State) (l : LaneId) (owner k0 k1 map : Byte) (c : Instr),
    c = .laneConfig plantPort [byteOf l.val, owner, k0, k1, map] → Standing c s →
    let x := s.lane l
    let newMap : ClassSet := map.setWidth 6 ||| 1#6
    match idOf 4 owner with
    | none => Refuses c s .range
    | some o =>
      if 64 ≤ map.toNat ∨ u16 k0 k1 < 100 ∨ 800 < u16 k0 k1 then Refuses c s .range
      else if ∃ p, (s.pos p).lane = some l ∧ fuelling (s.pos p).state = true then Refuses c s .busy
      else
        let set := { x with config := some ⟨o, u16 k0 k1⟩, classMap := newMap, warmHold := x.warmHold &&& newMap }
        Completes c s none
          (s.setLane l (if x.config.map (·.owner) = some o then set else set.enabled false false))
          (fun data t => data = [.byte (some l.val), .byte (some (t.lane l).state.code), .byte (some o.val),
              .bits (newMap.setWidth 8)] ∧
            ∀ q, t.pos q = s.pos q ∧ t.chan q = s.chan q)) ∧
  ∀ (s : State) (port : PortId) (l : LaneId) (value : Byte) (c : Instr),
    c = .laneEnable port [byteOf l.val, value] → portRole port ≠ .till → Standing c s →
    let plant := decide (portRole port = .plant)
    let x := s.lane l
    match onOffOf value, x.config with
    | none, _ => Refuses c s .range
    | some _, none => Refuses c s .notConfigured
    | some v, some g =>
      if portRole port = .island ∧ g.owner.val ≠ port.val then Refuses c s .unknownSubject
      else
        let y := x.enabled plant v
        Completes c s none (s.setLane l y) (fun data t =>
          data = [.byte (some l.val), .byte (some y.state.code), .flag y.plantEnable, .flag y.islandEnable,
            .bits (faultBits y)] ∧
          t.lane l = y ∧
          (x.state = .ready → y.state = .off → LaneLost l s t) ∧
          (x.state ≠ .ready ∨ y.state ≠ .off → ∀ q, t.pos q = s.pos q ∧ t.chan q = s.chan q))

/-- R25, R96 to R99, R102, R104, R106: a lane report is held, clamped; a cold one ends the pull-down; in READY it
restarts the stale watch, lifts the classes that are cold enough, whose fills in HOLD for warmth then flow on a bank or
wait for one, and runs the warm test. LANE_FAULT_CLEAR clears the causes and leaves FAULT; the end of the pull-down
timer enters it. The byte that carries the fault causes is the model's choice (notes/assumptions/35.md); that a change
of state and causes posts one LANE_STATE is its reading (notes/assumptions/16.md). -/
def Obligations.LaneReportAndFaultResult : Prop :=
  (∀ (s : State) (l : LaneId) (t0 t1 : Byte) (c : Instr),
    c = .laneReport plantPort [byteOf l.val, t0, t1] → Standing c s →
    let v := max (-600) (min (i16 t0 t1) 1200)
    let clamped := decide (i16 t0 t1 < -600 ∨ 1200 < i16 t0 t1)
    let x := { s.lane l with supply := some ⟨v, s.clock⟩, sensorRange := clamped }
    let reply := fun y : Lane => [.byte (some l.val), .byte (some y.state.code), .bits (faultBits y),
      .bits (y.warmHold.setWidth 8), .flag y.warmTimer.isSome]
    match x.state with
    | .off | .fault => Accepts c s (reply x) none (s.setLane l x)
    | .pulldown =>
      if clamped = false ∧ v ≤ -175 then
        let y := { x with
          state := .ready, pulldownTimer := none, staleWatch := some 5000, warmHold := 0#6, warmTimer := none }
        Accepts c s (reply y) none (postLaneState l .ready (s.setLane l y))
      else Accepts c s (reply x) none (s.setLane l x)
    | .ready =>
      ∃ e : State, (∀ j, j ≠ l → e.lane j = s.lane j) ∧
        (∀ k : ClassId, (e.lane l).warmHold.getLsbD k = true ↔ x.warmHold.getLsbD k = true ∧
          ∀ limit, (classRow k).threshold = some limit → limit < v) ∧
        e = s.setLane l { x with staleWatch := some 5000, warmHold := (e.lane l).warmHold } ∧
        Completes c s none e (fun data t => data = reply (t.lane l) ∧
          (∀ q, (s.pos q).lane = some l → (s.pos q).state = .hold → (s.pos q).holdReason = some .laneWarm →
            (s.pos q).bank = none → ∀ k, (s.pos q).cls = some k → x.warmHold.getLsbD k = true →
            (e.lane l).warmHold.getLsbD k = false → Resolved q false s t) ∧
          t.lane l = { e.lane l with warmTimer :=
            if (∃ p, unheldWarm t l p = true) then some (x.warmTimer.getD 10000) else none } ∧
          ((e.lane l).warmHold = x.warmHold → ∀ q, t.pos q = s.pos q ∧ t.chan q = s.chan q) ∧
          ∀ q, (s.pos q).holdReason ≠ some .laneWarm → ¬ Waits s q → t.pos q = s.pos q ∧ t.chan q = s.chan q)) ∧
  (∀ (s : State) (l : LaneId) (c : Instr), c = .laneFaultClear plantPort [byteOf l.val] → Standing c s →
    let x := { s.lane l with faultPulldown := false, faultStale := false }
    let y :=
      if x.state ≠ .fault then x
      else if x.plantEnable = true ∧ x.islandEnable = true then
        { x with state := .pulldown, pulldownTimer := some 600000 }
      else { x with state := .off }
    Completes c s none (s.setLane l y) (fun data t =>
      data = [.byte (some l.val), .byte (some y.state.code), .flag y.plantEnable, .flag y.islandEnable] ∧
      t.lane l = y ∧ ∀ q, t.pos q = s.pos q ∧ t.chan q = s.chan q)) ∧
  ∀ (s : State) (l : LaneId), Quiet s →
    if (s.lane l).state = .pulldown ∧ (s.lane l).pulldownTimer = some 0 then
      Takes (.pullDownTimerExpiry l) s (postLaneState l .pulldownTimeout (s.setLane l { s.lane l with
        state := .fault, pulldownTimer := none, faultPulldown := true }))
    else Takes (.pullDownTimerExpiry l) s s

/-- R98, R101, R103, R106: the end of a lane's stale watch puts it in FAULT and ends its cooled fills with
LANE_LOST; the end of the warm timer holds the warm classes, and their fills in RAMP or in HOLD for a bank or
the vehicle go to HOLD for warmth. That a bank one of them releases may first go to another of them in HOLD for a
bank is the model's choice (notes/assumptions/36.md); both end in HOLD for warmth. -/
def Obligations.LaneStaleAndWarmResult : Prop :=
  (∀ (s : State) (l : LaneId), Quiet s →
    if (s.lane l).state = .ready ∧ (s.lane l).staleWatch = some 0 then
      let y := { s.lane l with
        state := .fault, faultStale := true, staleWatch := none, warmTimer := none, warmHold := 0#6 }
      Brings (.laneStaleWatchExpiry l) s (s.setLane l y) (fun t => t.lane l = y ∧ LaneLost l s t)
    else Takes (.laneStaleWatchExpiry l) s s) ∧
  ∀ (s : State) (l : LaneId), Quiet s →
    if (s.lane l).state = .ready ∧ (s.lane l).warmTimer = some 0 then
      ∃ e : State, e = s.setLane l { s.lane l with warmHold := (e.lane l).warmHold } ∧
        (∀ k : ClassId, (e.lane l).warmHold.getLsbD k = true ↔ (s.lane l).warmHold.getLsbD k = true ∨
          ∃ p, unheldWarm s l p = true ∧ (s.pos p).cls = some k) ∧
        Brings (.warmTimerExpiry l) s e (fun t =>
          (∀ p, unheldWarm s l p = true → ¬ Waits s p →
            (s.pos p).state = .ramp ∨ (s.pos p).holdReason = some .vehicle ∧ (s.pos p).state = .hold →
            (t.pos p).state = .hold ∧ (t.pos p).holdReason = some .laneWarm) ∧
          (∀ p, unheldWarm s l p = true → (s.pos p).state = .hold → (s.pos p).holdReason = some .bank →
            (t.pos p).state = .hold ∧ (t.pos p).holdReason = some .laneWarm ∧ ∀ w ∈ t.drawList, w.pos ≠ p) ∧
          ∀ q, (∀ k, (s.pos q).cls = some k → (e.lane l).warmHold.getLsbD k = (s.lane l).warmHold.getLsbD k) →
            ¬ Waits s q → t.pos q = s.pos q ∧ t.chan q = s.chan q)
    else Takes (.warmTimerExpiry l) s s

/-- R107, R110, R111, R114 to R118: COOLING_REPORT takes the capacity, clamped; afterwards the grants are within it,
and the reply describes the table as it then stands. A rise is redistributed: derated fills are raised from the oldest
grant on, then waiting fills are served from the head, then compressors when no fill waits. A fall below Σ grants sheds
from the newest grant on: compressors stop, fills are cut to their floors, and only then are fills held. -/
def Obligations.CoolingReportResult : Prop :=
  ∀ (s : State) (c0 c1 : Byte) (c : Instr), c = .coolingReport plantPort [c0, c1] → Standing c s →
    CoolingLaw s →
    let v := min (u16 c0 c1) 5000
    let flag := decide (5000 < u16 c0 c1)
    let e : State := { s with cooling := { s.cooling with capacity := v, sensorRange := flag } }
    let table := fun (shed : Bool) (t : State) =>
      [Field.half (some v), .flag flag, .half (some t.sumGrants), .half (some (v - t.sumGrants)),
        .byte (some (t.cooling.wait.filter (fun w => isFill w.who)).length),
        .byte (some (t.cooling.wait.filter (fun w => !isFill w.who)).length)]
      ++ t.cooling.wait.flatMap (fun w => w.who.fields ++ [.raw w.joined])
      ++ [.byte (some t.cooling.order.length)]
      ++ t.cooling.order.flatMap (fun r =>
          r.fields ++ [.half (some (t.grantOf r).grant), .raw ((t.grantOf r).time.getD 0)])
      ++ [.flag shed]
    if v = s.cooling.capacity then Accepts c s (table false s) none e
    else
      Completes c s none e (fun data t => data = table (decide (v < s.sumGrants)) t ∧ t.sumGrants ≤ v ∧
        (s.sumGrants ≤ v → v < s.cooling.capacity → t.cooling = e.cooling ∧
          ∀ q, t.pos q = s.pos q ∧ t.chan q = s.chan q) ∧
        (s.sumGrants ≤ v → s.cooling.capacity < v → FillsKept s t ∧
          (s.esd.latched = true → t.cooling = e.cooling)) ∧
        (EsdLaw s → CompLaw s → WaitLaw s → GrantLaw s → HolderLaw s → BudgetLaw s →
          (s.cooling.capacity < v → s.esd.latched = false → Redistributed (v - s.sumGrants) s t) ∧
          (v < s.sumGrants → Shed (s.sumGrants - v) s t)) ∧
        ∀ q, (s.grantOf (.pos q)).grant ≠ 0 → 0 < (s.grantOf (.pos q)).floor →
          (s.grantOf (.pos q)).floor ≤ (s.grantOf (.pos q)).demand → (s.pos q).state = .ramp → ¬ Waits s q →
          (t.grantOf (.pos q)).grant = 0 → (t.pos q).state = .hold ∧ (t.pos q).holdReason = some .cooling)

/-! ### The till: tariffs, clock, records, totals (chapter 08); calibration (R137, R138) -/

/-- R137, R138, R181: the checks of CAL_WRITE in their order, and the write of weight, factor and counter, on
which the reply is held. -/
def Obligations.CalibrationWriteResult : Prop :=
  ∀ (s : State) (p : PosId) (w0 w1 f0 f1 f2 f3 : Byte) (c : Instr),
    c = .calWrite plantPort [byteOf p.val, w0, w1, f0, f1, f2, f3] → Standing c s →
    let w := u16 w0 w1
    let f := u32 f0 f1 f2 f3
    let old := s.work.calibration
    let new : Calibration := ⟨old.channels.set p ⟨w, f⟩, old.counter + 1⟩
    if w < 1 ∨ 5000 < w ∨ f < 62259 ∨ 68813 < f then Refuses c s .range
    else if s.pins.calEn = false then Refuses c s .calLocked
    else if (s.pos p).authorization.any (·.reservation) = true ∨ s.openSlot p ≠ none then Refuses c s .busy
    else if old.counter = 65535 then Refuses c s .calExhausted
    else old.counter < 65535 →
      Accepts c s [.byte (some p.val), .half (some w), .raw (BitVec.ofNat 32 f), .half (some new.counter)]
        (some .calibration)
        (issue [.calibration new] { s with work := { s.work with calibration := new } })

/-- R139 to R141, R181: TARIFF_SET replaces an entry whole, or invalidates it, and is held on its write;
TARIFF_READ answers an entry; SET_CLOCK sets the time of day and reloads the one-second timer. -/
def Obligations.TariffAndClockResult : Prop :=
  (∀ (s : State) (n : EntryId) (valid classes allDay s0 s1 s2 s3 e0 e1 e2 e3 p0 p1 p2 p3 : Byte) (c : Instr),
    c = .tariffSet tillPort
      [byteOf n.val, valid, classes, allDay, s0, s1, s2, s3, e0, e1, e2, e3, p0, p1, p2, p3] → Standing c s →
    let start := u32 s0 s1 s2 s3
    let stop := u32 e0 e1 e2 e3
    let price := u32 p0 p1 p2 p3
    let set := fun t : Tariff =>
      Accepts c s [.byte (some n.val), .flag t.valid, .bits (t.classes.setWidth 8), .flag t.allDay,
          .word (some t.windowStart), .word (some t.windowEnd), .word (some t.price)] (some (.tariff n))
        (issue [.tariff n t] { s with work := { s.work with tariffs := s.work.tariffs.set n t } })
    if valid = 0#8 then set ⟨false, 0#6, false, 0, 0, 0⟩
    else if classes = 0#8 ∨ 64 ≤ classes.toNat ∨ price < 1 ∨ 99999999 < price ∨ 86399 < start ∨ 86399 < stop ∨
        (allDay = 0#8 ∧ start = stop) then Refuses c s .range
    else set ⟨true, classes.setWidth 6, allDay != 0#8, start, stop, price⟩) ∧
  (∀ (s : State) (n : EntryId) (c : Instr), c = .tariffRead tillPort [byteOf n.val] → Standing c s →
    let t := s.work.tariffs[n]
    Accepts c s [.flag t.valid, .bits (t.classes.setWidth 8), .flag t.allDay, .word (some t.windowStart),
      .word (some t.windowEnd), .word (some t.price)] none s) ∧
  ∀ (s : State) (d0 d1 x0 x1 x2 x3 : Byte) (c : Instr),
    c = .setClock tillPort [d0, d1, x0, x1, x2, x3] → Standing c s →
    let t : TimeOfDay := ⟨u16 d0 d1, u32 x0 x1 x2 x3, true⟩
    if 86399 < u32 x0 x1 x2 x3 then Refuses c s .range
    else Accepts c s [.tod (some t)] none { s with tod := t, oneSecond := some 1000 }

/-- R153 to R157, R181: TXN_READ answers the record of a number, or for number 0 the collectable one of the
lowest number; TXN_RELEASE frees the slot of a collectable record and is held on its write. Totals are not read
and no snapshot is taken while a close is in flight; a snapshot copies the totals with the time, held on its
write, and SNAPSHOT_READ reads it back. -/
def Obligations.RecordsTotalsAndSnapshot : Prop :=
  (∀ (s : State) (n0 n1 n2 n3 : Byte) (c : Instr), c = .txnRead tillPort [n0, n1, n2, n3] → Standing c s →
    let n := u32 n0 n1 n2 n3
    let holds := fun i : SlotId => (s.slot i).number = n ∧ s.slot i ≠ .free
    let data := fun r : TxnRecord =>
      Field.byte (some (allSlots.filter s.collectable).length) :: r.fields
    (n ≠ 0 → (∀ i, ¬ holds i) → Refuses c s .unknownSubject) ∧
    (n = 0 → (∀ i, s.collectable i = false) → Refuses c s .unknownSubject) ∧
    (∀ i r, s.slot i = .txn r → n ≠ 0 → r.number = n → (∀ j, holds j → j = i) →
      if r.state = .closed ∧ s.inFlight (.slot i) = true then Refuses c s .busy
      else Accepts c s (data r) none s) ∧
    ∀ i r, s.slot i = .txn r → n = 0 → s.collectable i = true →
      (∀ j, j ≠ i → s.collectable j = true → r.number < (s.slot j).number) → Accepts c s (data r) none s) ∧
  (∀ (s : State) (n0 n1 n2 n3 : Byte) (c : Instr), c = .txnRelease tillPort [n0, n1, n2, n3] → Standing c s →
    let n := u32 n0 n1 n2 n3
    let holds := fun i : SlotId => (s.slot i).number = n ∧ s.slot i ≠ .free
    ((∀ i, ¬ holds i) → Refuses c s .unknownSubject) ∧
    ∀ i r, s.slot i = .txn r → r.number = n → (∀ j, holds j → j = i) →
      if r.state = .opened then Refuses c s .badState
      else if s.inFlight (.slot i) = true then Refuses c s .busy
      else Accepts c s [] (some (.slot i)) (issue [.slot i .free] (s.setSlot i .free))) ∧
  (∀ (s : State) (b : Byte) (c : Instr), c = .totalsRead tillPort [b] → Standing c s →
    if s.inFlight .totals = true then Refuses c s .busy
    else Accepts c s (s.work.totals.fields s.tod) none s) ∧
  (∀ (s : State) (b : Byte) (c : Instr), c = .totalsSnapshot tillPort [b] → Standing c s →
    let x : Snapshot := ⟨s.work.totals, ⟨s.clock, s.tod⟩⟩
    if s.inFlight .totals = true then Refuses c s .busy
    else Accepts c s (x.totals.fields s.tod ++ [.raw s.clock]) (some .snapshot)
      (issue [.snapshot x] { s with work := { s.work with snapshot := x } })) ∧
  ∀ (s : State) (b : Byte) (c : Instr), c = .snapshotRead tillPort [b] → Standing c s →
    Accepts c s (s.work.snapshot.totals.fields s.work.snapshot.time.tod ++ [.raw s.work.snapshot.time.clock])
      none s

/-- R31, R163, R176 to R178: the queries answer what the part holds and change nothing; COUNTERS_CLEAR zeroes
the counters of its port; SUPERVISION_SET takes one of four intervals and reloads a running timer; NOTICE_SET
takes mask and promoted kinds and drops the pending notices that no longer pass, counted as masked. That
SUPERVISION_SET leaves the timer of a port neither ALIVE nor LATE stopped is the model's reading
(notes/assumptions/24.md). How the fields are sent is its choice where R186 gives no type (notes/assumptions/9.md
and 35.md), and so is it that STATUS_QUERY shows the calibration counter of the working copy
(notes/assumptions/39.md). -/
def Obligations.QueriesAndPortSettings : Prop :=
  (∀ (s : State) (p : PosId) (c : Instr), c = .positionQuery tillPort [byteOf p.val] → Standing c s →
    let x := s.pos p
    let g := s.grantOf (.pos p)
    let place : List Field :=
      match s.drawList.findIdx? (fun w => w.pos == p), s.drawList.find? (fun w => w.pos == p) with
      | some i, some w => [.byte (some (i + 1)), .raw w.joined]
      | _, _ => []
    Accepts c s
      ([.byte (some x.state.code), .byte (some x.nozzle.code), .byte (x.hose.map (·.kind.code)),
          .flag ((x.hose.map (·.highFlow)).getD false), .byte (x.lane.map (·.val)),
          .raw ((x.authorization.map (·.tag)).getD 0#32), .byte (x.cls.map (·.val)),
          .byte (x.mode.map FillMode.code), .word x.transaction, .half (x.pressure.map (·.value)),
          .word (x.pressure.map (fun v => (s.clock - v.arrived).toNat)), .flag x.sensorRange,
          .half x.ramp.pSet, .half x.ramp.pTarget, .byte (x.ramp.band.map (·.val)),
          .half (x.ramp.inUse.map (·.aprr)), .half (x.ramp.inUse.map (·.pnc)), .byte (x.bank.map (·.val)),
          .half (some g.grant), .half (some g.demand), .byte (x.holdReason.map HoldReason.code),
          .byte (x.endReason.map EndReason.code)] ++ place) none s) ∧
  (∀ (s : State) (port : PortId) (b : Byte) (c : Instr), c = .statusQuery port [b] → Standing c s →
    let x := (s.port port).supervision
    Accepts c s
      ([.byte (some port.val), .byte (some (Role.code (portRole port))), .byte (some x.state.code),
          .half (some x.interval), .byte (some s.work.resetCause.code), .flag s.esd.latched,
          .byte (s.esd.change.map (·.cause.code))]
        ++ (match s.esd.change with
            | some z => [.raw z.time.clock, .tod (some z.time.tod)]
            | none => [.raw 0#32, .tod none])
        ++ [.flag s.pins.esdN, .flag s.tod.set, .half (some s.work.calibration.counter),
          .byte (some s.rate.code)]) none s) ∧
  (∀ (s : State) (port : PortId) (b : Byte) (c : Instr), c = .countersRead port [b] → Standing c s →
    Accepts c s (s.port port).counters.fields none s) ∧
  (∀ (s : State) (port : PortId) (b : Byte) (c : Instr), c = .countersClear port [b] → Standing c s →
    Accepts c s [] none (s.setPort port { s.port port with counters := .zero })) ∧
  (∀ (s : State) (port : PortId) (i0 i1 : Byte) (c : Instr), c = .supervisionSet port [i0, i1] → Standing c s →
    let v := u16 i0 i1
    let x := (s.port port).supervision
    if v = 250 ∨ v = 500 ∨ v = 1000 ∨ v = 2000 then
      Accepts c s [.half (some v), .byte (some x.state.code)] none
        (s.setPort port { s.port port with supervision := { x with
          interval := v
          timer := if x.state = .alive ∨ x.state = .late then some v else x.timer } })
    else Refuses c s .range) ∧
  ∀ (s : State) (port : PortId) (mask a b : Byte) (c : Instr), c = .noticeSet port [mask, a, b] → Standing c s →
    let names := fun x : Byte =>
      if x = 0xFF#8 then some [] else
        (noticeKinds.filter (fun k => k.code == x.toNat && k.level != 7 && k.sentTo (portRole port))).head?.map
          (fun k => [k])
    if 7 < mask.toNat then Refuses c s .range
    else
      match names a, names b with
      | some ka, some kb =>
        let kinds := if ka = kb then ka else ka ++ kb
        let x := s.port port
        let y := { x with mask := mask.toNat, promoted := kinds }
        let kept := x.pending.filter (fun n => y.passes n.kind)
        Accepts c s [.byte (some mask.toNat), .byte (kinds[0]?.map NoticeKind.code),
            .byte (kinds[1]?.map NoticeKind.code), .byte (some kept.length)] none
          (s.setPort port { y with
            pending := kept
            counters := { x.counters with
              noticesMasked := x.counters.noticesMasked + BitVec.ofNat 32 (x.pending.length - kept.length) } })
      | _, _ => Refuses c s .range

/-! ### Shutdown, links, timers, store, power (chapters 07, 09 to 11) -/

/-- R29, R89, R119, R120, R158, R159, R161: the falling edge of ESD_N sets a CLEAR latch and in the same event
ends every fill, takes back every authorization before START, stops every refill, and is noticed at every
port. `freeCtr + 10` counts the model's own free choices, one for each of the ten blocks told, whose order is free
(notes/assumptions/3.md); it is no item of the manual. -/
def Obligations.EsdEdgeStopsTheStation : Prop :=
  ∀ s : State,
    let low : State := { s with pins := { s.pins with esdN := false } }
    let e : State := { low with
      esd := ⟨true, some ⟨.edge, ⟨s.clock, s.tod⟩⟩⟩
      positions := s.positions.map (fun x =>
        if x.state = .waitNozzle ∨ x.state = .ready then { x with authorization := none } else x) }
    (s.phase ≠ .serving → exec .esdNFallingEdge s = .next low) ∧
    (Quiet s → s.esd.latched = true → Takes .esdNFallingEdge s low) ∧
    (Quiet s → s.esd.latched = false → CompLaw s →
      Brings .esdNFallingEdge s { e with freeCtr := s.freeCtr + 10 } (fun t =>
        (∀ p, endable (s.pos p).state = true → (t.pos p).state = .ending ∧ (t.pos p).endReason = some .esd ∧
          (t.pos p).bank = none ∧ (t.grantOf (.pos p)).grant = 0 ∧ ¬ Waits t p) ∧
        (∀ p, (s.pos p).state = .waitNozzle → t.pos p = { s.pos p with
          state := .idle, authorization := none, phaseTimer := none }) ∧
        (∀ p, (s.pos p).state = .ready → t.pos p = { s.pos p with
          state := .waitAuth, authorization := none, phaseTimer := none }) ∧
        (∀ p, endable (s.pos p).state = false → (s.pos p).state ≠ .waitNozzle → (s.pos p).state ≠ .ready →
          t.pos p = s.pos p) ∧
        (∀ n, (t.grantOf (.comp n)).grant = 0 ∧
          (t.comp n).state = if (s.comp n).state = .unavailable then .unavailable else .ready) ∧
        ∀ n, Noticed t n .esd 255))

/-- R160, R161, R84: ESD_CLEAR clears a set latch while ESD_N is high and lets the refills be assigned again. When
a falling edge of ESD_N reached the part together with it and is taken second, the latch is set again with cause EDGE,
and each port that had no ESD notice pending has the later of two, with a coalesce count of 1. That an edge is together
with the clear when it is the next command that waits is the model's choice (notes/assumptions/31.md), and so is the
flag that carries the level of ESD_N (notes/assumptions/35.md). -/
def Obligations.EsdClearResult : Prop :=
  (∀ (s : State) (b : Byte) (c : Instr), c = .esdClear plantPort [b] → Standing c s →
    if s.pins.esdN = false then Refuses c s .badState
    else if s.esd.latched = false then Accepts c s [.flag false, .flag true] none s
    else
      Completes c s none { s with esd := ⟨false, some ⟨.cleared, ⟨s.clock, s.tod⟩⟩⟩ } (fun data t =>
        data = [.flag false, .flag true] ∧ (∀ n, Noticed t n .esd 255) ∧
        (∀ n, (t.comp n).state = .ready → (t.queue.filter (assignable t)).length ≤ t.coolingWaiters) ∧
        ∀ q, t.pos q = s.pos q ∧ t.chan q = s.chan q)) ∧
  ∀ (s : State) (b : Byte) (c : Instr) (rest : List Instr), c = .esdClear plantPort [b] → Standing c s →
    s.pins.esdN = true → s.esd.latched = true → s.pending = c :: .esdNFallingEdge :: rest →
    ∃ t u, step s = .next t ∧ step t = .next u ∧ t.esd.latched = false ∧ u.pending = rest ∧
      u.esd = ⟨true, some ⟨.edge, ⟨s.clock, s.tod⟩⟩⟩ ∧
      ∀ n, (∀ m ∈ (s.port n).pending, m.kind ≠ .esd) →
        ∃ m ∈ (u.port n).outNotices, m.kind = .esd ∧ m.subject = 255 ∧ m.coalesced = 1 ∧
          m.data = [.flag true, .byte (some EsdCause.edge.code), .raw s.clock, .tod (some s.tod), .flag false]

/-- R164, R169, R170: what a receiver does with a sync byte, a bad length, a gap, a bad check and a good frame:
the receiver state, its counter, the supervision record, the receive buffer or OVERRUN, PORT_ALIVE after LATE
or LOST. A check can end a frame in either receiver state, since bytes are not modelled (notes/assumptions/8.md). -/
def Obligations.ReceiverEventsResult : Prop :=
  ∀ (s : State) (n : PortId), Quiet s →
    let x := s.port n
    let fragment : Port :=
      if x.rx = .inFrame then
        { x with rx := .hunting, counters := { x.counters with fragment := x.counters.fragment + 1 } }
      else x
    Takes (.syncByte n) s (s.setPort n { x with rx := .inFrame }) ∧
    Takes (.frameGap n) s (s.setPort n fragment) ∧
    (∀ length : Byte, length.toNat < 2 ∨ 250 < length.toNat →
      Takes (.badLengthFragment n length) s (s.setPort n fragment)) ∧
    Takes (.badCheckFrame n) s (s.setPort n { x with
      rx := .hunting, counters := { x.counters with badCheck := x.counters.badCheck + 1 } }) ∧
    ∀ body : List Byte, 2 ≤ body.length → body.length ≤ 250 →
      let room := (x.rxBuffer.map (fun b => b.length + 1)).sum + (body.length + 1) ≤ 512
      let e := s.setPort n { x with
        rx := .hunting
        supervision := { x.supervision with count := 0, state := .alive, timer := some x.supervision.interval }
        rxBuffer := if room then x.rxBuffer ++ [body] else x.rxBuffer
        counters := { x.counters with
          good := x.counters.good + 1
          overrun := if room then x.counters.overrun else x.counters.overrun + 1 } }
      Takes (.goodFrame n body) s
        (if x.supervision.state = .late ∨ x.supervision.state = .lost then
          postNotice .portAlive n.val
            [.byte (some (Role.code (portRole n))), .half (some x.supervision.interval), .raw s.clock]
            [plantPort, tillPort] e
        else e)

/-- R164, R167: a first missed interval makes a port LATE; a second makes it LOST, and a lost till changes
nothing else. -/
def Obligations.IntervalExpiryMarksThePort : Prop :=
  ∀ (s : State) (n : PortId), Quiet s →
    let x := (s.port n).supervision
    let noticed := fun (k : NoticeKind) (y : Supervision) =>
      postNotice k n.val [.byte (some (Role.code (portRole n))), .half (some x.interval), .raw s.clock]
        [plantPort, tillPort] (s.setPort n { s.port n with supervision := y })
    if x.timer ≠ some 0 then Takes (.intervalTimerExpiry n) s s
    else if x.count = 0 then
      Takes (.intervalTimerExpiry n) s
        (noticed .portLate { x with count := 1, state := .late, timer := some x.interval })
    else n = tillPort →
      Takes (.intervalTimerExpiry n) s (noticed .portLost { x with count := 2, state := .lost, timer := none })

/-- R29, R59, R77, R90, R105, R121, R164 to R166: the loss of an island ends its fills, empties its other positions
and takes its lanes' island enables, and leaves alone what none of this reaches: the positions of other islands
that neither wait nor flow through its lanes, the banks out of service, the compressors that run or are
UNAVAILABLE. The loss of the plant ends every fill, empties both wait lists, takes the plant enables, the capacity,
the compressors and the banks. -/
def Obligations.PortLossTearsDown : Prop :=
  ∀ (s : State) (n : PortId), Quiet s → (s.port n).supervision.timer = some 0 →
    (s.port n).supervision.count ≠ 0 → EsdLaw s → CompLaw s → WaitLaw s → GrantLaw s → BankLaw s → HolderLaw s →
    CoolingLaw s →
    ∃ t, exec (.intervalTimerExpiry n) s = .next t ∧
      (t.port n).supervision =
        { (s.port n).supervision with count := 2, state := .lost, timer := none } ∧
      (t.store, t.clock, t.tod, t.pins, t.esd, t.ambient, t.rampTable, t.margin, t.windows, t.work.tariffs,
          t.work.totals, t.work.nextNumber, t.work.calibration, t.oneSecond, t.pending) =
        (s.store, s.clock, s.tod, s.pins, s.esd, s.ambient, s.rampTable, s.margin, s.windows, s.work.tariffs,
          s.work.totals, s.work.nextNumber, s.work.calibration, s.oneSecond, s.pending) ∧
      (portRole n = .island →
        (∀ p, islandPort p = n →
          (endable (s.pos p).state = true → (t.pos p).state = .ending ∧
            (t.pos p).closePending = some .linkLost ∧
            ((t.pos p).endReason = some .linkLost ∨ (t.pos p).endReason = some .laneLost)) ∧
          ((s.pos p).state = .ending → t.pos p = { s.pos p with closePending := some .linkLost }) ∧
          (endable (s.pos p).state = false → (s.pos p).state ≠ .ending → (s.pos p).state ≠ .unavailable →
            t.pos p = { Position.initial with lane := (s.pos p).lane })) ∧
        (∀ l g, (s.lane l).config = some g → g.owner.val = n.val → (t.lane l).islandEnable = false) ∧
        (∀ l g, (s.lane l).config = some g → g.owner.val ≠ n.val →
          { t.lane l with warmTimer := (s.lane l).warmTimer } = s.lane l) ∧
        (∀ q, islandPort q ≠ n → ¬ Waits s q →
          (∀ l g, (s.lane l).config = some g → g.owner.val = n.val → counted s l q = false) →
          t.pos q = s.pos q ∧ t.chan q = s.chan q) ∧
        (∀ b, (s.bank b).state = .offline ∨ (s.bank b).state = .locked → t.bank b = s.bank b) ∧
        (∀ b, (t.bank b).config = (s.bank b).config ∧ (t.bank b).report = (s.bank b).report ∧
          (t.bank b).causes = (s.bank b).causes) ∧
        (∀ k, (s.comp k).state = .running ∨ (s.comp k).state = .unavailable → t.comp k = s.comp k) ∧
        t.cooling.capacity = s.cooling.capacity) ∧
      (portRole n = .plant →
        (∀ p, endable (s.pos p).state = true → (t.pos p).state = .ending ∧
          ((t.pos p).endReason = some .plantLost ∨ (t.pos p).endReason = some .laneLost)) ∧
        (∀ p, endable (s.pos p).state = false → t.pos p = s.pos p) ∧
        (∀ l, (t.lane l).plantEnable = false ∧ (t.lane l).islandEnable = (s.lane l).islandEnable) ∧
        t.cooling.capacity = 0 ∧ t.sumGrants = 0 ∧ t.drawList = [] ∧ t.cooling.wait = [] ∧
        (∀ k, (t.comp k).state = .unavailable) ∧
        ∀ b, if (s.bank b).state = .offline then t.bank b = s.bank b
          else (t.bank b).state = .locked ∧ (t.bank b).causes.stale = true ∧ (t.bank b).holder = none ∨
            (s.bank b).state = .locked ∧ (t.bank b).state = .locked ∧ (t.bank b).causes.stale = true)

/-- R124, R125, R139: a pulse edge is counted once, in a creep count too while the gate is open, up to 65 535
with the overflow flag; the settle gate timer opens the gate; the one-second timer moves the time of day. What
is counted outside service is the model's reading (notes/assumptions/6.md). -/
def Obligations.PulsesGatesAndSeconds : Prop :=
  (∀ (s : State) (p : PosId),
    let x := s.chan p
    let y : Channel :=
      if x.count < 65535 then
        { x with
          lastPulse := some s.clock
          count := x.count + 1
          creepCount := if x.gateOpen = true then x.creepCount + 1 else x.creepCount
          overflow := x.overflow || decide (x.count = 65534) }
      else { x with lastPulse := some s.clock }
    (Quiet s → Takes (.pulseEdge p) s (s.setChan p y)) ∧
    (s.phase = .settling ∨ s.phase = .recovering → exec (.pulseEdge p) s = .next (s.setChan p y)) ∧
    (s.phase = .off ∨ s.phase = .held → exec (.pulseEdge p) s = .next s)) ∧
  (∀ (s : State) (p : PosId), Quiet s →
    if (s.chan p).settleGate = some 0 then
      Takes (.settleGateTimerExpiry p) s (s.setChan p { s.chan p with settleGate := none, gateOpen := true })
    else Takes (.settleGateTimerExpiry p) s s) ∧
  ∀ s : State,
    let day := if s.tod.day = 65535 then 0 else s.tod.day + 1
    let next : TimeOfDay :=
      if s.tod.second = 86399 then { s.tod with second := 0, day := day }
      else { s.tod with second := s.tod.second + 1 }
    let e : State := { s with oneSecond := some 1000, tod := next }
    s.tod.second < 86400 → s.tod.day < 65536 →
    (s.oneSecond ≠ some 0 ∨ s.phase = .off → exec .oneSecondTimerExpiry s = .next s) ∧
    (s.oneSecond = some 0 → Quiet s → Takes .oneSecondTimerExpiry s e) ∧
    (s.oneSecond = some 0 → s.phase ≠ .off → s.phase ≠ .serving → exec .oneSecondTimerExpiry s = .next e)

/-- R180 to R182: the completion of a write group stores the contents of all its records together and releases
the replies held on them; it goes on while the part is held or starts up, and not without power
(notes/assumptions/6.md). -/
def Obligations.GroupCompletionStoresTogether : Prop :=
  ∀ (s : State) (r : RecId),
    (s.phase = .off → exec (.writeGroupCompletion r) s = .next s) ∧
    (s.inFlight r = false → s.phase ≠ .serving → exec (.writeGroupCompletion r) s = .next s) ∧
    (s.inFlight r = false → Quiet s → Takes (.writeGroupCompletion r) s s) ∧
    ∀ g, s.groups.find? (fun g => g.holds r) = some g →
      let e : State := { s with
        store := g.writes.foldl StoreData.apply s.store
        groups := s.groups.filter (fun h => !h.holds r)
        ports := s.ports.map (fun x => { x with replies := x.replies.map (fun y =>
          if y.heldOn.any g.holds = true then { y with heldOn := none } else y) }) }
      (Quiet s → Takes (.writeGroupCompletion r) s e) ∧
      (s.phase ≠ .off → s.phase ≠ .serving → exec (.writeGroupCompletion r) s = .next e)

/-- R137, R139, R158, R168, R180, R182, R183: the levels of the lines; a loss of power keeps the store alone,
power starts the clock at 0, RESET_N holds the part and its release starts the sequence, whose last stage
begins service once no group is in flight. The old content of a record in flight at a loss of power, and the
clock's 0, are read from the manual (notes/assumptions/7.md and 20.md). -/
def Obligations.LinesPowerAndReset : Prop :=
  ∀ s : State,
    exec .esdNRisingEdge s = .next { s with pins := { s.pins with esdN := true } } ∧
    (∀ high, exec (.calEnChange high) s = .next { s with pins := { s.pins with calEn := high } }) ∧
    (∀ br1 br0, exec (.brStrapsChange br1 br0) s = .next { s with
      pins := { s.pins with br1 := br1, br0 := br0 } }) ∧
    (s.phase ≠ .off → ∃ t, exec .powerLoss s = .next t ∧ t.phase = .off ∧ t.store = s.store ∧
      t.work = s.store ∧ t.groups = [] ∧ t.pins = s.pins ∧ t.positions = Vector.replicate 8 Position.initial) ∧
    (s.phase = .off → ∃ t, exec .powerApplied s = .next t ∧
      t.phase = (if s.pins.resetN = true then .settling else .held) ∧ t.powerFresh = true ∧ t.clock = 0#32 ∧
      t.tod.set = false ∧ t.store = s.store ∧ t.groups = s.groups ∧ t.pins = s.pins) ∧
    (s.phase = .off → exec .powerLoss s = .next s) ∧ (s.phase ≠ .off → exec .powerApplied s = .next s) ∧
    exec .resetNAsserted s = .next { s with
      pins := { s.pins with resetN := false }, phase := if s.phase = .off then .off else .held } ∧
    exec .resetNReleased s = .next { s with
      pins := { s.pins with resetN := true }, phase := if s.phase = .held then .settling else s.phase } ∧
    (s.phase = .recovering → s.groups = [] →
      exec .startUpServe s = .next { s with phase := .serving, powerFresh := false }) ∧
    (s.phase ≠ .recovering ∨ s.groups ≠ [] → exec .startUpServe s = .next s)

/-- R2, R8, R32, R44, R55, R58, R79, R92, R108, R123, R158, R162, R163, R168, R179, R182 to R184: stages 2 to
7 of the start-up: every volatile item at its reset value, every OPEN record closed as POWER_INTERRUPTED from
its checkpoint and every other record kept, each recovered record added once to the totals and noticed to the till
with TXN_RECOVERED, the reset cause written, the straps and ESD_N read; the store, the clock and the time of day
stand. Some reset values are the model's choice (notes/assumptions/22.md). -/
def Obligations.StartUpResetsAndRecovers : Prop :=
  ∀ s : State,
    (s.phase ≠ .settling ∨ s.groups ≠ [] → exec .startUpSequence s = .next s) ∧
    (s.phase = .settling → s.groups = [] → ∃ t, exec .startUpSequence s = .next t ∧ t.phase = .recovering ∧
      t.positions = Vector.replicate 8 Position.initial ∧ t.ambient = ⟨none, false⟩ ∧
      t.rampTable = Vector.replicate 6 (Vector.replicate 6 none) ∧ t.switchMass = 3 ∧ t.creepLimit = 20 ∧
      t.margin = 200 ∧ t.channels = Vector.replicate 8 Channel.initial ∧
      t.banks = Vector.replicate 12 Bank.initial ∧ t.windows = Vector.replicate 3 none ∧ t.drawList = [] ∧
      t.queue = [] ∧ t.comps = Vector.replicate 2 Compressor.initial ∧
      t.lanes = Vector.replicate 4 Lane.initial ∧ t.cooling = Cooling.initial ∧
      t.tripped = Vector.replicate 8 false ∧
      (∀ n, { t.port n with
        pending := [], counters := { (t.port n).counters with noticesCoalesced := 0 } } = Port.initial) ∧
      (∀ i : SlotId, t.slot i =
        match s.store.slots[i] with
        | .txn r =>
          if r.state = .opened then
            let b := r.bill r.checkpointMass
            .txn { b with
              state := .closed, endReason := some .powerInterrupted, endTime := some ⟨s.clock, s.tod⟩
              flags := { b.flags with interrupted := true }
              segments := r.segments.map (fun x =>
                if x.cause = none then { x with massEnd := some r.checkpointMass, cause := some .ended } else x) }
          else .txn r
        | .free => .free) ∧
      (∃ l : List SlotId,
        l.Perm (allSlots.filter (fun i => match s.store.slots[i] with
          | .txn r => r.state == .opened
          | .free => false)) ∧
        t.work.totals = l.foldl (fun x i => match t.slot i with | .txn r => x.add r | .free => x) s.store.totals ∧
        ∀ i ∈ l, t.inFlight (.slot i) = true ∧ t.inFlight .totals = true) ∧
      (∀ (i : SlotId) (r c : TxnRecord), s.store.slots[i] = .txn r → r.state = .opened → t.slot i = .txn c →
        Noticed t tillPort .txnRecovered r.pos.val ∧
        ((∀ (j : SlotId) (y : TxnRecord), s.store.slots[j] = .txn y → y.state = .opened → y.pos = r.pos → j = i) →
          ∃ m ∈ (t.port tillPort).pending, m.kind = .txnRecovered ∧ m.subject = r.pos.val ∧
            m.data = [.word (some r.number), .raw r.tag, .word (some c.mass), .word (some c.amount),
              .word (some c.billed), .raw r.startTime.clock, .tod (some r.startTime.tod), .raw s.clock,
              .tod (some s.tod)])) ∧
      (t.work.calibration, t.work.tariffs, t.work.nextNumber, t.work.snapshot) =
        (s.store.calibration, s.store.tariffs, s.store.nextNumber, s.store.snapshot) ∧
      t.work.resetCause = (if s.powerFresh = true then .powerOn else .resetLine) ∧
      t.inFlight .resetCause = true ∧
      t.rate = (match s.pins.br1, s.pins.br0 with
        | false, false => .r57600 | false, true => .r115200 | true, false => .r230400
        | true, true => .r460800) ∧
      t.esd = (if s.pins.esdN = true then ⟨false, none⟩ else ⟨true, some ⟨.startLow, ⟨s.clock, s.tod⟩⟩⟩) ∧
      (s.pins.esdN = false → ∀ n, Noticed t n .esd 255) ∧
      (t.store, t.clock, t.tod, t.oneSecond, t.pins, t.pending, t.powerFresh) =
        (s.store, s.clock, s.tod, s.oneSecond, s.pins, s.pending, s.powerFresh))

/-! ### What every step keeps -/

/-- R59, R68 to R73, R78, R82, R110, R124, R128, R163, R170, R173, R176, chapters 05 and 09: every step keeps the
bounds of ports and channels, the state machine of lanes and banks, the tie of fills and compressors to the banks they hold, the refill
queue in its order with each bank once, none that is OFFLINE, LOCKED or REFILLING and no fewer entries than compressors
in COOLING_WAIT, the draw wait list with each position once and no IDLE bank that serves an entry of it, and leaves
nothing of an event behind. -/
def Obligations.StepKeepsBlockLaws : Prop :=
  ∀ s t : State, step s = .next t →
    (EvtLaw s → EvtLaw t) ∧ (PortLaw s → PortLaw t) ∧ (ChannelLaw s → ChannelLaw t) ∧
    (LaneLaw s → LaneLaw t) ∧ (BankLaw s → HolderLaw s → BankLaw t) ∧
    (HolderLaw s → GrantLaw s → EsdLaw s → CompLaw s → WaitLaw s →
      HolderLaw t ∧ (QueueLaw s → QueueLaw t) ∧ (EvtLaw s → DrawLaw s → DrawLaw t))

/-- R107, R109 to R115, R117, R118: every step keeps Σ grants within the capacity and every grant in grant order, and
among states where only what may flow holds a grant or waits it keeps every grant within its demand, a cooled fill at
its floor or above while it flows, fills before compressors in the wait list, nothing free while a fill is derated, and
less free than the floor of the head of the wait list. -/
def Obligations.StepKeepsGrantsWithinCapacity : Prop :=
  ∀ s t : State, step s = .next t → CoolingLaw s →
    CoolingLaw t ∧
    (EvtLaw s → HolderLaw s → EsdLaw s → CompLaw s → WaitLaw s → GrantLaw s → BudgetLaw s → BudgetLaw t)

/-- R29, R59, R70, R84 to R90, R110, R111, R114, R119, R120, R159: every step keeps it that only fills and compressors
that may flow hold grants or stand in wait lists, a compressor once at most, that grant order lists the holders of
grants, and that nobody holds or waits while the ESD latch is set. -/
def Obligations.StepKeepsTheEsdLatchInForce : Prop :=
  ∀ s t : State, step s = .next t →
    EsdLaw s → CompLaw s → WaitLaw s → GrantLaw s → HolderLaw s →
    EsdLaw t ∧ CompLaw t ∧ WaitLaw t ∧ GrantLaw t

/-- R33, R36 to R39, R46, R52: in every step P_set stays at or below P_target and P_target at or below P_max. -/
def Obligations.StepKeepsTheSetPointBelowTheTarget : Prop :=
  ∀ s t : State, step s = .next t → SetPointLaw s → SetPointLaw t

/-- R144, R146, R147, R149, R150, R153, R154, R157, R180, R184: in the working copy, the snapshot, the store and the
groups in flight, every record keeps the amount and the billed value of its mass, price and preset, and the
grand totals keep the sums of the position and of the class totals, modulo 10^12. Reservations and records never
exceed the 64 slots, and while they do not, START finds a FREE slot, so that every step answers a next state. -/
def Obligations.StepKeepsTheBooks : Prop :=
  (∀ s t : State, step s = .next t →
    (BillLaw s → BillLaw t) ∧ (TotalsLaw s → TotalsLaw t) ∧ (RoomLaw s → RoomLaw t)) ∧
  ∀ s : State, RoomLaw s → ∃ t, step s = .next t

/-- The state after reset obeys every law that steps keep. -/
def Obligations.ResetObeysTheLaws : Prop :=
  EvtLaw State.reset ∧ PortLaw State.reset ∧ ChannelLaw State.reset ∧ LaneLaw State.reset ∧
  BankLaw State.reset ∧ HolderLaw State.reset ∧ CoolingLaw State.reset ∧ GrantLaw State.reset ∧
  EsdLaw State.reset ∧ CompLaw State.reset ∧ WaitLaw State.reset ∧ QueueLaw State.reset ∧ RoomLaw State.reset ∧
  DrawLaw State.reset ∧ BudgetLaw State.reset ∧ SetPointLaw State.reset ∧ BillLaw State.reset ∧ TotalsLaw State.reset

/-- R137, R139, R158 to R160, R179 to R183: which commands may change the stored contents, the calibration in
use, the station clock, the ESD latch, the time of day. -/
def Obligations.OnlyTheseCommandsChange : Prop :=
  ∀ (c : Instr) (s t : State), exec c s = .next t →
    (t.store ≠ s.store → ∃ r, c = .writeGroupCompletion r) ∧
    (t.work.calibration ≠ s.work.calibration → c = .powerLoss ∨ c = .startUpSequence ∨
      (∃ args, c = .calWrite plantPort args) ∧ s.pins.calEn = true) ∧
    (t.clock ≠ s.clock → c = .powerApplied ∨ c = .powerLoss) ∧
    (t.esd ≠ s.esd → c = .esdNFallingEdge ∨ c = .startUpSequence ∨ c = .powerApplied ∨ c = .powerLoss ∨
      (∃ args, c = .esdClear plantPort args) ∧ s.pins.esdN = true) ∧
    (t.tod ≠ s.tod → c = .oneSecondTimerExpiry ∨ c = .powerApplied ∨ c = .powerLoss ∨
      ∃ args, c = .setClock tillPort args)
end

