-- ==== Sys2Proof/Laws/State.lean ====
section
/-! SUPPORT. Field by field, what an update of one record of State leaves: one lemma per field per update,
true by `rfl`, and the reading lemmas of each kind of record. -/

namespace Sys2Proof.Machine

/-! ### `State.setPos` -/

@[simp] theorem State.setPos_pending (s : State) (p : PosId) (x : Position) : (s.setPos p x).pending = s.pending := rfl
@[simp] theorem State.setPos_phase (s : State) (p : PosId) (x : Position) : (s.setPos p x).phase = s.phase := rfl
@[simp] theorem State.setPos_powerFresh (s : State) (p : PosId) (x : Position) : (s.setPos p x).powerFresh = s.powerFresh := rfl
@[simp] theorem State.setPos_pins (s : State) (p : PosId) (x : Position) : (s.setPos p x).pins = s.pins := rfl
@[simp] theorem State.setPos_rate (s : State) (p : PosId) (x : Position) : (s.setPos p x).rate = s.rate := rfl
@[simp] theorem State.setPos_clock (s : State) (p : PosId) (x : Position) : (s.setPos p x).clock = s.clock := rfl
@[simp] theorem State.setPos_tod (s : State) (p : PosId) (x : Position) : (s.setPos p x).tod = s.tod := rfl
@[simp] theorem State.setPos_oneSecond (s : State) (p : PosId) (x : Position) : (s.setPos p x).oneSecond = s.oneSecond := rfl
@[simp] theorem State.setPos_ambient (s : State) (p : PosId) (x : Position) : (s.setPos p x).ambient = s.ambient := rfl
@[simp] theorem State.setPos_rampTable (s : State) (p : PosId) (x : Position) : (s.setPos p x).rampTable = s.rampTable := rfl
@[simp] theorem State.setPos_switchMass (s : State) (p : PosId) (x : Position) : (s.setPos p x).switchMass = s.switchMass := rfl
@[simp] theorem State.setPos_creepLimit (s : State) (p : PosId) (x : Position) : (s.setPos p x).creepLimit = s.creepLimit := rfl
@[simp] theorem State.setPos_margin (s : State) (p : PosId) (x : Position) : (s.setPos p x).margin = s.margin := rfl
@[simp] theorem State.setPos_channels (s : State) (p : PosId) (x : Position) : (s.setPos p x).channels = s.channels := rfl
@[simp] theorem State.setPos_banks (s : State) (p : PosId) (x : Position) : (s.setPos p x).banks = s.banks := rfl
@[simp] theorem State.setPos_windows (s : State) (p : PosId) (x : Position) : (s.setPos p x).windows = s.windows := rfl
@[simp] theorem State.setPos_drawList (s : State) (p : PosId) (x : Position) : (s.setPos p x).drawList = s.drawList := rfl
@[simp] theorem State.setPos_queue (s : State) (p : PosId) (x : Position) : (s.setPos p x).queue = s.queue := rfl
@[simp] theorem State.setPos_comps (s : State) (p : PosId) (x : Position) : (s.setPos p x).comps = s.comps := rfl
@[simp] theorem State.setPos_lanes (s : State) (p : PosId) (x : Position) : (s.setPos p x).lanes = s.lanes := rfl
@[simp] theorem State.setPos_cooling (s : State) (p : PosId) (x : Position) : (s.setPos p x).cooling = s.cooling := rfl
@[simp] theorem State.setPos_work (s : State) (p : PosId) (x : Position) : (s.setPos p x).work = s.work := rfl
@[simp] theorem State.setPos_store (s : State) (p : PosId) (x : Position) : (s.setPos p x).store = s.store := rfl
@[simp] theorem State.setPos_groups (s : State) (p : PosId) (x : Position) : (s.setPos p x).groups = s.groups := rfl
@[simp] theorem State.setPos_esd (s : State) (p : PosId) (x : Position) : (s.setPos p x).esd = s.esd := rfl
@[simp] theorem State.setPos_tripped (s : State) (p : PosId) (x : Position) : (s.setPos p x).tripped = s.tripped := rfl
@[simp] theorem State.setPos_ports (s : State) (p : PosId) (x : Position) : (s.setPos p x).ports = s.ports := rfl
@[simp] theorem State.setPos_freeCtr (s : State) (p : PosId) (x : Position) : (s.setPos p x).freeCtr = s.freeCtr := rfl
@[simp] theorem State.setPos_evt (s : State) (p : PosId) (x : Position) : (s.setPos p x).evt = s.evt := rfl

/-! ### `State.setChan` -/

@[simp] theorem State.setChan_pending (s : State) (p : PosId) (x : Channel) : (s.setChan p x).pending = s.pending := rfl
@[simp] theorem State.setChan_phase (s : State) (p : PosId) (x : Channel) : (s.setChan p x).phase = s.phase := rfl
@[simp] theorem State.setChan_powerFresh (s : State) (p : PosId) (x : Channel) : (s.setChan p x).powerFresh = s.powerFresh := rfl
@[simp] theorem State.setChan_pins (s : State) (p : PosId) (x : Channel) : (s.setChan p x).pins = s.pins := rfl
@[simp] theorem State.setChan_rate (s : State) (p : PosId) (x : Channel) : (s.setChan p x).rate = s.rate := rfl
@[simp] theorem State.setChan_clock (s : State) (p : PosId) (x : Channel) : (s.setChan p x).clock = s.clock := rfl
@[simp] theorem State.setChan_tod (s : State) (p : PosId) (x : Channel) : (s.setChan p x).tod = s.tod := rfl
@[simp] theorem State.setChan_oneSecond (s : State) (p : PosId) (x : Channel) : (s.setChan p x).oneSecond = s.oneSecond := rfl
@[simp] theorem State.setChan_positions (s : State) (p : PosId) (x : Channel) : (s.setChan p x).positions = s.positions := rfl
@[simp] theorem State.setChan_ambient (s : State) (p : PosId) (x : Channel) : (s.setChan p x).ambient = s.ambient := rfl
@[simp] theorem State.setChan_rampTable (s : State) (p : PosId) (x : Channel) : (s.setChan p x).rampTable = s.rampTable := rfl
@[simp] theorem State.setChan_switchMass (s : State) (p : PosId) (x : Channel) : (s.setChan p x).switchMass = s.switchMass := rfl
@[simp] theorem State.setChan_creepLimit (s : State) (p : PosId) (x : Channel) : (s.setChan p x).creepLimit = s.creepLimit := rfl
@[simp] theorem State.setChan_margin (s : State) (p : PosId) (x : Channel) : (s.setChan p x).margin = s.margin := rfl
@[simp] theorem State.setChan_banks (s : State) (p : PosId) (x : Channel) : (s.setChan p x).banks = s.banks := rfl
@[simp] theorem State.setChan_windows (s : State) (p : PosId) (x : Channel) : (s.setChan p x).windows = s.windows := rfl
@[simp] theorem State.setChan_drawList (s : State) (p : PosId) (x : Channel) : (s.setChan p x).drawList = s.drawList := rfl
@[simp] theorem State.setChan_queue (s : State) (p : PosId) (x : Channel) : (s.setChan p x).queue = s.queue := rfl
@[simp] theorem State.setChan_comps (s : State) (p : PosId) (x : Channel) : (s.setChan p x).comps = s.comps := rfl
@[simp] theorem State.setChan_lanes (s : State) (p : PosId) (x : Channel) : (s.setChan p x).lanes = s.lanes := rfl
@[simp] theorem State.setChan_cooling (s : State) (p : PosId) (x : Channel) : (s.setChan p x).cooling = s.cooling := rfl
@[simp] theorem State.setChan_work (s : State) (p : PosId) (x : Channel) : (s.setChan p x).work = s.work := rfl
@[simp] theorem State.setChan_store (s : State) (p : PosId) (x : Channel) : (s.setChan p x).store = s.store := rfl
@[simp] theorem State.setChan_groups (s : State) (p : PosId) (x : Channel) : (s.setChan p x).groups = s.groups := rfl
@[simp] theorem State.setChan_esd (s : State) (p : PosId) (x : Channel) : (s.setChan p x).esd = s.esd := rfl
@[simp] theorem State.setChan_tripped (s : State) (p : PosId) (x : Channel) : (s.setChan p x).tripped = s.tripped := rfl
@[simp] theorem State.setChan_ports (s : State) (p : PosId) (x : Channel) : (s.setChan p x).ports = s.ports := rfl
@[simp] theorem State.setChan_freeCtr (s : State) (p : PosId) (x : Channel) : (s.setChan p x).freeCtr = s.freeCtr := rfl
@[simp] theorem State.setChan_evt (s : State) (p : PosId) (x : Channel) : (s.setChan p x).evt = s.evt := rfl

/-! ### `State.setBank` -/

@[simp] theorem State.setBank_pending (s : State) (b : BankId) (x : Bank) : (s.setBank b x).pending = s.pending := rfl
@[simp] theorem State.setBank_phase (s : State) (b : BankId) (x : Bank) : (s.setBank b x).phase = s.phase := rfl
@[simp] theorem State.setBank_powerFresh (s : State) (b : BankId) (x : Bank) : (s.setBank b x).powerFresh = s.powerFresh := rfl
@[simp] theorem State.setBank_pins (s : State) (b : BankId) (x : Bank) : (s.setBank b x).pins = s.pins := rfl
@[simp] theorem State.setBank_rate (s : State) (b : BankId) (x : Bank) : (s.setBank b x).rate = s.rate := rfl
@[simp] theorem State.setBank_clock (s : State) (b : BankId) (x : Bank) : (s.setBank b x).clock = s.clock := rfl
@[simp] theorem State.setBank_tod (s : State) (b : BankId) (x : Bank) : (s.setBank b x).tod = s.tod := rfl
@[simp] theorem State.setBank_oneSecond (s : State) (b : BankId) (x : Bank) : (s.setBank b x).oneSecond = s.oneSecond := rfl
@[simp] theorem State.setBank_positions (s : State) (b : BankId) (x : Bank) : (s.setBank b x).positions = s.positions := rfl
@[simp] theorem State.setBank_ambient (s : State) (b : BankId) (x : Bank) : (s.setBank b x).ambient = s.ambient := rfl
@[simp] theorem State.setBank_rampTable (s : State) (b : BankId) (x : Bank) : (s.setBank b x).rampTable = s.rampTable := rfl
@[simp] theorem State.setBank_switchMass (s : State) (b : BankId) (x : Bank) : (s.setBank b x).switchMass = s.switchMass := rfl
@[simp] theorem State.setBank_creepLimit (s : State) (b : BankId) (x : Bank) : (s.setBank b x).creepLimit = s.creepLimit := rfl
@[simp] theorem State.setBank_margin (s : State) (b : BankId) (x : Bank) : (s.setBank b x).margin = s.margin := rfl
@[simp] theorem State.setBank_channels (s : State) (b : BankId) (x : Bank) : (s.setBank b x).channels = s.channels := rfl
@[simp] theorem State.setBank_windows (s : State) (b : BankId) (x : Bank) : (s.setBank b x).windows = s.windows := rfl
@[simp] theorem State.setBank_drawList (s : State) (b : BankId) (x : Bank) : (s.setBank b x).drawList = s.drawList := rfl
@[simp] theorem State.setBank_queue (s : State) (b : BankId) (x : Bank) : (s.setBank b x).queue = s.queue := rfl
@[simp] theorem State.setBank_comps (s : State) (b : BankId) (x : Bank) : (s.setBank b x).comps = s.comps := rfl
@[simp] theorem State.setBank_lanes (s : State) (b : BankId) (x : Bank) : (s.setBank b x).lanes = s.lanes := rfl
@[simp] theorem State.setBank_cooling (s : State) (b : BankId) (x : Bank) : (s.setBank b x).cooling = s.cooling := rfl
@[simp] theorem State.setBank_work (s : State) (b : BankId) (x : Bank) : (s.setBank b x).work = s.work := rfl
@[simp] theorem State.setBank_store (s : State) (b : BankId) (x : Bank) : (s.setBank b x).store = s.store := rfl
@[simp] theorem State.setBank_groups (s : State) (b : BankId) (x : Bank) : (s.setBank b x).groups = s.groups := rfl
@[simp] theorem State.setBank_esd (s : State) (b : BankId) (x : Bank) : (s.setBank b x).esd = s.esd := rfl
@[simp] theorem State.setBank_tripped (s : State) (b : BankId) (x : Bank) : (s.setBank b x).tripped = s.tripped := rfl
@[simp] theorem State.setBank_ports (s : State) (b : BankId) (x : Bank) : (s.setBank b x).ports = s.ports := rfl
@[simp] theorem State.setBank_freeCtr (s : State) (b : BankId) (x : Bank) : (s.setBank b x).freeCtr = s.freeCtr := rfl
@[simp] theorem State.setBank_evt (s : State) (b : BankId) (x : Bank) : (s.setBank b x).evt = s.evt := rfl

/-! ### `State.setLane` -/

@[simp] theorem State.setLane_pending (s : State) (l : LaneId) (x : Lane) : (s.setLane l x).pending = s.pending := rfl
@[simp] theorem State.setLane_phase (s : State) (l : LaneId) (x : Lane) : (s.setLane l x).phase = s.phase := rfl
@[simp] theorem State.setLane_powerFresh (s : State) (l : LaneId) (x : Lane) : (s.setLane l x).powerFresh = s.powerFresh := rfl
@[simp] theorem State.setLane_pins (s : State) (l : LaneId) (x : Lane) : (s.setLane l x).pins = s.pins := rfl
@[simp] theorem State.setLane_rate (s : State) (l : LaneId) (x : Lane) : (s.setLane l x).rate = s.rate := rfl
@[simp] theorem State.setLane_clock (s : State) (l : LaneId) (x : Lane) : (s.setLane l x).clock = s.clock := rfl
@[simp] theorem State.setLane_tod (s : State) (l : LaneId) (x : Lane) : (s.setLane l x).tod = s.tod := rfl
@[simp] theorem State.setLane_oneSecond (s : State) (l : LaneId) (x : Lane) : (s.setLane l x).oneSecond = s.oneSecond := rfl
@[simp] theorem State.setLane_positions (s : State) (l : LaneId) (x : Lane) : (s.setLane l x).positions = s.positions := rfl
@[simp] theorem State.setLane_ambient (s : State) (l : LaneId) (x : Lane) : (s.setLane l x).ambient = s.ambient := rfl
@[simp] theorem State.setLane_rampTable (s : State) (l : LaneId) (x : Lane) : (s.setLane l x).rampTable = s.rampTable := rfl
@[simp] theorem State.setLane_switchMass (s : State) (l : LaneId) (x : Lane) : (s.setLane l x).switchMass = s.switchMass := rfl
@[simp] theorem State.setLane_creepLimit (s : State) (l : LaneId) (x : Lane) : (s.setLane l x).creepLimit = s.creepLimit := rfl
@[simp] theorem State.setLane_margin (s : State) (l : LaneId) (x : Lane) : (s.setLane l x).margin = s.margin := rfl
@[simp] theorem State.setLane_channels (s : State) (l : LaneId) (x : Lane) : (s.setLane l x).channels = s.channels := rfl
@[simp] theorem State.setLane_banks (s : State) (l : LaneId) (x : Lane) : (s.setLane l x).banks = s.banks := rfl
@[simp] theorem State.setLane_windows (s : State) (l : LaneId) (x : Lane) : (s.setLane l x).windows = s.windows := rfl
@[simp] theorem State.setLane_drawList (s : State) (l : LaneId) (x : Lane) : (s.setLane l x).drawList = s.drawList := rfl
@[simp] theorem State.setLane_queue (s : State) (l : LaneId) (x : Lane) : (s.setLane l x).queue = s.queue := rfl
@[simp] theorem State.setLane_comps (s : State) (l : LaneId) (x : Lane) : (s.setLane l x).comps = s.comps := rfl
@[simp] theorem State.setLane_cooling (s : State) (l : LaneId) (x : Lane) : (s.setLane l x).cooling = s.cooling := rfl
@[simp] theorem State.setLane_work (s : State) (l : LaneId) (x : Lane) : (s.setLane l x).work = s.work := rfl
@[simp] theorem State.setLane_store (s : State) (l : LaneId) (x : Lane) : (s.setLane l x).store = s.store := rfl
@[simp] theorem State.setLane_groups (s : State) (l : LaneId) (x : Lane) : (s.setLane l x).groups = s.groups := rfl
@[simp] theorem State.setLane_esd (s : State) (l : LaneId) (x : Lane) : (s.setLane l x).esd = s.esd := rfl
@[simp] theorem State.setLane_tripped (s : State) (l : LaneId) (x : Lane) : (s.setLane l x).tripped = s.tripped := rfl
@[simp] theorem State.setLane_ports (s : State) (l : LaneId) (x : Lane) : (s.setLane l x).ports = s.ports := rfl
@[simp] theorem State.setLane_freeCtr (s : State) (l : LaneId) (x : Lane) : (s.setLane l x).freeCtr = s.freeCtr := rfl
@[simp] theorem State.setLane_evt (s : State) (l : LaneId) (x : Lane) : (s.setLane l x).evt = s.evt := rfl

/-! ### `State.setComp` -/

@[simp] theorem State.setComp_pending (s : State) (c : CompId) (x : Compressor) : (s.setComp c x).pending = s.pending := rfl
@[simp] theorem State.setComp_phase (s : State) (c : CompId) (x : Compressor) : (s.setComp c x).phase = s.phase := rfl
@[simp] theorem State.setComp_powerFresh (s : State) (c : CompId) (x : Compressor) : (s.setComp c x).powerFresh = s.powerFresh := rfl
@[simp] theorem State.setComp_pins (s : State) (c : CompId) (x : Compressor) : (s.setComp c x).pins = s.pins := rfl
@[simp] theorem State.setComp_rate (s : State) (c : CompId) (x : Compressor) : (s.setComp c x).rate = s.rate := rfl
@[simp] theorem State.setComp_clock (s : State) (c : CompId) (x : Compressor) : (s.setComp c x).clock = s.clock := rfl
@[simp] theorem State.setComp_tod (s : State) (c : CompId) (x : Compressor) : (s.setComp c x).tod = s.tod := rfl
@[simp] theorem State.setComp_oneSecond (s : State) (c : CompId) (x : Compressor) : (s.setComp c x).oneSecond = s.oneSecond := rfl
@[simp] theorem State.setComp_positions (s : State) (c : CompId) (x : Compressor) : (s.setComp c x).positions = s.positions := rfl
@[simp] theorem State.setComp_ambient (s : State) (c : CompId) (x : Compressor) : (s.setComp c x).ambient = s.ambient := rfl
@[simp] theorem State.setComp_rampTable (s : State) (c : CompId) (x : Compressor) : (s.setComp c x).rampTable = s.rampTable := rfl
@[simp] theorem State.setComp_switchMass (s : State) (c : CompId) (x : Compressor) : (s.setComp c x).switchMass = s.switchMass := rfl
@[simp] theorem State.setComp_creepLimit (s : State) (c : CompId) (x : Compressor) : (s.setComp c x).creepLimit = s.creepLimit := rfl
@[simp] theorem State.setComp_margin (s : State) (c : CompId) (x : Compressor) : (s.setComp c x).margin = s.margin := rfl
@[simp] theorem State.setComp_channels (s : State) (c : CompId) (x : Compressor) : (s.setComp c x).channels = s.channels := rfl
@[simp] theorem State.setComp_banks (s : State) (c : CompId) (x : Compressor) : (s.setComp c x).banks = s.banks := rfl
@[simp] theorem State.setComp_windows (s : State) (c : CompId) (x : Compressor) : (s.setComp c x).windows = s.windows := rfl
@[simp] theorem State.setComp_drawList (s : State) (c : CompId) (x : Compressor) : (s.setComp c x).drawList = s.drawList := rfl
@[simp] theorem State.setComp_queue (s : State) (c : CompId) (x : Compressor) : (s.setComp c x).queue = s.queue := rfl
@[simp] theorem State.setComp_lanes (s : State) (c : CompId) (x : Compressor) : (s.setComp c x).lanes = s.lanes := rfl
@[simp] theorem State.setComp_cooling (s : State) (c : CompId) (x : Compressor) : (s.setComp c x).cooling = s.cooling := rfl
@[simp] theorem State.setComp_work (s : State) (c : CompId) (x : Compressor) : (s.setComp c x).work = s.work := rfl
@[simp] theorem State.setComp_store (s : State) (c : CompId) (x : Compressor) : (s.setComp c x).store = s.store := rfl
@[simp] theorem State.setComp_groups (s : State) (c : CompId) (x : Compressor) : (s.setComp c x).groups = s.groups := rfl
@[simp] theorem State.setComp_esd (s : State) (c : CompId) (x : Compressor) : (s.setComp c x).esd = s.esd := rfl
@[simp] theorem State.setComp_tripped (s : State) (c : CompId) (x : Compressor) : (s.setComp c x).tripped = s.tripped := rfl
@[simp] theorem State.setComp_ports (s : State) (c : CompId) (x : Compressor) : (s.setComp c x).ports = s.ports := rfl
@[simp] theorem State.setComp_freeCtr (s : State) (c : CompId) (x : Compressor) : (s.setComp c x).freeCtr = s.freeCtr := rfl
@[simp] theorem State.setComp_evt (s : State) (c : CompId) (x : Compressor) : (s.setComp c x).evt = s.evt := rfl

/-! ### `State.setPort` -/

@[simp] theorem State.setPort_pending (s : State) (n : PortId) (x : Port) : (s.setPort n x).pending = s.pending := rfl
@[simp] theorem State.setPort_phase (s : State) (n : PortId) (x : Port) : (s.setPort n x).phase = s.phase := rfl
@[simp] theorem State.setPort_powerFresh (s : State) (n : PortId) (x : Port) : (s.setPort n x).powerFresh = s.powerFresh := rfl
@[simp] theorem State.setPort_pins (s : State) (n : PortId) (x : Port) : (s.setPort n x).pins = s.pins := rfl
@[simp] theorem State.setPort_rate (s : State) (n : PortId) (x : Port) : (s.setPort n x).rate = s.rate := rfl
@[simp] theorem State.setPort_clock (s : State) (n : PortId) (x : Port) : (s.setPort n x).clock = s.clock := rfl
@[simp] theorem State.setPort_tod (s : State) (n : PortId) (x : Port) : (s.setPort n x).tod = s.tod := rfl
@[simp] theorem State.setPort_oneSecond (s : State) (n : PortId) (x : Port) : (s.setPort n x).oneSecond = s.oneSecond := rfl
@[simp] theorem State.setPort_positions (s : State) (n : PortId) (x : Port) : (s.setPort n x).positions = s.positions := rfl
@[simp] theorem State.setPort_ambient (s : State) (n : PortId) (x : Port) : (s.setPort n x).ambient = s.ambient := rfl
@[simp] theorem State.setPort_rampTable (s : State) (n : PortId) (x : Port) : (s.setPort n x).rampTable = s.rampTable := rfl
@[simp] theorem State.setPort_switchMass (s : State) (n : PortId) (x : Port) : (s.setPort n x).switchMass = s.switchMass := rfl
@[simp] theorem State.setPort_creepLimit (s : State) (n : PortId) (x : Port) : (s.setPort n x).creepLimit = s.creepLimit := rfl
@[simp] theorem State.setPort_margin (s : State) (n : PortId) (x : Port) : (s.setPort n x).margin = s.margin := rfl
@[simp] theorem State.setPort_channels (s : State) (n : PortId) (x : Port) : (s.setPort n x).channels = s.channels := rfl
@[simp] theorem State.setPort_banks (s : State) (n : PortId) (x : Port) : (s.setPort n x).banks = s.banks := rfl
@[simp] theorem State.setPort_windows (s : State) (n : PortId) (x : Port) : (s.setPort n x).windows = s.windows := rfl
@[simp] theorem State.setPort_drawList (s : State) (n : PortId) (x : Port) : (s.setPort n x).drawList = s.drawList := rfl
@[simp] theorem State.setPort_queue (s : State) (n : PortId) (x : Port) : (s.setPort n x).queue = s.queue := rfl
@[simp] theorem State.setPort_comps (s : State) (n : PortId) (x : Port) : (s.setPort n x).comps = s.comps := rfl
@[simp] theorem State.setPort_lanes (s : State) (n : PortId) (x : Port) : (s.setPort n x).lanes = s.lanes := rfl
@[simp] theorem State.setPort_cooling (s : State) (n : PortId) (x : Port) : (s.setPort n x).cooling = s.cooling := rfl
@[simp] theorem State.setPort_work (s : State) (n : PortId) (x : Port) : (s.setPort n x).work = s.work := rfl
@[simp] theorem State.setPort_store (s : State) (n : PortId) (x : Port) : (s.setPort n x).store = s.store := rfl
@[simp] theorem State.setPort_groups (s : State) (n : PortId) (x : Port) : (s.setPort n x).groups = s.groups := rfl
@[simp] theorem State.setPort_esd (s : State) (n : PortId) (x : Port) : (s.setPort n x).esd = s.esd := rfl
@[simp] theorem State.setPort_tripped (s : State) (n : PortId) (x : Port) : (s.setPort n x).tripped = s.tripped := rfl
@[simp] theorem State.setPort_freeCtr (s : State) (n : PortId) (x : Port) : (s.setPort n x).freeCtr = s.freeCtr := rfl
@[simp] theorem State.setPort_evt (s : State) (n : PortId) (x : Port) : (s.setPort n x).evt = s.evt := rfl

/-! ### `State.modPos` -/

@[simp] theorem State.modPos_pending (s : State) (p : PosId) (f : Position → Position) : (s.modPos p f).pending = s.pending := rfl
@[simp] theorem State.modPos_phase (s : State) (p : PosId) (f : Position → Position) : (s.modPos p f).phase = s.phase := rfl
@[simp] theorem State.modPos_powerFresh (s : State) (p : PosId) (f : Position → Position) : (s.modPos p f).powerFresh = s.powerFresh := rfl
@[simp] theorem State.modPos_pins (s : State) (p : PosId) (f : Position → Position) : (s.modPos p f).pins = s.pins := rfl
@[simp] theorem State.modPos_rate (s : State) (p : PosId) (f : Position → Position) : (s.modPos p f).rate = s.rate := rfl
@[simp] theorem State.modPos_clock (s : State) (p : PosId) (f : Position → Position) : (s.modPos p f).clock = s.clock := rfl
@[simp] theorem State.modPos_tod (s : State) (p : PosId) (f : Position → Position) : (s.modPos p f).tod = s.tod := rfl
@[simp] theorem State.modPos_oneSecond (s : State) (p : PosId) (f : Position → Position) : (s.modPos p f).oneSecond = s.oneSecond := rfl
@[simp] theorem State.modPos_ambient (s : State) (p : PosId) (f : Position → Position) : (s.modPos p f).ambient = s.ambient := rfl
@[simp] theorem State.modPos_rampTable (s : State) (p : PosId) (f : Position → Position) : (s.modPos p f).rampTable = s.rampTable := rfl
@[simp] theorem State.modPos_switchMass (s : State) (p : PosId) (f : Position → Position) : (s.modPos p f).switchMass = s.switchMass := rfl
@[simp] theorem State.modPos_creepLimit (s : State) (p : PosId) (f : Position → Position) : (s.modPos p f).creepLimit = s.creepLimit := rfl
@[simp] theorem State.modPos_margin (s : State) (p : PosId) (f : Position → Position) : (s.modPos p f).margin = s.margin := rfl
@[simp] theorem State.modPos_channels (s : State) (p : PosId) (f : Position → Position) : (s.modPos p f).channels = s.channels := rfl
@[simp] theorem State.modPos_banks (s : State) (p : PosId) (f : Position → Position) : (s.modPos p f).banks = s.banks := rfl
@[simp] theorem State.modPos_windows (s : State) (p : PosId) (f : Position → Position) : (s.modPos p f).windows = s.windows := rfl
@[simp] theorem State.modPos_drawList (s : State) (p : PosId) (f : Position → Position) : (s.modPos p f).drawList = s.drawList := rfl
@[simp] theorem State.modPos_queue (s : State) (p : PosId) (f : Position → Position) : (s.modPos p f).queue = s.queue := rfl
@[simp] theorem State.modPos_comps (s : State) (p : PosId) (f : Position → Position) : (s.modPos p f).comps = s.comps := rfl
@[simp] theorem State.modPos_lanes (s : State) (p : PosId) (f : Position → Position) : (s.modPos p f).lanes = s.lanes := rfl
@[simp] theorem State.modPos_cooling (s : State) (p : PosId) (f : Position → Position) : (s.modPos p f).cooling = s.cooling := rfl
@[simp] theorem State.modPos_work (s : State) (p : PosId) (f : Position → Position) : (s.modPos p f).work = s.work := rfl
@[simp] theorem State.modPos_store (s : State) (p : PosId) (f : Position → Position) : (s.modPos p f).store = s.store := rfl
@[simp] theorem State.modPos_groups (s : State) (p : PosId) (f : Position → Position) : (s.modPos p f).groups = s.groups := rfl
@[simp] theorem State.modPos_esd (s : State) (p : PosId) (f : Position → Position) : (s.modPos p f).esd = s.esd := rfl
@[simp] theorem State.modPos_tripped (s : State) (p : PosId) (f : Position → Position) : (s.modPos p f).tripped = s.tripped := rfl
@[simp] theorem State.modPos_ports (s : State) (p : PosId) (f : Position → Position) : (s.modPos p f).ports = s.ports := rfl
@[simp] theorem State.modPos_freeCtr (s : State) (p : PosId) (f : Position → Position) : (s.modPos p f).freeCtr = s.freeCtr := rfl
@[simp] theorem State.modPos_evt (s : State) (p : PosId) (f : Position → Position) : (s.modPos p f).evt = s.evt := rfl

/-! ### `State.modChan` -/

@[simp] theorem State.modChan_pending (s : State) (p : PosId) (f : Channel → Channel) : (s.modChan p f).pending = s.pending := rfl
@[simp] theorem State.modChan_phase (s : State) (p : PosId) (f : Channel → Channel) : (s.modChan p f).phase = s.phase := rfl
@[simp] theorem State.modChan_powerFresh (s : State) (p : PosId) (f : Channel → Channel) : (s.modChan p f).powerFresh = s.powerFresh := rfl
@[simp] theorem State.modChan_pins (s : State) (p : PosId) (f : Channel → Channel) : (s.modChan p f).pins = s.pins := rfl
@[simp] theorem State.modChan_rate (s : State) (p : PosId) (f : Channel → Channel) : (s.modChan p f).rate = s.rate := rfl
@[simp] theorem State.modChan_clock (s : State) (p : PosId) (f : Channel → Channel) : (s.modChan p f).clock = s.clock := rfl
@[simp] theorem State.modChan_tod (s : State) (p : PosId) (f : Channel → Channel) : (s.modChan p f).tod = s.tod := rfl
@[simp] theorem State.modChan_oneSecond (s : State) (p : PosId) (f : Channel → Channel) : (s.modChan p f).oneSecond = s.oneSecond := rfl
@[simp] theorem State.modChan_positions (s : State) (p : PosId) (f : Channel → Channel) : (s.modChan p f).positions = s.positions := rfl
@[simp] theorem State.modChan_ambient (s : State) (p : PosId) (f : Channel → Channel) : (s.modChan p f).ambient = s.ambient := rfl
@[simp] theorem State.modChan_rampTable (s : State) (p : PosId) (f : Channel → Channel) : (s.modChan p f).rampTable = s.rampTable := rfl
@[simp] theorem State.modChan_switchMass (s : State) (p : PosId) (f : Channel → Channel) : (s.modChan p f).switchMass = s.switchMass := rfl
@[simp] theorem State.modChan_creepLimit (s : State) (p : PosId) (f : Channel → Channel) : (s.modChan p f).creepLimit = s.creepLimit := rfl
@[simp] theorem State.modChan_margin (s : State) (p : PosId) (f : Channel → Channel) : (s.modChan p f).margin = s.margin := rfl
@[simp] theorem State.modChan_banks (s : State) (p : PosId) (f : Channel → Channel) : (s.modChan p f).banks = s.banks := rfl
@[simp] theorem State.modChan_windows (s : State) (p : PosId) (f : Channel → Channel) : (s.modChan p f).windows = s.windows := rfl
@[simp] theorem State.modChan_drawList (s : State) (p : PosId) (f : Channel → Channel) : (s.modChan p f).drawList = s.drawList := rfl
@[simp] theorem State.modChan_queue (s : State) (p : PosId) (f : Channel → Channel) : (s.modChan p f).queue = s.queue := rfl
@[simp] theorem State.modChan_comps (s : State) (p : PosId) (f : Channel → Channel) : (s.modChan p f).comps = s.comps := rfl
@[simp] theorem State.modChan_lanes (s : State) (p : PosId) (f : Channel → Channel) : (s.modChan p f).lanes = s.lanes := rfl
@[simp] theorem State.modChan_cooling (s : State) (p : PosId) (f : Channel → Channel) : (s.modChan p f).cooling = s.cooling := rfl
@[simp] theorem State.modChan_work (s : State) (p : PosId) (f : Channel → Channel) : (s.modChan p f).work = s.work := rfl
@[simp] theorem State.modChan_store (s : State) (p : PosId) (f : Channel → Channel) : (s.modChan p f).store = s.store := rfl
@[simp] theorem State.modChan_groups (s : State) (p : PosId) (f : Channel → Channel) : (s.modChan p f).groups = s.groups := rfl
@[simp] theorem State.modChan_esd (s : State) (p : PosId) (f : Channel → Channel) : (s.modChan p f).esd = s.esd := rfl
@[simp] theorem State.modChan_tripped (s : State) (p : PosId) (f : Channel → Channel) : (s.modChan p f).tripped = s.tripped := rfl
@[simp] theorem State.modChan_ports (s : State) (p : PosId) (f : Channel → Channel) : (s.modChan p f).ports = s.ports := rfl
@[simp] theorem State.modChan_freeCtr (s : State) (p : PosId) (f : Channel → Channel) : (s.modChan p f).freeCtr = s.freeCtr := rfl
@[simp] theorem State.modChan_evt (s : State) (p : PosId) (f : Channel → Channel) : (s.modChan p f).evt = s.evt := rfl

/-! ### `State.modBank` -/

@[simp] theorem State.modBank_pending (s : State) (b : BankId) (f : Bank → Bank) : (s.modBank b f).pending = s.pending := rfl
@[simp] theorem State.modBank_phase (s : State) (b : BankId) (f : Bank → Bank) : (s.modBank b f).phase = s.phase := rfl
@[simp] theorem State.modBank_powerFresh (s : State) (b : BankId) (f : Bank → Bank) : (s.modBank b f).powerFresh = s.powerFresh := rfl
@[simp] theorem State.modBank_pins (s : State) (b : BankId) (f : Bank → Bank) : (s.modBank b f).pins = s.pins := rfl
@[simp] theorem State.modBank_rate (s : State) (b : BankId) (f : Bank → Bank) : (s.modBank b f).rate = s.rate := rfl
@[simp] theorem State.modBank_clock (s : State) (b : BankId) (f : Bank → Bank) : (s.modBank b f).clock = s.clock := rfl
@[simp] theorem State.modBank_tod (s : State) (b : BankId) (f : Bank → Bank) : (s.modBank b f).tod = s.tod := rfl
@[simp] theorem State.modBank_oneSecond (s : State) (b : BankId) (f : Bank → Bank) : (s.modBank b f).oneSecond = s.oneSecond := rfl
@[simp] theorem State.modBank_positions (s : State) (b : BankId) (f : Bank → Bank) : (s.modBank b f).positions = s.positions := rfl
@[simp] theorem State.modBank_ambient (s : State) (b : BankId) (f : Bank → Bank) : (s.modBank b f).ambient = s.ambient := rfl
@[simp] theorem State.modBank_rampTable (s : State) (b : BankId) (f : Bank → Bank) : (s.modBank b f).rampTable = s.rampTable := rfl
@[simp] theorem State.modBank_switchMass (s : State) (b : BankId) (f : Bank → Bank) : (s.modBank b f).switchMass = s.switchMass := rfl
@[simp] theorem State.modBank_creepLimit (s : State) (b : BankId) (f : Bank → Bank) : (s.modBank b f).creepLimit = s.creepLimit := rfl
@[simp] theorem State.modBank_margin (s : State) (b : BankId) (f : Bank → Bank) : (s.modBank b f).margin = s.margin := rfl
@[simp] theorem State.modBank_channels (s : State) (b : BankId) (f : Bank → Bank) : (s.modBank b f).channels = s.channels := rfl
@[simp] theorem State.modBank_windows (s : State) (b : BankId) (f : Bank → Bank) : (s.modBank b f).windows = s.windows := rfl
@[simp] theorem State.modBank_drawList (s : State) (b : BankId) (f : Bank → Bank) : (s.modBank b f).drawList = s.drawList := rfl
@[simp] theorem State.modBank_queue (s : State) (b : BankId) (f : Bank → Bank) : (s.modBank b f).queue = s.queue := rfl
@[simp] theorem State.modBank_comps (s : State) (b : BankId) (f : Bank → Bank) : (s.modBank b f).comps = s.comps := rfl
@[simp] theorem State.modBank_lanes (s : State) (b : BankId) (f : Bank → Bank) : (s.modBank b f).lanes = s.lanes := rfl
@[simp] theorem State.modBank_cooling (s : State) (b : BankId) (f : Bank → Bank) : (s.modBank b f).cooling = s.cooling := rfl
@[simp] theorem State.modBank_work (s : State) (b : BankId) (f : Bank → Bank) : (s.modBank b f).work = s.work := rfl
@[simp] theorem State.modBank_store (s : State) (b : BankId) (f : Bank → Bank) : (s.modBank b f).store = s.store := rfl
@[simp] theorem State.modBank_groups (s : State) (b : BankId) (f : Bank → Bank) : (s.modBank b f).groups = s.groups := rfl
@[simp] theorem State.modBank_esd (s : State) (b : BankId) (f : Bank → Bank) : (s.modBank b f).esd = s.esd := rfl
@[simp] theorem State.modBank_tripped (s : State) (b : BankId) (f : Bank → Bank) : (s.modBank b f).tripped = s.tripped := rfl
@[simp] theorem State.modBank_ports (s : State) (b : BankId) (f : Bank → Bank) : (s.modBank b f).ports = s.ports := rfl
@[simp] theorem State.modBank_freeCtr (s : State) (b : BankId) (f : Bank → Bank) : (s.modBank b f).freeCtr = s.freeCtr := rfl
@[simp] theorem State.modBank_evt (s : State) (b : BankId) (f : Bank → Bank) : (s.modBank b f).evt = s.evt := rfl

/-! ### `State.modLane` -/

@[simp] theorem State.modLane_pending (s : State) (l : LaneId) (f : Lane → Lane) : (s.modLane l f).pending = s.pending := rfl
@[simp] theorem State.modLane_phase (s : State) (l : LaneId) (f : Lane → Lane) : (s.modLane l f).phase = s.phase := rfl
@[simp] theorem State.modLane_powerFresh (s : State) (l : LaneId) (f : Lane → Lane) : (s.modLane l f).powerFresh = s.powerFresh := rfl
@[simp] theorem State.modLane_pins (s : State) (l : LaneId) (f : Lane → Lane) : (s.modLane l f).pins = s.pins := rfl
@[simp] theorem State.modLane_rate (s : State) (l : LaneId) (f : Lane → Lane) : (s.modLane l f).rate = s.rate := rfl
@[simp] theorem State.modLane_clock (s : State) (l : LaneId) (f : Lane → Lane) : (s.modLane l f).clock = s.clock := rfl
@[simp] theorem State.modLane_tod (s : State) (l : LaneId) (f : Lane → Lane) : (s.modLane l f).tod = s.tod := rfl
@[simp] theorem State.modLane_oneSecond (s : State) (l : LaneId) (f : Lane → Lane) : (s.modLane l f).oneSecond = s.oneSecond := rfl
@[simp] theorem State.modLane_positions (s : State) (l : LaneId) (f : Lane → Lane) : (s.modLane l f).positions = s.positions := rfl
@[simp] theorem State.modLane_ambient (s : State) (l : LaneId) (f : Lane → Lane) : (s.modLane l f).ambient = s.ambient := rfl
@[simp] theorem State.modLane_rampTable (s : State) (l : LaneId) (f : Lane → Lane) : (s.modLane l f).rampTable = s.rampTable := rfl
@[simp] theorem State.modLane_switchMass (s : State) (l : LaneId) (f : Lane → Lane) : (s.modLane l f).switchMass = s.switchMass := rfl
@[simp] theorem State.modLane_creepLimit (s : State) (l : LaneId) (f : Lane → Lane) : (s.modLane l f).creepLimit = s.creepLimit := rfl
@[simp] theorem State.modLane_margin (s : State) (l : LaneId) (f : Lane → Lane) : (s.modLane l f).margin = s.margin := rfl
@[simp] theorem State.modLane_channels (s : State) (l : LaneId) (f : Lane → Lane) : (s.modLane l f).channels = s.channels := rfl
@[simp] theorem State.modLane_banks (s : State) (l : LaneId) (f : Lane → Lane) : (s.modLane l f).banks = s.banks := rfl
@[simp] theorem State.modLane_windows (s : State) (l : LaneId) (f : Lane → Lane) : (s.modLane l f).windows = s.windows := rfl
@[simp] theorem State.modLane_drawList (s : State) (l : LaneId) (f : Lane → Lane) : (s.modLane l f).drawList = s.drawList := rfl
@[simp] theorem State.modLane_queue (s : State) (l : LaneId) (f : Lane → Lane) : (s.modLane l f).queue = s.queue := rfl
@[simp] theorem State.modLane_comps (s : State) (l : LaneId) (f : Lane → Lane) : (s.modLane l f).comps = s.comps := rfl
@[simp] theorem State.modLane_cooling (s : State) (l : LaneId) (f : Lane → Lane) : (s.modLane l f).cooling = s.cooling := rfl
@[simp] theorem State.modLane_work (s : State) (l : LaneId) (f : Lane → Lane) : (s.modLane l f).work = s.work := rfl
@[simp] theorem State.modLane_store (s : State) (l : LaneId) (f : Lane → Lane) : (s.modLane l f).store = s.store := rfl
@[simp] theorem State.modLane_groups (s : State) (l : LaneId) (f : Lane → Lane) : (s.modLane l f).groups = s.groups := rfl
@[simp] theorem State.modLane_esd (s : State) (l : LaneId) (f : Lane → Lane) : (s.modLane l f).esd = s.esd := rfl
@[simp] theorem State.modLane_tripped (s : State) (l : LaneId) (f : Lane → Lane) : (s.modLane l f).tripped = s.tripped := rfl
@[simp] theorem State.modLane_ports (s : State) (l : LaneId) (f : Lane → Lane) : (s.modLane l f).ports = s.ports := rfl
@[simp] theorem State.modLane_freeCtr (s : State) (l : LaneId) (f : Lane → Lane) : (s.modLane l f).freeCtr = s.freeCtr := rfl
@[simp] theorem State.modLane_evt (s : State) (l : LaneId) (f : Lane → Lane) : (s.modLane l f).evt = s.evt := rfl

/-! ### `State.modComp` -/

@[simp] theorem State.modComp_pending (s : State) (c : CompId) (f : Compressor → Compressor) : (s.modComp c f).pending = s.pending := rfl
@[simp] theorem State.modComp_phase (s : State) (c : CompId) (f : Compressor → Compressor) : (s.modComp c f).phase = s.phase := rfl
@[simp] theorem State.modComp_powerFresh (s : State) (c : CompId) (f : Compressor → Compressor) : (s.modComp c f).powerFresh = s.powerFresh := rfl
@[simp] theorem State.modComp_pins (s : State) (c : CompId) (f : Compressor → Compressor) : (s.modComp c f).pins = s.pins := rfl
@[simp] theorem State.modComp_rate (s : State) (c : CompId) (f : Compressor → Compressor) : (s.modComp c f).rate = s.rate := rfl
@[simp] theorem State.modComp_clock (s : State) (c : CompId) (f : Compressor → Compressor) : (s.modComp c f).clock = s.clock := rfl
@[simp] theorem State.modComp_tod (s : State) (c : CompId) (f : Compressor → Compressor) : (s.modComp c f).tod = s.tod := rfl
@[simp] theorem State.modComp_oneSecond (s : State) (c : CompId) (f : Compressor → Compressor) : (s.modComp c f).oneSecond = s.oneSecond := rfl
@[simp] theorem State.modComp_positions (s : State) (c : CompId) (f : Compressor → Compressor) : (s.modComp c f).positions = s.positions := rfl
@[simp] theorem State.modComp_ambient (s : State) (c : CompId) (f : Compressor → Compressor) : (s.modComp c f).ambient = s.ambient := rfl
@[simp] theorem State.modComp_rampTable (s : State) (c : CompId) (f : Compressor → Compressor) : (s.modComp c f).rampTable = s.rampTable := rfl
@[simp] theorem State.modComp_switchMass (s : State) (c : CompId) (f : Compressor → Compressor) : (s.modComp c f).switchMass = s.switchMass := rfl
@[simp] theorem State.modComp_creepLimit (s : State) (c : CompId) (f : Compressor → Compressor) : (s.modComp c f).creepLimit = s.creepLimit := rfl
@[simp] theorem State.modComp_margin (s : State) (c : CompId) (f : Compressor → Compressor) : (s.modComp c f).margin = s.margin := rfl
@[simp] theorem State.modComp_channels (s : State) (c : CompId) (f : Compressor → Compressor) : (s.modComp c f).channels = s.channels := rfl
@[simp] theorem State.modComp_banks (s : State) (c : CompId) (f : Compressor → Compressor) : (s.modComp c f).banks = s.banks := rfl
@[simp] theorem State.modComp_windows (s : State) (c : CompId) (f : Compressor → Compressor) : (s.modComp c f).windows = s.windows := rfl
@[simp] theorem State.modComp_drawList (s : State) (c : CompId) (f : Compressor → Compressor) : (s.modComp c f).drawList = s.drawList := rfl
@[simp] theorem State.modComp_queue (s : State) (c : CompId) (f : Compressor → Compressor) : (s.modComp c f).queue = s.queue := rfl
@[simp] theorem State.modComp_lanes (s : State) (c : CompId) (f : Compressor → Compressor) : (s.modComp c f).lanes = s.lanes := rfl
@[simp] theorem State.modComp_cooling (s : State) (c : CompId) (f : Compressor → Compressor) : (s.modComp c f).cooling = s.cooling := rfl
@[simp] theorem State.modComp_work (s : State) (c : CompId) (f : Compressor → Compressor) : (s.modComp c f).work = s.work := rfl
@[simp] theorem State.modComp_store (s : State) (c : CompId) (f : Compressor → Compressor) : (s.modComp c f).store = s.store := rfl
@[simp] theorem State.modComp_groups (s : State) (c : CompId) (f : Compressor → Compressor) : (s.modComp c f).groups = s.groups := rfl
@[simp] theorem State.modComp_esd (s : State) (c : CompId) (f : Compressor → Compressor) : (s.modComp c f).esd = s.esd := rfl
@[simp] theorem State.modComp_tripped (s : State) (c : CompId) (f : Compressor → Compressor) : (s.modComp c f).tripped = s.tripped := rfl
@[simp] theorem State.modComp_ports (s : State) (c : CompId) (f : Compressor → Compressor) : (s.modComp c f).ports = s.ports := rfl
@[simp] theorem State.modComp_freeCtr (s : State) (c : CompId) (f : Compressor → Compressor) : (s.modComp c f).freeCtr = s.freeCtr := rfl
@[simp] theorem State.modComp_evt (s : State) (c : CompId) (f : Compressor → Compressor) : (s.modComp c f).evt = s.evt := rfl

/-! ### `State.modPort` -/

@[simp] theorem State.modPort_pending (s : State) (n : PortId) (f : Port → Port) : (s.modPort n f).pending = s.pending := rfl
@[simp] theorem State.modPort_phase (s : State) (n : PortId) (f : Port → Port) : (s.modPort n f).phase = s.phase := rfl
@[simp] theorem State.modPort_powerFresh (s : State) (n : PortId) (f : Port → Port) : (s.modPort n f).powerFresh = s.powerFresh := rfl
@[simp] theorem State.modPort_pins (s : State) (n : PortId) (f : Port → Port) : (s.modPort n f).pins = s.pins := rfl
@[simp] theorem State.modPort_rate (s : State) (n : PortId) (f : Port → Port) : (s.modPort n f).rate = s.rate := rfl
@[simp] theorem State.modPort_clock (s : State) (n : PortId) (f : Port → Port) : (s.modPort n f).clock = s.clock := rfl
@[simp] theorem State.modPort_tod (s : State) (n : PortId) (f : Port → Port) : (s.modPort n f).tod = s.tod := rfl
@[simp] theorem State.modPort_oneSecond (s : State) (n : PortId) (f : Port → Port) : (s.modPort n f).oneSecond = s.oneSecond := rfl
@[simp] theorem State.modPort_positions (s : State) (n : PortId) (f : Port → Port) : (s.modPort n f).positions = s.positions := rfl
@[simp] theorem State.modPort_ambient (s : State) (n : PortId) (f : Port → Port) : (s.modPort n f).ambient = s.ambient := rfl
@[simp] theorem State.modPort_rampTable (s : State) (n : PortId) (f : Port → Port) : (s.modPort n f).rampTable = s.rampTable := rfl
@[simp] theorem State.modPort_switchMass (s : State) (n : PortId) (f : Port → Port) : (s.modPort n f).switchMass = s.switchMass := rfl
@[simp] theorem State.modPort_creepLimit (s : State) (n : PortId) (f : Port → Port) : (s.modPort n f).creepLimit = s.creepLimit := rfl
@[simp] theorem State.modPort_margin (s : State) (n : PortId) (f : Port → Port) : (s.modPort n f).margin = s.margin := rfl
@[simp] theorem State.modPort_channels (s : State) (n : PortId) (f : Port → Port) : (s.modPort n f).channels = s.channels := rfl
@[simp] theorem State.modPort_banks (s : State) (n : PortId) (f : Port → Port) : (s.modPort n f).banks = s.banks := rfl
@[simp] theorem State.modPort_windows (s : State) (n : PortId) (f : Port → Port) : (s.modPort n f).windows = s.windows := rfl
@[simp] theorem State.modPort_drawList (s : State) (n : PortId) (f : Port → Port) : (s.modPort n f).drawList = s.drawList := rfl
@[simp] theorem State.modPort_queue (s : State) (n : PortId) (f : Port → Port) : (s.modPort n f).queue = s.queue := rfl
@[simp] theorem State.modPort_comps (s : State) (n : PortId) (f : Port → Port) : (s.modPort n f).comps = s.comps := rfl
@[simp] theorem State.modPort_lanes (s : State) (n : PortId) (f : Port → Port) : (s.modPort n f).lanes = s.lanes := rfl
@[simp] theorem State.modPort_cooling (s : State) (n : PortId) (f : Port → Port) : (s.modPort n f).cooling = s.cooling := rfl
@[simp] theorem State.modPort_work (s : State) (n : PortId) (f : Port → Port) : (s.modPort n f).work = s.work := rfl
@[simp] theorem State.modPort_store (s : State) (n : PortId) (f : Port → Port) : (s.modPort n f).store = s.store := rfl
@[simp] theorem State.modPort_groups (s : State) (n : PortId) (f : Port → Port) : (s.modPort n f).groups = s.groups := rfl
@[simp] theorem State.modPort_esd (s : State) (n : PortId) (f : Port → Port) : (s.modPort n f).esd = s.esd := rfl
@[simp] theorem State.modPort_tripped (s : State) (n : PortId) (f : Port → Port) : (s.modPort n f).tripped = s.tripped := rfl
@[simp] theorem State.modPort_freeCtr (s : State) (n : PortId) (f : Port → Port) : (s.modPort n f).freeCtr = s.freeCtr := rfl
@[simp] theorem State.modPort_evt (s : State) (n : PortId) (f : Port → Port) : (s.modPort n f).evt = s.evt := rfl

/-! ### `State.setSlot` -/

@[simp] theorem State.setSlot_pending (s : State) (i : SlotId) (x : Slot) : (s.setSlot i x).pending = s.pending := rfl
@[simp] theorem State.setSlot_phase (s : State) (i : SlotId) (x : Slot) : (s.setSlot i x).phase = s.phase := rfl
@[simp] theorem State.setSlot_powerFresh (s : State) (i : SlotId) (x : Slot) : (s.setSlot i x).powerFresh = s.powerFresh := rfl
@[simp] theorem State.setSlot_pins (s : State) (i : SlotId) (x : Slot) : (s.setSlot i x).pins = s.pins := rfl
@[simp] theorem State.setSlot_rate (s : State) (i : SlotId) (x : Slot) : (s.setSlot i x).rate = s.rate := rfl
@[simp] theorem State.setSlot_clock (s : State) (i : SlotId) (x : Slot) : (s.setSlot i x).clock = s.clock := rfl
@[simp] theorem State.setSlot_tod (s : State) (i : SlotId) (x : Slot) : (s.setSlot i x).tod = s.tod := rfl
@[simp] theorem State.setSlot_oneSecond (s : State) (i : SlotId) (x : Slot) : (s.setSlot i x).oneSecond = s.oneSecond := rfl
@[simp] theorem State.setSlot_positions (s : State) (i : SlotId) (x : Slot) : (s.setSlot i x).positions = s.positions := rfl
@[simp] theorem State.setSlot_ambient (s : State) (i : SlotId) (x : Slot) : (s.setSlot i x).ambient = s.ambient := rfl
@[simp] theorem State.setSlot_rampTable (s : State) (i : SlotId) (x : Slot) : (s.setSlot i x).rampTable = s.rampTable := rfl
@[simp] theorem State.setSlot_switchMass (s : State) (i : SlotId) (x : Slot) : (s.setSlot i x).switchMass = s.switchMass := rfl
@[simp] theorem State.setSlot_creepLimit (s : State) (i : SlotId) (x : Slot) : (s.setSlot i x).creepLimit = s.creepLimit := rfl
@[simp] theorem State.setSlot_margin (s : State) (i : SlotId) (x : Slot) : (s.setSlot i x).margin = s.margin := rfl
@[simp] theorem State.setSlot_channels (s : State) (i : SlotId) (x : Slot) : (s.setSlot i x).channels = s.channels := rfl
@[simp] theorem State.setSlot_banks (s : State) (i : SlotId) (x : Slot) : (s.setSlot i x).banks = s.banks := rfl
@[simp] theorem State.setSlot_windows (s : State) (i : SlotId) (x : Slot) : (s.setSlot i x).windows = s.windows := rfl
@[simp] theorem State.setSlot_drawList (s : State) (i : SlotId) (x : Slot) : (s.setSlot i x).drawList = s.drawList := rfl
@[simp] theorem State.setSlot_queue (s : State) (i : SlotId) (x : Slot) : (s.setSlot i x).queue = s.queue := rfl
@[simp] theorem State.setSlot_comps (s : State) (i : SlotId) (x : Slot) : (s.setSlot i x).comps = s.comps := rfl
@[simp] theorem State.setSlot_lanes (s : State) (i : SlotId) (x : Slot) : (s.setSlot i x).lanes = s.lanes := rfl
@[simp] theorem State.setSlot_cooling (s : State) (i : SlotId) (x : Slot) : (s.setSlot i x).cooling = s.cooling := rfl
@[simp] theorem State.setSlot_store (s : State) (i : SlotId) (x : Slot) : (s.setSlot i x).store = s.store := rfl
@[simp] theorem State.setSlot_groups (s : State) (i : SlotId) (x : Slot) : (s.setSlot i x).groups = s.groups := rfl
@[simp] theorem State.setSlot_esd (s : State) (i : SlotId) (x : Slot) : (s.setSlot i x).esd = s.esd := rfl
@[simp] theorem State.setSlot_tripped (s : State) (i : SlotId) (x : Slot) : (s.setSlot i x).tripped = s.tripped := rfl
@[simp] theorem State.setSlot_ports (s : State) (i : SlotId) (x : Slot) : (s.setSlot i x).ports = s.ports := rfl
@[simp] theorem State.setSlot_freeCtr (s : State) (i : SlotId) (x : Slot) : (s.setSlot i x).freeCtr = s.freeCtr := rfl
@[simp] theorem State.setSlot_evt (s : State) (i : SlotId) (x : Slot) : (s.setSlot i x).evt = s.evt := rfl

/-! ### Reading a record after an update of the same kind -/

@[simp] theorem State.setPos_pos (s : State) (p : PosId) (x : Position) : (s.setPos p x).pos p = x := by
  simp [State.setPos, State.pos]
theorem State.setPos_pos_ne (s : State) (p q : PosId) (x : Position) (h : q ≠ p) : (s.setPos p x).pos q = s.pos q := by
  have h' : p.val ≠ q.val := fun e => h (Fin.ext e.symm)
  simp [State.setPos, State.pos, h']
@[simp] theorem State.modPos_pos (s : State) (p : PosId) (f : Position → Position) : (s.modPos p f).pos p = f (s.pos p) := by
  simp [State.modPos]
theorem State.modPos_pos_ne (s : State) (p q : PosId) (f : Position → Position) (h : q ≠ p) : (s.modPos p f).pos q = s.pos q := by
  simp [State.modPos, State.setPos_pos_ne s p q _ h]

@[simp] theorem State.setChan_chan (s : State) (p : PosId) (x : Channel) : (s.setChan p x).chan p = x := by
  simp [State.setChan, State.chan]
theorem State.setChan_chan_ne (s : State) (p q : PosId) (x : Channel) (h : q ≠ p) : (s.setChan p x).chan q = s.chan q := by
  have h' : p.val ≠ q.val := fun e => h (Fin.ext e.symm)
  simp [State.setChan, State.chan, h']
@[simp] theorem State.modChan_chan (s : State) (p : PosId) (f : Channel → Channel) : (s.modChan p f).chan p = f (s.chan p) := by
  simp [State.modChan]
theorem State.modChan_chan_ne (s : State) (p q : PosId) (f : Channel → Channel) (h : q ≠ p) : (s.modChan p f).chan q = s.chan q := by
  simp [State.modChan, State.setChan_chan_ne s p q _ h]

@[simp] theorem State.setBank_bank (s : State) (p : BankId) (x : Bank) : (s.setBank p x).bank p = x := by
  simp [State.setBank, State.bank]
theorem State.setBank_bank_ne (s : State) (p q : BankId) (x : Bank) (h : q ≠ p) : (s.setBank p x).bank q = s.bank q := by
  have h' : p.val ≠ q.val := fun e => h (Fin.ext e.symm)
  simp [State.setBank, State.bank, h']
@[simp] theorem State.modBank_bank (s : State) (p : BankId) (f : Bank → Bank) : (s.modBank p f).bank p = f (s.bank p) := by
  simp [State.modBank]
theorem State.modBank_bank_ne (s : State) (p q : BankId) (f : Bank → Bank) (h : q ≠ p) : (s.modBank p f).bank q = s.bank q := by
  simp [State.modBank, State.setBank_bank_ne s p q _ h]

@[simp] theorem State.setLane_lane (s : State) (p : LaneId) (x : Lane) : (s.setLane p x).lane p = x := by
  simp [State.setLane, State.lane]
theorem State.setLane_lane_ne (s : State) (p q : LaneId) (x : Lane) (h : q ≠ p) : (s.setLane p x).lane q = s.lane q := by
  have h' : p.val ≠ q.val := fun e => h (Fin.ext e.symm)
  simp [State.setLane, State.lane, h']
@[simp] theorem State.modLane_lane (s : State) (p : LaneId) (f : Lane → Lane) : (s.modLane p f).lane p = f (s.lane p) := by
  simp [State.modLane]
theorem State.modLane_lane_ne (s : State) (p q : LaneId) (f : Lane → Lane) (h : q ≠ p) : (s.modLane p f).lane q = s.lane q := by
  simp [State.modLane, State.setLane_lane_ne s p q _ h]

@[simp] theorem State.setComp_comp (s : State) (p : CompId) (x : Compressor) : (s.setComp p x).comp p = x := by
  simp [State.setComp, State.comp]
theorem State.setComp_comp_ne (s : State) (p q : CompId) (x : Compressor) (h : q ≠ p) : (s.setComp p x).comp q = s.comp q := by
  have h' : p.val ≠ q.val := fun e => h (Fin.ext e.symm)
  simp [State.setComp, State.comp, h']
@[simp] theorem State.modComp_comp (s : State) (p : CompId) (f : Compressor → Compressor) : (s.modComp p f).comp p = f (s.comp p) := by
  simp [State.modComp]
theorem State.modComp_comp_ne (s : State) (p q : CompId) (f : Compressor → Compressor) (h : q ≠ p) : (s.modComp p f).comp q = s.comp q := by
  simp [State.modComp, State.setComp_comp_ne s p q _ h]

@[simp] theorem State.setPort_port (s : State) (p : PortId) (x : Port) : (s.setPort p x).port p = x := by
  simp [State.setPort, State.port]
theorem State.setPort_port_ne (s : State) (p q : PortId) (x : Port) (h : q ≠ p) : (s.setPort p x).port q = s.port q := by
  have h' : p.val ≠ q.val := fun e => h (Fin.ext e.symm)
  simp [State.setPort, State.port, h']
@[simp] theorem State.modPort_port (s : State) (p : PortId) (f : Port → Port) : (s.modPort p f).port p = f (s.port p) := by
  simp [State.modPort]
theorem State.modPort_port_ne (s : State) (p q : PortId) (f : Port → Port) (h : q ≠ p) : (s.modPort p f).port q = s.port q := by
  simp [State.modPort, State.setPort_port_ne s p q _ h]

/-! ### Reading a record after an update of another kind -/

@[simp] theorem State.setPos_chan' (s : State) (p : PosId) (x : Position) (q : PosId) : (s.setPos p x).chan q = s.chan q := rfl
@[simp] theorem State.setPos_bank' (s : State) (p : PosId) (x : Position) (q : BankId) : (s.setPos p x).bank q = s.bank q := rfl
@[simp] theorem State.setPos_lane' (s : State) (p : PosId) (x : Position) (q : LaneId) : (s.setPos p x).lane q = s.lane q := rfl
@[simp] theorem State.setPos_comp' (s : State) (p : PosId) (x : Position) (q : CompId) : (s.setPos p x).comp q = s.comp q := rfl
@[simp] theorem State.setPos_port' (s : State) (p : PosId) (x : Position) (q : PortId) : (s.setPos p x).port q = s.port q := rfl
@[simp] theorem State.setPos_grantOf (s : State) (p : PosId) (x : Position) (r : Requester) : (s.setPos p x).grantOf r = s.grantOf r := by
  cases r <;> rfl
@[simp] theorem State.setPos_slot (s : State) (p : PosId) (x : Position) (i : SlotId) : (s.setPos p x).slot i = s.slot i := rfl
@[simp] theorem State.setPos_openSlot (s : State) (p : PosId) (x : Position) (q : PosId) : (s.setPos p x).openSlot q = s.openSlot q := rfl
@[simp] theorem State.setPos_openRecord (s : State) (p : PosId) (x : Position) (q : PosId) : (s.setPos p x).openRecord q = s.openRecord q := rfl

@[simp] theorem State.setChan_pos' (s : State) (p : PosId) (x : Channel) (q : PosId) : (s.setChan p x).pos q = s.pos q := rfl
@[simp] theorem State.setChan_bank' (s : State) (p : PosId) (x : Channel) (q : BankId) : (s.setChan p x).bank q = s.bank q := rfl
@[simp] theorem State.setChan_lane' (s : State) (p : PosId) (x : Channel) (q : LaneId) : (s.setChan p x).lane q = s.lane q := rfl
@[simp] theorem State.setChan_comp' (s : State) (p : PosId) (x : Channel) (q : CompId) : (s.setChan p x).comp q = s.comp q := rfl
@[simp] theorem State.setChan_port' (s : State) (p : PosId) (x : Channel) (q : PortId) : (s.setChan p x).port q = s.port q := rfl
@[simp] theorem State.setChan_grantOf (s : State) (p : PosId) (x : Channel) (r : Requester) : (s.setChan p x).grantOf r = s.grantOf r := by
  cases r <;> rfl
@[simp] theorem State.setChan_slot (s : State) (p : PosId) (x : Channel) (i : SlotId) : (s.setChan p x).slot i = s.slot i := rfl
@[simp] theorem State.setChan_openSlot (s : State) (p : PosId) (x : Channel) (q : PosId) : (s.setChan p x).openSlot q = s.openSlot q := rfl
@[simp] theorem State.setChan_openRecord (s : State) (p : PosId) (x : Channel) (q : PosId) : (s.setChan p x).openRecord q = s.openRecord q := rfl

@[simp] theorem State.setBank_pos' (s : State) (b : BankId) (x : Bank) (q : PosId) : (s.setBank b x).pos q = s.pos q := rfl
@[simp] theorem State.setBank_chan' (s : State) (b : BankId) (x : Bank) (q : PosId) : (s.setBank b x).chan q = s.chan q := rfl
@[simp] theorem State.setBank_lane' (s : State) (b : BankId) (x : Bank) (q : LaneId) : (s.setBank b x).lane q = s.lane q := rfl
@[simp] theorem State.setBank_comp' (s : State) (b : BankId) (x : Bank) (q : CompId) : (s.setBank b x).comp q = s.comp q := rfl
@[simp] theorem State.setBank_port' (s : State) (b : BankId) (x : Bank) (q : PortId) : (s.setBank b x).port q = s.port q := rfl
@[simp] theorem State.setBank_grantOf (s : State) (b : BankId) (x : Bank) (r : Requester) : (s.setBank b x).grantOf r = s.grantOf r := by
  cases r <;> rfl
@[simp] theorem State.setBank_slot (s : State) (b : BankId) (x : Bank) (i : SlotId) : (s.setBank b x).slot i = s.slot i := rfl
@[simp] theorem State.setBank_openSlot (s : State) (b : BankId) (x : Bank) (q : PosId) : (s.setBank b x).openSlot q = s.openSlot q := rfl
@[simp] theorem State.setBank_openRecord (s : State) (b : BankId) (x : Bank) (q : PosId) : (s.setBank b x).openRecord q = s.openRecord q := rfl

@[simp] theorem State.setLane_pos' (s : State) (l : LaneId) (x : Lane) (q : PosId) : (s.setLane l x).pos q = s.pos q := rfl
@[simp] theorem State.setLane_chan' (s : State) (l : LaneId) (x : Lane) (q : PosId) : (s.setLane l x).chan q = s.chan q := rfl
@[simp] theorem State.setLane_bank' (s : State) (l : LaneId) (x : Lane) (q : BankId) : (s.setLane l x).bank q = s.bank q := rfl
@[simp] theorem State.setLane_comp' (s : State) (l : LaneId) (x : Lane) (q : CompId) : (s.setLane l x).comp q = s.comp q := rfl
@[simp] theorem State.setLane_port' (s : State) (l : LaneId) (x : Lane) (q : PortId) : (s.setLane l x).port q = s.port q := rfl
@[simp] theorem State.setLane_grantOf (s : State) (l : LaneId) (x : Lane) (r : Requester) : (s.setLane l x).grantOf r = s.grantOf r := by
  cases r <;> rfl
@[simp] theorem State.setLane_slot (s : State) (l : LaneId) (x : Lane) (i : SlotId) : (s.setLane l x).slot i = s.slot i := rfl
@[simp] theorem State.setLane_openSlot (s : State) (l : LaneId) (x : Lane) (q : PosId) : (s.setLane l x).openSlot q = s.openSlot q := rfl
@[simp] theorem State.setLane_openRecord (s : State) (l : LaneId) (x : Lane) (q : PosId) : (s.setLane l x).openRecord q = s.openRecord q := rfl

@[simp] theorem State.setComp_pos' (s : State) (c : CompId) (x : Compressor) (q : PosId) : (s.setComp c x).pos q = s.pos q := rfl
@[simp] theorem State.setComp_chan' (s : State) (c : CompId) (x : Compressor) (q : PosId) : (s.setComp c x).chan q = s.chan q := rfl
@[simp] theorem State.setComp_bank' (s : State) (c : CompId) (x : Compressor) (q : BankId) : (s.setComp c x).bank q = s.bank q := rfl
@[simp] theorem State.setComp_lane' (s : State) (c : CompId) (x : Compressor) (q : LaneId) : (s.setComp c x).lane q = s.lane q := rfl
@[simp] theorem State.setComp_port' (s : State) (c : CompId) (x : Compressor) (q : PortId) : (s.setComp c x).port q = s.port q := rfl
@[simp] theorem State.setComp_grantOf (s : State) (c : CompId) (x : Compressor) (r : Requester) : (s.setComp c x).grantOf r = s.grantOf r := by
  cases r <;> rfl
@[simp] theorem State.setComp_slot (s : State) (c : CompId) (x : Compressor) (i : SlotId) : (s.setComp c x).slot i = s.slot i := rfl
@[simp] theorem State.setComp_openSlot (s : State) (c : CompId) (x : Compressor) (q : PosId) : (s.setComp c x).openSlot q = s.openSlot q := rfl
@[simp] theorem State.setComp_openRecord (s : State) (c : CompId) (x : Compressor) (q : PosId) : (s.setComp c x).openRecord q = s.openRecord q := rfl

@[simp] theorem State.setPort_pos' (s : State) (n : PortId) (x : Port) (q : PosId) : (s.setPort n x).pos q = s.pos q := rfl
@[simp] theorem State.setPort_chan' (s : State) (n : PortId) (x : Port) (q : PosId) : (s.setPort n x).chan q = s.chan q := rfl
@[simp] theorem State.setPort_bank' (s : State) (n : PortId) (x : Port) (q : BankId) : (s.setPort n x).bank q = s.bank q := rfl
@[simp] theorem State.setPort_lane' (s : State) (n : PortId) (x : Port) (q : LaneId) : (s.setPort n x).lane q = s.lane q := rfl
@[simp] theorem State.setPort_comp' (s : State) (n : PortId) (x : Port) (q : CompId) : (s.setPort n x).comp q = s.comp q := rfl
@[simp] theorem State.setPort_grantOf (s : State) (n : PortId) (x : Port) (r : Requester) : (s.setPort n x).grantOf r = s.grantOf r := by
  cases r <;> rfl
@[simp] theorem State.setPort_slot (s : State) (n : PortId) (x : Port) (i : SlotId) : (s.setPort n x).slot i = s.slot i := rfl
@[simp] theorem State.setPort_openSlot (s : State) (n : PortId) (x : Port) (q : PosId) : (s.setPort n x).openSlot q = s.openSlot q := rfl
@[simp] theorem State.setPort_openRecord (s : State) (n : PortId) (x : Port) (q : PosId) : (s.setPort n x).openRecord q = s.openRecord q := rfl

@[simp] theorem State.modPos_chan' (s : State) (p : PosId) (f : Position → Position) (q : PosId) : (s.modPos p f).chan q = s.chan q := rfl
@[simp] theorem State.modPos_bank' (s : State) (p : PosId) (f : Position → Position) (q : BankId) : (s.modPos p f).bank q = s.bank q := rfl
@[simp] theorem State.modPos_lane' (s : State) (p : PosId) (f : Position → Position) (q : LaneId) : (s.modPos p f).lane q = s.lane q := rfl
@[simp] theorem State.modPos_comp' (s : State) (p : PosId) (f : Position → Position) (q : CompId) : (s.modPos p f).comp q = s.comp q := rfl
@[simp] theorem State.modPos_port' (s : State) (p : PosId) (f : Position → Position) (q : PortId) : (s.modPos p f).port q = s.port q := rfl
@[simp] theorem State.modPos_grantOf (s : State) (p : PosId) (f : Position → Position) (r : Requester) : (s.modPos p f).grantOf r = s.grantOf r := by
  cases r <;> rfl
@[simp] theorem State.modPos_slot (s : State) (p : PosId) (f : Position → Position) (i : SlotId) : (s.modPos p f).slot i = s.slot i := rfl
@[simp] theorem State.modPos_openSlot (s : State) (p : PosId) (f : Position → Position) (q : PosId) : (s.modPos p f).openSlot q = s.openSlot q := rfl
@[simp] theorem State.modPos_openRecord (s : State) (p : PosId) (f : Position → Position) (q : PosId) : (s.modPos p f).openRecord q = s.openRecord q := rfl

@[simp] theorem State.modChan_pos' (s : State) (p : PosId) (f : Channel → Channel) (q : PosId) : (s.modChan p f).pos q = s.pos q := rfl
@[simp] theorem State.modChan_bank' (s : State) (p : PosId) (f : Channel → Channel) (q : BankId) : (s.modChan p f).bank q = s.bank q := rfl
@[simp] theorem State.modChan_lane' (s : State) (p : PosId) (f : Channel → Channel) (q : LaneId) : (s.modChan p f).lane q = s.lane q := rfl
@[simp] theorem State.modChan_comp' (s : State) (p : PosId) (f : Channel → Channel) (q : CompId) : (s.modChan p f).comp q = s.comp q := rfl
@[simp] theorem State.modChan_port' (s : State) (p : PosId) (f : Channel → Channel) (q : PortId) : (s.modChan p f).port q = s.port q := rfl
@[simp] theorem State.modChan_grantOf (s : State) (p : PosId) (f : Channel → Channel) (r : Requester) : (s.modChan p f).grantOf r = s.grantOf r := by
  cases r <;> rfl
@[simp] theorem State.modChan_slot (s : State) (p : PosId) (f : Channel → Channel) (i : SlotId) : (s.modChan p f).slot i = s.slot i := rfl
@[simp] theorem State.modChan_openSlot (s : State) (p : PosId) (f : Channel → Channel) (q : PosId) : (s.modChan p f).openSlot q = s.openSlot q := rfl
@[simp] theorem State.modChan_openRecord (s : State) (p : PosId) (f : Channel → Channel) (q : PosId) : (s.modChan p f).openRecord q = s.openRecord q := rfl

@[simp] theorem State.modBank_pos' (s : State) (b : BankId) (f : Bank → Bank) (q : PosId) : (s.modBank b f).pos q = s.pos q := rfl
@[simp] theorem State.modBank_chan' (s : State) (b : BankId) (f : Bank → Bank) (q : PosId) : (s.modBank b f).chan q = s.chan q := rfl
@[simp] theorem State.modBank_lane' (s : State) (b : BankId) (f : Bank → Bank) (q : LaneId) : (s.modBank b f).lane q = s.lane q := rfl
@[simp] theorem State.modBank_comp' (s : State) (b : BankId) (f : Bank → Bank) (q : CompId) : (s.modBank b f).comp q = s.comp q := rfl
@[simp] theorem State.modBank_port' (s : State) (b : BankId) (f : Bank → Bank) (q : PortId) : (s.modBank b f).port q = s.port q := rfl
@[simp] theorem State.modBank_grantOf (s : State) (b : BankId) (f : Bank → Bank) (r : Requester) : (s.modBank b f).grantOf r = s.grantOf r := by
  cases r <;> rfl
@[simp] theorem State.modBank_slot (s : State) (b : BankId) (f : Bank → Bank) (i : SlotId) : (s.modBank b f).slot i = s.slot i := rfl
@[simp] theorem State.modBank_openSlot (s : State) (b : BankId) (f : Bank → Bank) (q : PosId) : (s.modBank b f).openSlot q = s.openSlot q := rfl
@[simp] theorem State.modBank_openRecord (s : State) (b : BankId) (f : Bank → Bank) (q : PosId) : (s.modBank b f).openRecord q = s.openRecord q := rfl

@[simp] theorem State.modLane_pos' (s : State) (l : LaneId) (f : Lane → Lane) (q : PosId) : (s.modLane l f).pos q = s.pos q := rfl
@[simp] theorem State.modLane_chan' (s : State) (l : LaneId) (f : Lane → Lane) (q : PosId) : (s.modLane l f).chan q = s.chan q := rfl
@[simp] theorem State.modLane_bank' (s : State) (l : LaneId) (f : Lane → Lane) (q : BankId) : (s.modLane l f).bank q = s.bank q := rfl
@[simp] theorem State.modLane_comp' (s : State) (l : LaneId) (f : Lane → Lane) (q : CompId) : (s.modLane l f).comp q = s.comp q := rfl
@[simp] theorem State.modLane_port' (s : State) (l : LaneId) (f : Lane → Lane) (q : PortId) : (s.modLane l f).port q = s.port q := rfl
@[simp] theorem State.modLane_grantOf (s : State) (l : LaneId) (f : Lane → Lane) (r : Requester) : (s.modLane l f).grantOf r = s.grantOf r := by
  cases r <;> rfl
@[simp] theorem State.modLane_slot (s : State) (l : LaneId) (f : Lane → Lane) (i : SlotId) : (s.modLane l f).slot i = s.slot i := rfl
@[simp] theorem State.modLane_openSlot (s : State) (l : LaneId) (f : Lane → Lane) (q : PosId) : (s.modLane l f).openSlot q = s.openSlot q := rfl
@[simp] theorem State.modLane_openRecord (s : State) (l : LaneId) (f : Lane → Lane) (q : PosId) : (s.modLane l f).openRecord q = s.openRecord q := rfl

@[simp] theorem State.modComp_pos' (s : State) (c : CompId) (f : Compressor → Compressor) (q : PosId) : (s.modComp c f).pos q = s.pos q := rfl
@[simp] theorem State.modComp_chan' (s : State) (c : CompId) (f : Compressor → Compressor) (q : PosId) : (s.modComp c f).chan q = s.chan q := rfl
@[simp] theorem State.modComp_bank' (s : State) (c : CompId) (f : Compressor → Compressor) (q : BankId) : (s.modComp c f).bank q = s.bank q := rfl
@[simp] theorem State.modComp_lane' (s : State) (c : CompId) (f : Compressor → Compressor) (q : LaneId) : (s.modComp c f).lane q = s.lane q := rfl
@[simp] theorem State.modComp_port' (s : State) (c : CompId) (f : Compressor → Compressor) (q : PortId) : (s.modComp c f).port q = s.port q := rfl
@[simp] theorem State.modComp_grantOf (s : State) (c : CompId) (f : Compressor → Compressor) (r : Requester) : (s.modComp c f).grantOf r = s.grantOf r := by
  cases r <;> rfl
@[simp] theorem State.modComp_slot (s : State) (c : CompId) (f : Compressor → Compressor) (i : SlotId) : (s.modComp c f).slot i = s.slot i := rfl
@[simp] theorem State.modComp_openSlot (s : State) (c : CompId) (f : Compressor → Compressor) (q : PosId) : (s.modComp c f).openSlot q = s.openSlot q := rfl
@[simp] theorem State.modComp_openRecord (s : State) (c : CompId) (f : Compressor → Compressor) (q : PosId) : (s.modComp c f).openRecord q = s.openRecord q := rfl

@[simp] theorem State.modPort_pos' (s : State) (n : PortId) (f : Port → Port) (q : PosId) : (s.modPort n f).pos q = s.pos q := rfl
@[simp] theorem State.modPort_chan' (s : State) (n : PortId) (f : Port → Port) (q : PosId) : (s.modPort n f).chan q = s.chan q := rfl
@[simp] theorem State.modPort_bank' (s : State) (n : PortId) (f : Port → Port) (q : BankId) : (s.modPort n f).bank q = s.bank q := rfl
@[simp] theorem State.modPort_lane' (s : State) (n : PortId) (f : Port → Port) (q : LaneId) : (s.modPort n f).lane q = s.lane q := rfl
@[simp] theorem State.modPort_comp' (s : State) (n : PortId) (f : Port → Port) (q : CompId) : (s.modPort n f).comp q = s.comp q := rfl
@[simp] theorem State.modPort_grantOf (s : State) (n : PortId) (f : Port → Port) (r : Requester) : (s.modPort n f).grantOf r = s.grantOf r := by
  cases r <;> rfl
@[simp] theorem State.modPort_slot (s : State) (n : PortId) (f : Port → Port) (i : SlotId) : (s.modPort n f).slot i = s.slot i := rfl
@[simp] theorem State.modPort_openSlot (s : State) (n : PortId) (f : Port → Port) (q : PosId) : (s.modPort n f).openSlot q = s.openSlot q := rfl
@[simp] theorem State.modPort_openRecord (s : State) (n : PortId) (f : Port → Port) (q : PosId) : (s.modPort n f).openRecord q = s.openRecord q := rfl

@[simp] theorem State.setSlot_pos' (s : State) (i : SlotId) (x : Slot) (q : PosId) : (s.setSlot i x).pos q = s.pos q := rfl
@[simp] theorem State.setSlot_chan' (s : State) (i : SlotId) (x : Slot) (q : PosId) : (s.setSlot i x).chan q = s.chan q := rfl
@[simp] theorem State.setSlot_bank' (s : State) (i : SlotId) (x : Slot) (q : BankId) : (s.setSlot i x).bank q = s.bank q := rfl
@[simp] theorem State.setSlot_lane' (s : State) (i : SlotId) (x : Slot) (q : LaneId) : (s.setSlot i x).lane q = s.lane q := rfl
@[simp] theorem State.setSlot_comp' (s : State) (i : SlotId) (x : Slot) (q : CompId) : (s.setSlot i x).comp q = s.comp q := rfl
@[simp] theorem State.setSlot_port' (s : State) (i : SlotId) (x : Slot) (q : PortId) : (s.setSlot i x).port q = s.port q := rfl
@[simp] theorem State.setSlot_grantOf (s : State) (i : SlotId) (x : Slot) (r : Requester) : (s.setSlot i x).grantOf r = s.grantOf r := by
  cases r <;> rfl

/-! ### `State.setGrantOf` -/

@[simp] theorem State.setGrantOf_pending (s : State) (r : Requester) (x : GrantEntry) : (s.setGrantOf r x).pending = s.pending := by
  cases r <;> rfl
@[simp] theorem State.setGrantOf_phase (s : State) (r : Requester) (x : GrantEntry) : (s.setGrantOf r x).phase = s.phase := by
  cases r <;> rfl
@[simp] theorem State.setGrantOf_powerFresh (s : State) (r : Requester) (x : GrantEntry) : (s.setGrantOf r x).powerFresh = s.powerFresh := by
  cases r <;> rfl
@[simp] theorem State.setGrantOf_pins (s : State) (r : Requester) (x : GrantEntry) : (s.setGrantOf r x).pins = s.pins := by
  cases r <;> rfl
@[simp] theorem State.setGrantOf_rate (s : State) (r : Requester) (x : GrantEntry) : (s.setGrantOf r x).rate = s.rate := by
  cases r <;> rfl
@[simp] theorem State.setGrantOf_clock (s : State) (r : Requester) (x : GrantEntry) : (s.setGrantOf r x).clock = s.clock := by
  cases r <;> rfl
@[simp] theorem State.setGrantOf_tod (s : State) (r : Requester) (x : GrantEntry) : (s.setGrantOf r x).tod = s.tod := by
  cases r <;> rfl
@[simp] theorem State.setGrantOf_oneSecond (s : State) (r : Requester) (x : GrantEntry) : (s.setGrantOf r x).oneSecond = s.oneSecond := by
  cases r <;> rfl
@[simp] theorem State.setGrantOf_positions (s : State) (r : Requester) (x : GrantEntry) : (s.setGrantOf r x).positions = s.positions := by
  cases r <;> rfl
@[simp] theorem State.setGrantOf_ambient (s : State) (r : Requester) (x : GrantEntry) : (s.setGrantOf r x).ambient = s.ambient := by
  cases r <;> rfl
@[simp] theorem State.setGrantOf_rampTable (s : State) (r : Requester) (x : GrantEntry) : (s.setGrantOf r x).rampTable = s.rampTable := by
  cases r <;> rfl
@[simp] theorem State.setGrantOf_switchMass (s : State) (r : Requester) (x : GrantEntry) : (s.setGrantOf r x).switchMass = s.switchMass := by
  cases r <;> rfl
@[simp] theorem State.setGrantOf_creepLimit (s : State) (r : Requester) (x : GrantEntry) : (s.setGrantOf r x).creepLimit = s.creepLimit := by
  cases r <;> rfl
@[simp] theorem State.setGrantOf_margin (s : State) (r : Requester) (x : GrantEntry) : (s.setGrantOf r x).margin = s.margin := by
  cases r <;> rfl
@[simp] theorem State.setGrantOf_channels (s : State) (r : Requester) (x : GrantEntry) : (s.setGrantOf r x).channels = s.channels := by
  cases r <;> rfl
@[simp] theorem State.setGrantOf_banks (s : State) (r : Requester) (x : GrantEntry) : (s.setGrantOf r x).banks = s.banks := by
  cases r <;> rfl
@[simp] theorem State.setGrantOf_windows (s : State) (r : Requester) (x : GrantEntry) : (s.setGrantOf r x).windows = s.windows := by
  cases r <;> rfl
@[simp] theorem State.setGrantOf_drawList (s : State) (r : Requester) (x : GrantEntry) : (s.setGrantOf r x).drawList = s.drawList := by
  cases r <;> rfl
@[simp] theorem State.setGrantOf_queue (s : State) (r : Requester) (x : GrantEntry) : (s.setGrantOf r x).queue = s.queue := by
  cases r <;> rfl
@[simp] theorem State.setGrantOf_comps (s : State) (r : Requester) (x : GrantEntry) : (s.setGrantOf r x).comps = s.comps := by
  cases r <;> rfl
@[simp] theorem State.setGrantOf_lanes (s : State) (r : Requester) (x : GrantEntry) : (s.setGrantOf r x).lanes = s.lanes := by
  cases r <;> rfl
@[simp] theorem State.setGrantOf_work (s : State) (r : Requester) (x : GrantEntry) : (s.setGrantOf r x).work = s.work := by
  cases r <;> rfl
@[simp] theorem State.setGrantOf_store (s : State) (r : Requester) (x : GrantEntry) : (s.setGrantOf r x).store = s.store := by
  cases r <;> rfl
@[simp] theorem State.setGrantOf_groups (s : State) (r : Requester) (x : GrantEntry) : (s.setGrantOf r x).groups = s.groups := by
  cases r <;> rfl
@[simp] theorem State.setGrantOf_esd (s : State) (r : Requester) (x : GrantEntry) : (s.setGrantOf r x).esd = s.esd := by
  cases r <;> rfl
@[simp] theorem State.setGrantOf_tripped (s : State) (r : Requester) (x : GrantEntry) : (s.setGrantOf r x).tripped = s.tripped := by
  cases r <;> rfl
@[simp] theorem State.setGrantOf_ports (s : State) (r : Requester) (x : GrantEntry) : (s.setGrantOf r x).ports = s.ports := by
  cases r <;> rfl
@[simp] theorem State.setGrantOf_freeCtr (s : State) (r : Requester) (x : GrantEntry) : (s.setGrantOf r x).freeCtr = s.freeCtr := by
  cases r <;> rfl
@[simp] theorem State.setGrantOf_evt (s : State) (r : Requester) (x : GrantEntry) : (s.setGrantOf r x).evt = s.evt := by
  cases r <;> rfl
@[simp] theorem State.setGrantOf_cooling_capacity (s : State) (r : Requester) (x : GrantEntry) :
    (s.setGrantOf r x).cooling.capacity = s.cooling.capacity := by
  cases r <;> rfl
@[simp] theorem State.setGrantOf_cooling_sensorRange (s : State) (r : Requester) (x : GrantEntry) :
    (s.setGrantOf r x).cooling.sensorRange = s.cooling.sensorRange := by
  cases r <;> rfl
@[simp] theorem State.setGrantOf_cooling_order (s : State) (r : Requester) (x : GrantEntry) :
    (s.setGrantOf r x).cooling.order = s.cooling.order := by
  cases r <;> rfl
@[simp] theorem State.setGrantOf_cooling_wait (s : State) (r : Requester) (x : GrantEntry) :
    (s.setGrantOf r x).cooling.wait = s.cooling.wait := by
  cases r <;> rfl
@[simp] theorem State.setGrantOf_pos (s : State) (r : Requester) (x : GrantEntry) (q : PosId) :
    (s.setGrantOf r x).pos q = s.pos q := by
  cases r <;> rfl
@[simp] theorem State.setGrantOf_chan (s : State) (r : Requester) (x : GrantEntry) (q : PosId) :
    (s.setGrantOf r x).chan q = s.chan q := by
  cases r <;> rfl
@[simp] theorem State.setGrantOf_bank (s : State) (r : Requester) (x : GrantEntry) (q : BankId) :
    (s.setGrantOf r x).bank q = s.bank q := by
  cases r <;> rfl
@[simp] theorem State.setGrantOf_lane (s : State) (r : Requester) (x : GrantEntry) (q : LaneId) :
    (s.setGrantOf r x).lane q = s.lane q := by
  cases r <;> rfl
@[simp] theorem State.setGrantOf_comp (s : State) (r : Requester) (x : GrantEntry) (q : CompId) :
    (s.setGrantOf r x).comp q = s.comp q := by
  cases r <;> rfl
@[simp] theorem State.setGrantOf_port (s : State) (r : Requester) (x : GrantEntry) (q : PortId) :
    (s.setGrantOf r x).port q = s.port q := by
  cases r <;> rfl
@[simp] theorem State.setGrantOf_grantOf (s : State) (r : Requester) (x : GrantEntry) :
    (s.setGrantOf r x).grantOf r = x := by
  cases r <;> simp [State.setGrantOf, State.grantOf]
theorem State.setGrantOf_grantOf_ne (s : State) (r q : Requester) (x : GrantEntry) (h : q ≠ r) :
    (s.setGrantOf r x).grantOf q = s.grantOf q := by
  cases r with
  | pos a =>
    cases q with
    | pos b =>
      have h' : a.val ≠ b.val := fun e => h (congrArg Requester.pos (Fin.ext e.symm))
      simp [State.setGrantOf, State.grantOf, h']
    | comp b => rfl
  | comp a =>
    cases q with
    | pos b => rfl
    | comp b =>
      have h' : a.val ≠ b.val := fun e => h (congrArg Requester.comp (Fin.ext e.symm))
      simp [State.setGrantOf, State.grantOf, h']

/-! ### `State.setSlot` -/

@[simp] theorem State.setSlot_slot (s : State) (i : SlotId) (x : Slot) : (s.setSlot i x).slot i = x := by
  simp [State.setSlot, State.slot]
theorem State.setSlot_slot_ne (s : State) (i j : SlotId) (x : Slot) (h : j ≠ i) :
    (s.setSlot i x).slot j = s.slot j := by
  have h' : i.val ≠ j.val := fun e => h (Fin.ext e.symm)
  simp [State.setSlot, State.slot, h']

@[simp] theorem State.setSlot_work_calibration (s : State) (i : SlotId) (x : Slot) :
    (s.setSlot i x).work.calibration = s.work.calibration := rfl
@[simp] theorem State.setSlot_work_tariffs (s : State) (i : SlotId) (x : Slot) :
    (s.setSlot i x).work.tariffs = s.work.tariffs := rfl
@[simp] theorem State.setSlot_work_nextNumber (s : State) (i : SlotId) (x : Slot) :
    (s.setSlot i x).work.nextNumber = s.work.nextNumber := rfl
@[simp] theorem State.setSlot_work_totals (s : State) (i : SlotId) (x : Slot) :
    (s.setSlot i x).work.totals = s.work.totals := rfl
@[simp] theorem State.setSlot_work_snapshot (s : State) (i : SlotId) (x : Slot) :
    (s.setSlot i x).work.snapshot = s.work.snapshot := rfl
@[simp] theorem State.setSlot_work_resetCause (s : State) (i : SlotId) (x : Slot) :
    (s.setSlot i x).work.resetCause = s.work.resetCause := rfl

end Sys2Proof.Machine
end

