-- ==== Sys2Proof/Laws/Steady.lean ====
section
/-! SUPPORT. What bank grants, offers, refills, holds, ends of fills and redistributions leave alone: each
operation of Cascade.lean keeps `State.steady`. -/

namespace Sys2Proof.Machine

/-! ### Updates of one record -/

theorem State.steady_congr {s t : State} (h : t.steady = s.steady) {α : Type} (f : State → α) :
    f t.steady = f s.steady := by rw [h]

/-- An element replaced by one that a map does not tell apart leaves the mapped vector as it is. -/
theorem map_set_same {α β : Type} {n : Nat} (v : Vector α n) (f : α → β) (i : Fin n) (x : α)
    (h : f x = f v[i]) : (v.set i x).map f = v.map f := by
  apply Vector.ext
  intro j hj
  by_cases e : i.val = j
  · subst e
    simpa using h
  · simp [e]

theorem steady_setPos (s : State) (p : PosId) (x : Position) (h : x.steady = (s.pos p).steady) :
    (s.setPos p x).steady = s.steady := by
  simp only [State.steady, State.setPos]
  rw [map_set_same _ _ p x h]

theorem steady_modPos (s : State) (p : PosId) (f : Position → Position)
    (h : ∀ x, (f x).steady = x.steady) : (s.modPos p f).steady = s.steady :=
  steady_setPos s p _ (h _)

theorem steady_modChan (s : State) (p : PosId) (f : Channel → Channel)
    (h : ∀ x, (f x).steady = x.steady) : (s.modChan p f).steady = s.steady := by
  simp only [State.steady, State.modChan, State.setChan]
  rw [map_set_same _ _ p _ (h (s.chan p))]

theorem steady_modBank (s : State) (b : BankId) (f : Bank → Bank)
    (h : ∀ x, (f x).steady = x.steady) : (s.modBank b f).steady = s.steady := by
  simp only [State.steady, State.modBank, State.setBank]
  rw [map_set_same _ _ b _ (h (s.bank b))]

theorem steady_modLane (s : State) (l : LaneId) (f : Lane → Lane)
    (h : ∀ x, (f x).steady = x.steady) : (s.modLane l f).steady = s.steady := by
  simp only [State.steady, State.modLane, State.setLane]
  rw [map_set_same _ _ l _ (h (s.lane l))]

theorem steady_modComp (s : State) (c : CompId) (f : Compressor → Compressor)
    (h : ∀ x, (f x).steady = x.steady) : (s.modComp c f).steady = s.steady := by
  simp only [State.steady, State.modComp, State.setComp]
  rw [map_set_same _ _ c _ (h (s.comp c))]

theorem steady_modPort (s : State) (n : PortId) (f : Port → Port)
    (h : ∀ x, (f x).steady = x.steady) : (s.modPort n f).steady = s.steady := by
  simp only [State.steady, State.modPort, State.setPort]
  rw [map_set_same _ _ n _ (h (s.port n))]

theorem steady_setGrantOf (s : State) (r : Requester) (x : GrantEntry)
    (h : x.steady = (s.grantOf r).steady) : (s.setGrantOf r x).steady = s.steady := by
  cases r with
  | pos p =>
    simp only [State.steady, State.setGrantOf, Cooling.steady]
    rw [map_set_same _ _ p x h]
  | comp c =>
    simp only [State.steady, State.setGrantOf, Cooling.steady]
    rw [map_set_same _ _ c x h]

theorem steady_setSlot (s : State) (i : SlotId) (x : Slot) (h : x.steady = (s.slot i).steady) :
    (s.setSlot i x).steady = s.steady := by
  simp only [State.steady, State.setSlot, StoreData.steady]
  rw [map_set_same _ _ i x h]

/-- A fold of updates that each keep the steady part keeps it. -/
theorem steady_foldl {α : Type} (l : List α) (f : State → α → State)
    (h : ∀ s a, (f s a).steady = s.steady) (s : State) : (l.foldl f s).steady = s.steady := by
  induction l generalizing s with
  | nil => rfl
  | cons a l ih => rw [List.foldl_cons, ih, h]

/-! ### Posting (Ops.lean) -/

theorem Port.post_steady (x : Port) (now : Clock) (k : NoticeKind) (subject : Nat) (data : List Field) :
    (x.post now k subject data).steady = x.steady := by
  unfold Port.post
  split
  · split <;> simp [Port.steady, Port.settled, Port.outReplies]
  · simp [Port.steady, Port.settled, Port.outReplies]

theorem Port.direct_steady (x : Port) (d : Directive) : (x.direct d).steady = x.steady := by
  unfold Port.direct
  split <;> simp [Port.steady, Port.settled, Port.outReplies]

@[simp] theorem steady_postNotice (k : NoticeKind) (subject : Nat) (data : List Field) (ports : List PortId)
    (s : State) : (postNotice k subject data ports s).steady = s.steady :=
  steady_foldl _ _ (fun s _ => steady_modPort s _ _ (fun _ => Port.post_steady ..)) s

@[simp] theorem steady_postDirective (n : PortId) (d : Directive) (s : State) :
    (postDirective n d s).steady = s.steady := steady_modPort s n _ (fun _ => Port.direct_steady ..)

@[simp] theorem steady_sendValve (p : PosId) (s : State) : (sendValve p s).steady = s.steady := by
  simp [sendValve]

@[simp] theorem steady_issue (ws : List RecWrite) (s : State) : (issue ws s).steady = s.steady := rfl

@[simp] theorem steady_drawList (s : State) (l : List DrawWait) : ({ s with drawList := l }).steady = s.steady := rfl

@[simp] theorem steady_queue (s : State) (l : List QueueEntry) : ({ s with queue := l }).steady = s.steady := rfl

@[simp] theorem steady_evt (s : State) (e : Scratch) : ({ s with evt := e }).steady = s.steady := rfl

@[simp] theorem steady_freeOrder (s : State) (l : List Requester) :
    ({ s with cooling := { s.cooling with order := l } }).steady = s.steady := rfl

@[simp] theorem steady_wait (s : State) (l : List CoolWait) :
    ({ s with cooling := { s.cooling with wait := l } }).steady = s.steady := rfl

@[simp] theorem steady_budgetChanged (c : CoolingCause) (s : State) : (budgetChanged c s).steady = s.steady := rfl

@[simp] theorem steady_budgetCause (c : CoolingCause) (s : State) : (budgetCause c s).steady = s.steady := rfl

/-- A change of the marks of an open record keeps the steady part. -/
theorem steady_modRecord (p : PosId) (f : TxnRecord → TxnRecord) (s : State)
    (h : ∀ r, (f r).steady = r.steady) : (modRecord p f s).steady = s.steady := by
  unfold modRecord
  split
  · rfl
  · split
    · rename_i r hr
      exact steady_setSlot s _ _ (by rw [hr]; simp [Slot.steady, h r])
    · rfl

@[simp] theorem steady_checkpoint (p : PosId) (also : List RecWrite) (s : State) :
    (checkpoint p also s).steady = s.steady := by
  have h := steady_modRecord p (fun r => { r with checkpointMass := (s.chan p).mass }) s (fun _ => rfl)
  unfold checkpoint
  simp only
  split
  · exact h
  · rw [steady_issue]; exact h

@[simp] theorem steady_postFillState (p : PosId) (tag : Tag) (s : State) :
    (postFillState p tag s).steady = s.steady := by simp [postFillState]

@[simp] theorem steady_fillStateWith (p : PosId) (also : List RecWrite) (s : State) :
    (fillStateWith p also s).steady = s.steady := by simp [fillStateWith]

@[simp] theorem steady_fillState (p : PosId) (s : State) : (fillState p s).steady = s.steady := by
  simp [fillState]

theorem TxnRecord.openSegment_steady (r : TxnRecord) (x : Segment) : (r.openSegment x).steady = r.steady := by
  unfold TxnRecord.openSegment
  split <;> rfl

theorem TxnRecord.endSegment_steady (r : TxnRecord) (m : Nat) (v : Option Nat) (c : SegmentEnd) :
    (r.endSegment m v c).steady = r.steady := by
  unfold TxnRecord.endSegment
  split
  · split <;> rfl
  · rfl

@[simp] theorem steady_openSegment (p : PosId) (b : BankId) (s : State) :
    (openSegment p b s).steady = s.steady :=
  steady_modRecord _ _ _ (fun _ => TxnRecord.openSegment_steady ..)

@[simp] theorem steady_endSegment (p : PosId) (c : SegmentEnd) (s : State) :
    (endSegment p c s).steady = s.steady :=
  steady_modRecord _ _ _ (fun _ => TxnRecord.endSegment_steady ..)

@[simp] theorem steady_postCompData (c : CompId) (data : List Field) (s : State) :
    (postCompData c data s).steady = s.steady := by simp [postCompData]

@[simp] theorem steady_postCompState (c : CompId) (cause : CompCause) (s : State) :
    (postCompState c cause s).steady = s.steady := by simp [postCompState]

@[simp] theorem steady_postCoolingState (s : State) : (postCoolingState s).steady = s.steady := by
  unfold postCoolingState
  split <;> simp

@[simp] theorem steady_postWaitNotices (s : State) : (postWaitNotices s).steady = s.steady := by
  unfold postWaitNotices
  apply steady_foldl
  intro s c
  split <;> simp

theorem Port.transmit_settled (x : Port) (now : Clock) : (x.transmit now).settled = x.settled := by
  unfold Port.transmit
  split
  · rename_i h
    have hl : x.line = none := by
      simp only [Bool.and_eq_true, Option.isNone_iff_eq_none] at h
      exact h.1
    split
    · rename_i r rest hr
      split
      · rfl
      · simp [Port.settled, Port.outReplies, Port.outDirectives, hl, hr]
    · rename_i hr
      split
      · rename_i d rest hd
        simp [Port.settled, Port.outReplies, Port.outDirectives, hl, hr, hd]
      · rename_i hd
        split
        · simp [Port.settled, Port.outReplies, Port.outDirectives, hl, hr, hd]
        · rfl
  · rfl

theorem Port.steady_of_settled {x y : Port} (h : x.settled = y.settled) : x.steady = y.steady := by
  have e : ∀ z : Port, z.steady = { z.settled with
      directives := []
      counters := { z.settled.counters with
        refused := 0, replies := 0, directives := 0, directivesSuperseded := 0, notices := 0
        noticesCoalesced := 0, noticesMasked := 0 } } := fun z => rfl
  rw [e, e, h]

theorem Port.transmit_steady (x : Port) (now : Clock) : (x.transmit now).steady = x.steady :=
  Port.steady_of_settled (Port.transmit_settled x now)

@[simp] theorem steady_transmitAll (s : State) : (transmitAll s).steady = s.steady := by
  unfold transmitAll
  split
  · exact steady_foldl _ _ (fun s n => steady_modPort s n _ (fun _ => Port.transmit_steady ..)) s
  · rfl

@[simp] theorem steady_endEvent (s : State) : (endEvent s).steady = s.steady := by
  simp only [endEvent, steady_evt]
  split <;> simp

@[simp] theorem steady_awaitEdge (s : State) : (awaitEdge s).steady = s.steady := rfl

/-! ### Banks (Cascade.lean) -/

@[simp] theorem steady_postBankState (b : BankId) (s : State) : (postBankState b s).steady = s.steady := by
  simp [postBankState]

@[simp] theorem steady_moveBank (b : BankId) (state : BankState) (holder : Option Holder) (s : State) :
    (moveBank b state holder s).steady = s.steady := by
  have h := steady_modBank s b (fun x => { x with state := state, holder := holder }) (fun _ => rfl)
  unfold moveBank
  simp only [steady_postBankState]
  split
  · exact h
  · exact h

@[simp] theorem steady_enterRamp (p : PosId) (b : BankId) (s : State) : (enterRamp p b s).steady = s.steady := by
  unfold enterRamp
  simp only
  split
  all_goals
    simp only [steady_fillState, steady_sendValve]
    rw [steady_modChan _ _ _ (by intro _; rfl), steady_openSegment, steady_modPos _ _ _ (by intro _; rfl)]

@[simp] theorem steady_startPulse (p : PosId) (b : BankId) (s : State) :
    (startPulse p b s).steady = s.steady := by
  unfold startPulse
  rw [steady_sendValve, steady_modPos _ _ _ (by intro _; rfl)]

@[simp] theorem steady_grantBank (p : PosId) (b : BankId) (s : State) : (grantBank p b s).steady = s.steady := by
  unfold grantBank
  simp only
  split
  all_goals
    simp only [steady_startPulse, steady_enterRamp, steady_moveBank, steady_drawList]
    rw [steady_modBank _ _ _ (by intro _; rfl)]

@[simp] theorem steady_drawRequest (p : PosId) (kind : DrawKind) (x : Option BankId) (s : State) :
    (drawRequest p kind x s).steady = s.steady := by
  unfold drawRequest
  split <;> simp

@[simp] theorem steady_offerBank (b : BankId) (s : State) : (offerBank b s).steady = s.steady := by
  unfold offerBank
  split <;> simp

@[simp] theorem steady_offerPass (l : List BankId) (s : State) : (offerPass l s).steady = s.steady := by
  unfold offerPass
  split
  · rfl
  · apply steady_foldl
    intro s b
    split <;> simp

@[simp] theorem steady_retestWaiter (p : PosId) (s : State) : (retestWaiter p s).steady = s.steady := by
  unfold retestWaiter
  split
  · rfl
  · split <;> simp

/-! ### Grants, queue, assignment -/

@[simp] theorem steady_setGrant (r : Requester) (g : Nat) (s : State) : (setGrant r g s).steady = s.steady := by
  unfold setGrant
  simp only [steady_freeOrder]
  exact steady_setGrantOf _ _ _ rfl

@[simp] theorem steady_tellDerated (p : PosId) (s : State) : (tellDerated p s).steady = s.steady :=
  steady_modRecord _ _ _ (by intro _; rfl)

@[simp] theorem steady_grantFill (p : PosId) (g : Nat) (s : State) : (grantFill p g s).steady = s.steady := by
  unfold grantFill
  simp only
  split <;> simp

@[simp] theorem steady_enqueueEntry (e : QueueEntry) (s : State) : (enqueueEntry e s).steady = s.steady := rfl

@[simp] theorem steady_enqueue (b : BankId) (o : QueueOrigin) (s : State) : (enqueue b o s).steady = s.steady := rfl

@[simp] theorem steady_dropWaitNotice (c : CompId) (s : State) : (dropWaitNotice c s).steady = s.steady := rfl

@[simp] theorem steady_flushWaitNotice (c : CompId) (s : State) : (flushWaitNotice c s).steady = s.steady := by
  unfold flushWaitNotice
  split <;> simp

@[simp] theorem steady_startRefill (c : CompId) (s : State) : (startRefill c s).1.steady = s.steady := by
  have h := steady_modComp s c (fun x => { x with requestTime := none }) (fun _ => rfl)
  unfold startRefill
  simp only
  split
  · simp only [steady_postCompState, steady_postDirective]
    rw [steady_modComp _ _ _ (by intro _; rfl), steady_queue, steady_moveBank, steady_dropWaitNotice]
    exact h
  · simp only [steady_postCompState]
    rw [steady_modComp _ _ _ (by intro _; rfl), steady_setGrant, steady_budgetChanged, steady_flushWaitNotice]
    exact h

@[simp] theorem steady_compressorAsks (c : CompId) (s : State) : (compressorAsks c s).steady = s.steady := by
  unfold compressorAsks
  simp only
  split
  · simp
  · simp only [steady_evt]
    rw [steady_modComp _ _ _ (by intro _; rfl), steady_wait, steady_budgetChanged]

@[simp] theorem steady_assignmentPass (s : State) : (assignmentPass s).steady = s.steady := by
  unfold assignmentPass
  split
  · rfl
  · apply steady_foldl
    intro s c
    split <;> simp

@[simp] theorem steady_tellIdle (b : BankId) (s : State) : (tellIdle b s).steady = s.steady := by
  unfold tellIdle
  split
  · simp
  · split
    · split <;> simp
    · rfl

@[simp] theorem steady_bankIdle (b : BankId) (s : State) : (bankIdle b s).steady = s.steady := by
  unfold bankIdle
  simp only
  split <;> simp

@[simp] theorem steady_releaseBank (p : PosId) (s : State) : (releaseBank p s).steady = s.steady := by
  unfold releaseBank
  split
  · rfl
  · rw [steady_bankIdle, steady_moveBank, steady_modPos _ _ _ (by intro _; rfl)]

/-! ### Holds and redistribution -/

@[simp] theorem steady_enterHold (p : PosId) (r : HoldReason) (s : State) : (enterHold p r s).steady = s.steady := by
  unfold enterHold
  simp only [steady_fillState]
  split
  all_goals
    try rw [steady_sendValve]
    rw [steady_modChan _ _ _ (by intro _; rfl), steady_modPos _ _ _ (by intro _; rfl)]

@[simp] theorem steady_holdFromRamp (p : PosId) (r : HoldReason) (s : State) :
    (holdFromRamp p r s).steady = s.steady := by simp [holdFromRamp]

@[simp] theorem steady_checksCD (p : PosId) (s : State) : (checksCD p s).steady = s.steady := by
  unfold checksCD
  split
  · simp
  · simp only
    split <;> simp

@[simp] theorem steady_raiseDerated (s : State) : (raiseDerated s).steady = s.steady := by
  unfold raiseDerated
  apply steady_foldl
  intro s r
  split
  · simp only
    split <;> simp
  · rfl

@[simp] theorem steady_dropWait (r : Requester) (s : State) : (dropWait r s).steady = s.steady := rfl

@[simp] theorem steady_serveFills (l : List CoolWait) (s : State) : (serveFills l s).1.steady = s.steady := by
  induction l generalizing s with
  | nil => rfl
  | cons w l ih =>
    unfold serveFills
    split
    · rfl
    · simp only
      split
      · simp [ih]
      · rfl

@[simp] theorem steady_serveComps (l : List CoolWait) (s : State) : (serveComps l s).1.steady = s.steady := by
  induction l generalizing s with
  | nil => rfl
  | cons w l ih =>
    unfold serveComps
    split
    · rfl
    · simp only
      split
      · simp [ih]
      · rfl

@[simp] theorem steady_redistributePasses (s : State) : (redistributePasses s).1.steady = s.steady := by
  unfold redistributePasses
  split
  · rfl
  · simp

/-- The fold over served compressors keeps the steady part. -/
theorem steady_foldRefill (l : List CompId) (r : State × Bool) :
    (l.foldl (fun r c => ((startRefill c r.1).1, r.2 || (startRefill c r.1).2)) r).1.steady = r.1.steady := by
  induction l generalizing r with
  | nil => rfl
  | cons c l ih => rw [List.foldl_cons, ih]; simp

@[simp] theorem steady_tellServed (fills : List PosId) (comps : List CompId) (s : State) :
    (tellServed fills comps s).1.steady = s.steady := by
  unfold tellServed
  simp only
  rw [steady_foldRefill]
  exact steady_foldl _ _ (fun s p => steady_checksCD p s) s

@[simp] theorem steady_redistributeN (n : Nat) (s : State) : (redistributeN n s).steady = s.steady := by
  induction n generalizing s with
  | zero => rfl
  | succ n ih =>
    unfold redistributeN
    simp only
    split
    · rw [ih]; simp
    · simp

@[simp] theorem steady_redistribute (s : State) : (redistribute s).steady = s.steady := by simp [redistribute]

@[simp] theorem steady_releaseGrant (r : Requester) (s : State) : (releaseGrant r s).steady = s.steady := by
  unfold releaseGrant
  split <;> simp

@[simp] theorem steady_departWait (r : Requester) (s : State) : (departWait r s).steady = s.steady := by
  unfold departWait
  split <;> simp

@[simp] theorem steady_fillAsks (p : PosId) (s : State) : (fillAsks p s).1.steady = s.steady := by
  unfold fillAsks
  simp only
  split <;> simp

@[simp] theorem steady_warmTest (l : LaneId) (s : State) : (warmTest l s).steady = s.steady := by
  unfold warmTest
  split
  · split <;> exact steady_modLane _ _ _ (by intro _; rfl)
  · rfl

@[simp] theorem steady_warmTestOf (l : Option LaneId) (s : State) : (warmTestOf l s).steady = s.steady := by
  unfold warmTestOf
  split <;> simp

/-! ### Ends of fills and of refills, banks leaving service, shedding -/

@[simp] theorem steady_endFill (p : PosId) (reason : EndReason) (s : State) :
    (endFill p reason s).steady = s.steady := by
  unfold endFill
  dsimp only
  split
  · rw [steady_warmTestOf, steady_fillState]
    split
    all_goals
      try rw [steady_sendValve]
      rw [steady_modChan _ _ _ (by intro _; rfl), steady_modPos _ _ _ (by intro _; rfl), steady_releaseGrant, steady_departWait,
        steady_releaseBank, steady_drawList, steady_endSegment]
      rw [steady_modRecord p _ _ (by intro r; rfl)]
      exact steady_modPos _ _ _ (by intro _; rfl)
  · rfl

@[simp] theorem steady_matchQueue (n : Nat) (s : State) : (matchQueue n s).steady = s.steady := by
  induction n generalizing s with
  | zero => rfl
  | succ n ih =>
    unfold matchQueue
    split
    · split
      · simp only [ih, steady_departWait, steady_postCompState]
        rw [steady_modComp _ _ _ (by intro _; rfl), steady_flushWaitNotice]
      · rfl
    · rfl

@[simp] theorem steady_dequeue (b : BankId) (s : State) : (dequeue b s).steady = s.steady := by
  unfold dequeue
  split <;> simp

@[simp] theorem steady_stopRunning (c : CompId) (st : CompState) (s : State) :
    (stopRunning c st s).steady = s.steady := steady_modComp _ _ _ (by intro _; rfl)

@[simp] theorem steady_completeRefill (c : CompId) (stop : StopCause) (cause : CompCause) (s : State) :
    (completeRefill c stop cause s).steady = s.steady := by
  unfold completeRefill
  split
  · rfl
  · simp only
    split <;> simp

@[simp] theorem steady_withdrawRefill (c : CompId) (stop : StopCause) (cause : CompCause) (next : CompState)
    (s : State) : (withdrawRefill c stop cause next s).steady = s.steady := by
  unfold withdrawRefill
  split
  · simp only
    split <;> split <;> simp
  · rfl

@[simp] theorem steady_loseBank (c : CompId) (s : State) : (loseBank c s).steady = s.steady := by
  simp [loseBank]

@[simp] theorem steady_leaveCoolingWait (c : CompId) (next : CompState) (cause : CompCause) (s : State) :
    (leaveCoolingWait c next cause s).steady = s.steady := by
  unfold leaveCoolingWait
  simp only [steady_postCompState, steady_departWait]
  rw [steady_modComp _ _ _ (by intro _; rfl), steady_flushWaitNotice]

@[simp] theorem steady_withdrawPosition (p : PosId) (s : State) : (withdrawPosition p s).steady = s.steady := by
  have h := steady_modPos s p (fun x => { x with bank := none }) (fun _ => rfl)
  unfold withdrawPosition
  simp only
  split
  · rw [steady_drawRequest, steady_sendValve, steady_modPos _ _ _ (by intro _; rfl)]; exact h
  · split
    · simpa using h
    · simpa using h
  · exact h

@[simp] theorem steady_vacateBank (b : BankId) (next : BankState) (s : State) :
    (vacateBank b next s).steady = s.steady := by
  unfold vacateBank
  simp only
  split
  · rw [steady_modPos _ _ _ (by intro _; rfl), steady_moveBank]
  · simp

@[simp] theorem steady_tellBankLeft (b : BankId) (old : Bank) (s : State) :
    (tellBankLeft b old s).steady = s.steady := by
  unfold tellBankLeft
  split <;> simp

@[simp] theorem steady_bankLeaves (b : BankId) (next : BankState) (s : State) :
    (bankLeaves b next s).steady = s.steady := by
  simp [bankLeaves]

@[simp] theorem steady_shedComps (l : List Requester) (s : State) : (shedComps l s).1.steady = s.steady := by
  induction l generalizing s with
  | nil => rfl
  | cons r l ih =>
    cases r with
    | pos p => exact ih s
    | comp c =>
      unfold shedComps
      split
      · simp [ih]
      · rfl

@[simp] theorem steady_shedCuts (l : List Requester) (s : State) : (shedCuts l s).steady = s.steady := by
  induction l generalizing s with
  | nil => rfl
  | cons r l ih =>
    cases r with
    | comp c => exact ih s
    | pos p =>
      unfold shedCuts
      simp only
      split <;> simp [ih]

@[simp] theorem steady_shedHolds (l : List Requester) (s : State) : (shedHolds l s).1.steady = s.steady := by
  induction l generalizing s with
  | nil => rfl
  | cons r l ih =>
    cases r with
    | comp c => exact ih s
    | pos p =>
      unfold shedHolds
      split
      · simp [ih]
      · rfl

@[simp] theorem steady_holdByShedding (p : PosId) (s : State) : (holdByShedding p s).steady = s.steady := by
  unfold holdByShedding
  split <;> simp

@[simp] theorem steady_shed (s : State) : (shed s).steady = s.steady := by
  unfold shed
  simp only
  have hold : ∀ (l : List PosId) (s : State), (l.foldl (fun s p => holdByShedding p s) s).steady = s.steady :=
    fun l s => steady_foldl l _ (fun s p => steady_holdByShedding p s) s
  have wdr : ∀ (l : List CompId) (s : State),
      (l.foldl (fun s c => withdrawRefill c .shed .shed .ready s) s).steady = s.steady :=
    fun l s => steady_foldl l _ (fun s c => steady_withdrawRefill c .shed .shed .ready s) s
  split <;> split <;> simp [hold, wdr]

end Sys2Proof.Machine
end

