-- ==== Sys2Proof/Laws/Links.lean ====
section
/-! SUPPORT. What taking a request and ending an event do at the ports: nothing but the reply, and frames that
transmitters begin. -/

namespace Sys2Proof.Machine

/-! ### `Delivers` -/

theorem Delivers.refl (s : State) : Delivers s s where
  rest := rfl
  noNew := fun _ => List.Subset.refl _
  noneLost := fun _ m hm => ⟨m, hm, rfl, rfl⟩

theorem Delivers.trans {a b c : State} (h : Delivers a b) (k : Delivers b c) : Delivers a c where
  rest := k.rest.trans h.rest
  noNew := fun n => List.Subset.trans (k.noNew n) (h.noNew n)
  noneLost := fun n m hm => by
    obtain ⟨m1, h1, e1⟩ := h.noneLost n m hm
    obtain ⟨m2, h2, e2⟩ := k.noneLost n m1 h1
    exact ⟨m2, h2, e2.1.trans e1.1, e2.2.trans e1.2⟩

theorem settled_modPort (s : State) (n : PortId) (f : Port → Port) (h : ∀ x, (f x).settled = x.settled) :
    (s.modPort n f).settled = s.settled := by
  simp only [State.settled, State.modPort, State.setPort]
  rw [map_set_same _ _ n _ (h (s.port n))]

theorem Port.nextNotice_mem {x : Port} {now : Clock} {n : Notice} (h : x.nextNotice now = some n) :
    n ∈ x.pending := by
  unfold Port.nextNotice at h
  have key : ∀ (l : List Notice) (best : Option Notice),
      l.foldl (fun best n =>
        match best with
        | none => some n
        | some b => if x.sendsBefore now n b then some n else some b) best = some n →
      n ∈ l ∨ best = some n := by
    intro l
    induction l with
    | nil => intro best h; exact .inr h
    | cons a l ih =>
      intro best h
      rw [List.foldl_cons] at h
      rcases ih _ h with h | h
      · exact .inl (List.mem_cons_of_mem _ h)
      · cases best with
        | none =>
          simp only [Option.some.injEq] at h
          exact .inl (by simp [h])
        | some b =>
          simp only at h
          split at h
          · simp only [Option.some.injEq] at h
            exact .inl (by simp [h])
          · exact .inr h
  rcases key _ _ h with h | h
  · exact h
  · cases h

theorem Port.transmit_noNew (x : Port) (now : Clock) : (x.transmit now).outNotices ⊆ x.outNotices := by
  unfold Port.transmit
  split
  · split
    · split
      · exact List.Subset.refl _
      · intro m hm
        simp only [Port.outNotices, List.nil_append] at hm ⊢
        simp [hm]
    · split
      · intro m hm
        simp only [Port.outNotices, List.nil_append] at hm ⊢
        simp [hm]
      · split
        · rename_i n hn
          intro m hm
          simp only [Port.outNotices, List.singleton_append, List.mem_cons, List.mem_filter] at hm
          rcases hm with hm | hm
          · subst hm
            exact List.mem_append_right _ (Port.nextNotice_mem hn)
          · exact List.mem_append_right _ hm.1
        · exact List.Subset.refl _
  · exact List.Subset.refl _

theorem Port.transmit_noneLost (x : Port) (now : Clock) (m : Notice) (hm : m ∈ x.outNotices) :
    ∃ m' ∈ (x.transmit now).outNotices, m'.sameKey m := by
  unfold Port.transmit
  split
  · rename_i hl
    have hl : x.line = none := by
      simp only [Bool.and_eq_true, Option.isNone_iff_eq_none] at hl
      exact hl.1
    have hp : m ∈ x.pending := by simpa [Port.outNotices, hl] using hm
    split
    · split
      · exact ⟨m, hm, rfl, rfl⟩
      · exact ⟨m, by simp [Port.outNotices, hp], rfl, rfl⟩
    · split
      · exact ⟨m, by simp [Port.outNotices, hp], rfl, rfl⟩
      · split
        · rename_i n hn
          by_cases e : m.kind = n.kind ∧ m.subject = n.subject
          · exact ⟨n, by simp [Port.outNotices], e.1.symm, e.2.symm⟩
          · refine ⟨m, ?_, rfl, rfl⟩
            simp only [Port.outNotices, List.singleton_append, List.mem_cons, List.mem_filter]
            refine .inr ⟨hp, ?_⟩
            simpa [imp_iff_not_or] using e
        · exact ⟨m, hm, rfl, rfl⟩
  · exact ⟨m, hm, rfl, rfl⟩

theorem delivers_transmitAll (s : State) : Delivers s (transmitAll s) := by
  unfold transmitAll
  split
  · have key : ∀ (l : List PortId) (s : State),
        Delivers s (l.foldl (fun s n => s.modPort n (fun x => x.transmit s.clock)) s) := by
      intro l
      induction l with
      | nil => intro s; exact Delivers.refl s
      | cons a l ih =>
        intro s
        refine Delivers.trans ?_ (ih _)
        refine ⟨settled_modPort s a _ (fun x => Port.transmit_settled x _), ?_, ?_⟩
        · intro n
          by_cases e : n = a
          · subst e; simpa using Port.transmit_noNew _ _
          · rw [State.modPort_port_ne _ _ _ _ e]; exact List.Subset.refl _
        · intro n m hm
          by_cases e : n = a
          · subst e; simpa using Port.transmit_noneLost _ _ m hm
          · rw [State.modPort_port_ne _ _ _ _ e]; exact ⟨m, hm, rfl, rfl⟩
    exact key _ _
  · exact Delivers.refl s

/-- An event that changed no budget and put no compressor to wait ends with the transmitters alone. -/
theorem delivers_endEvent (s : State) (h1 : s.evt.coolingChanged = false) (h2 : s.evt.waitNotices = []) :
    Delivers s (endEvent s) := by
  have hw : postWaitNotices s = s := by simp [postWaitNotices, h2]
  have hc : postCoolingState s = s := by simp [postCoolingState, h1]
  have ht : Delivers s (if s.evt.edgeNext then s else transmitAll s) := by
    split
    · exact Delivers.refl s
    · exact delivers_transmitAll s
  unfold endEvent
  simp only [hw, hc]
  exact ⟨ht.rest, ht.noNew, ht.noneLost⟩

/-! ### Taking a request -/

theorem canTake_of_ready {port : PortId} {kind : Byte} {args : List Byte} {s : State}
    (h : Ready port (kind :: args) s) : canTake port kind args s = true := by
  have h3 := h.head
  simp only [canTake, h.serving, h.room, decide_true, Bool.and_true, Bool.and_eq_true, beq_self_eq_true,
    true_and]
  rcases h3 with h3 | h3
  · simp [h3]
  · cases hb : (s.port port).rxBuffer with
    | nil => rfl
    | cons a l => rw [hb] at h3; simp at h3; simp [h3]

/-- A taken request that passes the screen is its owner's answer, replied to once. -/
theorem takeRequest_owner {port : PortId} {kind : Byte} {args : List Byte} {s : State}
    (owner : State → State × Answer) (h : Ready port (kind :: args) s) (hs : screen port kind args = none) :
    takeRequest kind port args owner s =
      endEvent (pushReply port kind args (owner (dropFrame port s)).2 (owner (dropFrame port s)).1) := by
  simp [takeRequest, canTake_of_ready h, hs]

/-- A taken request that the screen refuses changes nothing but the port it arrived on. -/
theorem takeRequest_screened {port : PortId} {kind : Byte} {args : List Byte} {s : State}
    (owner : State → State × Answer) (h : Ready port (kind :: args) s) {code : RefusalCode}
    (hs : screen port kind args = some code) :
    takeRequest kind port args owner s =
      endEvent (pushReply port kind args (.refused code) (dropFrame port s)) := by
  simp [takeRequest, canTake_of_ready h, hs]

end Sys2Proof.Machine
end

