-- ==== Sys2Proof/Laws/Requests.lean ====
section
/-! SUPPORT. How a request command runs from its owning rule: the lemmas that take an owner's answer to the
next state of the command, and the operations that leave a receive buffer alone. -/

namespace Sys2Proof.Machine

/-! ### Two updates of one record -/

theorem State.modPort_modPort (s : State) (n : PortId) (f g : Port → Port) :
    (s.modPort n f).modPort n g = s.modPort n (fun x => g (f x)) := by
  simp [State.modPort, State.setPort, State.port]

theorem State.modPort_comm (s : State) (n m : PortId) (f g : Port → Port) (h : ∀ x, f (g x) = g (f x)) :
    (s.modPort n f).modPort m g = (s.modPort m g).modPort n f := by
  by_cases e : n = m
  · subst e
    simp [State.modPort_modPort, h]
  · have e' : n.val ≠ m.val := fun k => e (Fin.ext k)
    simp only [State.modPort, State.setPort, State.port]
    congr 1
    apply Vector.ext
    intro j hj
    by_cases h1 : n.val = j <;> by_cases h2 : m.val = j <;>
      simp_all [Vector.getElem_set, Fin.getElem_fin]

/-! ### The frame taken and the reply pushed -/

theorem pushReply_dropFrame (port : PortId) (kind : Byte) (args : List Byte) (a : Answer) (e : State) :
    pushReply port kind args a (dropFrame port e) =
      e.replied port (match a with
        | .accepted data held => ⟨kind, none, data, held⟩
        | .refused code => ⟨kind, some code, subjectFields args, none⟩) := by
  cases a <;> simp [pushReply, dropFrame, State.modPort_modPort, State.replied]

@[simp] theorem replied_evt (e : State) (port : PortId) (r : Reply) : (e.replied port r).evt = e.evt := rfl

@[simp] theorem dropFrame_evt (e : State) (port : PortId) : (dropFrame port e).evt = e.evt := rfl

/-- An owner that answers with data, and leaves the links to the transmitters, makes the command accept. -/
theorem accepts_intro {c : Instr} {s e : State} {port : PortId} {kind : Byte} {args : List Byte}
    {owner : State → State × Answer} {data : List Field} {held : Option RecId}
    (hx : exec c s = .next (takeRequest kind port args owner s))
    (hb : requestBody c = some (port, kind :: args)) (hs : screen port kind args = none)
    (h : Standing c s) (ho : owner (dropFrame port s) = (dropFrame port e, .accepted data held))
    (he : e.evt = .empty) : Accepts c s data held e := by
  unfold Standing at h
  unfold Accepts
  rw [hb] at h ⊢
  refine ⟨_, hx, ?_⟩
  rw [takeRequest_owner owner h hs, ho]
  simp only [pushReply_dropFrame]
  exact delivers_endEvent _ (by rw [replied_evt, he]; rfl) (by rw [replied_evt, he]; rfl)

/-- An owner that refuses makes the command refuse, and nothing else. -/
theorem refuses_intro {c : Instr} {s : State} {port : PortId} {kind : Byte} {args : List Byte}
    {owner : State → State × Answer} {code : RefusalCode}
    (hx : exec c s = .next (takeRequest kind port args owner s))
    (hb : requestBody c = some (port, kind :: args)) (hs : screen port kind args = none)
    (h : Standing c s) (ho : owner (dropFrame port s) = (dropFrame port s, .refused code)) :
    Refuses c s code := by
  unfold Standing at h
  unfold Refuses
  rw [hb] at h ⊢
  refine ⟨_, hx, ?_⟩
  rw [takeRequest_owner owner h hs, ho]
  simp only [pushReply_dropFrame]
  exact delivers_endEvent _ (by rw [replied_evt, h.between]; rfl) (by rw [replied_evt, h.between]; rfl)

/-- A request that the screen refuses. -/
theorem refuses_screened {c : Instr} {s : State} {port : PortId} {kind : Byte} {args : List Byte}
    {owner : State → State × Answer} {code : RefusalCode}
    (hx : exec c s = .next (takeRequest kind port args owner s))
    (hb : requestBody c = some (port, kind :: args)) (hs : screen port kind args = some code)
    (h : Standing c s) : Refuses c s code := by
  unfold Standing at h
  unfold Refuses
  rw [hb] at h ⊢
  refine ⟨_, hx, ?_⟩
  rw [takeRequest_screened owner h hs]
  simp only [pushReply_dropFrame]
  exact delivers_endEvent _ (by rw [replied_evt, h.between]; rfl) (by rw [replied_evt, h.between]; rfl)

/-- A port update that acts on the steady part of the port acts on the steady part of the state. -/
theorem steady_modPort_congr {u v : State} (h : u.steady = v.steady) (n : PortId) (f g : Port → Port)
    (hf : ∀ x, (f x).steady = g x.steady) : (u.modPort n f).steady = (v.modPort n f).steady := by
  have key : ∀ w : State, (w.modPort n f).steady =
      { w.steady with ports := w.steady.ports.set n (g w.steady.ports[n]) } := by
    intro w
    simp only [State.steady, State.modPort, State.setPort, State.port]
    congr 1
    rw [Vector.map_set]
    congr 1
    simp [hf]
  rw [key, key, h]

theorem steady_pushReply_congr (port : PortId) (kind : Byte) (args : List Byte) (a : Answer) {u v : State}
    (h : u.steady = v.steady) : (pushReply port kind args a u).steady = (pushReply port kind args a v).steady := by
  have key : ∀ r : Reply, (u.modPort port (fun x => { x with replies := x.replies ++ [r] })).steady =
      (v.modPort port (fun x => { x with replies := x.replies ++ [r] })).steady := fun r =>
    steady_modPort_congr h port _ (fun x => { x with replies := x.replies ++ [r] })
      (fun x => by simp [Port.steady, Port.settled, Port.outReplies])
  cases a <;> exact key _

/-- An owner that answers with data makes the command complete, up to what cascades change. -/
theorem completes_intro {c : Instr} {s e e' : State} {port : PortId} {kind : Byte} {args : List Byte}
    {owner : State → State × Answer} {data : List Field} {held : Option RecId}
    {post : List Field → State → Prop}
    (hx : exec c s = .next (takeRequest kind port args owner s))
    (hb : requestBody c = some (port, kind :: args)) (hs : screen port kind args = none)
    (h : Standing c s) (ho : owner (dropFrame port s) = (e', .accepted data held))
    (he : e'.steady = (dropFrame port e).steady)
    (hp : post data (endEvent (pushReply port kind args (.accepted data held) e'))) :
    Completes c s held e post := by
  unfold Standing at h
  unfold Completes
  rw [hb] at h ⊢
  refine ⟨_, data, hx, ?_, ?_⟩
  · rw [takeRequest_owner owner h hs, ho, steady_endEvent]
    simp only
    rw [steady_pushReply_congr port kind args (.accepted data held) he, pushReply_dropFrame]
  · rw [takeRequest_owner owner h hs, ho]
    exact hp

/-- An event whose effect is `e`, with nothing of the budget in it. -/
theorem takes_intro {c : Instr} {s e : State} {f : State → State} (hx : exec c s = .next (takeEvent f s))
    (h : Quiet s) (hf : f s = e) (he : e.evt = .empty) : Takes c s e := by
  refine ⟨_, hx, ?_⟩
  have hs := h.serving
  subst hf
  simp only [takeEvent, hs, beq_self_eq_true, if_true]
  exact delivers_endEvent _ (by rw [he]; rfl) (by rw [he]; rfl)

/-- An event with a cascade. -/
theorem brings_intro {c : Instr} {s e : State} {f : State → State} {post : State → Prop}
    (hx : exec c s = .next (takeEvent f s)) (h : s.phase = .serving) (hf : (f s).steady = e.steady)
    (hp : post (endEvent (f s))) : Brings c s e post := by
  refine ⟨_, hx, ?_, ?_⟩
  · simp only [takeEvent, h, beq_self_eq_true, if_true, steady_endEvent]
    exact hf
  · simp only [takeEvent, h, beq_self_eq_true, if_true]
    exact hp

/-! ### What commutes with taking the frame -/

theorem Port.post_drop (x : Port) (now : Clock) (k : NoticeKind) (subject : Nat) (data : List Field) :
    (({ x with rxBuffer := x.rxBuffer.drop 1 } : Port).post now k subject data) =
      { x.post now k subject data with rxBuffer := (x.post now k subject data).rxBuffer.drop 1 } := by
  unfold Port.post Port.passes
  simp only
  split
  · split <;> rfl
  · rfl

theorem postNotice_dropFrame (k : NoticeKind) (subject : Nat) (data : List Field) (ports : List PortId)
    (n : PortId) (s : State) :
    postNotice k subject data ports (dropFrame n s) = dropFrame n (postNotice k subject data ports s) := by
  unfold postNotice
  induction ports generalizing s with
  | nil => rfl
  | cons a l ih =>
    rw [List.foldl_cons, List.foldl_cons, ← ih]
    congr 1
    exact State.modPort_comm _ _ _ _ _ (fun x => (Port.post_drop x s.clock k subject data).symm)

theorem Port.direct_drop (x : Port) (d : Directive) :
    (({ x with rxBuffer := x.rxBuffer.drop 1 } : Port).direct d) =
      { x.direct d with rxBuffer := (x.direct d).rxBuffer.drop 1 } := by
  unfold Port.direct
  simp only
  split <;> rfl

theorem postDirective_dropFrame (m : PortId) (d : Directive) (n : PortId) (s : State) :
    postDirective m d (dropFrame n s) = dropFrame n (postDirective m d s) :=
  State.modPort_comm _ _ _ _ _ (fun x => (Port.direct_drop x d).symm)

theorem sendValve_dropFrame (p : PosId) (n : PortId) (s : State) :
    sendValve p (dropFrame n s) = dropFrame n (sendValve p s) := postDirective_dropFrame ..

/-! ### The scratch of the event -/

@[simp] theorem postNotice_evt (k : NoticeKind) (subject : Nat) (data : List Field) (ports : List PortId)
    (s : State) : (postNotice k subject data ports s).evt = s.evt := by
  unfold postNotice
  induction ports generalizing s with
  | nil => rfl
  | cons a l ih => rw [List.foldl_cons, ih]; rfl

@[simp] theorem sendValve_evt (p : PosId) (s : State) : (sendValve p s).evt = s.evt := rfl

end Sys2Proof.Machine
end

