-- ==== Sys2Proof/Laws/Shared.lean ====
section
/-! SUPPORT. One lemma for each shared operation that says once what it does: free orders, roundings, notices and
directives at a port, grants, store operations, the refill queue, the open record of a position. -/

namespace Sys2Proof.Machine

/-! ### Free orders (notes/assumptions/3.md) -/

/-- Whatever the free choices are, an order they pick holds each item as often as the list did. -/
theorem permuteBy_perm {α : Type} (n k : Nat) (l : List α) (h : l.length ≤ n) : (permuteBy n k l).Perm l := by
  induction n generalizing k l with
  | zero =>
    obtain rfl : l = [] := List.eq_nil_of_length_eq_zero (by omega)
    exact .nil
  | succ n ih =>
    match l, h with
    | [], _ => exact .nil
    | [x], _ => exact .refl _
    | x :: y :: l, h =>
      have hi : Config.freeChoice k % (x :: y :: l).length < (x :: y :: l).length := Nat.mod_lt _ (by simp)
      have hg : (x :: y :: l).getD (Config.freeChoice k % (x :: y :: l).length) x =
          (x :: y :: l)[Config.freeChoice k % (x :: y :: l).length] := by
        rw [List.getD_eq_getElem?_getD, List.getElem?_eq_getElem hi, Option.getD_some]
      have hl : ((x :: y :: l).eraseIdx (Config.freeChoice k % (x :: y :: l).length)).length ≤ n := by
        rw [List.length_eraseIdx_of_lt hi]
        exact Nat.sub_le_of_le_add h
      show List.Perm (_ :: permuteBy n (k + 1) _) _
      rw [hg]
      exact ((ih (k + 1) _ hl).cons _).trans (List.getElem_cons_eraseIdx_perm hi)

/-- A free order is a permutation; the count of choices moves and nothing else of the state. -/
theorem State.permute_spec {α : Type} (s : State) (l : List α) :
    (s.permute l).1 = { s with freeCtr := s.freeCtr + l.length } ∧ (s.permute l).2.Perm l :=
  ⟨rfl, permuteBy_perm _ _ _ (Nat.le_refl _)⟩

/-! ### Roundings (00_scope.md 5.2) -/

/-- RNE is within half a unit of the quotient, and even where it is exactly half a unit away. -/
theorem rne_spec (n d : Nat) (h : 0 < d) :
    2 * n ≤ 2 * d * rne n d + d ∧ 2 * d * rne n d ≤ 2 * n + d ∧
      (2 * n = 2 * d * rne n d + d ∨ 2 * d * rne n d = 2 * n + d → rne n d % 2 = 0) := by
  have hq := Nat.div_add_mod n d
  have hr := Nat.mod_lt n h
  have e0 : 2 * d * (n / d) = 2 * (d * (n / d)) := Nat.mul_assoc _ _ _
  have e1 : 2 * d * (n / d + 1) = 2 * (d * (n / d)) + 2 * d := by rw [Nat.mul_add, e0, Nat.mul_one]
  unfold rne
  dsimp only
  split
  · rw [e0]; omega
  · split
    · rw [e1]; omega
    · split
      · rw [e0]; omega
      · rw [e1]; omega

/-- A rounding up is the least integer not below the quotient. -/
theorem ceilDiv_spec (n d : Nat) (h : 0 < d) : n ≤ d * ceilDiv n d ∧ ∀ k, n ≤ d * k → ceilDiv n d ≤ k := by
  unfold ceilDiv
  refine ⟨?_, fun k hk => ?_⟩
  · have h1 := Nat.div_add_mod (n + (d - 1)) d
    have h2 := Nat.mod_lt (n + (d - 1)) h
    omega
  · have : n + (d - 1) < d * (k + 1) := by rw [Nat.mul_add, Nat.mul_one]; omega
    exact Nat.le_of_lt_succ ((Nat.div_lt_iff_lt_mul h).2 (by rwa [Nat.mul_comm]))

/-! ### Notices and directives at a port (R173, R174) -/

/-- A notice that passes is pending afterwards with its data; one that does not pass is counted and changes no
pending notice. -/
theorem Port.post_spec (x : Port) (now : Clock) (k : NoticeKind) (subject : Nat) (data : List Field) :
    (x.passes k = true →
      ∃ m ∈ (x.post now k subject data).pending, m.kind = k ∧ m.subject = subject ∧ m.data = data) ∧
    (x.passes k = false → x.post now k subject data =
      { x with counters := { x.counters with noticesMasked := x.counters.noticesMasked + 1 } }) := by
  refine ⟨fun h => ?_, fun h => by simp [Port.post, h]⟩
  by_cases ha : x.pending.any (fun n => n.kind == k && n.subject == subject) = true
  · obtain ⟨m, hm, hk⟩ := List.any_eq_true.1 ha
    have hp : (x.post now k subject data).pending =
        x.pending.map (fun n => if n.kind == k && n.subject == subject then n.coalesce data else n) := by
      simp only [Port.post, if_pos h, if_pos ha]
    rw [Bool.and_eq_true, beq_iff_eq, beq_iff_eq] at hk
    refine ⟨m.coalesce data, ?_, hk.1, hk.2, rfl⟩
    rw [hp, List.mem_map]
    exact ⟨m, hm, by simp [hk.1, hk.2]⟩
  · have hp : (x.post now k subject data).pending = x.pending ++ [⟨k, subject, data, 0, now⟩] := by
      simp only [Port.post, if_pos h, if_neg ha]
    exact ⟨⟨k, subject, data, 0, now⟩, by simp [hp], rfl, rfl, rfl⟩

/-- A directive posted is the last of the queue, and the queue keeps its bound. -/
theorem Port.direct_spec (x : Port) (d : Directive) :
    (x.direct d).directives.getLast? = some d ∧
      (x.directives.length ≤ 32 → (x.direct d).directives.length ≤ 32) := by
  by_cases h : x.directives.length < 32
  · simp only [Port.direct, if_pos h]
    exact ⟨by simp, fun _ => by simp; omega⟩
  · simp only [Port.direct, if_neg h]
    refine ⟨by simp, fun hb => ?_⟩
    rw [List.length_append, List.length_singleton]
    split
    · rename_i ha
      obtain ⟨e, he, hs⟩ := List.any_eq_true.1 ha
      rw [List.length_eraseP_of_mem he hs]
      omega
    · rw [List.length_drop]
      omega

/-! ### Grants (R110) -/

/-- A grant takes its value at its requester and nowhere else. -/
theorem setGrant_grantOf (r q : Requester) (g : Nat) (s : State) :
    ((setGrant r g s).grantOf q).grant = if q = r then g else (s.grantOf q).grant := by
  by_cases h : q = r
  · subst h
    rw [if_pos rfl]
    cases q <;> simp [setGrant, State.setGrantOf, State.grantOf]
  · rw [if_neg h]
    cases r <;> cases q <;> first
      | rfl
      | exact absurd rfl h
      | (rename_i a b
         have hn : a.val ≠ b.val := fun e => h (congrArg _ (Fin.ext e.symm))
         simp [setGrant, State.setGrantOf, State.grantOf, hn])

/-- Grants above 0 stay in grant order. -/
theorem setGrant_order (r : Requester) (g : Nat) (s : State)
    (h : ∀ q, (s.grantOf q).grant ≠ 0 → q ∈ s.cooling.order) (q : Requester)
    (hq : ((setGrant r g s).grantOf q).grant ≠ 0) : q ∈ (setGrant r g s).cooling.order := by
  rw [setGrant_grantOf] at hq
  have ho : (setGrant r g s).cooling.order =
      if g == 0 then s.cooling.order.filter (fun q => q != r)
      else if (s.grantOf r).grant == 0 && g != 0 then s.cooling.order.filter (fun q => q != r) ++ [r]
      else s.cooling.order := by cases r <;> rfl
  rw [ho]
  by_cases hr : q = r
  · subst hr
    rw [if_pos rfl] at hq
    rw [if_neg (by simpa using hq)]
    split
    · simp
    · rename_i hn
      refine h q fun he => hn ?_
      simp [he, hq]
  · rw [if_neg hr] at hq
    have := h q hq
    split
    · simp [this, hr]
    · split
      · simp [this, hr]
      · exact this

/-! ### Store operations (R180) -/

/-- An operation puts each record it names in flight, leaves what was in flight there, and changes neither the
store nor the working copies. -/
theorem issue_spec (ws : List RecWrite) (s : State) :
    (issue ws s).store = s.store ∧ (issue ws s).work = s.work ∧
      (∀ w ∈ ws, (issue ws s).inFlight w.key = true) ∧
      ∀ r, s.inFlight r = true → (issue ws s).inFlight r = true := by
  refine ⟨rfl, rfl, fun w hw => ?_, fun r hr => ?_⟩
  · rw [State.inFlight, List.any_eq_true]
    exact ⟨_, List.mem_append_right _ (List.mem_singleton.2 rfl), by
      rw [WriteGroup.holds, List.any_eq_true]
      exact ⟨w, List.mem_append_right _ hw, by simp⟩⟩
  · obtain ⟨g, hg, hh⟩ := List.any_eq_true.1 hr
    rw [State.inFlight, List.any_eq_true]
    by_cases hj : ws.any (fun w => g.holds w.key) = true
    · refine ⟨_, List.mem_append_right _ (List.mem_singleton.2 rfl), ?_⟩
      obtain ⟨w, hw, hk⟩ := List.any_eq_true.1 hh
      rw [WriteGroup.holds, List.any_eq_true]
      by_cases hc : ws.any (fun v => v.key == w.key) = true
      · obtain ⟨v, hv, he⟩ := List.any_eq_true.1 hc
        refine ⟨v, List.mem_append_right _ hv, ?_⟩
        rw [beq_iff_eq] at he hk ⊢
        exact he.trans hk
      · refine ⟨w, List.mem_append_left _ ?_, hk⟩
        rw [List.mem_filter, List.mem_flatMap]
        exact ⟨⟨g, List.mem_filter.2 ⟨hg, hj⟩, hw⟩, by simpa using hc⟩
    · refine ⟨g, List.mem_append_left _ (List.mem_filter.2 ⟨hg, ?_⟩), hh⟩
      simpa using hj

/-! ### The refill queue (R78) -/

theorem insertQueue_perm (now : Clock) (e : QueueEntry) (l : List QueueEntry) :
    (insertQueue now e l).Perm (e :: l) := by
  induction l with
  | nil => exact .refl _
  | cons a l ih =>
    unfold insertQueue
    split
    · exact .refl _
    · exact (ih.cons a).trans (.swap e a l)

/-- Sorting the queue by the ages of a moment keeps its entries. -/
theorem orderQueue_perm (now : Clock) (l : List QueueEntry) : (orderQueue now l).Perm l := by
  have h : ∀ q, (l.foldl (fun q e => insertQueue now e q) q).Perm (l ++ q) := by
    induction l with
    | nil => exact fun q => .refl _
    | cons a l ih => exact fun q => (ih _).trans ((insertQueue_perm now a q).append_left l |>.trans List.perm_middle)
  simpa [orderQueue] using h []

/-- The order the queue is built in is that of R78. -/
theorem queueBefore_iff (now : Clock) (a b : QueueEntry) : queueBefore now a b = true ↔ a.precedes now b := by
  unfold queueBefore QueueEntry.precedes age
  simp only [Fin.lt_def]
  split
  · simp only [decide_eq_true_eq]; omega
  · split <;> simp only [decide_eq_true_eq] <;> omega

theorem QueueEntry.precedes_trans {now : Clock} {a b c : QueueEntry} (h : a.precedes now b) (k : b.precedes now c) :
    a.precedes now c := by
  unfold QueueEntry.precedes at *
  simp only [Fin.lt_def] at *
  omega

/-- Two entries of different banks stand in one order or the other. -/
theorem QueueEntry.precedes_total (now : Clock) {a b : QueueEntry} (h : a.bank ≠ b.bank) :
    a.precedes now b ∨ b.precedes now a := by
  have hb : a.bank.val ≠ b.bank.val := fun e => h (Fin.ext e)
  unfold QueueEntry.precedes
  simp only [Fin.lt_def]
  omega

/-- An entry of a bank that is not in the queue takes its place in the order of R78. -/
theorem insertQueue_ordered (now : Clock) (e : QueueEntry) (l : List QueueEntry)
    (h : l.Pairwise (QueueEntry.precedes now)) (hb : ∀ a ∈ l, a.bank ≠ e.bank) :
    (insertQueue now e l).Pairwise (QueueEntry.precedes now) := by
  induction l with
  | nil => exact List.pairwise_singleton _ _
  | cons a l ih =>
    obtain ⟨ha, hl⟩ := List.pairwise_cons.1 h
    unfold insertQueue
    split
    · rename_i hq
      have hea := (queueBefore_iff now e a).1 hq
      exact List.pairwise_cons.2 ⟨fun x hx => (List.mem_cons.1 hx).elim (fun k => k ▸ hea)
        fun k => QueueEntry.precedes_trans hea (ha x k), h⟩
    · rename_i hq
      have hae := (QueueEntry.precedes_total now (hb a List.mem_cons_self)).resolve_right
        fun k => hq ((queueBefore_iff now e a).2 k)
      refine List.pairwise_cons.2 ⟨fun x hx => ?_, ih hl fun x hx => hb x (List.mem_cons_of_mem _ hx)⟩
      rcases List.mem_cons.1 ((insertQueue_perm now e l).mem_iff.1 hx) with k | k
      · exact k ▸ hae
      · exact ha x k

/-- Sorting entries of different banks by the ages of a moment gives the order of R78. -/
theorem orderQueue_ordered (now : Clock) (l : List QueueEntry) (h : (l.map (·.bank)).Nodup) :
    (orderQueue now l).Pairwise (QueueEntry.precedes now) := by
  have key : ∀ (l q : List QueueEntry), ((l ++ q).map (·.bank)).Nodup → q.Pairwise (QueueEntry.precedes now) →
      (l.foldl (fun q e => insertQueue now e q) q).Pairwise (QueueEntry.precedes now) := by
    intro l
    induction l with
    | nil => exact fun _ _ hq => hq
    | cons a l ih =>
      intro q hn hq
      have hp : (l ++ insertQueue now a q).Perm (a :: l ++ q) :=
        ((insertQueue_perm now a q).append_left l).trans List.perm_middle
      refine ih _ ((hp.map _).nodup_iff.2 hn) (insertQueue_ordered now a q hq fun x hx e => ?_)
      rw [List.cons_append, List.map_cons, List.nodup_cons] at hn
      exact hn.1 (e ▸ List.mem_map_of_mem (List.mem_append_right l hx))
  exact key l [] (by simpa using h) .nil

/-- An entry that takes its place changes the queue by itself alone, and nothing else of the state. -/
theorem enqueueEntry_spec (e : QueueEntry) (s : State) :
    enqueueEntry e s = { s with queue := (enqueueEntry e s).queue } ∧
      (enqueueEntry e s).queue.Perm (e :: s.queue) :=
  ⟨rfl, insertQueue_perm _ _ _⟩

/-! ### The open record of a position (R150) -/

/-- A change that keeps number, state and position of the record keeps which slot is open for each position, and
the open record of its own position is the changed one. -/
theorem modRecord_openRecord (p : PosId) (f : TxnRecord → TxnRecord) (s : State)
    (hs : ∀ r, (f r).state = r.state) (hp : ∀ r, (f r).pos = r.pos) :
    (∀ q, (modRecord p f s).openSlot q = s.openSlot q) ∧
      (modRecord p f s).openRecord p = (s.openRecord p).map f := by
  have slots : ∀ q, (modRecord p f s).openSlot q = s.openSlot q := by
    intro q
    unfold State.openSlot
    congr 1
    funext i
    unfold modRecord
    split
    · rfl
    · rename_i j hj
      split
      · rename_i r hr
        by_cases hij : j = i
        · subst hij
          rw [hr]
          simp [State.setSlot, State.slot, Slot.opensFor, hs, hp]
        · simp [State.setSlot, State.slot, Fin.val_ne_of_ne hij]
      · rfl
  refine ⟨slots, ?_⟩
  unfold State.openRecord
  rw [slots]
  unfold modRecord
  cases ho : s.openSlot p with
  | none => rfl
  | some j =>
    dsimp only
    cases hr : s.slot j with
    | free => simp [hr]
    | txn r => simp [State.setSlot, State.slot]

end Sys2Proof.Machine
end

