-- ==== Sys2Proof/Tests/Slice0.lean ====
section
/-! SUPPORT. Tests: ill-formed commands, bodies written out from the layouts of R187, one or two small results
for each command, and for each statement with hypotheses a state and operands that meet them. Expected values
come from the rules named; none is computed by the model. -/

namespace Sys2Proof.Tests

open Sys2Proof.Machine

/-! ### Well-formedness: each check refuses an ill-formed term -/

theorem test_wf_refuses_empty_unknown_body : (Instr.unknownKind 0 0xFF#8 []).wellFormed = false := by decide
theorem test_wf_refuses_unknown_kind_of_catalogue : (Instr.unknownKind 0 0x10#8 [0#8]).wellFormed = false := by
  decide
set_option maxRecDepth 4000 in
theorem test_wf_refuses_long_request :
    (Instr.stop 0 (List.replicate 250 0#8)).wellFormed = false := by decide
theorem test_wf_refuses_short_frame : (Instr.goodFrame 0 [0x52#8]).wellFormed = false := by decide
theorem test_wf_refuses_good_length_as_bad : (Instr.badLengthFragment 0 2#8).wellFormed = false ∧
    (Instr.badLengthFragment 0 250#8).wellFormed = false := by decide
theorem test_wf_accepts_both_bad_lengths : (Instr.badLengthFragment 0 1#8).wellFormed = true ∧
    (Instr.badLengthFragment 0 251#8).wellFormed = true ∧ (Instr.pulseEdge 7).wellFormed = true := by decide

/-! ### Bodies and check, written out from R185 and R187 -/

theorem test_body_position_open : requestOf 1 [0x10#8, 2#8, 1#8, 0#8, 1#8] =
    .positionOpen 1 [2#8, 1#8, 0#8, 1#8] := rfl
theorem test_body_bank_report : requestOf 4 [0x27#8, 3#8, 0xB8#8, 0x0B#8, 0x2C#8, 0x01#8] =
    .bankReport 4 [3#8, 0xB8#8, 0x0B#8, 0x2C#8, 0x01#8] := rfl
theorem test_body_lane_enable : requestOf 1 [0x17#8, 1#8, 0#8] = .laneEnable 1 [1#8, 0#8] := rfl
theorem test_body_cooling_report : requestOf 4 [0x31#8, 0xBC#8, 0x02#8] = .coolingReport 4 [0xBC#8, 0x02#8] := rfl
theorem test_body_cancel : requestOf 5 [0x41#8, 2#8, 1#8, 0#8, 0#8, 0#8] = .cancel 5 [2#8, 1#8, 0#8, 0#8, 0#8] := rfl
theorem test_body_status_query : requestOf 0 [0x52#8, 0#8] = .statusQuery 0 [0#8] := rfl
theorem test_body_in_no_catalogue : requestOf 0 [0x0F#8, 0#8] = .unknownKind 0 0x0F#8 [0#8] := rfl
theorem test_table_word_spells_no_command : decodeTableWord 16 0x1234 = none := rfl
set_option maxRecDepth 20000 in
/-- R185's own example. -/
theorem test_crc_of_nine_digits :
    crc16 [0x31#8, 0x32#8, 0x33#8, 0x34#8, 0x35#8, 0x36#8, 0x37#8, 0x38#8, 0x39#8] = 0x29B1#16 := by decide

/-! ### Small states and what a command leaves -/

/-- The state after a command, or the state itself where the command does not answer a next state. -/
def after (c : Instr) (s : State) : State :=
  match exec c s with
  | .next t => t
  | _ => s

/-- The last reply of the port a request came from. -/
def reply (c : Instr) (s : State) : Option Reply :=
  (requestBody c).bind fun x => ((after c s).port x.1).replies.getLast?

/-- The refusal code of the reply; none for an accepted request. -/
def code (c : Instr) (s : State) : Option RefusalCode := (reply c s).bind (·.refusal)

def data (c : Instr) (s : State) : Option (List Field) := (reply c s).map (·.data)

/-- A position of the first island on lane 0 with a 35 MPa hose, in a state. -/
def atState (st : PosState) : State :=
  State.reset.modPos 0 fun x => { x with
    state := st, hose := some ⟨.h35, false⟩, lane := some 0, nozzle := .on
    authorization := some ⟨7#32, 1#6, .none, true⟩, phaseTimer := some 180000, pressure := some ⟨1000, 0#32⟩ }

/-- A station in which START of position 0 chooses class 0. -/
def station : State :=
  { atState .ready with
    ambient := ⟨some ⟨500, 0#32⟩, false⟩
    rampTable := Vector.replicate 6 (Vector.replicate 6 (some ⟨20, 3000⟩))
    work := { StoreData.manufactured with tariffs := Vector.replicate 8 ⟨true, 1#6, true, 0, 0, 1349000⟩ } }

/-- A NONCOMM class 0 fill of position 0 in a state, with its open record in slot 0. -/
def filling (st : PosState) : State :=
  { (station.modPos 0 fun x => { x with
      state := st, cls := some 0, mode := some .noncomm, phaseTimer := some 0, periodTimer := some 0
      transaction := some 1, staleWatch := some 0 }) with
    work := { StoreData.manufactured with
      slots := (Vector.replicate 64 Slot.free).set 0
        (.txn (openingRecord 1 0 0 ⟨7#32, 1#6, .none, false⟩ .noncomm 1349000 ⟨0#32, ⟨0, 0, false⟩⟩))
      nextNumber := 2 } }

/-- A LOW bank 2 of 3000 in a state, and a window for LOW. -/
def withBank (st : BankState) (s : State) : State :=
  (s.modBank 2 fun x => { x with
    config := some ⟨.low, 9000, 100, 8000⟩, state := st, report := some ⟨3000, 200, 0#32⟩
    staleWatch := some 0 }).setWindow .low (some ⟨0, 12000⟩)

/-- A fill that flows on bank 2. -/
def flowing : State :=
  ((withBank .drawing (filling .ramp)).modBank 2 fun x => { x with holder := some (.pos 0) }).modPos 0 fun x =>
    { x with
      bank := some 2, phaseTimer := none
      ramp := { x.ramp with inUse := some ⟨20, 3000⟩, pSet := some 1000, pTarget := some 3000 } }

/-- Compressor 0 in a state, configured for 400, with the capacity it needs. -/
def withCompressor (st : CompState) (s : State) : State :=
  { (s.modComp 0 fun x => { x with configured := true, state := st }) with
    cooling := { Cooling.initial with capacity := 400, comps := Vector.replicate 2 ⟨400, 400, 0, none⟩ } }

/-- Compressor 0 refilling bank 2. -/
def refilling : State :=
  let s := withCompressor .running (withBank .refilling State.reset)
  let s := s.modComp 0 fun x => { x with
    bank := some 2, entryHeld := some ⟨2, .low, 0#32, .plantRequest⟩, refillStart := some 0#32 }
  (s.modBank 2 fun x => { x with holder := some (.comp 0) }).setGrantOf (.comp 0) ⟨400, 400, 400, some 0#32⟩

/-- Lane 0, owned by island 0, enabled by both, in a state. -/
def withLane (st : LaneState) (s : State) : State :=
  s.modLane 0 fun x => { x with
    config := some ⟨0, 400⟩, plantEnable := true, islandEnable := true, state := st, classMap := 63#6
    supply := some ⟨-200, 0#32⟩
    pulldownTimer := if st = .pulldown then some 0 else none
    staleWatch := if st = .ready then some 0 else none
    warmTimer := if st = .ready then some 0 else none }

/-- The budget of section 6.11 after its step 6, with cars B, C and D at positions 4, 5 and 6: B is derated in HOLD for
its vehicle, C and D wait for cooling, and one edge waits. -/
def budget : State :=
  let car := fun (reason : HoldReason) (k : ClassId) (x : Position) =>
    { x with state := .hold, holdReason := some reason, cls := some k }
  let s := ((State.reset.modPos 4 (car .vehicle 3)).modPos 5 (car .cooling 3)).modPos 6 (car .cooling 4)
  let s := { s with
    pending := [.pulseEdge 0]
    cooling := { s.cooling with
      capacity := 200, order := [.pos 4], wait := [⟨.pos 5, 0#32⟩, ⟨.pos 6, 0#32⟩] } }
  ((s.setGrantOf (.pos 4) ⟨240, 60, 200, some 0#32⟩).setGrantOf (.pos 5) ⟨240, 60, 0, none⟩).setGrantOf (.pos 6)
    ⟨160, 40, 0, none⟩

/-- Position 0 held for warmth with a class that its lane, READY, holds. -/
def warmHeldFill : State :=
  (withLane .ready ((filling .hold).modPos 0 fun x => { x with cls := some 1, holdReason := some .laneWarm })).modLane 0
    fun x => { x with warmHold := 2#6 }

/-- The state with a CLOSED record of number 5 in slot 3, nothing in flight. -/
def withClosed : State :=
  State.reset.setSlot 3 (.txn { openingRecord 5 0 0 ⟨7#32, 1#6, .none, false⟩ .noncomm 1000 ⟨0#32, ⟨0, 0, false⟩⟩ with
    state := .closed })

/-! ### Island requests (01, 02, 05) -/

theorem test_position_open : ((after (.positionOpen 0 [0#8, 0#8, 0#8, 0#8]) (atState .unavailable)).pos 0).state = .waitAuth
    ∧ code (.positionOpen 0 [0#8, 0#8, 0#8, 0#8]) State.reset = some .notConfigured := by decide
theorem test_position_open_order : code (.positionOpen 0 [0#8, 9#8, 0#8, 0#8]) (atState .idle) = some .badState ∧
    code (.positionOpen 0 [0#8, 9#8, 0#8, 0#8]) (atState .unavailable) = some .range := by decide
theorem test_position_close : ((after (.positionClose 0 [0#8]) (atState .ready)).pos 0) =
    { Position.initial with lane := some 0 } ∧
    code (.positionClose 0 [0#8]) (atState .ending) = some .busy := by decide
theorem test_nozzle : ((after (.nozzle 0 [0#8, 1#8]) (atState .ready)).pos 0).state = .waitNozzle ∧
    code (.nozzle 0 [0#8, 2#8]) (atState .ready) = some .range := by decide
theorem test_start_refuses_warm_ambient :
    code (.start 0 [0#8]) { station with ambient := ⟨some ⟨501, 0#32⟩, false⟩ } = some .ambientLimit := by decide
theorem test_start_opens_transaction : data (.start 0 [0#8]) station =
    some [.byte (some 0), .byte (some 1), .word (some 1)] ∧
    ((after (.start 0 [0#8]) station).pos 0).state = .pulse := by decide
theorem test_stop_ends_fill : ((after (.stop 0 [0#8]) flowing).pos 0).endReason = some .customerStop ∧
    ((after (.stop 0 [0#8]) flowing).bank 2).state = .idle := by decide
theorem test_stop_in_ready : code (.stop 0 [0#8]) (atState .ready) = some .badState := by decide
theorem test_position_report_clamps :
    ((after (.positionReport 0 [0#8, 0xE1#8, 0x2E#8]) (atState .idle)).pos 0).pressure = some ⟨12000, 0#32⟩ ∧
    ((after (.positionReport 0 [0#8, 0xE0#8, 0x2E#8]) (atState .idle)).pos 0).sensorRange = false := by decide
theorem test_position_report_trips_above_p_max :
    ((after (.positionReport 0 [0#8, 0xDF#8, 0x11#8]) flowing).pos 0).state = .ramp ∧
    ((after (.positionReport 0 [0#8, 0xE0#8, 0x11#8]) flowing).pos 0).endReason = some .overpressure := by decide
theorem test_vehicle_data_at_edges :
    data (.vehicleData 0 [0#8, 10#8, 0#8, 0#8, 0#8, 0#8, 0#8, 0#8]) (atState .idle) =
      some [.byte (some 0), .byte (some 1), .half (some 0), .half (some 0), .flag false] ∧
    data (.vehicleData 0 [0#8, 9#8, 0#8, 0#8, 0#8, 0#8, 0#8, 0#8]) (atState .idle) =
      some [.byte (some 2), .byte (some 0), .half (some 1), .half (some 0)] := by decide
theorem test_lane_enable : ((after (.laneEnable 0 [0#8, 1#8]) (withLane .ready State.reset)).lane 0).state = .off ∧
    code (.laneEnable 1 [0#8, 0#8]) (withLane .ready State.reset) = some .unknownSubject := by decide

/-! ### Plant requests (01 to 07, 09) -/

theorem test_station_config_at_edges :
    (after (.stationConfig 4 [50#8, 0#8, 100#8, 0#8, 0#8, 0#8, 0xF4#8, 1#8, 0#8, 0#8]) State.reset).creepLimit = 500 ∧
    code (.stationConfig 4 [49#8, 0#8, 100#8, 0#8, 0#8, 0#8, 0xF4#8, 1#8, 0#8, 0#8]) State.reset = some .range := by
  decide
theorem test_bank_config_at_edges :
    data (.bankConfig 4 [11#8, 2#8, 100#8, 0#8, 99#8, 0#8, 100#8, 0#8]) State.reset =
      some [.byte (some 11), .byte (some 0)] ∧
    code (.bankConfig 4 [11#8, 2#8, 100#8, 0#8, 100#8, 0#8, 100#8, 0#8]) State.reset = some .range := by decide
theorem test_tier_window : (after (.tierWindow 4 [1#8, 0#8, 0#8, 0xE0#8, 0x2E#8]) State.reset).window .mid =
    some ⟨0, 12000⟩ ∧ code (.tierWindow 4 [1#8, 0#8, 0#8, 0xE1#8, 0x2E#8]) State.reset = some .range := by decide
theorem test_bank_online : ((after (.bankOnline 4 [2#8]) (withBank .offline State.reset)).bank 2).state = .idle ∧
    code (.bankOnline 4 [2#8]) State.reset = some .notConfigured := by decide
theorem test_bank_offline_holds_fill : ((after (.bankOffline 4 [2#8]) flowing).pos 0).state = .hold ∧
    ((after (.bankOffline 4 [2#8]) flowing).bank 2).state = .offline := by decide
theorem test_bank_lock : ((after (.bankLock 4 [2#8]) (withBank .idle State.reset)).bank 2).state = .locked := by decide
theorem test_bank_unlock : code (.bankUnlock 4 [2#8, 16#8]) State.reset = some .range ∧
    ((after (.bankUnlock 4 [2#8, 8#8]) ((withBank .locked State.reset).modBank 2 fun x =>
      { x with causes := ⟨false, false, false, true⟩ })).bank 2).state = .idle := by decide
theorem test_bank_report_locks_above_850 :
    ((after (.bankReport 4 [2#8, 0xB8#8, 0x0B#8, 0x53#8, 3#8]) (withBank .idle State.reset)).bank 2).state = .locked ∧
    ((after (.bankReport 4 [2#8, 0xB8#8, 0x0B#8, 0x52#8, 3#8]) (withBank .idle State.reset)).bank 2).state = .idle := by
  decide
/-- R86: bank 2 has the target 8000. -/
theorem test_bank_report_completes_at_target :
    ((after (.bankReport 4 [2#8, 0x3F#8, 0x1F#8, 0#8, 0#8]) refilling).comp 0).state = .running ∧
    ((after (.bankReport 4 [2#8, 0x40#8, 0x1F#8, 0#8, 0#8]) refilling).comp 0).state = .ready := by decide
theorem test_refill_request_queues : (after (.refillRequest 4 [2#8]) (withBank .idle State.reset)).queue =
    [⟨2, .low, 0#32, .plantRequest⟩] := by decide
theorem test_refill_request_at_target : data (.refillRequest 4 [2#8]) ((withBank .idle State.reset).modBank 2 fun x =>
    { x with report := some ⟨8000, 0, 0#32⟩ }) =
    some [.byte (some 2), .byte (some 2), .byte (some 0), .byte none] := by decide
theorem test_refill_withdraw : ((after (.refillWithdraw 4 [0#8, 0#8]) refilling).comp 0).state = .unavailable ∧
    code (.refillWithdraw 4 [0#8, 2#8]) refilling = some .range := by decide
theorem test_compressor_config_at_edges :
    ((after (.compressorConfig 4 [1#8, 0x88#8, 0x13#8]) State.reset).grantOf (.comp 1)).demand = 5000 ∧
    code (.compressorConfig 4 [1#8, 0x89#8, 0x13#8]) State.reset = some .range := by decide
theorem test_compressor_ready : data (.compressorReady 4 [0#8]) (withCompressor .unavailable State.reset) =
    some [.byte (some 1)] ∧ code (.compressorReady 4 [0#8]) State.reset = some .notConfigured := by decide
theorem test_compressor_unavailable :
    ((after (.compressorUnavailable 4 [0#8]) refilling).grantOf (.comp 0)).grant = 0 := by decide
theorem test_refill_done : ((after (.refillDone 4 [0#8]) refilling).bank 2).state = .idle ∧
    code (.refillDone 4 [1#8]) refilling = some .badState := by decide
/-- R86 steps 5 and 6: the compressor runs again on bank 3, and the notice of the end comes last. -/
theorem test_refill_done_notice_follows_the_pass :
    let s := (refilling.setBank 3 ((withBank .idle State.reset).bank 2)).modPort 4 fun x => { x with mask := 0 }
    let t := after (.refillDone 4 [0#8]) { s with queue := [⟨3, .low, 0#32, .plantRequest⟩] }
    (t.comp 0).state = .running ∧ (t.comp 0).bank = some 3 ∧
    (((t.port 4).pending.filter (fun m => m.kind == .compressorState)).map (fun m => (m.coalesced, m.data.head?))) =
      [(1, some (.byte (some CompState.ready.code)))] := by decide
theorem test_lane_config_at_edges :
    ((after (.laneConfig 4 [3#8, 3#8, 100#8, 0#8, 62#8]) State.reset).lane 3).classMap = 63#6 ∧
    code (.laneConfig 4 [3#8, 3#8, 99#8, 0#8, 62#8]) State.reset = some .range := by decide
theorem test_lane_report_ends_pull_down :
    ((after (.laneReport 4 [0#8, 0x51#8, 0xFF#8]) (withLane .pulldown State.reset)).lane 0).state = .ready ∧
    ((after (.laneReport 4 [0#8, 0x52#8, 0xFF#8]) (withLane .pulldown State.reset)).lane 0).state = .pulldown := by decide
/-- R104: class 1 leaves the warm hold set at −175, and its fill, which finds no bank, goes to HOLD(BANK). -/
theorem test_lane_report_lifts_warm_hold :
    ((after (.laneReport 4 [0#8, 0x51#8, 0xFF#8]) warmHeldFill).pos 0).holdReason = some .bank ∧
    ((after (.laneReport 4 [0#8, 0x52#8, 0xFF#8]) warmHeldFill).pos 0).holdReason = some .laneWarm := by decide
theorem test_lane_fault_clear :
    ((after (.laneFaultClear 4 [0#8]) (withLane .fault State.reset)).lane 0).pulldownTimer = some 600000 := by decide
theorem test_cooling_report_at_edges :
    (after (.coolingReport 4 [0x88#8, 0x13#8]) State.reset).cooling.sensorRange = false ∧
    (after (.coolingReport 4 [0x89#8, 0x13#8]) State.reset).cooling.capacity = 5000 ∧
    (after (.coolingReport 4 [0x89#8, 0x13#8]) State.reset).cooling.sensorRange = true := by decide
/-- Step 7 of section 6.11, and a fall to 100, which cuts B by 100. -/
theorem test_cooling_report_redistributes_and_sheds :
    let grants := fun (c : Instr) => [4, 5, 6].map fun p => ((after c budget).grantOf (.pos p)).grant
    grants (.coolingReport 4 [0x58#8, 2#8]) = [240, 240, 120] ∧
    grants (.coolingReport 4 [100#8, 0#8]) = [100, 0, 0] := by decide
theorem test_ambient_report_clamps : (after (.ambientReport 4 [0xA7#8, 0xFD#8]) State.reset).ambient =
    ⟨some ⟨-600, 0#32⟩, true⟩ := by decide
theorem test_position_config : ((after (.positionConfig 4 [7#8, 3#8]) State.reset).pos 7).lane = some 3 ∧
    code (.positionConfig 4 [7#8, 4#8]) State.reset = some .range := by decide
theorem test_ramp_table : (after (.rampTable 4 (0#8 :: [0xC8#8, 0#8, 0xAC#8, 0x0D#8] ++
      (List.replicate 5 [0xFF#8, 0xFF#8, 0#8, 0#8]).flatten)) State.reset).rampEntry 0 0 = some ⟨200, 3500⟩ ∧
    code (.rampTable 4 (0#8 :: [0xC8#8, 0#8, 0xAD#8, 0x0D#8] ++
      (List.replicate 5 [0xFF#8, 0xFF#8, 0#8, 0#8]).flatten)) State.reset = some .range := by decide
theorem test_cal_write : code (.calWrite 4 [0#8, 1#8, 0#8, 0#8, 0#8, 1#8, 0#8]) State.reset = some .calLocked ∧
    code (.calWrite 4 [0#8, 0#8, 0#8, 0#8, 0#8, 1#8, 0#8]) State.reset = some .range := by decide
theorem test_cal_write_counts : (after (.calWrite 4 [0#8, 1#8, 0#8, 0x33#8, 0xF3#8, 0#8, 0#8])
    { State.reset with pins := ⟨true, true, true, false, false⟩ }).work.calibration.counter = 1 := by decide
theorem test_esd_clear : data (.esdClear 4 [0#8]) State.reset = some [.flag false, .flag true] ∧
    code (.esdClear 4 [0#8]) { State.reset with pins := ⟨false, true, false, false, false⟩ } = some .badState := by decide
/-- The latch set, a clear and a falling edge that wait together, every port able to send. -/
def clearAndEdge : State :=
  { State.reset with
    esd := ⟨true, none⟩
    pending := [.esdClear 4 [0#8], .esdNFallingEdge]
    ports := Vector.replicate 6 { Port.initial with supervision := ⟨1000, 0, .alive, some 1000⟩ } }
/-- R160: the notice of a clear with an edge beside it stays pending, so that the edge's notice replaces it; without
the edge it is sent. -/
theorem test_clear_with_edge :
    let sent := fun rest => ((after (.esdClear 4 [0#8]) { clearAndEdge with pending := rest }).port 0).pending.length
    sent [.esdNFallingEdge] = 1 ∧ sent [] = 0 ∧ sent [.pulseEdge 0] = 0 := by decide

/-! ### Till requests (01, 08) and requests of every role (09, 10) -/

theorem test_authorize_at_edges :
    ((after (.authorize 5 [0#8, 7#8, 0#8, 0#8, 0#8, 63#8, 1#8, 0x3F#8, 0x42#8, 0x0F#8, 0#8]) (atState .idle)).pos 0).state
      = .waitNozzle ∧
    code (.authorize 5 [0#8, 7#8, 0#8, 0#8, 0#8, 63#8, 1#8, 0x40#8, 0x42#8, 0x0F#8, 0#8]) (atState .idle) = some .range := by
  decide
theorem test_cancel : ((after (.cancel 5 [0#8, 7#8, 0#8, 0#8, 0#8]) (atState .ready)).pos 0).state = .waitAuth ∧
    code (.cancel 5 [0#8, 8#8, 0#8, 0#8, 0#8]) (atState .ready) = some .unknownSubject := by decide
theorem test_tariff_set_at_edges :
    (after (.tariffSet 5 [7#8, 1#8, 1#8, 1#8, 0#8, 0#8, 0#8, 0#8, 0#8, 0#8, 0#8, 0#8, 0xFF#8, 0xE0#8, 0xF5#8, 5#8])
      State.reset).work.tariffs[7] = ⟨true, 1#6, true, 0, 0, 99999999⟩ ∧
    code (.tariffSet 5 [7#8, 1#8, 1#8, 1#8, 0#8, 0#8, 0#8, 0#8, 0#8, 0#8, 0#8, 0#8, 0#8, 0xE1#8, 0xF5#8, 5#8])
      State.reset = some .range := by decide
theorem test_tariff_read : data (.tariffRead 5 [0#8]) station =
    some [.flag true, .bits 1#8, .flag true, .word (some 0), .word (some 0), .word (some 1349000)] := by decide
theorem test_set_clock_at_edges :
    (after (.setClock 5 [1#8, 0#8, 0x7F#8, 0x51#8, 1#8, 0#8]) State.reset).tod = ⟨1, 86399, true⟩ ∧
    code (.setClock 5 [1#8, 0#8, 0x80#8, 0x51#8, 1#8, 0#8]) State.reset = some .range := by decide
theorem test_txn_read : code (.txnRead 5 [5#8, 0#8, 0#8, 0#8]) withClosed = none ∧
    code (.txnRead 5 [6#8, 0#8, 0#8, 0#8]) withClosed = some .unknownSubject := by decide
theorem test_txn_release : (after (.txnRelease 5 [5#8, 0#8, 0#8, 0#8]) withClosed).slot 3 = .free ∧
    code (.txnRelease 5 [1#8, 0#8, 0#8, 0#8]) (filling .ramp) = some .badState := by decide
theorem test_totals_read_waits_for_close :
    code (.totalsRead 5 [0#8]) { State.reset with groups := [⟨[.totals .zero], 3⟩] } = some .busy ∧
    code (.totalsRead 5 [0#8]) State.reset = none := by decide
theorem test_totals_snapshot_is_held : (reply (.totalsSnapshot 5 [0#8]) State.reset).bind (·.heldOn) =
    some .snapshot := by decide
theorem test_snapshot_read : code (.snapshotRead 5 [0#8]) State.reset = none := by decide
theorem test_position_query : code (.positionQuery 5 [7#8]) State.reset = none ∧
    code (.positionQuery 5 [8#8]) State.reset = some .unknownSubject := by decide
theorem test_supervision_set : ((after (.supervisionSet 0 [250#8, 0#8]) State.reset).port 0).supervision.interval = 250 ∧
    code (.supervisionSet 0 [251#8, 0#8]) State.reset = some .range := by decide
theorem test_notice_set : ((after (.noticeSet 0 [7#8, 0xFF#8, 0xFF#8]) State.reset).port 0).mask = 7 ∧
    code (.noticeSet 0 [8#8, 0xFF#8, 0xFF#8]) State.reset = some .range := by decide
theorem test_status_query : code (.statusQuery 3 [0#8]) State.reset = none := by decide
theorem test_counters_read : data (.countersRead 3 [0#8]) State.reset =
    some (List.replicate 11 (.raw 0#32)) := by decide
theorem test_counters_clear : ((after (.countersClear 3 [0#8]) (State.reset.modPort 3 fun x =>
    { x with counters := { x.counters with good := 9 } })).port 3).counters.good = 0 := by decide
theorem test_unknown_kind : code (.unknownKind 3 0x0F#8 [0#8]) State.reset = some .unknownKind := by decide
theorem test_role : code (.stop 4 [0#8]) State.reset = some .role ∧
    code (.stop 0 [2#8]) State.reset = some .unknownSubject := by decide

/-! ### Link events, expiries, store, lines (09 to 11) -/

theorem test_good_frame : ((after (.goodFrame 2 [0x52#8, 0#8]) State.reset).port 2).supervision =
    ⟨1000, 0, .alive, some 1000⟩ := by decide
theorem test_bad_check : ((after (.badCheckFrame 2) State.reset).port 2).counters.badCheck = 1 := by decide
theorem test_bad_length : ((after (.badLengthFragment 2 251#8) (after (.syncByte 2) State.reset)).port 2).counters.fragment = 1 := by
  decide
theorem test_gap_in_hunting_is_no_fragment : ((after (.frameGap 2) State.reset).port 2).counters.fragment = 0 := by decide
theorem test_sync_byte : ((after (.syncByte 2) State.reset).port 2).rx = .inFrame := by decide
theorem test_frame_sent : ((after (.frameSent 2) (State.reset.modPort 2 fun x =>
    { x with line := some (.directive (.valve 4 .closed none)) })).port 2).line = none := by decide
theorem test_authorization_life : ((after (.authorizationLifeExpiry 0)
    ((atState .waitNozzle).modPos 0 fun x => { x with phaseTimer := some 0 })).pos 0).state = .idle := by decide
theorem test_pulse_expiry : ((after (.pulseExpiry 0) ((filling .pulse).modPos 0 fun x =>
    { x with pulseState := some .pulsing, pressure := some ⟨50, 0#32⟩ })).pos 0).state = .leakCheck ∧
    ((after (.pulseExpiry 0) ((filling .pulse).modPos 0 fun x =>
    { x with pulseState := some .pulsing, pressure := some ⟨49, 0#32⟩ })).pos 0).endReason = some .vehiclePressure := by decide
theorem test_leak_check_at_limit : ((after (.leakCheckExpiry 0) ((filling .leakCheck).modPos 0 fun x =>
    { x with initialPressure := some 1050 })).pos 0).holdReason = some .bank ∧
    ((after (.leakCheckExpiry 0) ((filling .leakCheck).modPos 0 fun x =>
    { x with initialPressure := some 1051 })).pos 0).endReason = some .leak := by decide
theorem test_hold_limit : ((after (.holdLimitExpiry 0) (filling .hold)).pos 0).endReason = some .holdTimeout := by decide
theorem test_settle_expiry : ((after (.settleExpiry 0) (filling .ending)).pos 0).state = .finished ∧
    (after (.settleExpiry 0) (filling .ending)).work.totals.highestClosed = 1 := by decide
/-- 16 000 edges of 500 mg are 8 kg, and 8 kg at 1.349 per gram are 10 792 units (R127, R144). -/
theorem test_period_expiry_bills : (((after (.periodExpiry 0) (flowing.modChan 0 fun x =>
    { x with count := 16000, lastPulse := some 0#32, flowSince := some 0#32 })).openRecord 0).map fun r => (r.mass, r.amount)) =
    some (8000, 10792) := by decide
theorem test_ramp_step : ((after (.periodExpiry 0) (flowing.modChan 0 fun x =>
    { x with count := 100, lastPulse := some 0#32 })).pos 0).ramp.pSet = some 1020 := by decide
theorem test_sensor_stale : ((after (.sensorStaleWatchExpiry 0) flowing).pos 0).endReason = some .sensorStale := by decide
theorem test_bank_stale : ((after (.bankStaleWatchExpiry 2) (withBank .idle State.reset)).bank 2).causes.stale = true := by
  decide
theorem test_pull_down_timeout : ((after (.pullDownTimerExpiry 0) (withLane .pulldown State.reset)).lane 0).state = .fault := by
  decide
theorem test_lane_stale : ((after (.laneStaleWatchExpiry 0) (withLane .ready State.reset)).lane 0).faultStale = true := by
  decide
theorem test_warm_timer : ((after (.warmTimerExpiry 0) (withLane .ready State.reset)).lane 0).warmTimer = none := by decide
theorem test_settle_gate : ((after (.settleGateTimerExpiry 3) (State.reset.modChan 3 fun x =>
    { x with settleGate := some 0 })).chan 3).gateOpen = true := by decide
theorem test_one_second : (after .oneSecondTimerExpiry
    { State.reset with oneSecond := some 0, tod := ⟨65535, 86399, true⟩ }).tod = ⟨0, 0, true⟩ := by decide
theorem test_interval_timer : ((after (.intervalTimerExpiry 5) (State.reset.modPort 5 fun x =>
    { x with supervision := ⟨1000, 1, .late, some 0⟩ })).port 5).supervision = ⟨1000, 2, .lost, none⟩ := by decide
theorem test_write_group : (after (.writeGroupCompletion .nextNumber)
    { State.reset with groups := [⟨[.nextNumber 9], 0⟩] }).store.nextNumber = 9 := by decide
theorem test_pulse_edge_saturates : ((after (.pulseEdge 0) (State.reset.modChan 0 fun x =>
    { x with count := 65534 })).chan 0).overflow = true ∧
    ((after (.pulseEdge 0) (State.reset.modChan 0 fun x => { x with count := 65535 })).chan 0).count = 65535 := by decide
theorem test_esd_edge_outside_service : (after .esdNFallingEdge { State.reset with phase := .settling }).pins.esdN = false := by
  decide
theorem test_esd_rises : (after .esdNRisingEdge { State.reset with pins := ⟨false, true, false, false, false⟩ }).pins.esdN =
    true := by decide
theorem test_cal_en : (after (.calEnChange true) State.reset).pins.calEn = true := by decide
theorem test_power_loss_and_power : (after .powerLoss State.reset).phase = .off ∧
    (after .powerApplied { State.reset with phase := .off }).phase = .settling := by decide
theorem test_reset_line : (after .resetNAsserted State.reset).phase = .held ∧
    (after .resetNReleased { State.reset with phase := .held }).phase = .settling := by decide
theorem test_start_up : (after .startUpSequence { State.reset with phase := .settling, margin := 50 }).margin = 200 ∧
    (after .startUpServe { State.reset with phase := .recovering }).phase = .serving := by decide
theorem test_straps : (after (.brStrapsChange true false) State.reset).pins.br1 = true := by decide

/-! ### Witnesses: for each statement with hypotheses, a state and operands that meet them -/

/-- Every port as after reset, and the part serving: any request can be taken. -/
theorem stands {c : Instr} {s : State} {port : PortId} {body : List Byte} (h : requestBody c = some (port, body))
    (hs : s.phase = .serving) (hp : s.ports = Vector.replicate 6 .initial) (he : s.evt = .empty) : Standing c s := by
  have hn : s.port port = .initial := by simp [State.port, hp]
  unfold Standing
  rw [h]
  exact ⟨hs, by rw [hn]; decide, .inl (by rw [hn]; rfl), he⟩

theorem witness_StepRunsFrontCommand :
    ({ State.reset with pending := [.pulseEdge 0] } : State).pending = .pulseEdge 0 :: [] := rfl
theorem witness_IdleStepQueuesReadyEvents : State.reset.pending = [] ∧ readyEvents State.reset = [] ∧
    readyEvents { State.reset with oneSecond := some 0 } ≠ [] := by decide
theorem witness_BodiesAndRequestsAgree :
    requestBody (.unknownKind 0 0x0F#8 [0#8]) = some (0, [0x0F#8, 0#8]) ∧
    (Instr.unknownKind 0 0x0F#8 [0#8]).wellFormed = true := by decide
theorem witness_TakenRequestIsAnsweredOnce : Standing (.stop 0 [0#8]) flowing ∧
    ∃ t, exec (.stop 0 [0#8]) flowing = .next t := ⟨stands rfl rfl rfl rfl, _, rfl⟩
theorem witness_UntakenCommandsChangeNothing :
    8 ≤ ((State.reset.modPort 0 fun x => { x with
      replies := List.replicate 8 ⟨0#8, none, [], none⟩ }).port 0).replies.length ∧
    ({ State.reset with phase := .held } : State).phase ≠ .serving ∧
    ((State.reset.modPort 0 fun x => { x with rxBuffer := [[1#8, 2#8]] }).port 0).rxBuffer = [[1#8, 2#8]] := by decide
theorem witness_RefusedRequestChangesNothing : ∃ t r, Standing (.stop 0 [0#8]) State.reset ∧
    exec (.stop 0 [0#8]) State.reset = .next t ∧
    (t.port 0).outReplies = (State.reset.port 0).outReplies ++ [r] ∧ r.refusal = some .badState :=
  ⟨_, ⟨0x14#8, some .badState, subjectFields [0#8], none⟩, stands rfl rfl rfl rfl, rfl, by decide, rfl⟩
theorem witness_ScreenAndSubjectRefusals :
    Standing (.unknownKind 0 0x0F#8 [0#8]) State.reset ∧ Standing (.stop 4 [0#8]) State.reset ∧
    Standing (.stop 0 []) State.reset ∧ Standing (.stop 0 [2#8]) State.reset ∧ NamesUnknown (.stop 0 [2#8]) :=
  ⟨stands rfl rfl rfl rfl, stands rfl rfl rfl rfl, stands rfl rfl rfl rfl, stands rfl rfl rfl rfl, rfl, .inr (by decide)⟩
/-- A port that is ALIVE, with one reply. -/
def alive : Port := { Port.initial with
  supervision := ⟨1000, 0, .alive, some 1000⟩, replies := [⟨0x14#8, none, [], none⟩]
  pending := [⟨.esd, 255, [], 0, 0#32⟩] }
theorem witness_TransmitterTakesTheNextFrame : Quiet State.reset ∧ alive.line = none ∧ alive.maySend = true ∧
    Port.initial.maySend = false ∧ { alive with replies := [] }.pending ≠ [] :=
  ⟨⟨rfl, rfl⟩, by decide⟩
theorem witness_PositionOpenResult : Standing (.positionOpen 0 [byteOf 0, 0#8, 1#8, 0#8]) (atState .unavailable) :=
  stands rfl rfl rfl rfl
theorem witness_PositionCloseResult : Standing (.positionClose 0 [byteOf 0]) (atState .ready) := stands rfl rfl rfl rfl
theorem witness_NozzleResult : Standing (.nozzle 0 [byteOf 0, 1#8]) flowing := stands rfl rfl rfl rfl
theorem witness_StartRefusalsInOrder : Standing (.start 0 [byteOf 0]) State.reset := stands rfl rfl rfl rfl
theorem witness_StartOpensTheTransaction :
    Standing (.start 0 [byteOf 0]) station ∧ station.esd.latched = false ∧ (station.pos 0).state = .ready ∧
    (∃ ambient, freshAmbient station.clock station.ambient = some ambient ∧ ambient ≤ 500) ∧
    chooseClass station 0 = some (0, ⟨true, 1#6, true, 0, 0, 1349000⟩) ∧
    (station.pos 0).authorization = some ⟨7#32, 1#6, .none, true⟩ ∧ station.openSlot 0 = none ∧
    station.slot 0 = .free ∧ ∀ j : SlotId, j < 0 → station.slot j ≠ .free :=
  ⟨stands rfl rfl rfl rfl, rfl, rfl, ⟨500, by decide, by decide⟩, by decide, rfl, by decide, by decide,
    fun j h => absurd h (by simp)⟩
/-- The station with 64 CLOSED records. -/
def fullStation : State :=
  { station with work := { station.work with slots := Vector.replicate 64 (withClosed.slot 3) } }
theorem witness_StartOpensTheTransaction_full : Standing (.start 0 [byteOf 0]) fullStation ∧
    chooseClass fullStation 0 = some (0, ⟨true, 1#6, true, 0, 0, 1349000⟩) ∧ fullStation.openSlot 0 = none ∧
    ∀ i : SlotId, fullStation.slot i ≠ .free :=
  ⟨stands rfl rfl rfl rfl, by decide, by decide, by decide⟩
theorem witness_StopAndExpiriesEndTheFill : Standing (.stop 0 [byteOf 0]) flowing ∧ Quiet flowing ∧
    Quiet (filling .hold) := ⟨stands rfl rfl rfl rfl, ⟨rfl, rfl⟩, ⟨rfl, rfl⟩⟩
theorem witness_AuthorizeResult : Standing (.authorize 5
    [byteOf 0, 7#8, 0#8, 0#8, 0#8, 63#8, 1#8, 0x3F#8, 0x42#8, 0x0F#8, 0#8]) (atState .idle) := stands rfl rfl rfl rfl
theorem witness_CancelAndAuthorizationLife :
    Standing (.cancel 5 [byteOf 0, 7#8, 0#8, 0#8, 0#8]) (atState .ready) ∧ Quiet (atState .ready) :=
  ⟨stands rfl rfl rfl rfl, ⟨rfl, rfl⟩⟩
/-- A fill at the end of its pulse. -/
def pulsed : State := (filling .pulse).modPos 0 fun x => { x with pulseState := some .pulsing }
theorem witness_PulseExpiryResult : Quiet pulsed ∧ (pulsed.pos 0).state = .pulse ∧
    (pulsed.pos 0).pulseState = some .pulsing ∧ (pulsed.pos 0).cls = some 0 ∧ heldPressure (pulsed.pos 0) = 1000 ∧
    ¬ Waits pulsed 0 := ⟨⟨rfl, rfl⟩, rfl, rfl, rfl, rfl, by unfold Waits; decide⟩
theorem witness_LeakCheckExpiryResult : Quiet (filling .leakCheck) ∧ ((filling .leakCheck).pos 0).state = .leakCheck ∧
    ((filling .leakCheck).pos 0).cls = some 0 ∧ ((fixTarget 0 0 (filling .leakCheck)).pos 0).bank = none :=
  ⟨⟨rfl, rfl⟩, rfl, rfl, by decide⟩
theorem witness_RampEntryFixesTheTarget : ((filling .leakCheck).pos 0).cls = some 0 := rfl
theorem witness_SettleExpiryClosesTheTransaction : ∃ r, Quiet (filling .ending) ∧
    ((filling .ending).pos 0).state = .ending ∧ (filling .ending).openSlot 0 = some 0 ∧
    (filling .ending).slot 0 = .txn r := ⟨_, ⟨rfl, rfl⟩, rfl, by decide, rfl⟩
theorem witness_PeriodExpiryMetersAndBills : ∃ r, Quiet flowing ∧ flowing.openSlot 0 = some 0 ∧
    flowing.slot 0 = .txn r ∧ (flowing.pos 0).periodTimer = some 0 := ⟨_, ⟨rfl, rfl⟩, by decide, rfl, rfl⟩
theorem witness_RampStepMovesTheSetPoint : ∃ r, Quiet flowing ∧ flowing.slot 0 = .txn r ∧ r.preset = .none ∧
    ((flowing.pos 0).periodTimer = some 0 ∧ (flowing.pos 0).state = .ramp ∧ (flowing.pos 0).bank = some 2 ∧
    (flowing.pos 0).cls = some 0 ∧ (flowing.pos 0).mode = some .noncomm ∧ (flowing.pos 0).ramp.lastTaken = none ∧
    (flowing.pos 0).ramp.buffer = [] ∧ (flowing.pos 0).ramp.inUse = some ⟨20, 3000⟩ ∧
    (flowing.pos 0).ramp.pSet = some 1000 ∧ (flowing.pos 0).ramp.pTarget = some 3000 ∧ flowing.openSlot 0 = some 0 ∧
    ((flowing.chan 0).accumulate (flowing.cal 0)).exceeds = false ∧ (flowing.chan 0).overflow = false ∧
    (flowing.chan 0).stalled flowing.clock = false ∧
    heldPressure (flowing.pos 0) + flowing.margin ≤ flowing.bankPressure 2 ∧ (flowing.pos 0).ramp.lowFlow = 0) :=
  ⟨_, ⟨rfl, rfl⟩, rfl, rfl, by decide⟩
/-- The fill at a bank of a pressure, or held for its vehicle, with a mode, reports and the count of holds in a row. -/
def reporting (st : PosState) (m : FillMode) (l : List VehicleReport) (row bankPressure : Nat) : State :=
  (flowing.modBank 2 fun x => { x with report := some ⟨bankPressure, 200, 0#32⟩ }).modPos 0 fun x => { x with
    state := st, mode := some m, bank := if st = .ramp then some 2 else none
    holdReason := if st = .hold then some .vehicle else none
    ramp := { x.ramp with buffer := l, consecutiveHolds := row, lowFlow := 1 } }
/-- A report of a pressure, a temperature and a command. -/
def reported (pressure : Nat) (temperature : Int) (order : VehicleCommand) : VehicleReport :=
  ⟨100, pressure, temperature, order, false⟩
/-- The open record of the fill. -/
def fillRecord : TxnRecord := openingRecord 1 0 0 ⟨7#32, 1#6, .none, false⟩ .noncomm 1349000 ⟨0#32, ⟨0, 0, false⟩⟩
theorem reporting_metered (st : PosState) (m : FillMode) (l : List VehicleReport) (row bankPressure : Nat) :
    Metered (reporting st m l row bankPressure) 0 0 0 fillRecord where
  quiet := ⟨rfl, rfl⟩
  due := rfl
  notWaiting := by
    have hd : (reporting st m l row bankPressure).drawList = [] := rfl
    have hw : (reporting st m l row bankPressure).cooling.wait = [] := rfl
    simp [Waits, hd, hw]
  cls := rfl
  opens := by
    have h : (reporting st m l row bankPressure).openSlot 0 = flowing.openSlot 0 := rfl
    rw [h]; decide
  record := rfl
  noPreset := rfl
  inRange := by
    have h : (reporting st m l row bankPressure).chan 0 = flowing.chan 0 := rfl
    have k : (reporting st m l row bankPressure).cal 0 = flowing.cal 0 := rfl
    rw [h, k]; decide
  noOverflow := rfl
  noStall := rfl
/-- A hot tank, ABORT, HALT, and no report for the third time, at a COMM fill. -/
theorem witness_RampStepMovesTheSetPoint_reports :
    ((reporting .ramp .comm [reported 500 850 .run] 0 3000).pos 0).ramp.buffer.getLast? = some (reported 500 850 .run) ∧
    ((reporting .ramp .comm [reported 500 849 .abort] 0 3000).pos 0).ramp.buffer.getLast? =
      some (reported 500 849 .abort) ∧
    ((reporting .ramp .comm [reported 500 849 .halt] 0 3000).pos 0).ramp.buffer.getLast? =
      some (reported 500 849 .halt) ∧
    ((reporting .ramp .comm [] 2 3000).pos 0).ramp.buffer.getLast?.or
      ((reporting .ramp .comm [] 2 3000).pos 0).ramp.lastTaken = none ∧
    ((reporting .ramp .comm [] 2 3000).pos 0).ramp.inUse = some ⟨20, 3000⟩ ∧
    ((reporting .ramp .comm [] 2 3000).pos 0).ramp.pSet = some 1000 := by decide
/-- RUN at a fill held for its vehicle. -/
theorem witness_RampStepMovesTheSetPoint_resume :
    ((reporting .hold .comm [reported 500 849 .run] 0 3000).pos 0).state = .hold ∧
    ((reporting .hold .comm [reported 500 849 .run] 0 3000).pos 0).holdReason = some .vehicle ∧
    ((reporting .hold .comm [reported 500 849 .run] 0 3000).pos 0).bank = none ∧
    ((reporting .hold .comm [reported 500 849 .run] 0 3000).pos 0).ramp.buffer.getLast? =
      some (reported 500 849 .run) := by decide
/-- A COMM fill whose target stays above the set-point. -/
theorem witness_RampStepMovesTheSetPoint_comm :
    let s := reporting .ramp .comm [reported 500 150 .run] 0 3000
    (s.pos 0).state = .ramp ∧ (s.pos 0).bank = some 2 ∧ (s.pos 0).mode = some .comm ∧
    (s.pos 0).ramp.buffer.getLast?.or (s.pos 0).ramp.lastTaken = some (reported 500 150 .run) ∧
    (s.pos 0).ramp.pSet = some 1000 ∧ (s.pos 0).ramp.inUse = some ⟨20, 3000⟩ ∧
    1000 ≤ min ((classRow 0).pNom * ((150 : Int) + 2732).toNat / 2882) (classRow 0).pMax := by decide
/-- A NONCOMM fill at a bank too low, and one that has been slow twice at a bank that is not. -/
theorem witness_RampStepMovesTheSetPoint_switch :
    let low := reporting .ramp .noncomm [] 0 1100
    let slow := reporting .ramp .noncomm [] 0 3000
    (low.pos 0).ramp.lastTaken = none ∧ low.bankPressure 2 < heldPressure (low.pos 0) + low.margin ∧
    ¬ slow.bankPressure 2 < heldPressure (slow.pos 0) + slow.margin ∧
    rne ((slow.chan 0).accumulate (slow.cal 0)).acc gramUnits - (slow.pos 0).ramp.previousMass < slow.switchMass ∧
    (slow.pos 0).ramp.lowFlow = 1 ∧ (slow.pos 0).ramp.pSet = some 1000 ∧ (slow.pos 0).ramp.pTarget = some 3000 := by
  decide
theorem test_close_drops_the_start_entry : ((after (.settleExpiry 0) ((filling .ending).modPos 0 fun x =>
    { x with ramp := { x.ramp with startEntry := some ⟨20, 3000⟩ } })).pos 0).ramp.startEntry = none := by decide
/-- The older entry goes first until its age passes 2^32 ms (R78). -/
theorem test_queue_age_wraps :
    (orderQueue 0xFFFFFFFF#32 [⟨1, .low, 1#32, .lowPressure⟩, ⟨0, .low, 0#32, .lowPressure⟩]).map (·.bank) = [0, 1] ∧
    (orderQueue 0#32 [⟨0, .low, 0#32, .lowPressure⟩, ⟨1, .low, 1#32, .lowPressure⟩]).map (·.bank) = [1, 0] := by decide
theorem test_ramp_report_halts : ((after (.periodExpiry 0)
    (reporting .ramp .comm [reported 500 849 .halt] 0 3000)).pos 0).holdReason = some .vehicle := by decide
theorem test_ramp_third_hold_degrades : ((after (.periodExpiry 0)
    (reporting .ramp .comm [] 2 3000)).pos 0).mode = some .noncomm := by decide
/-- A state in which no position waits, holds a grant or stands against the latch, position by position. -/
theorem esdLaw_of {s : State} (hd : s.drawList = []) (hw : s.cooling.wait = []) (hl : s.esd.latched = false)
    (hg : ∀ p, (s.grantOf (.pos p)).grant = 0) : EsdLaw s where
  drawers := by simp [hd]
  coolers := by simp [hw]
  granted := fun p h => absurd (hg p) h
  noFill := by simp [hl]
  noRefill := by simp [hl]
theorem witness_PositionReportResult : Standing (.positionReport 0 [byteOf 0, 0xE0#8, 0x11#8]) flowing ∧ EsdLaw flowing :=
  ⟨stands rfl rfl rfl rfl, esdLaw_of rfl rfl rfl (by decide)⟩
theorem witness_VehicleDataResult : Standing (.vehicleData 0 [byteOf 0, 10#8, 0#8, 0#8, 0#8, 0#8, 0#8, 0#8]) (atState .idle) :=
  stands rfl rfl rfl rfl
theorem witness_PlantSettingsResult : Standing (.positionConfig 4 [byteOf 7, 3#8]) State.reset ∧
    Standing (.ambientReport 4 [0#8, 0#8]) State.reset ∧
    Standing (.rampTable 4 (5#8 :: List.replicate 24 0xFF#8)) State.reset ∧ (List.replicate 24 0xFF#8).length = 24 :=
  ⟨stands rfl rfl rfl rfl, stands rfl rfl rfl rfl, stands rfl rfl rfl rfl, rfl⟩
theorem witness_StationAndWindowResult :
    Standing (.stationConfig 4 [50#8, 0#8, 1#8, 0#8, 0#8, 0#8, 1#8, 0#8, 0#8, 0#8]) State.reset ∧
    Standing (.tierWindow 4 [2#8, 0#8, 0#8, 0xE0#8, 0x2E#8]) State.reset :=
  ⟨stands rfl rfl rfl rfl, stands rfl rfl rfl rfl⟩
theorem witness_BankConfigAndOnlineResult :
    Standing (.bankConfig 4 [byteOf 11, 2#8, 100#8, 0#8, 99#8, 0#8, 100#8, 0#8]) State.reset ∧
    Standing (.bankOnline 4 [byteOf 2]) (withBank .offline State.reset) :=
  ⟨stands rfl rfl rfl rfl, stands rfl rfl rfl rfl⟩
theorem witness_BankLeavesServiceResult : Standing (.bankOffline 4 [byteOf 2]) flowing ∧
    Standing (.bankLock 4 [byteOf 2]) flowing ∧ Quiet flowing ∧ (flowing.bank 2).staleWatch = some 0 :=
  ⟨stands rfl rfl rfl rfl, stands rfl rfl rfl rfl, ⟨rfl, rfl⟩, rfl⟩
theorem witness_WithdrawnFillAsksAgain : EvtLaw flowing ∧ Standing (.bankOffline 4 [byteOf 2]) flowing ∧
    (flowing.bank 2).state = .drawing ∧ (flowing.bank 2).holder = some (.pos 0) ∧ (flowing.pos 0).bank = some 2 ∧
    (∀ w ∈ flowing.drawList, w.pos ≠ 0) ∧ ∀ q ∈ flowing.queue, q.bank ≠ 2 :=
  ⟨rfl, stands rfl rfl rfl rfl, rfl, rfl, rfl, by decide, by decide⟩
theorem witness_BankUnlockResult : Standing (.bankUnlock 4 [byteOf 2, 15#8]) (withBank .locked State.reset) :=
  stands rfl rfl rfl rfl
theorem witness_RefillRequestResult : Standing (.refillRequest 4 [byteOf 2]) (withBank .idle State.reset) :=
  stands rfl rfl rfl rfl
theorem waitLaw_of {s : State} (hw : s.cooling.wait = []) : WaitLaw s := by simp [WaitLaw, hw]
theorem refilling_compLaw : CompLaw refilling := ⟨by decide, by decide, by decide⟩
theorem witness_BankReportResult :
    Standing (.bankReport 4 [byteOf 2, 0xB8#8, 0x0B#8, 0x52#8, 3#8]) (withBank .idle State.reset) ∧
    BankLaw (withBank .idle State.reset) ∧ CompLaw (withBank .idle State.reset) ∧ WaitLaw (withBank .idle State.reset) :=
  ⟨stands rfl rfl rfl rfl, fun b => by fin_cases b <;> trivial, ⟨by decide, by decide, by decide⟩, waitLaw_of rfl⟩
/-- A refill that a report of 7999 lets go on and one of 8000 completes. -/
theorem witness_BankReportResult_refilling :
    Standing (.bankReport 4 [byteOf 2, 0x3F#8, 0x1F#8, 0#8, 0#8]) refilling ∧
    Standing (.bankReport 4 [byteOf 2, 0x40#8, 0x1F#8, 0#8, 0#8]) refilling ∧ BankLaw refilling ∧ CompLaw refilling ∧
    WaitLaw refilling ∧ (refilling.bank 2).state = .refilling ∧ (refilling.bank 2).holder = some (.comp 0) ∧
    (refilling.comp 0).state = .running ∧ (refilling.comp 0).bank = some 2 ∧
    (refilling.bank 2).config = some ⟨.low, 9000, 100, 8000⟩ ∧ refilling.drawList = [] ∧ refilling.queue = [] ∧
    refilling.cooling.wait = [] :=
  ⟨stands rfl rfl rfl rfl, stands rfl rfl rfl rfl, fun b => by fin_cases b <;> trivial, refilling_compLaw,
    waitLaw_of rfl, rfl, rfl, rfl, rfl, rfl, rfl, rfl, rfl⟩
theorem witness_CompressorResult : Standing (.compressorConfig 4 [byteOf 0, 1#8, 0#8]) State.reset ∧
    Standing (.compressorReady 4 [byteOf 0]) (withCompressor .unavailable State.reset) ∧
    Standing (.compressorUnavailable 4 [byteOf 0]) refilling ∧ CompLaw refilling :=
  ⟨stands rfl rfl rfl rfl, stands rfl rfl rfl rfl, stands rfl rfl rfl rfl, refilling_compLaw⟩
theorem witness_RefillEndsResult : Standing (.refillDone 4 [byteOf 0]) refilling ∧
    Standing (.refillWithdraw 4 [byteOf 0, 1#8]) refilling ∧ CompLaw refilling ∧ WaitLaw refilling ∧
    (refilling.comp 0).state = .running ∧ (refilling.comp 0).bank = some 2 ∧
    (refilling.comp 0).entryHeld = some ⟨2, .low, 0#32, .plantRequest⟩ ∧ (refilling.bank 2).state = .refilling ∧
    ∀ q ∈ refilling.queue, q.bank ≠ 2 :=
  ⟨stands rfl rfl rfl rfl, stands rfl rfl rfl rfl, refilling_compLaw, waitLaw_of rfl, rfl, rfl, rfl, rfl, by decide⟩
theorem witness_LaneConfigAndEnableResult : Standing (.laneConfig 4 [byteOf 3, 3#8, 100#8, 0#8, 63#8]) State.reset ∧
    Standing (.laneEnable 0 [byteOf 0, 1#8]) (withLane .ready State.reset) ∧ portRole 0 ≠ .till :=
  ⟨stands rfl rfl rfl rfl, stands rfl rfl rfl rfl, by decide⟩
theorem witness_LaneReportAndFaultResult :
    Standing (.laneReport 4 [byteOf 0, 0x51#8, 0xFF#8]) (withLane .pulldown State.reset) ∧
    Standing (.laneFaultClear 4 [byteOf 0]) (withLane .fault State.reset) ∧ Quiet (withLane .pulldown State.reset) :=
  ⟨stands rfl rfl rfl rfl, stands rfl rfl rfl rfl, ⟨rfl, rfl⟩⟩
/-- A report of −175 lifts class 1, whose fill is in HOLD for warmth. -/
theorem witness_LaneReportAndFaultResult_lift :
    Standing (.laneReport 4 [byteOf 0, 0x51#8, 0xFF#8]) warmHeldFill ∧ (warmHeldFill.lane 0).state = .ready ∧
    (warmHeldFill.pos 0).lane = some 0 ∧ (warmHeldFill.pos 0).state = .hold ∧
    (warmHeldFill.pos 0).holdReason = some .laneWarm ∧ (warmHeldFill.pos 0).bank = none ∧
    (warmHeldFill.pos 0).cls = some 1 ∧ (warmHeldFill.lane 0).warmHold.getLsbD 1 = true :=
  ⟨stands rfl rfl rfl rfl, rfl, rfl, rfl, rfl, rfl, rfl, rfl⟩
theorem witness_LaneStaleAndWarmResult : Quiet (withLane .ready flowing) ∧
    ((withLane .ready flowing).lane 0).staleWatch = some 0 ∧ ((withLane .ready flowing).lane 0).warmTimer = some 0 :=
  ⟨⟨rfl, rfl⟩, by decide, by decide⟩
theorem coolingLaw_of {s : State} (hs : s.sumGrants ≤ s.cooling.capacity)
    (hp : ∀ p, (s.grantOf (.pos p)).grant ≠ 0 → .pos p ∈ s.cooling.order)
    (hc : ∀ c, (s.grantOf (.comp c)).grant ≠ 0 → .comp c ∈ s.cooling.order) : CoolingLaw s :=
  ⟨hs, fun r => match r with | .pos p => hp p | .comp c => hc c⟩
theorem witness_CoolingReportResult : Standing (.coolingReport 4 [0x88#8, 0x13#8]) flowing ∧ CoolingLaw flowing :=
  ⟨stands rfl rfl rfl rfl, coolingLaw_of (by decide) (by decide) (by decide)⟩
theorem budget_grantLaw : GrantLaw budget where
  ordered := fun r => match r with
    | .pos p => by fin_cases p <;> decide
    | .comp c => by fin_cases c <;> decide
  once := by decide
  fills := by decide
  refills := by decide
  waiters := by decide
theorem budget_esdLaw : EsdLaw budget := ⟨by decide, by decide, by decide, by decide, by decide⟩
theorem budget_compLaw : CompLaw budget := ⟨by decide, by decide, by decide⟩
theorem budget_holderLaw : HolderLaw budget :=
  ⟨by decide, by decide, by decide, by decide, fun w h => absurd (show w ∈ [] from h) (by simp)⟩
theorem budget_budgetLaw : BudgetLaw budget where
  floors := fun r => match r with
    | .pos p => by fin_cases p <;> rfl
    | .comp c => by fin_cases c <;> rfl
  grants := fun r => match r with
    | .pos p => by fin_cases p <;> decide
    | .comp c => by fin_cases c <;> decide
  whole := by decide
  flowing := fun p k hk _ hf => by
    have grants : ∀ p, (budget.pos p).holdReason = some .cooling ∨
      (budget.grantOf (.pos p)).floor ≤ (budget.grantOf (.pos p)).grant := by decide
    have flows : ∀ p, (budget.pos p).state ≠ .ramp := by decide
    exact (grants p).resolve_left fun h => hf.elim (flows p) fun h' => h'.2 h
  asking := by decide
  waiting := by decide
  once := by decide
  fillsFirst := by decide
  derated := by decide
  head := fun w rest h => by
    obtain ⟨rfl, -⟩ : (⟨.pos 5, 0#32⟩ : CoolWait) = w ∧ _ := List.cons.inj h
    decide
/-- A rise to 600, of which every waiting car has its floor, and a fall to 100. -/
theorem witness_CoolingReportResult_budget : Standing (.coolingReport 4 [0x58#8, 2#8]) budget ∧
    Standing (.coolingReport 4 [100#8, 0#8]) budget ∧ CoolingLaw budget ∧ EsdLaw budget ∧ CompLaw budget ∧
    WaitLaw budget ∧ GrantLaw budget ∧ HolderLaw budget ∧ BudgetLaw budget ∧ budget.esd.latched = false ∧
    budget.cooling.capacity < 600 ∧ 100 < budget.sumGrants :=
  ⟨stands rfl rfl rfl rfl, stands rfl rfl rfl rfl, coolingLaw_of (by decide) (by decide) (by decide), budget_esdLaw,
    budget_compLaw, by unfold WaitLaw; decide, budget_grantLaw, budget_holderLaw, budget_budgetLaw, rfl, by decide,
    by decide⟩
theorem witness_CalibrationWriteResult :
    Standing (.calWrite 4 [byteOf 0, 1#8, 0#8, 0x33#8, 0xF3#8, 0#8, 0#8]) State.reset ∧
    State.reset.work.calibration.counter < 65535 := ⟨stands rfl rfl rfl rfl, by decide⟩
theorem witness_TariffAndClockResult : Standing (.tariffRead 5 [byteOf 0]) station ∧
    Standing (.tariffSet 5 [byteOf 7, 0#8, 0#8, 0#8, 0#8, 0#8, 0#8, 0#8, 0#8, 0#8, 0#8, 0#8, 0#8, 0#8, 0#8, 0#8])
      State.reset ∧ Standing (.setClock 5 [0#8, 0#8, 0x7F#8, 0x51#8, 1#8, 0#8]) State.reset :=
  ⟨stands rfl rfl rfl rfl, stands rfl rfl rfl rfl, stands rfl rfl rfl rfl⟩
theorem witness_RecordsTotalsAndSnapshot : ∃ r, Standing (.txnRead 5 [5#8, 0#8, 0#8, 0#8]) withClosed ∧
    Standing (.txnRelease 5 [5#8, 0#8, 0#8, 0#8]) withClosed ∧ withClosed.slot 3 = .txn r ∧ r.number = 5 ∧
    (∀ j, (withClosed.slot j).number = 5 ∧ withClosed.slot j ≠ .free → j = 3) ∧ withClosed.collectable 3 = true ∧
    (∀ j, j ≠ 3 → withClosed.collectable j = true → r.number < (withClosed.slot j).number) ∧
    (∀ i, State.reset.collectable i = false) ∧ Standing (.totalsRead 5 [0#8]) withClosed ∧
    Standing (.totalsSnapshot 5 [0#8]) withClosed ∧ Standing (.snapshotRead 5 [0#8]) withClosed :=
  ⟨_, stands rfl rfl rfl rfl, stands rfl rfl rfl rfl, rfl, rfl, by decide, by decide, by decide, by decide,
    stands rfl rfl rfl rfl, stands rfl rfl rfl rfl, stands rfl rfl rfl rfl⟩
theorem witness_QueriesAndPortSettings : Standing (.positionQuery 5 [byteOf 7]) State.reset ∧
    Standing (.statusQuery 3 [0#8]) State.reset ∧ Standing (.countersRead 3 [0#8]) State.reset ∧
    Standing (.countersClear 3 [0#8]) State.reset ∧ Standing (.supervisionSet 3 [0xD0#8, 7#8]) State.reset ∧
    Standing (.noticeSet 3 [7#8, 0xC4#8, 0xFF#8]) State.reset :=
  ⟨stands rfl rfl rfl rfl, stands rfl rfl rfl rfl, stands rfl rfl rfl rfl, stands rfl rfl rfl rfl,
    stands rfl rfl rfl rfl, stands rfl rfl rfl rfl⟩
theorem flowing_compLaw : CompLaw flowing := ⟨by decide, by decide, by decide⟩
theorem witness_EsdEdgeStopsTheStation : Quiet flowing ∧ flowing.esd.latched = false ∧ CompLaw flowing ∧
    ({ flowing with phase := .settling } : State).phase ≠ .serving ∧
    ({ flowing with esd := ⟨true, none⟩ } : State).esd.latched = true :=
  ⟨⟨rfl, rfl⟩, rfl, flowing_compLaw, by decide, rfl⟩
theorem witness_EsdClearResult : Standing (.esdClear 4 [0#8]) clearAndEdge ∧ clearAndEdge.pins.esdN = true ∧
    clearAndEdge.esd.latched = true ∧ clearAndEdge.pending = .esdClear 4 [0#8] :: .esdNFallingEdge :: [] :=
  ⟨⟨rfl, by decide, .inl (by decide), rfl⟩, rfl, rfl, rfl⟩
theorem witness_ReceiverEventsResult : Quiet State.reset ∧ ((251#8).toNat < 2 ∨ 250 < (251#8).toNat) ∧
    2 ≤ ([0x52#8, 0#8] : List Byte).length := ⟨⟨rfl, rfl⟩, by decide, by decide⟩
/-- A fill whose plant and first island have missed an interval, which ends again. -/
def losing : State :=
  (flowing.modPort 0 fun x => { x with supervision := ⟨1000, 1, .late, some 0⟩ }).modPort 4 fun x =>
    { x with supervision := ⟨1000, 1, .late, some 0⟩ }
theorem witness_IntervalExpiryMarksThePort : Quiet losing ∧ (losing.port 0).supervision.timer = some 0 :=
  ⟨⟨rfl, rfl⟩, rfl⟩
/-- Nobody waits and nobody holds a grant. -/
theorem grantLaw_of {s : State} (ho : s.cooling.order = []) (hw : s.cooling.wait = [])
    (hp : ∀ p, (s.grantOf (.pos p)).grant = 0) (hc : ∀ c, (s.grantOf (.comp c)).grant = 0) : GrantLaw s where
  ordered := fun r => match r with | .pos p => by simp [ho, hp] | .comp c => by simp [ho, hc]
  once := by simp [ho]
  fills := fun p h => absurd (hp p) h
  refills := fun c h => absurd (hc c) h
  waiters := by simp [hw]
theorem losing_holderLaw : HolderLaw losing :=
  ⟨by decide, by decide, by decide, by decide, fun w h => absurd (show w ∈ [] from h) (by simp)⟩
theorem witness_PortLossTearsDown : Quiet losing ∧ (losing.port 0).supervision.timer = some 0 ∧
    (losing.port 0).supervision.count ≠ 0 ∧ (losing.port 4).supervision.timer = some 0 ∧
    (losing.port 4).supervision.count ≠ 0 ∧ EsdLaw losing ∧ CompLaw losing ∧ WaitLaw losing ∧
    GrantLaw losing ∧ BankLaw losing ∧ HolderLaw losing ∧ CoolingLaw losing :=
  ⟨⟨rfl, rfl⟩, rfl, by decide, rfl, by decide, esdLaw_of rfl rfl rfl (by decide), ⟨by decide, by decide, by decide⟩,
    waitLaw_of rfl, grantLaw_of rfl rfl (by decide) (by decide), fun b => by fin_cases b <;> trivial, losing_holderLaw, coolingLaw_of (by decide) (by decide) (by decide)⟩
theorem witness_PulsesGatesAndSeconds : Quiet State.reset ∧
    ({ State.reset with phase := .recovering } : State).phase = .recovering ∧
    ({ State.reset with oneSecond := some 0, tod := ⟨65535, 86399, true⟩ } : State).tod.second < 86400 :=
  ⟨⟨rfl, rfl⟩, rfl, by decide⟩
theorem witness_GroupCompletionStoresTogether : Quiet State.reset ∧ State.reset.inFlight .totals = false ∧
    ({ State.reset with groups := [⟨[.nextNumber 9], 0⟩] } : State).groups.find? (fun g => g.holds .nextNumber) =
      some ⟨[.nextNumber 9], 0⟩ := ⟨⟨rfl, rfl⟩, by decide, by decide⟩
theorem witness_LinesPowerAndReset : State.reset.phase ≠ .off ∧ State.reset.groups = [] := by decide
theorem witness_StartUpResetsAndRecovers :
    ({ flowing with phase := .settling } : State).phase = .settling ∧ flowing.groups = [] := ⟨rfl, rfl⟩

/-! A state with a cooled fill in HOLD, a bank queued for refill and one edge waiting, which obeys every law that
steps keep. -/

/-- The cooled fill: class 3, set-point 1000 of target 3000, waiting for a bank other than bank 2; bank 2 IDLE and
queued. -/
def lawful : State :=
  { withBank .idle (State.reset.modPos 0 fun x => { x with
      state := .hold, holdReason := some .bank, cls := some 3
      ramp := { x.ramp with pSet := some 1000, pTarget := some 3000 } }) with
    pending := [.pulseEdge 0]
    drawList := [⟨0, .ramp, 0#32, some 2⟩]
    queue := [⟨2, .low, 0#32, .plantRequest⟩] }
theorem lawful_steps : ∃ t, step lawful = .next t := ⟨_, rfl⟩
theorem lawful_waiter {w : DrawWait} (h : w ∈ lawful.drawList) : w = ⟨0, .ramp, 0#32, some 2⟩ := List.mem_singleton.1 h
theorem lawful_holderLaw : HolderLaw lawful :=
  ⟨by decide, by decide, by decide, by decide, fun w h => by rw [lawful_waiter h]; exact ⟨rfl, rfl, rfl⟩⟩
theorem lawful_drawLaw : DrawLaw lawful := by
  have idle : ∀ b, (lawful.bank b).state = .idle → b = 2 := by decide
  refine ⟨by decide, fun w h b hb => ?_⟩
  rw [lawful_waiter h] at hb
  obtain ⟨hi, r, g, -, -, -, he, -⟩ := hb
  exact he (congrArg some (idle b hi).symm)
theorem lawful_waits : EsdLaw lawful ∧ CompLaw lawful ∧ WaitLaw lawful ∧ GrantLaw lawful :=
  ⟨⟨by decide, by decide, by decide, by decide, by decide⟩, ⟨by decide, by decide, by decide⟩, waitLaw_of rfl,
    grantLaw_of rfl rfl (by decide) (by decide)⟩
theorem witness_StepKeepsBlockLaws : EvtLaw lawful ∧ PortLaw lawful ∧ ChannelLaw lawful ∧ LaneLaw lawful ∧
    BankLaw lawful ∧ HolderLaw lawful ∧ QueueLaw lawful ∧ DrawLaw lawful ∧ EsdLaw lawful ∧ CompLaw lawful ∧
    WaitLaw lawful ∧ GrantLaw lawful :=
  ⟨rfl, fun n => by fin_cases n <;> exact ⟨by decide, by decide, by decide, by decide, by decide, by decide, rfl, rfl⟩,
    by unfold ChannelLaw; decide, fun l => by fin_cases l <;> exact ⟨rfl, by decide, by decide, by decide⟩,
    fun b => by fin_cases b <;> trivial, lawful_holderLaw,
    ⟨by decide, by decide, List.pairwise_singleton _ _, by decide, by decide⟩, lawful_drawLaw, lawful_waits⟩
theorem witness_StepKeepsGrantsWithinCapacity : (∃ t, step budget = .next t) ∧ CoolingLaw budget ∧ EvtLaw budget ∧
    HolderLaw budget ∧ EsdLaw budget ∧ CompLaw budget ∧ WaitLaw budget ∧ GrantLaw budget ∧ BudgetLaw budget :=
  ⟨⟨_, rfl⟩, coolingLaw_of (by decide) (by decide) (by decide), rfl, budget_holderLaw, budget_esdLaw, budget_compLaw,
    by unfold WaitLaw; decide, budget_grantLaw, budget_budgetLaw⟩
theorem witness_StepKeepsTheEsdLatchInForce : EsdLaw lawful ∧ CompLaw lawful ∧ WaitLaw lawful ∧ GrantLaw lawful ∧
    HolderLaw lawful :=
  ⟨lawful_waits.1, lawful_waits.2.1, lawful_waits.2.2.1, lawful_waits.2.2.2, lawful_holderLaw⟩
theorem witness_StepKeepsTheSetPointBelowTheTarget : SetPointLaw lawful := by
  have table : ∀ k b, lawful.rampEntry k b = none := by decide
  have fills : ∀ p, (lawful.pos p).cls = none ∨ (lawful.pos p).cls = some 3 ∧
      (lawful.pos p).ramp.startEntry = none ∧ (lawful.pos p).ramp.inUse = none ∧
      (lawful.pos p).ramp.pSet = some 1000 ∧ (lawful.pos p).ramp.pTarget = some 3000 := by decide
  refine ⟨fun k b e h => by simp [table] at h, fun p k hk => ?_⟩
  rcases fills p with h | ⟨hc, hs, hu, hp, ht⟩
  · simp [h] at hk
  · obtain rfl : (3 : ClassId) = k := by simpa [hc] using hk
    rw [hs, hu, hp, ht]
    exact ⟨by simp, by simp, by decide, by decide⟩
/-- A READY position with its reservation beside one CLOSED record. -/
theorem witness_StepKeepsTheBooks_room : RoomLaw { withClosed with positions := station.positions } :=
  ⟨by decide, fun p => by fin_cases p <;> first | exact fun _ => ⟨_, rfl, rfl⟩ | exact fun h => absurd h (by decide)⟩
theorem witness_StepKeepsTheBooks : BillLaw withClosed ∧ TotalsLaw withClosed := by
  have slots : ∀ i : SlotId, i ≠ 3 → withClosed.work.slots[i] = .free := by decide
  have stored : ∀ i : SlotId, withClosed.store.slots[i] = .free := by decide
  have totals : Totals.zero.law := by unfold Totals.law; decide
  refine ⟨⟨fun i => ?_, fun i => ?_, by simp [withClosed, State.setSlot, State.reset]⟩, totals, totals, totals, totals, ?_⟩
  · rcases eq_or_ne i 3 with rfl | h
    · exact ⟨by decide, by decide⟩
    · rw [slots i h]; trivial
  · rw [stored i]; trivial
  · simp [withClosed, State.setSlot, State.reset]
theorem witness_OnlyTheseCommandsChange : ∃ t, exec .startUpServe { State.reset with phase := .recovering } = .next t ∧
    t.phase = .serving := ⟨_, rfl, rfl⟩

end Sys2Proof.Tests
end

section
/-! SUPPORT. What a request of an island or of the plant meets before its owning rule: the byte that names its
subject and the screen of R171; and POSITION_OPEN by its checks in order (R5). -/

namespace Sys2Proof.Machine

/-! ### Bytes that name numbers, ports and the screen -/

/-- The byte of a number names that number. -/
theorem idOf_byteOf {n : Nat} (h : n ≤ 256) (i : Fin n) : idOf n (byteOf i.val) = some i := by
  have hi : (byteOf i.val).toNat = i.val := by
    rw [byteOf, BitVec.toNat_ofNat]
    exact Nat.mod_eq_of_lt (by omega)
  simp [idOf, hi]

@[simp] theorem portRole_islandPort (p : PosId) : portRole (islandPort p) = .island :=
  if_pos (by simp only [islandPort]; omega)

@[simp] theorem portRole_plantPort : portRole plantPort = .plant := rfl

/-- R3: a request of a position's own island reaches the position. -/
@[simp] theorem forOwn_byteOf (p : PosId) (f : PosId → State → State × Answer) (s : State) :
    forOwn (islandPort p) (byteOf p.val) f s = f p s := by
  simp [forOwn, idOf_byteOf]

@[simp] theorem forPosition_byteOf (p : PosId) (f : PosId → State → State × Answer) (s : State) :
    forPosition (byteOf p.val) f s = f p s := by
  simp [forPosition, idOf_byteOf]

/-- R171: a request of a catalogue kind, from a role that may send it and of its length, passes the screen. -/
theorem screen_passes {port : PortId} {kind : Byte} {args : List Byte} {row : KindRow}
    (hk : kindRow kind.toNat = some row) (hr : portRole port ∈ row.roles)
    (hl : args.length + 1 = row.length) : screen port kind args = none := by
  simp [screen, hk, hr, hl]

/-- A request that stands finds no event under way. -/
theorem Standing.evt {c : Instr} {s : State} (h : Standing c s) : s.evt = .empty := by
  unfold Standing at h
  split at h
  · exact h.between
  · exact h.elim

/-! ### Updates of positions and the frame taken -/

theorem State.setPos_setPos (s : State) (p : PosId) (x y : Position) :
    (s.setPos p x).setPos p y = s.setPos p y := by
  simp [State.setPos]

@[simp] theorem dropFrame_pos (n : PortId) (s : State) (p : PosId) : (dropFrame n s).pos p = s.pos p := rfl

/-! ### POSITION_OPEN (R5) -/

theorem openPosition_badState {hose high nozzle : Byte} {p : PosId} {s : State}
    (h : (s.pos p).state ≠ .unavailable) :
    openPosition hose high nozzle p s = (s, .refused .badState) := if_pos h

theorem openPosition_notConfigured {hose high nozzle : Byte} {p : PosId} {s : State}
    (h : (s.pos p).state = .unavailable) (hl : (s.pos p).lane = none) :
    openPosition hose high nozzle p s = (s, .refused .notConfigured) := by
  simp [openPosition, h, hl, refuse]

theorem openPosition_range {hose high nozzle : Byte} {p : PosId} {s : State}
    (h : (s.pos p).state = .unavailable) (hl : (s.pos p).lane ≠ none)
    (hc : hoseTypeOf hose = none ∨ nozzleOf nozzle = none) :
    openPosition hose high nozzle p s = (s, .refused .range) := by
  rcases hc with hc | hc
  · simp [openPosition, h, hl, hc, refuse]
  · cases hk : hoseTypeOf hose <;> simp [openPosition, h, hl, hc, hk, refuse]

/-- R5, R9: an open position is IDLE or WAIT_AUTH, so its valve picture is CLOSED. -/
theorem openPosition_accepted {hose high nozzle : Byte} {p : PosId} {s : State} {kind : HoseType} {n : Nozzle}
    (h : (s.pos p).state = .unavailable) (hl : (s.pos p).lane ≠ none)
    (hk : hoseTypeOf hose = some kind) (hn : nozzleOf nozzle = some n) :
    openPosition hose high nozzle p s =
      (postDirective (islandPort p) (.valve p .closed none) (s.setPos p { s.pos p with
        hose := some ⟨kind, high != 0⟩
        nozzle := n
        state := if n = .off then .idle else .waitAuth }), .accepted [] none) := by
  cases n <;>
    simp [openPosition, h, hl, hk, hn, accept, sendValve, State.modPos, Position.picture,
      Position.directiveLane, flagOf]

theorem positionOpen_refuses {s : State} {p : PosId} {hose high nozzle : Byte} {code : RefusalCode}
    (h : Standing (.positionOpen (islandPort p) [byteOf p.val, hose, high, nozzle]) s)
    (ho : ∀ u : State, u.pos p = s.pos p → openPosition hose high nozzle p u = (u, .refused code)) :
    Refuses (.positionOpen (islandPort p) [byteOf p.val, hose, high, nozzle]) s code :=
  refuses_intro rfl rfl (screen_passes rfl (by simp) rfl) h ((forOwn_byteOf ..).trans (ho _ rfl))

/-- Settles O10: each check of R5 that fails refuses, and where all pass the owning rule's answer is the one reply. -/
theorem positionOpenResult : Obligations.PositionOpenResult := by
  rintro s p hose high nozzle c rfl h
  by_cases hu : (s.pos p).state = .unavailable
  · rw [if_neg (not_not.2 hu)]
    by_cases hl : (s.pos p).lane = none
    · rw [if_pos hl]
      exact positionOpen_refuses h fun u e => openPosition_notConfigured (e ▸ hu) (e ▸ hl)
    · rw [if_neg hl]
      have range (hc : hoseTypeOf hose = none ∨ nozzleOf nozzle = none) :
          Refuses (.positionOpen (islandPort p) [byteOf p.val, hose, high, nozzle]) s .range :=
        positionOpen_refuses h fun u e => openPosition_range (e ▸ hu) (e ▸ hl) hc
      cases hk : hoseTypeOf hose with
      | none => exact range (.inl hk)
      | some kind =>
        cases hn : nozzleOf nozzle with
        | none => exact range (.inr hn)
        | some n =>
          refine accepts_intro rfl rfl (screen_passes rfl (by simp) rfl) h ?_ h.evt
          rw [← postDirective_dropFrame]
          exact (forOwn_byteOf ..).trans (openPosition_accepted hu hl hk hn)
  · rw [if_pos hu]
    exact positionOpen_refuses h fun u e => openPosition_badState (e ▸ hu)

end Sys2Proof.Machine
end

section
/-! SUPPORT. START refused (R16), and the settings of the plant: POSITION_CONFIG (R4), AMBIENT_REPORT (R8) and
RAMP_TABLE (R33) from the bytes of its bands to the row it replaces. -/

namespace Sys2Proof.Machine

/-! ### START (R16) -/

/-- The checks of START read nothing of the links. -/
theorem startCheck_dropFrame (n : PortId) (s : State) (p : PosId) :
    startCheck (dropFrame n s) p = startCheck s p := rfl

/-- A START that a check refuses finds its slot or not, and does not stop the model. -/
theorem exec_start_of_refused {s : State} {p : PosId} {code : RefusalCode}
    (hc : startCheck s p = .refused code) :
    exec (.start (islandPort p) [byteOf p.val]) s =
      .next (takeRequest 0x13#8 (islandPort p) [byteOf p.val]
        (forOwn (islandPort p) (byteOf p.val) startPosition) s) :=
  if_neg (by simp [startWithoutSlot, idOf_byteOf, hc])

theorem start_refuses {s : State} {p : PosId} {code : RefusalCode}
    (h : Standing (.start (islandPort p) [byteOf p.val]) s) (hc : startCheck s p = .refused code) :
    Refuses (.start (islandPort p) [byteOf p.val]) s code :=
  refuses_intro (exec_start_of_refused hc) rfl (screen_passes rfl (by simp) rfl) h
    ((forOwn_byteOf ..).trans (by simp [startPosition, startCheck_dropFrame, hc, refuse]))

/-- Settles O13: the first check of R16 that fails gives the code. -/
theorem startRefusalsInOrder : Obligations.StartRefusalsInOrder := by
  rintro s p c rfl h
  split_ifs with hl hs
  · exact start_refuses h (by simp [startCheck, hl])
  · exact start_refuses h (by simp [startCheck, hl, hs])
  · cases ha : freshAmbient s.clock s.ambient with
    | none => exact start_refuses h (by simp [startCheck, hl, hs, ha])
    | some t =>
      dsimp only
      split_ifs with ht
      · exact start_refuses h (by simp [startCheck, hl, hs, ha, ht])
      · exact fun hk => start_refuses h (by simp [startCheck, hl, hs, ha, ht, hk])

/-! ### POSITION_CONFIG and AMBIENT_REPORT (R4, R8) -/

theorem attachLane_range {lane : Byte} {p : PosId} {s : State} (h : idOf 4 lane = none) :
    attachLane lane p s = (s, .refused .range) := by simp [attachLane, h, refuse]

theorem attachLane_busy {lane : Byte} {p : PosId} {s : State} {l : LaneId} (h : idOf 4 lane = some l)
    (hs : ¬((s.pos p).state = .unavailable ∨ (s.pos p).state = .idle)) :
    attachLane lane p s = (s, .refused .busy) := by
  rw [not_or] at hs
  simp [attachLane, h, hs, refuse]

theorem attachLane_accepted {lane : Byte} {p : PosId} {s : State} {l : LaneId} (h : idOf 4 lane = some l)
    (hs : (s.pos p).state = .unavailable ∨ (s.pos p).state = .idle) :
    attachLane lane p s = (s.setPos p { s.pos p with lane := some l }, .accepted [] none) := by
  rcases hs with hs | hs <;> simp [attachLane, h, hs, accept, State.modPos]

/-! ### RAMP_TABLE (R33) -/

/-- The APRR that the band bytes give a band. -/
def bandAprr (bands : List Byte) (j : Nat) : Nat := u16 (bands.getD (4 * j) 0#8) (bands.getD (4 * j + 1) 0#8)

/-- The P_NC that the band bytes give a band. -/
def bandPnc (bands : List Byte) (j : Nat) : Nat := u16 (bands.getD (4 * j + 2) 0#8) (bands.getD (4 * j + 3) 0#8)

theorem rampEntryOf_eq_none_iff (k : ClassId) (aprr pnc : Nat) : rampEntryOf k aprr pnc = none ↔
    aprr ≠ 0xFFFF ∧ (aprr < 1 ∨ 200 < aprr ∨ (classRow k).pNom < pnc) := by
  unfold rampEntryOf
  split_ifs <;> simp <;> omega

/-- A band in range gives its entry, absent under the APRR 0xFFFF. -/
theorem rampEntryOf_of_ne_none {k : ClassId} {aprr pnc : Nat} (h : rampEntryOf k aprr pnc ≠ none) :
    rampEntryOf k aprr pnc = some (if aprr = 0xFFFF then none else some ⟨aprr, pnc⟩) := by
  unfold rampEntryOf at *
  split_ifs at * <;> simp_all

/-- One band out of range refuses the whole row. -/
theorem rampRowOf_eq_none {k : ClassId} {n : Nat} {bands : List Byte} (hl : bands.length = 4 * n) {j : Nat}
    (hj : j < n) (h : rampEntryOf k (bandAprr bands j) (bandPnc bands j) = none) :
    rampRowOf k bands = none := by
  induction n generalizing bands j with
  | zero => omega
  | succ n ih =>
    match bands, hl with
    | a :: b :: c :: d :: rest, hl =>
      cases j with
      | zero =>
        have h0 : rampEntryOf k (u16 a b) (u16 c d) = none := h
        simp [rampRowOf, h0]
      | succ j =>
        have hrest := ih (by simpa [Nat.mul_add] using hl) (Nat.lt_of_succ_lt_succ hj) h
        cases he : rampEntryOf k (u16 a b) (u16 c d) <;> simp [rampRowOf, hrest, he]

/-- A row whose bands are all in range has their entries in order. -/
theorem rampRowOf_eq_some {k : ClassId} {n : Nat} {bands : List Byte} (hl : bands.length = 4 * n)
    {e : Nat → Option RampEntry}
    (h : ∀ j < n, rampEntryOf k (bandAprr bands j) (bandPnc bands j) = some (e j)) :
    rampRowOf k bands = some ((List.range n).map e) := by
  induction n generalizing bands e with
  | zero =>
    obtain rfl := List.eq_nil_of_length_eq_zero hl
    rfl
  | succ n ih =>
    match bands, hl with
    | a :: b :: c :: d :: rest, hl =>
      have h0 : rampEntryOf k (u16 a b) (u16 c d) = some (e 0) := h 0 (Nat.succ_pos n)
      have hrest := ih (e := fun j => e (j + 1)) (by simpa [Nat.mul_add] using hl)
        fun j hj => h (j + 1) (Nat.succ_lt_succ hj)
      simp [rampRowOf, h0, hrest, List.range_succ_eq_map, Function.comp_def]

theorem any_rampOrHold_iff (s : State) :
    allPositions.any (fun p => (s.pos p).state == .ramp || (s.pos p).state == .hold) = true ↔
      ∃ p, (s.pos p).state = .ramp ∨ (s.pos p).state = .hold := by
  have every (p : PosId) : p ∈ allPositions := by revert p; decide
  simp [every]

section
variable {s : State} {b : Byte} {bands : List Byte} {k : ClassId}

theorem loadRampRow_badClass (h : idOf 6 b = none) : loadRampRow b bands s = (s, .refused .range) := by
  simp [loadRampRow, h, refuse]

theorem loadRampRow_badBand (h : idOf 6 b = some k) (hl : bands.length = 24)
    (hr : ∃ j : BandId, rampEntryOf k (bandAprr bands j) (bandPnc bands j) = none) :
    loadRampRow b bands s = (s, .refused .range) := by
  obtain ⟨j, hj⟩ := hr
  simp [loadRampRow, h, rampRowOf_eq_none (n := 6) hl j.isLt hj, refuse]

theorem rampRowOf_whole (hl : bands.length = 24)
    (hr : ¬∃ j : BandId, rampEntryOf k (bandAprr bands j) (bandPnc bands j) = none) :
    rampRowOf k bands = some ((List.range 6).map fun j =>
      if bandAprr bands j = 0xFFFF then none else some ⟨bandAprr bands j, bandPnc bands j⟩) :=
  rampRowOf_eq_some hl fun j hj => rampEntryOf_of_ne_none fun hn => hr ⟨⟨j, hj⟩, hn⟩

theorem loadRampRow_busy (h : idOf 6 b = some k) (hl : bands.length = 24)
    (hr : ¬∃ j : BandId, rampEntryOf k (bandAprr bands j) (bandPnc bands j) = none)
    (hf : ∃ p, (s.pos p).state = .ramp ∨ (s.pos p).state = .hold) :
    loadRampRow b bands s = (s, .refused .busy) := by
  have ha := (any_rampOrHold_iff s).2 hf
  simp only [loadRampRow, h, rampRowOf_whole hl hr, ha, if_true, refuse]

theorem loadRampRow_accepted (h : idOf 6 b = some k) (hl : bands.length = 24)
    (hr : ¬∃ j : BandId, rampEntryOf k (bandAprr bands j) (bandPnc bands j) = none)
    (hf : ¬∃ p, (s.pos p).state = .ramp ∨ (s.pos p).state = .hold) :
    loadRampRow b bands s = ({ s with
      rampTable := s.rampTable.set k (Vector.ofFn fun j : BandId =>
        if bandAprr bands j = 0xFFFF then none else some ⟨bandAprr bands j, bandPnc bands j⟩) },
      .accepted [.byte (some k.val)] none) := by
  have ha := mt (any_rampOrHold_iff s).1 hf
  simp only [loadRampRow, h, rampRowOf_whole hl hr, if_neg ha, accept]
  congr 4
  funext j
  simp
end

theorem positionConfig_refuses {s : State} {p : PosId} {lane : Byte} {code : RefusalCode}
    (h : Standing (.positionConfig plantPort [byteOf p.val, lane]) s)
    (ho : ∀ u : State, u.pos p = s.pos p → attachLane lane p u = (u, .refused code)) :
    Refuses (.positionConfig plantPort [byteOf p.val, lane]) s code :=
  refuses_intro rfl rfl (screen_passes rfl (by simp) rfl) h ((forPosition_byteOf ..).trans (ho _ rfl))

theorem rampTable_refuses {s : State} {b : Byte} {bands : List Byte} {code : RefusalCode}
    (h : Standing (.rampTable plantPort (b :: bands)) s) (hl : bands.length = 24)
    (ho : ∀ u : State, u.positions = s.positions → loadRampRow b bands u = (u, .refused code)) :
    Refuses (.rampTable plantPort (b :: bands)) s code :=
  refuses_intro rfl rfl (screen_passes rfl (by simp) (by simp [hl])) h (ho _ rfl)

/-- Settles O27: POSITION_CONFIG, AMBIENT_REPORT and RAMP_TABLE each answer as their owning rule does. -/
theorem plantSettingsResult : Obligations.PlantSettingsResult := by
  refine ⟨?_, ?_, ?_⟩
  · rintro s p lane c rfl h
    cases hl : idOf 4 lane with
    | none => exact positionConfig_refuses h fun _ _ => attachLane_range hl
    | some l =>
      dsimp only
      split_ifs with hs
      · exact accepts_intro rfl rfl (screen_passes rfl (by simp) rfl) h
          ((forPosition_byteOf ..).trans (attachLane_accepted hl hs)) h.evt
      · exact positionConfig_refuses h fun u e => attachLane_busy hl (e ▸ hs)
  · rintro s t0 t1 c rfl h
    exact accepts_intro rfl rfl (screen_passes rfl (by simp) rfl) h rfl h.evt
  · rintro s b bands c rfl hl h
    cases hb : idOf 6 b with
    | none => exact rampTable_refuses h hl fun _ _ => loadRampRow_badClass hb
    | some k =>
      have range := exists_congr fun j : BandId => rampEntryOf_eq_none_iff k (bandAprr bands j) (bandPnc bands j)
      dsimp only
      split_ifs with hr hf
      · exact rampTable_refuses h hl fun _ _ => loadRampRow_badBand hb hl (range.2 hr)
      · exact rampTable_refuses h hl fun u e =>
          loadRampRow_busy hb hl (mt range.1 hr) (by simpa [State.pos, e] using hf)
      · exact accepts_intro rfl rfl (screen_passes rfl (by simp) (by simp [hl])) h
          (loadRampRow_accepted (s := dropFrame plantPort s) hb hl (mt range.1 hr) hf) h.evt

end Sys2Proof.Machine
end

section
/-! SUPPORT. What bank grants, offers, refills, holds and redistributions leave alone at one position: a position
that waits for nothing keeps its record, its channel and its open record, takes no bank, no grant and no place in
a wait list. The operations of Cascade.lean in their order there, each under the premise it needs. -/

namespace Sys2Proof.Machine

/-! ### Waiting, and a position left alone -/

/-- A position stands in the draw wait list (R70). -/
def Draws (s : State) (q : PosId) : Prop := ∃ w ∈ s.drawList, w.pos = q

/-- A position stands in the cooling wait list (section 6.4). -/
def Cools (s : State) (q : PosId) : Prop := ∃ w ∈ s.cooling.wait, w.who = .pos q

/-- From `s` to `t` the position `q` keeps its record, its channel and its open record, and comes into no wait
list, to no grant and to no bank. -/
structure Spares (q : PosId) (s t : State) : Prop where
  pos : t.pos q = s.pos q
  chan : t.chan q = s.chan q
  record : t.openRecord q = s.openRecord q
  draws : Draws t q → Draws s q
  cools : Cools t q → Cools s q
  grant : (s.grantOf (.pos q)).grant = 0 → (t.grantOf (.pos q)).grant = 0
  holder : ∀ b, (t.bank b).holder = some (.pos q) → (s.bank b).holder = some (.pos q)

variable {q p : PosId} {s t u : State}

theorem Spares.refl (q : PosId) (s : State) : Spares q s s := ⟨rfl, rfl, rfl, id, id, id, fun _ => id⟩

theorem Spares.trans (h : Spares q s t) (k : Spares q t u) : Spares q s u where
  pos := k.pos.trans h.pos
  chan := k.chan.trans h.chan
  record := k.record.trans h.record
  draws := h.draws ∘ k.draws
  cools := h.cools ∘ k.cools
  grant := k.grant ∘ h.grant
  holder b := h.holder b ∘ k.holder b

/-- A fold of operations that each spare a position, as long as `P` holds, spares it. -/
theorem spares_foldl {α : Type} (P : State → Prop) (hP : ∀ s t, Spares q s t → P s → P t) (l : List α)
    (f : State → α → State) (hf : ∀ s, ∀ a ∈ l, P s → Spares q s (f s a)) (s : State) (h : P s) :
    Spares q s (l.foldl f s) := by
  induction l generalizing s with
  | nil => exact .refl q s
  | cons a l ih =>
    have ha := hf s a List.mem_cons_self h
    exact ha.trans (ih (fun s b hb => hf s b (List.mem_cons_of_mem a hb)) _ (hP _ _ ha h))

/-- The same where each operation spares the position without a premise. -/
theorem spares_foldl_of {α : Type} (l : List α) (f : State → α → State)
    (hf : ∀ s, ∀ a ∈ l, Spares q s (f s a)) (s : State) : Spares q s (l.foldl f s) :=
  spares_foldl (fun _ => True) (fun _ _ _ _ => trivial) l f (fun s a ha _ => hf s a ha) s trivial

/-! ### Updates of one record -/

theorem State.setPos_pos_self (s : State) (p : PosId) : s.setPos p (s.pos p) = s := by
  simp [State.setPos, State.pos]

theorem spares_setPos (h : q ≠ p) (x : Position) : Spares q s (s.setPos p x) :=
  ⟨State.setPos_pos_ne s p q x h, rfl, rfl, id, id, id, fun _ => id⟩

theorem spares_modPos (h : q ≠ p) (f : Position → Position) : Spares q s (s.modPos p f) := spares_setPos h _

theorem spares_modChan (h : q ≠ p) (f : Channel → Channel) : Spares q s (s.modChan p f) :=
  ⟨rfl, State.modChan_chan_ne s p q f h, rfl, id, id, id, fun _ => id⟩

/-- A bank whose holder does not become the position. -/
theorem spares_modBank (b : BankId) (f : Bank → Bank)
    (h : (f (s.bank b)).holder = some (.pos q) → (s.bank b).holder = some (.pos q)) :
    Spares q s (s.modBank b f) := by
  refine ⟨rfl, rfl, rfl, id, id, id, fun c hc => ?_⟩
  by_cases e : c = b
  · subst e
    exact h (by simpa using hc)
  · rwa [State.modBank_bank_ne s b c f e] at hc

theorem spares_modComp (c : CompId) (f : Compressor → Compressor) : Spares q s (s.modComp c f) :=
  ⟨rfl, rfl, rfl, id, id, id, fun _ => id⟩

theorem spares_modLane (l : LaneId) (f : Lane → Lane) : Spares q s (s.modLane l f) :=
  ⟨rfl, rfl, rfl, id, id, id, fun _ => id⟩

theorem spares_modPort (n : PortId) (f : Port → Port) : Spares q s (s.modPort n f) :=
  ⟨rfl, rfl, rfl, id, id, id, fun _ => id⟩

theorem spares_evt (e : Scratch) : Spares q s { s with evt := e } := ⟨rfl, rfl, rfl, id, id, id, fun _ => id⟩

theorem spares_queue (l : List QueueEntry) : Spares q s { s with queue := l } :=
  ⟨rfl, rfl, rfl, id, id, id, fun _ => id⟩

theorem spares_drawList (l : List DrawWait) (h : Draws { s with drawList := l } q → Draws s q) :
    Spares q s { s with drawList := l } := ⟨rfl, rfl, rfl, h, id, id, fun _ => id⟩

theorem spares_wait (l : List CoolWait) (h : ∀ w ∈ l, w.who = .pos q → Cools s q) :
    Spares q s { s with cooling := { s.cooling with wait := l } } :=
  ⟨rfl, rfl, rfl, id, fun ⟨w, hw, e⟩ => h w hw e, id, fun _ => id⟩

/-- An open record changed at another position, its state and position kept, leaves this one's. -/
theorem spares_modRecord (h : q ≠ p) (f : TxnRecord → TxnRecord) (hs : ∀ r, (f r).state = r.state)
    (hp : ∀ r, (f r).pos = r.pos) : Spares q s (modRecord p f s) := by
  have hopen : (modRecord p f s).openSlot q = s.openSlot q := (modRecord_openRecord p f s hs hp).1 q
  unfold modRecord at hopen ⊢
  split
  · exact .refl q s
  next i hi =>
    split
    next r hr =>
      refine ⟨rfl, rfl, ?_, id, id, id, fun _ => id⟩
      unfold State.openRecord
      simp only [hi, hr] at hopen
      rw [hopen]
      cases hj : s.openSlot q with
      | none => rfl
      | some j =>
        have hne : j ≠ i := by
          rintro rfl
          have h1 : (s.slot j).opensFor q = true := List.find?_some (p := fun i => (s.slot i).opensFor q) hj
          have h2 : (s.slot j).opensFor p = true := List.find?_some (p := fun i => (s.slot i).opensFor p) hi
          simp only [hr, Slot.opensFor, Bool.and_eq_true, beq_iff_eq] at h1 h2
          exact h (h1.2.symm.trans h2.2)
        simp [State.setSlot_slot_ne s i j _ hne]
    · exact .refl q s

/-! ### Posting (Ops.lean) -/

theorem spares_postNotice (k : NoticeKind) (n : Nat) (data : List Field) (ports : List PortId) :
    Spares q s (postNotice k n data ports s) :=
  spares_foldl_of _ _ (fun _ _ _ => spares_modPort _ _) s

theorem spares_postDirective (n : PortId) (d : Directive) : Spares q s (postDirective n d s) := spares_modPort _ _

theorem spares_sendValve (p : PosId) : Spares q s (sendValve p s) := spares_postDirective _ _

theorem spares_issue (ws : List RecWrite) : Spares q s (issue ws s) := ⟨rfl, rfl, rfl, id, id, id, fun _ => id⟩

theorem spares_checkpoint (h : q ≠ p) (also : List RecWrite) : Spares q s (checkpoint p also s) := by
  have hm : Spares q s (modRecord p (fun r => { r with checkpointMass := (s.chan p).mass }) s) :=
    spares_modRecord h _ (fun _ => rfl) (fun _ => rfl)
  unfold checkpoint
  dsimp only
  split
  · exact hm
  · exact hm.trans (spares_issue _)

theorem spares_postFillState (p : PosId) (tag : Tag) : Spares q s (postFillState p tag s) := spares_postNotice ..

theorem spares_fillState (h : q ≠ p) : Spares q s (fillState p s) :=
  (spares_postFillState p _).trans (spares_checkpoint h _)

/-- A segment that opens changes the segments and a flag of its record. -/
theorem TxnRecord.openSegment_eq (r : TxnRecord) (x : Segment) :
    ∃ l f, r.openSegment x = { r with segments := l, flags := f } := by
  unfold TxnRecord.openSegment
  split <;> exact ⟨_, _, rfl⟩

/-- A segment that ends changes the segments of its record. -/
theorem TxnRecord.endSegment_eq (r : TxnRecord) (m : Nat) (v : Option Nat) (c : SegmentEnd) :
    ∃ l, r.endSegment m v c = { r with segments := l } := by
  unfold TxnRecord.endSegment
  split
  · split
    · exact ⟨_, rfl⟩
    · exact ⟨r.segments, rfl⟩
  · exact ⟨r.segments, rfl⟩

theorem spares_openSegment (h : q ≠ p) (b : BankId) : Spares q s (openSegment p b s) := by
  refine spares_modRecord h _ (fun r => ?_) (fun r => ?_) <;>
    (obtain ⟨l, f, e⟩ := r.openSegment_eq _; rw [e])

theorem spares_endSegment (h : q ≠ p) (c : SegmentEnd) : Spares q s (endSegment p c s) := by
  refine spares_modRecord h _ (fun r => ?_) (fun r => ?_) <;>
    (obtain ⟨l, e⟩ := r.endSegment_eq _ _ _; rw [e])

theorem spares_postCompState (c : CompId) (cause : CompCause) : Spares q s (postCompState c cause s) :=
  spares_postNotice ..

theorem spares_budgetChanged (c : CoolingCause) : Spares q s (budgetChanged c s) := spares_evt _

/-! ### Banks and their grants (R68 to R72) -/

theorem spares_moveBank (b : BankId) (st : BankState) {h : Option Holder} (hh : h ≠ some (.pos q)) :
    Spares q s (moveBank b st h s) := by
  have hm : Spares q s (s.modBank b (fun x => { x with state := st, holder := h })) :=
    spares_modBank b _ fun e => absurd e hh
  unfold moveBank
  dsimp only
  split
  · refine (hm.trans (spares_drawList _ ?_)).trans (spares_postNotice ..)
    rintro ⟨w, hw, e⟩
    obtain ⟨v, hv, rfl⟩ := List.mem_map.1 hw
    exact ⟨v, hv, e ▸ by split <;> rfl⟩
  · exact hm.trans (spares_postNotice ..)

theorem spares_enterRamp (h : q ≠ p) (b : BankId) : Spares q s (enterRamp p b s) := by
  have flow (f : Position → Position) (g : Channel → Channel) :
      Spares q s (sendValve p ((openSegment p b (s.modPos p f)).modChan p g)) :=
    (((spares_modPos h f).trans (spares_openSegment h b)).trans (spares_modChan h g)).trans (spares_sendValve p)
  unfold enterRamp
  dsimp only
  split
  · exact flow _ _
  · exact (flow _ _).trans (spares_fillState h)

theorem spares_startPulse (h : q ≠ p) (b : BankId) : Spares q s (startPulse p b s) :=
  (spares_modPos h _).trans (spares_sendValve p)

theorem spares_grantBank (h : q ≠ p) (b : BankId) : Spares q s (grantBank p b s) := by
  have moved (l : List DrawWait) (f : Bank → Bank) (hf : ∀ x, (f x).holder = x.holder)
      (hl : Draws { s.modBank b f with drawList := l } q → Draws (s.modBank b f) q) :
      Spares q s (moveBank b .drawing (some (.pos p)) { s.modBank b f with drawList := l }) :=
    ((spares_modBank b f fun e => hf _ ▸ e).trans (spares_drawList l hl)).trans
      (spares_moveBank b _ (by simpa using h.symm))
  have kept := moved (s.drawList.filter (fun w => w.pos != p))
    (fun x => { x with massAtGrant := (s.chan p).mass, drawnMass := 0 }) (fun _ => rfl)
    (fun ⟨w, hw, e⟩ => ⟨w, List.mem_of_mem_filter hw, e⟩)
  unfold grantBank
  dsimp only
  split
  · exact kept.trans (spares_startPulse h b)
  · exact kept.trans (spares_enterRamp h b)

theorem spares_drawRequest (h : q ≠ p) (k : DrawKind) (x : Option BankId) :
    Spares q s (drawRequest p k x s) := by
  unfold drawRequest
  split
  · exact spares_grantBank h _
  · refine spares_drawList _ fun ⟨w, hw, e⟩ => ?_
    rcases List.mem_append.1 hw with hw | hw
    · exact ⟨w, List.mem_of_mem_filter hw, e⟩
    · rw [List.mem_singleton.1 hw] at e
      exact absurd e.symm h

/-- An offer is taken by a waiter, so not by a position that waits for no bank. -/
theorem spares_offerBank (h : ¬Draws s q) (b : BankId) : Spares q s (offerBank b s) := by
  unfold offerBank
  split
  next w hw => exact spares_grantBank (fun e => h ⟨w, List.mem_of_find?_eq_some hw, e.symm⟩) b
  · exact .refl q s

theorem spares_offerPass (h : ¬Draws s q) (l : List BankId) : Spares q s (offerPass l s) := by
  unfold offerPass
  split
  · exact .refl q s
  · refine spares_foldl (fun s => ¬Draws s q) (fun s t k => mt k.draws) _ _ (fun s b _ hs => ?_) s h
    split
    · exact spares_offerBank hs b
    · exact .refl q s

/-! ### Grants, the refill queue, assignment -/

/-- A grant that changes is not this position's, or goes to 0. -/
theorem spares_setGrant {r : Requester} {g : Nat} (h : r = .pos q → (s.grantOf r).grant = 0 → g = 0) :
    Spares q s (setGrant r g s) := by
  constructor
  case grant =>
    intro h0
    rw [setGrant_grantOf]
    split
    next e => exact h e.symm (e ▸ h0)
    · exact h0
  case pos | chan | record => cases r <;> rfl
  case draws | cools => cases r <;> exact id
  case holder => cases r <;> exact fun _ => id

theorem spares_grantFill (h : q ≠ p) (g : Nat) : Spares q s (grantFill p g s) := by
  have hg : Spares q s (setGrant (.pos p) g s) := spares_setGrant fun e => absurd (Requester.pos.inj e).symm h
  unfold grantFill
  dsimp only
  split
  · exact hg.trans (spares_modRecord h _ (fun _ => rfl) (fun _ => rfl))
  · exact hg

theorem spares_flushWaitNotice (c : CompId) : Spares q s (flushWaitNotice c s) := by
  unfold flushWaitNotice
  split
  · exact (spares_evt _).trans (spares_postCompState c _)
  · exact .refl q s

theorem spares_startRefill (c : CompId) : Spares q s (startRefill c s).1 := by
  have h0 : Spares q s (s.modComp c (fun x => { x with requestTime := none })) := spares_modComp c _
  unfold startRefill
  dsimp only
  split
  · exact ((((((h0.trans (spares_evt _)).trans (spares_moveBank _ _ (by simp))).trans (spares_queue _)).trans
      (spares_modComp c _)).trans (spares_postDirective ..)).trans (spares_postCompState ..))
  · exact ((((h0.trans (spares_flushWaitNotice c)).trans (spares_budgetChanged _)).trans
      (spares_setGrant (by simp))).trans (spares_modComp c _)).trans (spares_postCompState ..)

theorem spares_compressorAsks (c : CompId) : Spares q s (compressorAsks c s) := by
  unfold compressorAsks
  dsimp only
  split
  · exact ((spares_budgetChanged _).trans (spares_setGrant (by simp))).trans (spares_startRefill c)
  · refine (((spares_budgetChanged _).trans (spares_wait _ fun w hw e => ?_)).trans (spares_modComp c _)).trans
      (spares_evt _)
    rcases List.mem_append.1 hw with hw | hw
    · exact ⟨w, hw, e⟩
    · rw [List.mem_singleton.1 hw] at e
      cases e

theorem spares_assignmentPass : Spares q s (assignmentPass s) := by
  unfold assignmentPass
  split
  · exact .refl q s
  · refine spares_foldl_of _ _ (fun s c _ => ?_) s
    split
    · exact spares_compressorAsks c
    · exact .refl q s

theorem spares_tellIdle (b : BankId) : Spares q s (tellIdle b s) := by
  unfold tellIdle
  split
  · exact spares_assignmentPass
  · split
    · split
      · exact (spares_queue _).trans spares_assignmentPass
      · exact .refl q s
    · exact .refl q s

theorem spares_bankIdle (h : ¬Draws s q) (b : BankId) : Spares q s (bankIdle b s) := by
  unfold bankIdle
  dsimp only
  split
  · exact (spares_offerPass h _).trans (spares_tellIdle b)
  · exact spares_offerPass h _

/-- The release of another position's bank, or of the position's own (R73): beside the bank of `p` itself nothing
that `q` has changes. -/
theorem spares_releaseBank (h : ¬Draws s q) (p : PosId) :
    Spares q (s.modPos p (fun x => { x with bank := none })) (releaseBank p s) := by
  unfold releaseBank
  split
  next hb =>
    have hx : { s.pos p with bank := none } = s.pos p := by rw [← hb]
    have hp : s.modPos p (fun x => { x with bank := none }) = s :=
      (congrArg (s.setPos p) hx).trans (s.setPos_pos_self p)
    rw [hp]
    exact .refl q s
  next b hb =>
    have hm : Spares q (s.modPos p (fun x => { x with bank := none }))
        (moveBank b .idle none (s.modPos p (fun x => { x with bank := none }))) := spares_moveBank b _ (by simp)
    exact hm.trans (spares_bankIdle (mt hm.draws h) b)

/-! ### Holds and redistribution (R21 to R25, R114 to R116) -/

theorem spares_enterHold (h : q ≠ p) (r : HoldReason) : Spares q s (enterHold p r s) := by
  have held (f : Position → Position) (g : Channel → Channel) : Spares q s ((s.modPos p f).modChan p g) :=
    (spares_modPos h f).trans (spares_modChan h g)
  unfold enterHold
  dsimp only
  split
  · exact ((held _ _).trans (spares_sendValve p)).trans (spares_fillState h)
  · exact (held _ _).trans (spares_fillState h)

theorem spares_checksCD (h : q ≠ p) : Spares q s (checksCD p s) := by
  unfold checksCD
  dsimp only
  split
  · exact spares_enterHold h _
  · split
    · exact spares_drawRequest h _ _
    · exact (spares_drawRequest h _ _).trans (spares_enterHold h _)

/-- A grant that is raised was above 0. -/
theorem spares_raiseDerated : Spares q s (raiseDerated s) := by
  refine spares_foldl_of _ _ (fun s r _ => ?_) s
  cases r with
  | comp c => exact .refl q s
  | pos p =>
    dsimp only
    split
    next hd =>
      refine (spares_budgetChanged _).trans (spares_setGrant fun _ h0 => ?_)
      simp only [GrantEntry.derated, Bool.and_eq_true, decide_eq_true_eq] at hd
      exact absurd h0 (Nat.pos_iff_ne_zero.1 hd.1.1)
    · exact .refl q s

theorem spares_dropWait (r : Requester) : Spares q s (dropWait r s) :=
  spares_wait _ fun w hw e => ⟨w, List.mem_of_mem_filter hw, e⟩

/-- The fills served are of the list. -/
theorem spares_serveFills (l : List CoolWait) (h : ∀ w ∈ l, w.who ≠ .pos q) :
    Spares q s (serveFills l s).1 ∧ q ∉ (serveFills l s).2 := by
  induction l generalizing s with
  | nil => exact ⟨.refl q s, List.not_mem_nil⟩
  | cons w l ih =>
    unfold serveFills
    split
    · exact ⟨.refl q s, List.not_mem_nil⟩
    next p hw =>
      have hp : q ≠ p := fun e => h w List.mem_cons_self (e ▸ hw)
      dsimp only
      split
      · obtain ⟨hs, hn⟩ := ih (s := grantFill p (min (s.grantOf (.pos p)).demand s.freeCapacity)
          (dropWait (.pos p) (budgetChanged .served s))) fun v hv => h v (List.mem_cons_of_mem w hv)
        exact ⟨(((spares_budgetChanged _).trans (spares_dropWait _)).trans (spares_grantFill hp _)).trans hs,
          List.not_mem_cons_of_ne_of_not_mem hp hn⟩
      · exact ⟨.refl q s, List.not_mem_nil⟩

theorem spares_serveComps (l : List CoolWait) : Spares q s (serveComps l s).1 := by
  induction l generalizing s with
  | nil => exact .refl q s
  | cons w l ih =>
    unfold serveComps
    split
    · exact .refl q s
    · dsimp only
      split
      · exact (((spares_budgetChanged _).trans (spares_dropWait _)).trans (spares_setGrant (by simp))).trans ih
      · exact .refl q s

theorem spares_redistributePasses (h : ¬Cools s q) :
    Spares q s (redistributePasses s).1 ∧ q ∉ (redistributePasses s).2.1 := by
  unfold redistributePasses
  split
  · exact ⟨.refl q s, List.not_mem_nil⟩
  · have hr : Spares q s (raiseDerated s) := spares_raiseDerated
    obtain ⟨hf, hn⟩ := spares_serveFills (s := raiseDerated s) (q := q) (raiseDerated s).cooling.wait
      fun w hw e => mt hr.cools h ⟨w, hw, e⟩
    exact ⟨(hr.trans hf).trans (spares_serveComps _), hn⟩

theorem spares_tellServed {fills : List PosId} (h : q ∉ fills) (comps : List CompId) :
    Spares q s (tellServed fills comps s).1 := by
  have refills (l : List CompId) (r : State × Bool) :
      Spares q r.1 (l.foldl (fun r c => ((startRefill c r.1).1, r.2 || (startRefill c r.1).2)) r).1 := by
    induction l generalizing r with
    | nil => exact .refl q r.1
    | cons c l ih => exact (spares_startRefill c).trans (ih (_, r.2 || (startRefill c r.1).2))
  have hf : Spares q s (fills.foldl (fun s p => checksCD p s) s) :=
    spares_foldl_of _ _ (fun s p hp => spares_checksCD fun e : q = p => h (e ▸ hp)) s
  exact hf.trans (refills comps (_, false))

theorem spares_redistributeN (n : Nat) (h : ¬Cools s q) : Spares q s (redistributeN n s) := by
  induction n generalizing s with
  | zero => exact .refl q s
  | succ n ih =>
    obtain ⟨hp, hn⟩ := spares_redistributePasses h
    have ht := hp.trans (spares_tellServed hn (redistributePasses s).2.2)
    unfold redistributeN
    dsimp only
    split
    · exact ht.trans (ih (mt ht.cools h))
    · exact ht

theorem spares_redistribute (h : ¬Cools s q) : Spares q s (redistribute s) := spares_redistributeN 3 h

theorem spares_releaseGrant (h : ¬Cools s q) (r : Requester) : Spares q s (releaseGrant r s) := by
  unfold releaseGrant
  split
  · exact .refl q s
  · have hg : Spares q s (setGrant r 0 (budgetChanged .release s)) :=
      (spares_budgetChanged _).trans (spares_setGrant fun _ _ => rfl)
    exact hg.trans (spares_redistribute (mt hg.cools h))

/-- A requester leaves the cooling wait list; the position left alone is that one, or it waits for no cooling. -/
theorem spares_departWait {r : Requester} (h : ¬Cools (dropWait r s) q) : Spares q s (departWait r s) := by
  unfold departWait
  split
  · have hd : Spares q s (dropWait r (budgetChanged .departed s)) := (spares_budgetChanged _).trans (spares_dropWait r)
    exact hd.trans (spares_redistribute h)
  · exact .refl q s

theorem spares_warmTestOf (l : Option LaneId) : Spares q s (warmTestOf l s) := by
  unfold warmTestOf
  split
  · unfold warmTest
    split
    · split <;> exact spares_modLane _ _
    · exact .refl q s
  · exact .refl q s

end Sys2Proof.Machine
end

section
/-! SUPPORT. How a fill enters ENDING (R27): the three stages of `endFill`, what each leaves of the position that
ends and of the others, and the frames that the end of the event puts on the lines. -/

namespace Sys2Proof.Machine

/-! ### Replies, notices and begun frames change the ports alone, and no directive -/

/-- `t` is `s` but for the ports, and each port has the directives it had, queued or on its line. -/
structure Sends (s t : State) : Prop where
  rest : t = { s with ports := t.ports }
  directives : ∀ n, (t.port n).outDirectives = (s.port n).outDirectives

theorem Sends.refl (s : State) : Sends s s := ⟨rfl, fun _ => rfl⟩

theorem Sends.trans {s t u : State} (h : Sends s t) (k : Sends t u) : Sends s u where
  rest := by rw [k.rest, h.rest]
  directives n := (k.directives n).trans (h.directives n)

theorem sends_foldl {α : Type} (l : List α) (f : State → α → State) (hf : ∀ s a, Sends s (f s a)) (s : State) :
    Sends s (l.foldl f s) := by
  induction l generalizing s with
  | nil => exact .refl s
  | cons a l ih => exact (hf s a).trans (ih _)

theorem sends_modPort (s : State) (n : PortId) (f : Port → Port)
    (h : ∀ x, (f x).outDirectives = x.outDirectives) : Sends s (s.modPort n f) := by
  refine ⟨rfl, fun m => ?_⟩
  by_cases e : m = n
  · subst e
    simp [h]
  · rw [State.modPort_port_ne s n m f e]

theorem Port.post_outDirectives (x : Port) (now : Clock) (k : NoticeKind) (subject : Nat) (data : List Field) :
    (x.post now k subject data).outDirectives = x.outDirectives := by
  unfold Port.post
  split
  · split <;> rfl
  · rfl

/-- The transmitter moves a directive from the queue to the line, or none. -/
theorem Port.transmit_outDirectives (x : Port) (now : Clock) : (x.transmit now).outDirectives = x.outDirectives :=
  congrArg Port.directives (x.transmit_settled now)

theorem sends_postNotice (k : NoticeKind) (n : Nat) (data : List Field) (ports : List PortId) (s : State) :
    Sends s (postNotice k n data ports s) :=
  sends_foldl _ _ (fun s _ => sends_modPort s _ _ fun x => x.post_outDirectives ..) s

theorem sends_pushReply (n : PortId) (kind : Byte) (args : List Byte) (a : Answer) (s : State) :
    Sends s (pushReply n kind args a s) :=
  sends_modPort s n (fun x => { x with replies := x.replies ++ [_] }) fun _ => rfl

theorem sends_postWaitNotices (s : State) : Sends s (postWaitNotices s) := by
  refine sends_foldl _ _ (fun s c => ?_) s
  split
  · exact sends_postNotice ..
  · exact .refl s

theorem sends_postCoolingState (s : State) : Sends s (postCoolingState s) := by
  unfold postCoolingState
  split
  · exact sends_postNotice ..
  · exact .refl s

theorem sends_transmitAll (s : State) : Sends s (transmitAll s) := by
  unfold transmitAll
  split
  · exact sends_foldl _ _ (fun s n => sends_modPort s n _ fun x => x.transmit_outDirectives _) s
  · exact .refl s

/-- The end of an event sends, and leaves nothing of the event. -/
theorem sends_endEvent (s : State) : Sends { s with evt := .empty } (endEvent s) := by
  have posted : Sends s (postCoolingState (postWaitNotices s)) :=
    (sends_postWaitNotices s).trans (sends_postCoolingState _)
  have sent : ∀ t, Sends s t → Sends { s with evt := .empty } { t with evt := .empty } := fun t h =>
    ⟨congrArg (fun u : State => { u with evt := .empty }) h.rest, h.directives⟩
  unfold endEvent
  dsimp only
  split
  · exact sent _ posted
  · exact sent _ (posted.trans (sends_transmitAll _))

/-! ### The open record of the position (R136, R150) -/

/-- A change of an open record changes the working copies alone. -/
theorem modRecord_eq (p : PosId) (f : TxnRecord → TxnRecord) (s : State) :
    ∃ w, modRecord p f s = { s with work := w } := by
  unfold modRecord
  split
  · exact ⟨s.work, rfl⟩
  · split
    · exact ⟨_, rfl⟩
    · exact ⟨s.work, rfl⟩

theorem endSegment_eq (p : PosId) (c : SegmentEnd) (s : State) : ∃ w, endSegment p c s = { s with work := w } :=
  modRecord_eq ..

/-- The end of a segment keeps what the record says of the fill and of its end. -/
theorem endSegment_openRecord (p : PosId) (c : SegmentEnd) (s : State) {r : TxnRecord}
    (h : s.openRecord p = some r) : ∃ l, (endSegment p c s).openRecord p = some { r with segments := l } := by
  have kept (r : TxnRecord) := r.endSegment_eq (s.chan p).mass ((s.pos p).pressure.map (·.value)) c
  obtain ⟨l, e⟩ := kept r
  refine ⟨l, (modRecord_openRecord p _ s (fun r => ?_) (fun r => ?_)).2.trans ?_⟩
  · obtain ⟨l, e⟩ := kept r
    rw [e]
  · obtain ⟨l, e⟩ := kept r
    rw [e]
  · rw [h, Option.map_some, e]

/-- A checkpoint sets the checkpoint mass of the open record to the billing mass. -/
theorem checkpoint_openRecord (p : PosId) (also : List RecWrite) (s : State) :
    (checkpoint p also s).openRecord p =
      (s.openRecord p).map (fun r => { r with checkpointMass := (s.chan p).mass }) := by
  have h := (modRecord_openRecord p (fun r => { r with checkpointMass := (s.chan p).mass }) s
    (fun _ => rfl) (fun _ => rfl)).2
  rw [← h]
  unfold checkpoint
  dsimp only
  split <;> rfl

/-- A checkpoint changes the working copies and the groups in flight alone. -/
theorem checkpoint_eq (p : PosId) (also : List RecWrite) (s : State) :
    ∃ w g, checkpoint p also s = { s with work := w, groups := g } := by
  obtain ⟨w, h⟩ := modRecord_eq p (fun r => { r with checkpointMass := (s.chan p).mass }) s
  unfold checkpoint
  simp only [h]
  split
  · exact ⟨w, s.groups, rfl⟩
  · exact ⟨w, _, rfl⟩

/-- FILL_STATE, with its checkpoint, changes ports, working copies and groups alone, and no directive. -/
theorem fillState_eq (p : PosId) (s : State) : ∃ x w g,
    fillState p s = { s with ports := x, work := w, groups := g } ∧ Sends s { s with ports := x } := by
  have hs : Sends s (postFillState p (s.pos p).tag s) := sends_postNotice ..
  obtain ⟨w, g, h⟩ := checkpoint_eq p [] (postFillState p (s.pos p).tag s)
  refine ⟨(postFillState p (s.pos p).tag s).ports, w, g, h.trans ?_, hs.rest ▸ hs⟩
  conv_lhs => rw [hs.rest]

theorem fillState_openRecord (p : PosId) (s : State) :
    (fillState p s).openRecord p = (s.openRecord p).map (fun r => { r with checkpointMass := (s.chan p).mass }) := by
  have hs : Sends s (postFillState p (s.pos p).tag s) := sends_postNotice ..
  refine (checkpoint_openRecord p [] _).trans ?_
  rw [hs.rest]
  rfl

/-- The warm test changes lanes alone. -/
theorem warmTestOf_eq (l : Option LaneId) (s : State) : ∃ x, warmTestOf l s = { s with lanes := x } := by
  unfold warmTestOf warmTest
  split
  · split
    · split <;> exact ⟨_, rfl⟩
    · exact ⟨s.lanes, rfl⟩
  · exact ⟨s.lanes, rfl⟩

/-! ### The three stages of R27 -/

/-- A position marked ENDING for a reason. -/
def Position.marked (reason : EndReason) (x : Position) : Position :=
  { x with state := .ending, endReason := some reason, holdReason := none, pulseState := none }

/-- The record of a fill told its end. -/
def TxnRecord.told (reason : EndReason) (pSet : Option Nat) (r : TxnRecord) : TxnRecord :=
  { r with endReason := some reason, finalPSet := pSet }

/-- The position is marked ENDING, the end is told to the billing unit, and the draw wait list is left. -/
def endMarks (p : PosId) (reason : EndReason) (s : State) : State :=
  let m := endSegment p .ended
    (modRecord p (TxnRecord.told reason (s.pos p).ramp.pSet) (s.modPos p (Position.marked reason)))
  { m with drawList := m.drawList.filter (fun w => w.pos != p) }

/-- The bank, the place in the cooling wait list and the grant are given up. -/
def endReleases (p : PosId) (s : State) : State :=
  releaseGrant (.pos p) (departWait (.pos p) (releaseBank p s))

/-- The channel of a fill in ENDING (R125, R133). -/
def Channel.settling (c : Channel) : Channel :=
  { c with gateOpen := false, settleGate := some 2000, flowSince := none }

/-- The timers of a fill in ENDING (R11, R27). -/
def Position.settling (x : Position) : Position := { x with phaseTimer := some 3000, staleWatch := none }

/-- The timers and the channel are set, and the valve, the masters and the lane of the fill, `old` before, are told. -/
def endTells (p : PosId) (old : Position) (s : State) : State :=
  let m := (s.modPos p Position.settling).modChan p Channel.settling
  warmTestOf old.lane (fillState p (if old.picture == .closed then m else sendValve p m))

theorem endFill_eq {p : PosId} {reason : EndReason} {s : State} (h : endable (s.pos p).state = true) :
    endFill p reason s = endTells p (s.pos p) (endReleases p (endMarks p reason s)) := if_pos h

/-- R27 ignores an end request elsewhere. -/
theorem endFill_of_not_endable {p : PosId} {reason : EndReason} {s : State}
    (h : endable (s.pos p).state = false) : endFill p reason s = s := if_neg (by simp [h])

/-! ### The first stage -/

section
variable (p q : PosId) (reason : EndReason) (s : State)

theorem endMarks_eq : ∃ w, endMarks p reason s = { s.modPos p (Position.marked reason) with
    work := w, drawList := s.drawList.filter (fun w => w.pos != p) } := by
  obtain ⟨v, h⟩ := modRecord_eq p (TxnRecord.told reason (s.pos p).ramp.pSet) (s.modPos p (Position.marked reason))
  obtain ⟨w, k⟩ := endSegment_eq p .ended
    (modRecord p (TxnRecord.told reason (s.pos p).ramp.pSet) (s.modPos p (Position.marked reason)))
  refine ⟨w, ?_⟩
  unfold endMarks
  rw [k, h]
  rfl

@[simp] theorem endMarks_pos : (endMarks p reason s).pos p = (s.pos p).marked reason := by
  obtain ⟨w, e⟩ := endMarks_eq p reason s
  rw [e]
  exact s.modPos_pos p _

@[simp] theorem endMarks_chan : (endMarks p reason s).chan q = s.chan q := by
  obtain ⟨w, e⟩ := endMarks_eq p reason s
  rw [e]
  rfl

theorem endMarks_not_draws : ¬Draws (endMarks p reason s) p := by
  obtain ⟨w, e⟩ := endMarks_eq p reason s
  rw [e]
  rintro ⟨v, hv, rfl⟩
  simpa using (List.mem_filter.1 hv).2

theorem endMarks_record {r : TxnRecord} (h : s.openRecord p = some r) :
    ∃ l, (endMarks p reason s).openRecord p =
      some { r.told reason (s.pos p).ramp.pSet with segments := l } := by
  refine endSegment_openRecord p .ended _ ?_
  rw [(modRecord_openRecord p (TxnRecord.told reason _) _ (fun _ => rfl) (fun _ => rfl)).2, State.modPos_openRecord, h]
  rfl

end

theorem spares_endMarks {q p : PosId} (h : q ≠ p) (reason : EndReason) (s : State) :
    Spares q s (endMarks p reason s) := by
  have marked : Spares q s (s.modPos p (Position.marked reason)) := spares_modPos h _
  have told := marked.trans
    (spares_modRecord h (TxnRecord.told reason (s.pos p).ramp.pSet) (fun _ => rfl) (fun _ => rfl))
  exact (told.trans (spares_endSegment h _)).trans
    (spares_drawList _ fun ⟨w, hw, e⟩ => ⟨w, List.mem_of_mem_filter hw, e⟩)

/-! ### The second stage -/

section
variable {p q : PosId} {s : State}

theorem not_cools_dropWait (p : PosId) (s : State) : ¬Cools (dropWait (.pos p) s) p := by
  rintro ⟨w, hw, e⟩
  simpa [e] using (List.mem_filter.1 hw).2

theorem departWait_not_cools (p : PosId) (s : State) : ¬Cools (departWait (.pos p) s) p := by
  unfold departWait
  split
  · exact mt (spares_redistribute (not_cools_dropWait p _)).cools (not_cools_dropWait p _)
  next h =>
    rintro ⟨w, hw, e⟩
    exact h (List.any_eq_true.2 ⟨w, hw, by simp [e]⟩)

theorem releaseGrant_grant (h : ¬Cools s p) : ((releaseGrant (.pos p) s).grantOf (.pos p)).grant = 0 := by
  unfold releaseGrant
  split
  next h0 => exact h0
  · have hg : Spares p s (setGrant (.pos p) 0 (budgetChanged .release s)) :=
      (spares_budgetChanged _).trans (spares_setGrant fun _ _ => rfl)
    exact (spares_redistribute (mt hg.cools h)).grant (by rw [setGrant_grantOf, if_pos rfl])

theorem moveBank_holder (b : BankId) (st : BankState) (h : Option Holder) (s : State) :
    ((moveBank b st h s).bank b).holder = h := by
  unfold moveBank postBankState
  dsimp only
  split <;> (rw [(sends_postNotice ..).rest]; simp [State.bank, State.modBank, State.setBank])

/-- The bank a position releases is not its own any more. -/
theorem releaseBank_holder (hd : ¬Draws s p) {b : BankId} (hb : (s.pos p).bank = some b) :
    ((releaseBank p s).bank b).holder ≠ some (.pos p) := by
  have hm : Spares p (s.modPos p (fun x => { x with bank := none }))
      (moveBank b .idle none (s.modPos p (fun x => { x with bank := none }))) := spares_moveBank b _ (by simp)
  have he : releaseBank p s =
      bankIdle b (moveBank b .idle none (s.modPos p (fun x => { x with bank := none }))) := by
    simp [releaseBank, hb]
  intro h
  rw [he] at h
  have := (spares_bankIdle (mt hm.draws hd) b).holder b h
  rw [moveBank_holder] at this
  cases this

/-- A position that waits for nothing keeps what it has through another's releases. -/
theorem spares_endReleases (hd : ¬Draws s q) (hc : ¬Cools s q) (h : q ≠ p) : Spares q s (endReleases p s) := by
  have hb : Spares q s (releaseBank p s) := (spares_modPos h _).trans (spares_releaseBank hd p)
  have hw : Spares q (releaseBank p s) (departWait (.pos p) (releaseBank p s)) :=
    spares_departWait (mt (hb.trans (spares_dropWait _)).cools hc)
  have hbw := hb.trans hw
  exact hbw.trans (spares_releaseGrant (mt hbw.cools hc) _)

/-- What the releases leave of the position that ends: it holds no bank, and nothing else of it changes. -/
theorem endReleases_own (hd : ¬Draws s p) :
    Spares p (s.modPos p (fun x => { x with bank := none })) (endReleases p s) ∧
      ¬Cools (endReleases p s) p ∧ ((endReleases p s).grantOf (.pos p)).grant = 0 ∧
      ∀ b, ((endReleases p s).bank b).holder = some (.pos p) → (s.pos p).bank ≠ some b := by
  have hw : Spares p (releaseBank p s) (departWait (.pos p) (releaseBank p s)) :=
    spares_departWait (not_cools_dropWait p _)
  have hc := departWait_not_cools p (releaseBank p s)
  have hg : Spares p (departWait (.pos p) (releaseBank p s)) (endReleases p s) := spares_releaseGrant hc _
  refine ⟨((spares_releaseBank hd p).trans hw).trans hg, mt hg.cools hc, releaseGrant_grant hc, fun b hb e => ?_⟩
  exact releaseBank_holder hd e ((hw.trans hg).holder b hb)

end

/-! ### The third stage -/

section
variable {p q : PosId} {old : Position} {s : State}

theorem spares_endTells (h : q ≠ p) : Spares q s (endTells p old s) := by
  have set := (spares_modPos (s := s) h Position.settling).trans (spares_modChan h Channel.settling)
  unfold endTells
  dsimp only
  split
  · exact (set.trans (spares_fillState h)).trans (spares_warmTestOf _)
  · exact ((set.trans (spares_sendValve p)).trans (spares_fillState h)).trans (spares_warmTestOf _)

/-- The third stage changes the timers and the channel of the position, the ports, the lanes, and what the checkpoint
writes. -/
theorem endTells_eq (p : PosId) (old : Position) (s : State) : ∃ x w g l, endTells p old s =
    { (s.modPos p Position.settling).modChan p Channel.settling with
      ports := x, work := w, groups := g, lanes := l } := by
  have valve (m : State) : ∃ x, (if old.picture == .closed then m else sendValve p m) = { m with ports := x } := by
    split
    · exact ⟨m.ports, rfl⟩
    · exact ⟨_, rfl⟩
  unfold endTells
  dsimp only
  generalize (s.modPos p Position.settling).modChan p Channel.settling = m
  obtain ⟨y, e⟩ := valve m
  obtain ⟨x, w, g, h, -⟩ := fillState_eq p { m with ports := y }
  obtain ⟨l, k⟩ := warmTestOf_eq old.lane (fillState p { m with ports := y })
  exact ⟨x, w, g, l, by rw [e, k, h]⟩

theorem endTells_pos (p : PosId) (old : Position) (s : State) :
    (endTells p old s).pos p = (s.pos p).settling := by
  obtain ⟨x, w, g, l, e⟩ := endTells_eq p old s
  rw [e]
  exact s.modPos_pos p Position.settling

theorem endTells_chan (p : PosId) (old : Position) (s : State) :
    (endTells p old s).chan p = (s.chan p).settling := by
  obtain ⟨x, w, g, l, e⟩ := endTells_eq p old s
  rw [e]
  exact (s.modPos p Position.settling).modChan_chan p Channel.settling

/-- The third stage moves no bank, no waiter and no grant. -/
theorem endTells_kept (p : PosId) (old : Position) (s : State) :
    (endTells p old s).banks = s.banks ∧ (endTells p old s).drawList = s.drawList ∧
      (endTells p old s).cooling = s.cooling := by
  obtain ⟨x, w, g, l, e⟩ := endTells_eq p old s
  rw [e]
  exact ⟨rfl, rfl, rfl⟩

theorem endTells_openRecord (p : PosId) (old : Position) (s : State) : (endTells p old s).openRecord p =
    (s.openRecord p).map (fun r => { r with checkpointMass := (s.chan p).mass }) := by
  have lanes (l : Option LaneId) (u : State) : (warmTestOf l u).openRecord p = u.openRecord p := by
    obtain ⟨x, e⟩ := warmTestOf_eq l u
    rw [e]
    rfl
  have mass : ((s.chan p).settling).mass = (s.chan p).mass := rfl
  unfold endTells
  dsimp only
  rw [lanes, fillState_openRecord]
  split <;> simp [sendValve, postDirective, mass]

/-- R9: a fill in ENDING has its valve closed. -/
theorem Position.directive_of_ending {x : Position} (h : x.state = .ending) :
    x.picture = .closed ∧ x.directiveLane = none := by
  have hp : x.picture = .closed := by simp [Position.picture, h]
  exact ⟨hp, by simp [Position.directiveLane, hp]⟩

theorem postDirective_mem (n : PortId) (d : Directive) (s : State) :
    d ∈ ((postDirective n d s).port n).outDirectives := by
  simp only [postDirective, State.modPort_port, Port.outDirectives]
  exact List.mem_append_right _ (List.mem_of_getLast? ((s.port n).direct_spec d).1)

/-- A valve that was open gets its CLOSED directive. -/
theorem endTells_closedSent (h : (s.pos p).state = .ending) (ho : old.picture ≠ .closed) :
    .valve p .closed none ∈ ((endTells p old s).port (islandPort p)).outDirectives := by
  have kept (l : Option LaneId) (u : State) (n : PortId) :
      ((warmTestOf l (fillState p u)).port n).outDirectives = (u.port n).outDirectives := by
    obtain ⟨x, w, g, e, hs⟩ := fillState_eq p u
    obtain ⟨y, k⟩ := warmTestOf_eq l (fillState p u)
    rw [k, e]
    exact hs.directives n
  have closed := Position.directive_of_ending (x := (s.pos p).settling) h
  unfold endTells
  dsimp only
  rw [kept, if_neg (by simpa using ho)]
  simpa [sendValve, closed] using postDirective_mem (islandPort p) (.valve p .closed none) _

end

/-! ### R27 as a whole -/

/-- R27: an end request that finds the fill in PULSE, LEAKCHECK, RAMP or HOLD ends it. -/
theorem endFill_ended {p : PosId} {s : State} (reason : EndReason) (h : endable (s.pos p).state = true) :
    Ended p reason s (endFill p reason s) := by
  rw [endFill_eq h]
  have draws := endMarks_not_draws p reason s
  obtain ⟨own, cools, grant, holder⟩ := endReleases_own draws
  obtain ⟨banks, drawList, cooling⟩ := endTells_kept p (s.pos p) (endReleases p (endMarks p reason s))
  have pos : (endReleases p (endMarks p reason s)).pos p = { (s.pos p).marked reason with bank := none } := by
    rw [own.pos, State.modPos_pos, endMarks_pos]
  have chan : (endReleases p (endMarks p reason s)).chan p = s.chan p := by
    rw [own.chan, State.modPos_chan', endMarks_chan]
  constructor
  case position =>
    rw [endTells_pos, pos]
    rfl
  case channel =>
    rw [endTells_chan, chan]
    rfl
  case noGrant =>
    simp only [State.grantOf, cooling]
    exact grant
  case notWaiting =>
    simp only [Waits, drawList, cooling]
    exact not_or.2 ⟨mt own.draws draws, cools⟩
  case released =>
    intro b hb
    simp only [State.bank, banks] at hb
    have := holder b hb
    rwa [endMarks_pos] at this
  case record =>
    intro r hr
    obtain ⟨l, hl⟩ := endMarks_record p reason s hr
    rw [endTells_openRecord, own.record, State.modPos_openRecord, hl, chan]
    exact ⟨_, rfl, rfl, rfl, rfl, rfl⟩
  case closedSent => exact endTells_closedSent (by rw [pos]; rfl)
  case others =>
    intro q hq hw
    obtain ⟨hd, hc⟩ := not_or.1 hw
    have marks := spares_endMarks hq reason s
    have all := (marks.trans (spares_endReleases (mt marks.draws hd) (mt marks.cools hc) hq)).trans
      (spares_endTells (old := s.pos p) hq)
    exact ⟨all.pos, all.chan⟩

/-- The end of a fill is told of the next state as well, whose ports have sent and whose event is over. -/
theorem Ended.sends {p : PosId} {reason : EndReason} {s t u : State} (h : Ended p reason s t)
    (hu : Sends t u) : Ended p reason s u := by
  have hd := hu.directives (islandPort p)
  rw [hu.rest] at hd ⊢
  exact ⟨h.position, h.channel, h.noGrant, h.notWaiting, h.released, h.record,
    fun ho => hd ▸ h.closedSent ho, h.others⟩

theorem Ended.endEvent {p : PosId} {reason : EndReason} {s t : State} (h : Ended p reason s t) :
    Ended p reason s (endEvent t) :=
  have cleared : Ended p reason s { t with evt := .empty } :=
    ⟨h.position, h.channel, h.noGrant, h.notWaiting, h.released, h.record, h.closedSent, h.others⟩
  cleared.sends (sends_endEvent t)

/-- The end of a fill is told of the state with the frame of its request still in the buffer. -/
theorem Ended.of_dropFrame {p : PosId} {reason : EndReason} {n : PortId} {s t : State}
    (h : Ended p reason (dropFrame n s) t) : Ended p reason s t :=
  ⟨h.position, h.channel, h.noGrant, h.notWaiting, h.released, h.record, h.closedSent, h.others⟩

end Sys2Proof.Machine
end

section
/-! SUPPORT. NOZZLE (R15): what a nozzle that moves does in each state, and the end of a fill by it. -/

namespace Sys2Proof.Machine

/-- The state a position takes when its nozzle moves, where no fill ends and no close is pending (R15). -/
def PosState.afterNozzle : Nozzle → PosState → PosState
  | .on, .idle => .waitAuth
  | .on, .waitNozzle => .ready
  | .off, .waitAuth => .idle
  | .off, .ready => .waitNozzle
  | .off, .finished => .idle
  | _, x => x

/-- The state with a nozzle moved at a position, and the state of the position set. -/
def State.nozzleMoved (s : State) (p : PosId) (n : Nozzle) (x : PosState) : State :=
  s.setPos p { s.pos p with nozzle := n, state := x }

section
variable {s : State} {p : PosId}

/-- R15, R27: OFF ends the fill of a position in PULSE, LEAKCHECK, RAMP or HOLD. -/
theorem moveNozzle_ends (h : endable (s.pos p).state = true) :
    moveNozzle p .off s = endFill p .nozzleOff (s.nozzleMoved p .off (s.pos p).state) := by
  cases hs : (s.pos p).state <;> simp_all [endable, moveNozzle, State.nozzleMoved, State.modPos]

/-- R2, R15: OFF in FINISHED with a close pending. -/
theorem moveNozzle_closes (h : (s.pos p).state = .finished) (hc : (s.pos p).closePending = some .close) :
    moveNozzle p .off s = makeUnavailable p s := by
  simp [moveNozzle, h, hc, makeUnavailable, State.modPos, State.setPos_setPos]

/-- R15: in every other case the nozzle takes its value and the state its successor. -/
theorem moveNozzle_moves {n : Nozzle} (he : n = .off → endable (s.pos p).state = false)
    (hc : n = .off → (s.pos p).state = .finished → (s.pos p).closePending ≠ some .close) :
    moveNozzle p n s = s.nozzleMoved p n ((s.pos p).state.afterNozzle n) := by
  have ignored {x : Position} (hx : endable x.state = false) :
      endFill p .nozzleOff (s.setPos p x) = s.setPos p x := endFill_of_not_endable (by simpa using hx)
  cases n with
  | on =>
    cases hs : (s.pos p).state <;>
      simp [moveNozzle, hs, State.nozzleMoved, PosState.afterNozzle, State.modPos, State.setPos_setPos]
  | off =>
    have he := he rfl
    cases hs : (s.pos p).state <;> simp only [hs, endable, reduceCtorEq] at he
    all_goals
      simp [moveNozzle, hs, hc, State.nozzleMoved, PosState.afterNozzle, State.modPos, State.setPos_setPos]
    all_goals exact ignored rfl

theorem setNozzle_badState {code : Byte} (h : (s.pos p).state = .unavailable) :
    setNozzle code p s = (s, .refused .badState) := if_pos h

theorem setNozzle_range {code : Byte} (h : (s.pos p).state ≠ .unavailable) (hn : nozzleOf code = none) :
    setNozzle code p s = (s, .refused .range) := by simp [setNozzle, h, hn, refuse]

theorem setNozzle_accepted {code : Byte} {n : Nozzle} (h : (s.pos p).state ≠ .unavailable)
    (hn : nozzleOf code = some n) :
    setNozzle code p s = (if (s.pos p).nozzle = n then s else moveNozzle p n s, .accepted [] none) := by
  simp [setNozzle, h, hn, accept]

end

section
variable {s : State} {p : PosId} {code : Byte}
  (h : Standing (.nozzle (islandPort p) [byteOf p.val, code]) s)
include h

theorem nozzle_refuses {r : RefusalCode}
    (ho : ∀ u : State, u.pos p = s.pos p → setNozzle code p u = (u, .refused r)) :
    Refuses (.nozzle (islandPort p) [byteOf p.val, code]) s r :=
  refuses_intro rfl rfl (screen_passes rfl (by simp) rfl) h ((forOwn_byteOf ..).trans (ho _ rfl))

/-- A report equal to the held value changes nothing. -/
theorem nozzle_keeps {n : Nozzle} (hu : (s.pos p).state ≠ .unavailable) (hn : nozzleOf code = some n)
    (hd : (s.pos p).nozzle = n) : Accepts (.nozzle (islandPort p) [byteOf p.val, code]) s [] none s :=
  accepts_intro rfl rfl (screen_passes rfl (by simp) rfl) h ((forOwn_byteOf ..).trans
    ((setNozzle_accepted (s := dropFrame _ s) hu hn).trans (by rw [dropFrame_pos, if_pos hd]))) h.evt

/-- A nozzle that has moved, where no fill ends. -/
theorem nozzle_accepts {n : Nozzle} {e : State} (hu : (s.pos p).state ≠ .unavailable) (hn : nozzleOf code = some n)
    (hd : (s.pos p).nozzle ≠ n)
    (hm : moveNozzle p n (dropFrame (islandPort p) s) = dropFrame (islandPort p) e) (he : e.evt = s.evt) :
    Accepts (.nozzle (islandPort p) [byteOf p.val, code]) s [] none e :=
  accepts_intro rfl rfl (screen_passes rfl (by simp) rfl) h ((forOwn_byteOf ..).trans
    ((setNozzle_accepted (s := dropFrame _ s) hu hn).trans (by rw [dropFrame_pos, if_neg hd, hm]))) (he.trans h.evt)

/-- R15, R27: NOZZLE OFF in a fill. -/
theorem nozzle_ends (hn : nozzleOf code = some .off) (hd : (s.pos p).nozzle ≠ .off)
    (hs : endable (s.pos p).state = true) :
    Completes (.nozzle (islandPort p) [byteOf p.val, code]) s none (s.nozzleMoved p .off (s.pos p).state)
      (fun data t => data = [] ∧ Ended p .nozzleOff (s.nozzleMoved p .off (s.pos p).state) t) := by
  have hu : (s.pos p).state ≠ .unavailable := fun e => by simp [e, endable] at hs
  have fills : endable ((dropFrame (islandPort p) (s.nozzleMoved p .off (s.pos p).state)).pos p).state = true := by
    simpa [State.nozzleMoved] using hs
  have ends : setNozzle code p (dropFrame (islandPort p) s) =
      (endFill p .nozzleOff (dropFrame (islandPort p) (s.nozzleMoved p .off (s.pos p).state)),
        .accepted [] none) := by
    rw [setNozzle_accepted (s := dropFrame _ s) hu hn, dropFrame_pos, if_neg hd,
      moveNozzle_ends (s := dropFrame _ s) hs]
    rfl
  exact completes_intro rfl rfl (screen_passes rfl (by simp) rfl) h ((forOwn_byteOf ..).trans ends)
    (steady_endFill ..) ⟨rfl, (((endFill_ended .nozzleOff fills).of_dropFrame).sends (sends_pushReply ..)).endEvent⟩

end

/-- Settles O12: in a fill OFF ends it, and elsewhere the nozzle and its state move together. -/
theorem nozzleResult : Obligations.NozzleResult := by
  rintro s p code c rfl h
  by_cases hu : (s.pos p).state = .unavailable
  · rw [if_pos hu]
    exact nozzle_refuses h fun u e => setNozzle_badState (e ▸ hu)
  rw [if_neg hu]
  cases hn : nozzleOf code with
  | none => exact nozzle_refuses h fun u e => setNozzle_range (e ▸ hu) hn
  | some n =>
    by_cases hd : (s.pos p).nozzle = n
    · exact (if_pos hd).mpr (nozzle_keeps h hu hn hd)
    refine (if_neg hd).mpr ?_
    have moves (he : n = .off → endable (s.pos p).state = false)
        (hc : n = .off → (s.pos p).state = .finished → (s.pos p).closePending ≠ some .close) :=
      nozzle_accepts (e := s.nozzleMoved p n ((s.pos p).state.afterNozzle n)) h hu hn hd
        (moveNozzle_moves (s := dropFrame _ s) he hc) rfl
    have ends := nozzle_ends (s := s) (p := p) (code := code) h
    cases n with
    | on =>
      have moves := moves (by simp) (by simp)
      cases hs : (s.pos p).state <;> (rw [hs] at moves; exact moves)
    | off =>
      cases hs : (s.pos p).state <;> rw [hs] at moves ends
      case pulse | leakCheck | ramp | hold => exact ends hn hd rfl
      case finished =>
        dsimp only
        split_ifs with hc
        · exact nozzle_accepts h hu hn hd (moveNozzle_closes (s := dropFrame _ s) hs hc) rfl
        · exact moves (fun _ => rfl) (fun _ _ => hc)
      all_goals exact moves (fun _ => rfl) (by simp)

end Sys2Proof.Machine
end

section
/-! SUPPORT. The tariff lookup (R142) and the class filter of START (R17): one equivalence for the window of an
entry, for the lookup, for each test of the filter that reads a table or a lane, and for the class chosen. -/

namespace Sys2Proof.Machine

/-! ### The tariff lookup (R142) -/

/-- R142: the window table; start equal to end counts as running over midnight. -/
theorem Tariff.windowHolds_iff (e : Tariff) (now : TimeOfDay) : e.windowHolds now = true ↔
    e.allDay = true ∨ now.set = true ∧
      (e.windowStart < e.windowEnd ∧ e.windowStart ≤ now.second ∧ now.second < e.windowEnd ∨
        e.windowEnd ≤ e.windowStart ∧ (e.windowStart ≤ now.second ∨ now.second < e.windowEnd)) := by
  unfold Tariff.windowHolds
  split_ifs with hday hset hlt
  · simp [hday]
  · simp_all
  · simp_all [Nat.not_le.2 hlt]
  · simp_all [Nat.not_lt.1 hlt]

theorem Tariff.matchesAt_iff (e : Tariff) (k : ClassId) (now : TimeOfDay) : e.matchesAt k now = true ↔
    e.valid = true ∧ e.classes.getLsbD k = true ∧ e.windowHolds now = true := by
  simp [Tariff.matchesAt, and_assoc]

/-- R142: the lower entry number wins. -/
theorem tariffLookup_eq_some_iff (d : StoreData) (k : ClassId) (now : TimeOfDay) (e : Tariff) :
    tariffLookup d k now = some e ↔
      ∃ i : EntryId, d.tariffs[i] = e ∧ e.matchesAt k now = true ∧
        ∀ j : EntryId, j < i → (d.tariffs[j]).matchesAt k now = false := by
  unfold tariffLookup
  rw [List.find?_eq_some_iff_getElem]
  constructor
  · rintro ⟨hm, i, hi, he, hj⟩
    have hi : i < 8 := by simpa using hi
    exact ⟨⟨i, hi⟩, by simpa using he, hm, fun j hlt => by simpa using hj j.val hlt⟩
  · rintro ⟨i, he, hm, hj⟩
    exact ⟨hm, i.val, by simp, by simpa using he,
      fun j hlt => by simpa using hj ⟨j, Nat.lt_trans hlt i.isLt⟩ hlt⟩

/-! ### The class filter (R17) -/

/-- R1: class 0 alone is not cooled. -/
theorem cooled_eq_false_iff (k : ClassId) : cooled k = false ↔ k = 0 := by simp [cooled]

theorem suits_iff (h : Hose) (k : ClassId) : suits h k = true ↔
    (classRow k).hose = h.kind ∧ ((classRow k).needsHighFlow = true → h.highFlow = true) := by
  cases hf : (classRow k).needsHighFlow <;> simp [suits, hf]

/-- Test 3 of R17. -/
theorem laneUsable_iff (s : State) (p : PosId) (k : ClassId) : laneUsable s p k = true ↔
    k = 0 ∨ ∃ l t limit, (s.pos p).lane = some l ∧ (s.lane l).state = .ready ∧
      (s.lane l).classMap.getLsbD k = true ∧ (s.lane l).supply = some t ∧
      (classRow k).threshold = some limit ∧ t.value ≤ limit := by
  unfold laneUsable
  rw [Bool.or_eq_true, Bool.not_eq_true', cooled_eq_false_iff]
  refine or_congr_right ?_
  cases hl : (s.pos p).lane with
  | none => simp
  | some l => cases ht : (s.lane l).supply <;> cases hk : (classRow k).threshold <;> simp [ht, and_assoc]

theorem keepsClass_iff (s : State) (p : PosId) (a : Authorization) (h : Hose) (k : ClassId) :
    keepsClass s p a h k = true ↔
      a.classes.getLsbD k = true ∧ suits h k = true ∧ laneUsable s p k = true ∧
      (∃ e, tariffLookup s.work k s.tod = some e) ∧
      ∃ e, s.rampEntry k (bandOf s.clock s.ambient) = some e := by
  simp only [keepsClass, Bool.and_eq_true, Option.isSome_iff_exists, and_assoc]

/-- R17, R143: the class chosen is the first the filter keeps, with the entry that its fourth test found. -/
theorem chooseClass_eq_some_iff (s : State) (p : PosId) (k : ClassId) (e : Tariff) :
    chooseClass s p = some (k, e) ↔
      ∃ a h, (s.pos p).authorization = some a ∧ (s.pos p).hose = some h ∧
        (preference h.kind).find? (keepsClass s p a h) = some k ∧ tariffLookup s.work k s.tod = some e := by
  unfold chooseClass
  cases ha : (s.pos p).authorization with
  | none => simp
  | some a =>
    cases hh : (s.pos p).hose with
    | none => simp
    | some h =>
      cases hf : (preference h.kind).find? (keepsClass s p a h) with
      | none => simp [hf]
      | some j =>
        rcases eq_or_ne j k with rfl | hj
        · cases ht : tariffLookup s.work j s.tod <;> simp [hf, ht]
        · cases ht : tariffLookup s.work j s.tod <;> simp [hf, ht, hj]

/-- Settles O14: each function is the equivalence stated of it, the filter by its five tests in order. -/
theorem classFilterAndTariffLookup : Obligations.ClassFilterAndTariffLookup := by
  refine ⟨fun s p a h k => ?_, fun e k now => ?_, tariffLookup_eq_some_iff, fun s p k e => ?_⟩
  · rw [keepsClass_iff, suits_iff, laneUsable_iff]
  · rw [Tariff.matchesAt_iff, Tariff.windowHolds_iff]
  · rw [chooseClass_eq_some_iff]
    constructor
    · rintro ⟨a, h, ha, hh, hf, ht⟩
      obtain ⟨hk, before, after, hp, hb⟩ := List.find?_eq_some_iff_append.1 hf
      exact ⟨a, h, before, after, ha, hh, hp, fun j hj => by simpa using hb j hj, hk, ht⟩
    · rintro ⟨a, h, before, after, ha, hh, hp, hb, hk, ht⟩
      exact ⟨a, h, ha, hh,
        List.find?_eq_some_iff_append.2 ⟨hk, before, after, hp, fun j hj => by simp [hb j hj]⟩, ht⟩

end Sys2Proof.Machine
end

section
/-! SUPPORT. The requests of the till that read and release records, totals and snapshot (R153 to R157): which slot
a number and the mark 0 select, and each owning rule by its checks in order. -/

namespace Sys2Proof.Machine

@[simp] theorem portRole_tillPort : portRole tillPort = .till := rfl

/-! ### The slot of a number (R155, R156) -/

/-- The slot holds the record of a transaction number. -/
def Slot.hasNumber (n : Nat) : Slot → Bool
  | .txn r => r.number == n
  | .free => false

theorem Slot.hasNumber_iff (n : Nat) (x : Slot) : x.hasNumber n = true ↔ x.number = n ∧ x ≠ .free := by
  cases x <;> simp [Slot.hasNumber, Slot.number]

theorem slotOf_eq_find (s : State) (n : Nat) : s.slotOf n = allSlots.find? (fun i => (s.slot i).hasNumber n) := rfl

theorem slotOf_eq_none {s : State} {n : Nat} (h : ∀ i, ¬((s.slot i).number = n ∧ s.slot i ≠ .free)) :
    s.slotOf n = none := by
  rw [slotOf_eq_find, List.find?_eq_none]
  exact fun i _ => mt (Slot.hasNumber_iff n _).1 (h i)

/-- A number that one slot alone holds selects that slot. -/
theorem slotOf_eq_some {s : State} {n : Nat} {i : SlotId} {r : TxnRecord} (hi : s.slot i = .txn r)
    (hn : r.number = n) (hu : ∀ j, (s.slot j).number = n ∧ s.slot j ≠ .free → j = i) : s.slotOf n = some i := by
  have hp : (s.slot i).hasNumber n = true := by simp [hi, hn, Slot.hasNumber]
  cases hf : s.slotOf n with
  | none =>
    rw [slotOf_eq_find, List.find?_eq_none] at hf
    exact absurd hp (hf i (List.mem_finRange i))
  | some j =>
    rw [slotOf_eq_find] at hf
    have hj := List.find?_some hf
    rw [hu j ((Slot.hasNumber_iff n _).1 hj)]

/-! ### The oldest collectable record (R155) -/

/-- The slot kept of the best so far and one more: that of the lower number. -/
def State.older (s : State) (best : Option SlotId) (a : SlotId) : Option SlotId :=
  match best with
  | none => some a
  | some b => if (s.slot a).number < (s.slot b).number then some a else some b

theorem oldestCollectable_eq_foldl (s : State) : s.oldestCollectable = s.collectables.foldl s.older none := rfl

theorem mem_collectables {s : State} {i : SlotId} : i ∈ s.collectables ↔ s.collectable i = true := by
  simp [State.collectables, allSlots]

theorem older_eq_or (s : State) (a : SlotId) (best : Option SlotId) :
    s.older best a = best ∨ s.older best a = some a := by
  cases best with
  | none => exact .inr rfl
  | some b => exact (ite_eq_or_eq ..).symm

/-- Of two slots the one whose number is below the other's is kept. -/
theorem older_eq_some {s : State} {i a : SlotId} {best : Option SlotId} (hi : a = i ∨ best = some i)
    (hmin : ∀ j, j = a ∨ best = some j → j ≠ i → (s.slot i).number < (s.slot j).number) :
    s.older best a = some i := by
  cases best with
  | none => simpa [State.older] using hi
  | some b =>
    have ha := hmin a (.inl rfl)
    have hb := hmin b (.inr rfl)
    simp only [State.older, Option.some.injEq] at hi ⊢
    rcases eq_or_ne a i with rfl | hai
    · rcases eq_or_ne b a with rfl | hba
      · simp
      · exact if_pos (hb hba)
    · obtain rfl := hi.resolve_left hai
      exact if_neg (Nat.lt_asymm (ha hai))

/-- Of the best so far and a list, the fold keeps the slot whose number is below every other. -/
theorem foldl_older_eq_some {s : State} {i : SlotId} {l : List SlotId} {best : Option SlotId}
    (hi : best = some i ∨ i ∈ l)
    (hmin : ∀ j, best = some j ∨ j ∈ l → j ≠ i → (s.slot i).number < (s.slot j).number) :
    l.foldl s.older best = some i := by
  induction l generalizing best with
  | nil => simpa using hi
  | cons a l ih =>
    refine ih ?_ fun j hj hne => hmin j ?_ hne
    · rw [List.mem_cons, ← or_assoc] at hi
      exact hi.imp_left fun h => older_eq_some (h.symm.imp_left Eq.symm) fun j hj =>
        hmin j (hj.elim (fun e => .inr (List.mem_cons.2 (.inl e))) .inl)
    · rcases hj with hj | hj
      · rcases older_eq_or s a best with he | he
        · exact .inl (he ▸ hj)
        · obtain rfl := Option.some.inj (he ▸ hj)
          exact .inr List.mem_cons_self
      · exact .inr (List.mem_cons_of_mem a hj)

theorem oldestCollectable_eq_none {s : State} (h : ∀ i, s.collectable i = false) : s.oldestCollectable = none := by
  have hl : s.collectables = [] := List.eq_nil_iff_forall_not_mem.2 fun i => by simp [mem_collectables, h i]
  rw [oldestCollectable_eq_foldl, hl]
  rfl

theorem oldestCollectable_eq_some {s : State} {i : SlotId} (hi : s.collectable i = true)
    (hmin : ∀ j, j ≠ i → s.collectable j = true → (s.slot i).number < (s.slot j).number) :
    s.oldestCollectable = some i := by
  rw [oldestCollectable_eq_foldl]
  refine foldl_older_eq_some (.inr (mem_collectables.2 hi)) fun j hj hne => hmin j hne ?_
  simpa [mem_collectables] using hj

/-- R153: a collectable record is CLOSED and its close write is complete. -/
theorem collectable_txn_iff {s : State} {i : SlotId} {r : TxnRecord} (h : s.slot i = .txn r) :
    s.collectable i = true ↔ r.state = .closed ∧ s.inFlight (.slot i) = false := by
  simp [State.collectable, h]

/-! ### TXN_READ (R155) -/

/-- The slot that TXN_READ selects: that of the oldest record under the mark 0, else that of the number. -/
def State.readSlot (s : State) (n : Nat) : Option SlotId := if n = 0 then s.oldestCollectable else s.slotOf n

section
variable {s : State} {n : Nat} {i : SlotId} {r : TxnRecord}

theorem readRecord_unknown (h : s.readSlot n = none) : readRecord n s = (s, .refused .unknownSubject) := by
  unfold State.readSlot at h
  simp only [readRecord, h, refuse]

theorem readRecord_busy (h : s.readSlot n = some i) (hr : s.slot i = .txn r)
    (hb : r.state = .closed ∧ s.inFlight (.slot i) = true) : readRecord n s = (s, .refused .busy) := by
  unfold State.readSlot at h
  simp only [readRecord, h, hr, if_pos hb, refuse]

theorem readRecord_accepted (h : s.readSlot n = some i) (hr : s.slot i = .txn r)
    (hb : ¬(r.state = .closed ∧ s.inFlight (.slot i) = true)) :
    readRecord n s = (s, .accepted (.byte (some s.collectables.length) :: r.fields) none) := by
  unfold State.readSlot at h
  simp only [readRecord, h, hr, if_neg hb, recordReply, accept]

/-! ### TXN_RELEASE (R156) -/

theorem releaseRecord_unknown (h : s.slotOf n = none) : releaseRecord n s = (s, .refused .unknownSubject) := by
  simp only [releaseRecord, h, refuse]

theorem releaseRecord_badState (h : s.slotOf n = some i) (hr : s.slot i = .txn r) (ho : r.state = .opened) :
    releaseRecord n s = (s, .refused .badState) := by
  simp only [releaseRecord, h, hr, if_pos ho, refuse]

theorem releaseRecord_busy (h : s.slotOf n = some i) (hr : s.slot i = .txn r) (ho : r.state ≠ .opened)
    (hb : s.inFlight (.slot i) = true) : releaseRecord n s = (s, .refused .busy) := by
  simp only [releaseRecord, h, hr, if_neg ho, if_pos hb, refuse]

theorem releaseRecord_accepted (h : s.slotOf n = some i) (hr : s.slot i = .txn r) (ho : r.state ≠ .opened)
    (hb : s.inFlight (.slot i) ≠ true) :
    releaseRecord n s = (issue [.slot i .free] (s.setSlot i .free), .accepted [] (some (.slot i))) := by
  simp only [releaseRecord, h, hr, if_neg ho, if_neg hb]

end

section
variable {s : State} {n0 n1 n2 n3 : Byte} {code : RefusalCode}

theorem txnRead_refuses (h : Standing (.txnRead tillPort [n0, n1, n2, n3]) s)
    (ho : readRecord (u32 n0 n1 n2 n3) (dropFrame tillPort s) = (dropFrame tillPort s, .refused code)) :
    Refuses (.txnRead tillPort [n0, n1, n2, n3]) s code :=
  refuses_intro rfl rfl (screen_passes rfl (by simp) rfl) h ho

theorem txnRelease_refuses (h : Standing (.txnRelease tillPort [n0, n1, n2, n3]) s)
    (ho : releaseRecord (u32 n0 n1 n2 n3) (dropFrame tillPort s) = (dropFrame tillPort s, .refused code)) :
    Refuses (.txnRelease tillPort [n0, n1, n2, n3]) s code :=
  refuses_intro rfl rfl (screen_passes rfl (by simp) rfl) h ho

/-- R155: a read that selects the slot of a record. -/
theorem txnRead_selects {i : SlotId} {r : TxnRecord} (h : Standing (.txnRead tillPort [n0, n1, n2, n3]) s)
    (hs : s.readSlot (u32 n0 n1 n2 n3) = some i) (hr : s.slot i = .txn r) :
    if r.state = .closed ∧ s.inFlight (.slot i) = true then Refuses (.txnRead tillPort [n0, n1, n2, n3]) s .busy
    else Accepts (.txnRead tillPort [n0, n1, n2, n3]) s
      (.byte (some (allSlots.filter s.collectable).length) :: r.fields) none s := by
  split_ifs with hb
  · exact txnRead_refuses h (readRecord_busy (s := dropFrame tillPort s) hs hr hb)
  · exact accepts_intro rfl rfl (screen_passes rfl (by simp) rfl) h
      (readRecord_accepted (s := dropFrame tillPort s) hs hr hb) h.evt

/-- R156: a release that selects the slot of a record. -/
theorem txnRelease_selects {i : SlotId} {r : TxnRecord}
    (h : Standing (.txnRelease tillPort [n0, n1, n2, n3]) s)
    (hs : s.slotOf (u32 n0 n1 n2 n3) = some i) (hr : s.slot i = .txn r) :
    if r.state = .opened then Refuses (.txnRelease tillPort [n0, n1, n2, n3]) s .badState
    else if s.inFlight (.slot i) = true then Refuses (.txnRelease tillPort [n0, n1, n2, n3]) s .busy
    else Accepts (.txnRelease tillPort [n0, n1, n2, n3]) s [] (some (.slot i))
      (issue [.slot i .free] (s.setSlot i .free)) := by
  split_ifs with ho hb
  · exact txnRelease_refuses h (releaseRecord_badState (s := dropFrame tillPort s) hs hr ho)
  · exact txnRelease_refuses h (releaseRecord_busy (s := dropFrame tillPort s) hs hr ho hb)
  · exact accepts_intro rfl rfl (screen_passes rfl (by simp) rfl) h
      (releaseRecord_accepted (s := dropFrame tillPort s) hs hr ho hb) h.evt

end

/-! ### Totals and snapshot (R154, R157) -/

theorem takeSnapshot_busy {s : State} (h : s.inFlight .totals = true) :
    takeSnapshot s = (s, .refused .busy) := if_pos h

theorem takeSnapshot_accepted {s : State} (h : s.inFlight .totals ≠ true) :
    takeSnapshot s =
      (issue [.snapshot ⟨s.work.totals, s.stamp⟩]
        { s with work := { s.work with snapshot := ⟨s.work.totals, s.stamp⟩ } },
       .accepted (s.work.totals.fields s.tod ++ [.raw s.clock]) (some .snapshot)) := if_neg h

/-- Settles O43: the slot selected decides the reads and releases of records, the write of the totals the rest. -/
theorem recordsTotalsAndSnapshot : Obligations.RecordsTotalsAndSnapshot := by
  refine ⟨?_, ?_, ?_, ?_, ?_⟩
  · rintro s n0 n1 n2 n3 c rfl h
    refine ⟨fun hn hf => ?_, fun hn hf => ?_, fun i r hr hn hk hu => ?_, fun i r hr hn hc hmin => ?_⟩
    · have hs : s.readSlot (u32 n0 n1 n2 n3) = none := (if_neg hn).trans (slotOf_eq_none hf)
      exact txnRead_refuses h (readRecord_unknown (s := dropFrame tillPort s) hs)
    · have hs : s.readSlot (u32 n0 n1 n2 n3) = none := (if_pos hn).trans (oldestCollectable_eq_none hf)
      exact txnRead_refuses h (readRecord_unknown (s := dropFrame tillPort s) hs)
    · have hs : s.readSlot (u32 n0 n1 n2 n3) = some i :=
        (if_neg hn).trans (slotOf_eq_some hr hk hu)
      exact txnRead_selects h hs hr
    · have hs : s.readSlot (u32 n0 n1 n2 n3) = some i :=
        (if_pos hn).trans (oldestCollectable_eq_some hc fun j hne hj => by simpa [hr, Slot.number] using hmin j hne hj)
      have hb := ((collectable_txn_iff hr).1 hc).2
      exact (if_neg (by simp [hb])).mp (txnRead_selects h hs hr)
  · rintro s n0 n1 n2 n3 c rfl h
    refine ⟨fun hf => ?_, fun i r hr hk hu => ?_⟩
    · exact txnRelease_refuses h (releaseRecord_unknown (s := dropFrame tillPort s) (slotOf_eq_none hf))
    · exact txnRelease_selects h (slotOf_eq_some hr hk hu) hr
  · rintro s b c rfl h
    split_ifs with ht
    · exact refuses_intro rfl rfl (screen_passes rfl (by simp) rfl) h (if_pos ht)
    · exact accepts_intro rfl rfl (screen_passes rfl (by simp) rfl) h (if_neg ht) h.evt
  · rintro s b c rfl h
    dsimp only
    split_ifs with ht
    · exact refuses_intro rfl rfl (screen_passes rfl (by simp) rfl) h (takeSnapshot_busy ht)
    · exact accepts_intro rfl rfl (screen_passes rfl (by simp) rfl) h
        (takeSnapshot_accepted (s := dropFrame tillPort s) ht) h.evt
  · rintro s b c rfl h
    exact accepts_intro rfl rfl (screen_passes rfl (by simp) rfl) h rfl h.evt

end Sys2Proof.Machine
end

section
/-! SUPPORT. The queue of waiting commands (the step and the idle step), the bodies of requests (R186, R187), the check
of a frame (R185), and what the state after reset obeys. -/

namespace Sys2Proof.Machine

/-! ### The step -/

/-- Settles O1: the step is defined by the head of the queue. -/
theorem stepRunsFrontCommand : Obligations.StepRunsFrontCommand := by
  intro c rest s h
  simp [step, h]

/-- Settles O2: the idle step joins a permutation of the ready events to the empty queue. -/
theorem idleStepQueuesReadyEvents : Obligations.IdleStepQueuesReadyEvents := by
  intro s h
  have hs : step s = .next (idle s) := by simp [step, h]
  rw [hs]
  unfold idle
  cases he : readyEvents s with
  | nil => simp
  | cons c l =>
    obtain ⟨h1, h2⟩ := s.permute_spec (c :: l)
    refine ⟨by simp, fun _ => ⟨_, (s.permute (c :: l)).1.freeCtr, h2, ?_⟩⟩
    simp [h1, h]

/-! ### Bodies (R186, R187) -/

/-- The catalogue builds a request that stands for the kind code of its row and the arguments. -/
theorem requestBody_build {code : Nat} {row : KindRow} (h : kindRow code = some row) (port : PortId)
    (args : List Byte) : requestBody (row.build port args) = some (port, BitVec.ofNat 8 code :: args) := by
  have hm : row ∈ kindRows := List.mem_of_find?_eq_some h
  have hc : row.code = code := by simpa using List.find?_some h
  subst hc
  clear h
  revert row
  simp only [kindRows, islandKinds, plantKinds, tillKinds, allPortKinds, List.cons_append, List.nil_append,
    List.forall_mem_cons, List.not_mem_nil]
  simp [requestBody]

/-- Settles O3: each body by its kind code, each request by its constructor. -/
theorem bodiesAndRequestsAgree : Obligations.BodiesAndRequestsAgree := by
  refine ⟨fun c port body hb hw => ?_, fun port kind args => ?_⟩
  · cases c <;> simp only [requestBody, Option.some.injEq, Prod.mk.injEq, reduceCtorEq] at hb
    case unknownKind n kind args =>
      obtain ⟨rfl, rfl⟩ := hb
      have hk : kindRow kind.toNat = none := by
        simpa [Instr.wellFormed, requestBody] using (Bool.and_eq_true_iff.1 hw).2
      simp [requestOf, hk]
    all_goals
      obtain ⟨rfl, rfl⟩ := hb
      rfl
  · unfold requestOf
    dsimp only
    cases hk : kindRow kind.toNat with
    | none => rfl
    | some row => simp [requestBody_build hk]

/-! ### The check of a frame (R185) -/

/-- A word of two bytes is told by its bytes. -/
theorem word_eq_bytes_iff (c : BitVec 16) (low high : Byte) :
    c = (high.setWidth 16 <<< 8) ||| low.setWidth 16 ↔ c.setWidth 8 = low ∧ (c >>> 8).setWidth 8 = high := by
  simp only [← BitVec.toNat_inj, BitVec.toNat_or, BitVec.toNat_shiftLeft, BitVec.toNat_setWidth,
    BitVec.toNat_ushiftRight]
  have hl := low.isLt
  have hh := high.isLt
  have hc := c.isLt
  have e : (high.toNat % 2 ^ 16) <<< 8 % 2 ^ 16 ||| low.toNat % 2 ^ 16 = 256 * high.toNat + low.toNat := by
    rw [Nat.mod_eq_of_lt (by omega : high.toNat < 2 ^ 16), Nat.mod_eq_of_lt (by omega : low.toNat < 2 ^ 16),
      Nat.shiftLeft_eq, Nat.mod_eq_of_lt (by omega), Nat.mul_comm, ← Nat.two_pow_add_eq_or_of_lt (i := 8) (by omega)]
  rw [e, Nat.shiftRight_eq_div_pow]
  omega

set_option maxRecDepth 20000 in
/-- R185: the manual's own example. -/
theorem crc16_nine_digits :
    crc16 [0x31#8, 0x32#8, 0x33#8, 0x34#8, 0x35#8, 0x36#8, 0x37#8, 0x38#8, 0x39#8] = 0x29B1#16 := by decide

/-- Settles O4: the comparison of R185 holds of the two bytes of the check and of no others. -/
theorem frameCheckIsExact : Obligations.FrameCheckIsExact := by
  refine ⟨fun body low high => ?_, crc16_nine_digits⟩
  simp [checkMatches, frameBytes, word_eq_bytes_iff]

/-! ### Reset -/

@[simp] theorem reset_pos (p : PosId) : State.reset.pos p = .initial := by simp [State.pos, State.reset]
@[simp] theorem reset_chan (p : PosId) : State.reset.chan p = .initial := by simp [State.chan, State.reset]
@[simp] theorem reset_bank (b : BankId) : State.reset.bank b = .initial := by simp [State.bank, State.reset]
@[simp] theorem reset_comp (c : CompId) : State.reset.comp c = .initial := by simp [State.comp, State.reset]
@[simp] theorem reset_lane (l : LaneId) : State.reset.lane l = .initial := by simp [State.lane, State.reset]
@[simp] theorem reset_port (n : PortId) : State.reset.port n = .initial := by simp [State.port, State.reset]
@[simp] theorem reset_slot (i : SlotId) : State.reset.slot i = .free := by
  simp [State.slot, State.reset, StoreData.manufactured]
@[simp] theorem reset_grantOf (r : Requester) : State.reset.grantOf r = .initial := by
  cases r <;> simp [State.grantOf, State.reset, Cooling.initial]

theorem reset_sumGrants : State.reset.sumGrants = 0 := by decide

/-- No capacity, no grant and no waiter: the laws of the cooling budget. -/
theorem reset_budgetLaw : BudgetLaw State.reset where
  floors r := by cases r <;> simp [GrantEntry.initial]
  grants r := by simp [GrantEntry.initial]
  whole c := by simp [GrantEntry.initial]
  flowing p k h := by simp [Position.initial] at h
  asking c := by simp [Compressor.initial]
  waiting w hw := absurd hw List.not_mem_nil
  once := .nil
  fillsFirst := rfl
  derated p h := by simp [GrantEntry.initial] at h
  head w rest h := by cases h

theorem reset_roomLaw : RoomLaw State.reset where
  room := by decide
  reserved p h := by simp [Position.initial] at h

theorem reset_holderLaw : HolderLaw State.reset where
  fills p b h := by simp [Position.initial] at h
  refills n b h := by simp [Compressor.initial] at h
  drawn b p h := by simp [Bank.initial] at h
  refilled b n h := by simp [Bank.initial] at h
  drawers w hw := absurd hw List.not_mem_nil

theorem reset_grantLaw : GrantLaw State.reset where
  ordered r := by simp [GrantEntry.initial]; exact List.not_mem_nil
  once := .nil
  fills p h := by simp [GrantEntry.initial] at h
  refills c h := by simp [GrantEntry.initial] at h
  waiters p h := absurd h.choose_spec.1 List.not_mem_nil

theorem reset_esdLaw : EsdLaw State.reset where
  drawers w hw := absurd hw List.not_mem_nil
  coolers p h := absurd h.choose_spec.1 List.not_mem_nil
  granted p h := by simp [GrantEntry.initial] at h
  noFill h := by cases h
  noRefill h := by cases h

theorem reset_compLaw : CompLaw State.reset where
  running c h := by simp [Compressor.initial] at h
  resting c _ := by simp [Compressor.initial]
  waiting c h := absurd h.choose_spec.1 List.not_mem_nil

theorem reset_queueLaw : QueueLaw State.reset where
  once := .nil
  inService e he := absurd he List.not_mem_nil
  ordered := .nil
  matched := by decide
  held c e h := by simp [Compressor.initial] at h

theorem Port.initial_law : Port.initial.law where
  replies := by decide
  directives := by decide
  buffer := by decide
  mask := by decide
  promoted := by decide
  supervision := by simp [Supervision.law, Port.initial]

theorem Lane.initial_law : Lane.initial.law where
  classZero := by decide
  readyOnly _ := ⟨rfl, rfl, rfl⟩
  pulldownOnly _ := rfl
  bothEnables h := absurd rfl h

theorem Totals.zero_law : Totals.zero.law := ⟨by decide, by decide, by decide⟩

theorem StoreData.manufactured_billLaw (i : SlotId) : (StoreData.manufactured.slots[i]).billLaw := by
  simp [StoreData.manufactured, Slot.billLaw]

/-- Settles O59: nothing waits, holds or runs after reset. -/
theorem resetObeysTheLaws : Obligations.ResetObeysTheLaws := by
  refine ⟨rfl, fun n => ?_, fun p => ?_, fun l => ?_, fun b => ?_, reset_holderLaw, ⟨?_, fun r h => ?_⟩,
    reset_grantLaw, reset_esdLaw, reset_compLaw, .nil, reset_queueLaw, reset_roomLaw,
    ⟨.nil, fun w hw => absurd hw List.not_mem_nil⟩, reset_budgetLaw, ⟨fun k b e h => ?_, fun p k h => ?_⟩,
    ⟨StoreData.manufactured_billLaw, StoreData.manufactured_billLaw, fun g hg => absurd hg List.not_mem_nil⟩,
    ⟨Totals.zero_law, Totals.zero_law, Totals.zero_law, Totals.zero_law, fun g hg => absurd hg List.not_mem_nil⟩⟩
  · rw [reset_port]; exact Port.initial_law
  · simp [Channel.initial]
  · rw [reset_lane]; exact Lane.initial_law
  · simp [Bank.initial]
  · rw [reset_sumGrants]; exact Nat.zero_le _
  · simp [GrantEntry.initial] at h
  · simp [State.rampEntry, State.reset] at h
  · simp [Position.initial] at h

end Sys2Proof.Machine
end

section
/-! SUPPORT. The requests whose owning rule makes no cascade: calibration, tariffs and clock, queries and settings of a
port (R137, R140, R141, R163, R176 to R178), AUTHORIZE (R12), VEHICLE_DATA (R47). -/

namespace Sys2Proof.Machine

/-! ### Vocabulary -/

@[simp] theorem dropFrame_work (n : PortId) (s : State) : (dropFrame n s).work = s.work := rfl
@[simp] theorem dropFrame_pins (n : PortId) (s : State) : (dropFrame n s).pins = s.pins := rfl
@[simp] theorem dropFrame_esd (n : PortId) (s : State) : (dropFrame n s).esd = s.esd := rfl
@[simp] theorem dropFrame_openSlot (n : PortId) (s : State) (p : PosId) :
    (dropFrame n s).openSlot p = s.openSlot p := rfl

/-- Every role is one of the three. -/
theorem Role.mem_all (r : Role) : r ∈ [Role.island, .plant, .till] := by cases r <;> simp

/-- An update of a port that leaves its receive buffer commutes with taking the frame. -/
theorem modPort_dropFrame (n m : PortId) (f : Port → Port) (s : State)
    (h : ∀ x : Port, f { x with rxBuffer := x.rxBuffer.drop 1 } = { f x with rxBuffer := (f x).rxBuffer.drop 1 }) :
    (dropFrame n s).modPort m f = dropFrame n (s.modPort m f) :=
  State.modPort_comm s n m _ f fun x => (h x).symm

/-! ### CAL_WRITE (R137, R138) -/

section
variable {s : State} {p : PosId} {w f : Nat}

theorem writeCalibration_range (h : w < 1 ∨ 5000 < w ∨ f < 62259 ∨ 68813 < f) :
    writeCalibration w f p s = (s, .refused .range) := if_pos h

theorem writeCalibration_locked (h : ¬(w < 1 ∨ 5000 < w ∨ f < 62259 ∨ 68813 < f)) (hc : s.pins.calEn = false) :
    writeCalibration w f p s = (s, .refused .calLocked) := by
  exact (if_neg h).trans (by simp [hc, refuse])

/-- R137: a position with a reservation or an OPEN transaction is busy. -/
theorem calibrationBusy_iff (s : State) (p : PosId) : calibrationBusy s p = true ↔
    (s.pos p).authorization.any (·.reservation) = true ∨ s.openSlot p ≠ none := by
  cases ha : (s.pos p).authorization <;> simp [calibrationBusy, ha, ← Option.ne_none_iff_isSome]

theorem writeCalibration_busy (h : ¬(w < 1 ∨ 5000 < w ∨ f < 62259 ∨ 68813 < f)) (hc : s.pins.calEn = true)
    (hb : calibrationBusy s p = true) : writeCalibration w f p s = (s, .refused .busy) := by
  exact (if_neg h).trans (by simp [hc, hb, refuse])

theorem writeCalibration_exhausted (h : ¬(w < 1 ∨ 5000 < w ∨ f < 62259 ∨ 68813 < f)) (hc : s.pins.calEn = true)
    (hb : calibrationBusy s p = false) (he : s.work.calibration.counter = 65535) :
    writeCalibration w f p s = (s, .refused .calExhausted) := by
  exact (if_neg h).trans (by simp [hc, hb, he, refuse])

/-- The calibration with one channel set and the counter raised (R138). -/
def Calibration.written (c : Calibration) (p : PosId) (w f : Nat) : Calibration :=
  ⟨c.channels.set p ⟨w, f⟩, c.counter + 1⟩

theorem writeCalibration_accepted (h : ¬(w < 1 ∨ 5000 < w ∨ f < 62259 ∨ 68813 < f)) (hc : s.pins.calEn = true)
    (hb : calibrationBusy s p = false) (he : s.work.calibration.counter < 65535) :
    writeCalibration w f p s =
      (issue [.calibration (s.work.calibration.written p w f)]
        { s with work := { s.work with calibration := s.work.calibration.written p w f } },
        .accepted [.byte (some p.val), .half (some w), .raw (BitVec.ofNat 32 f),
          .half (some (s.work.calibration.counter + 1))] (some .calibration)) := by
  exact (if_neg h).trans (by simp [hc, hb, Nat.ne_of_lt he, satSucc, he, Calibration.written])

end

theorem calWrite_refuses {s : State} {p : PosId} {w0 w1 f0 f1 f2 f3 : Byte} {code : RefusalCode}
    (h : Standing (.calWrite plantPort [byteOf p.val, w0, w1, f0, f1, f2, f3]) s)
    (ho : writeCalibration (u16 w0 w1) (u32 f0 f1 f2 f3) p (dropFrame plantPort s) =
      (dropFrame plantPort s, .refused code)) :
    Refuses (.calWrite plantPort [byteOf p.val, w0, w1, f0, f1, f2, f3]) s code :=
  refuses_intro rfl rfl (screen_passes rfl (by simp) rfl) h ((forPosition_byteOf ..).trans ho)

/-- Settles O41: the checks of R137 one after the other. -/
theorem calibrationWriteResult : Obligations.CalibrationWriteResult := by
  rintro s p w0 w1 f0 f1 f2 f3 c rfl h
  dsimp only
  split_ifs with hr hc hb he
  · exact calWrite_refuses h (writeCalibration_range hr)
  · exact calWrite_refuses h (writeCalibration_locked hr hc)
  · exact calWrite_refuses h (writeCalibration_busy (s := dropFrame plantPort s) hr (by simpa using hc)
      ((calibrationBusy_iff (dropFrame plantPort s) p).2 hb))
  all_goals have hb' : calibrationBusy (dropFrame plantPort s) p = false :=
    Bool.eq_false_iff.2 (mt (calibrationBusy_iff s p).1 hb)
  · exact calWrite_refuses h (writeCalibration_exhausted hr (by simpa using hc) hb' he)
  · intro hlt
    exact accepts_intro rfl rfl (screen_passes rfl (by simp) rfl) h ((forPosition_byteOf ..).trans
      (writeCalibration_accepted (s := dropFrame plantPort s) hr (by simpa using hc) hb' hlt)) h.evt

/-! ### TARIFF_SET, TARIFF_READ, SET_CLOCK (R140, R141) -/

/-- R141: what makes a valid entry out of range. -/
def TariffRefused (classes allDay : Byte) (start stop price : Nat) : Prop :=
  classes = 0#8 ∨ 64 ≤ classes.toNat ∨ price < 1 ∨ 99999999 < price ∨ 86399 < start ∨ 86399 < stop ∨
    (allDay = 0#8 ∧ start = stop)

theorem setWidth_eq_zero_iff {b : Byte} (h : b.toNat < 64) : b.setWidth 6 = 0#6 ↔ b = 0#8 := by
  simp only [← BitVec.toNat_inj, BitVec.toNat_setWidth, BitVec.toNat_ofNat]
  omega

theorem flagOf_eq_false_iff (b : Byte) : flagOf b = false ↔ b = 0#8 := by simp [flagOf]

theorem tariffOf_invalid {valid classes allDay : Byte} {ws we price : Nat} (h : valid = 0#8) :
    tariffOf valid classes allDay ws we price = some ⟨false, 0#6, false, 0, 0, 0⟩ := by
  simp [tariffOf, (flagOf_eq_false_iff valid).2 h, Tariff.invalid]

theorem tariffOf_refused {valid classes allDay : Byte} {ws we price : Nat} (h : valid ≠ 0#8)
    (hr : TariffRefused classes allDay ws we price) : tariffOf valid classes allDay ws we price = none := by
  have hv : flagOf valid = true := by simpa using mt (flagOf_eq_false_iff valid).1 h
  unfold tariffOf classSetOf
  rw [if_pos hv]
  by_cases hc : classes.toNat < 64
  · simp only [hc, if_true, setWidth_eq_zero_iff hc, flagOf_eq_false_iff]
    rw [if_pos]
    rcases hr with hr | hr | hr
    · exact .inl hr
    · omega
    · exact .inr hr
  · simp [hc]

theorem tariffOf_valid {valid classes allDay : Byte} {ws we price : Nat} (h : valid ≠ 0#8)
    (hr : ¬TariffRefused classes allDay ws we price) : tariffOf valid classes allDay ws we price =
      some ⟨true, classes.setWidth 6, allDay != 0#8, ws, we, price⟩ := by
  have hv : flagOf valid = true := by simpa using mt (flagOf_eq_false_iff valid).1 h
  simp only [TariffRefused, not_or] at hr
  obtain ⟨h0, hc, hr⟩ := hr
  have hc : classes.toNat < 64 := by omega
  unfold tariffOf classSetOf
  rw [if_pos hv]
  simp only [hc, if_true, setWidth_eq_zero_iff hc, flagOf_eq_false_iff]
  rw [if_neg (by simp only [not_or]; exact ⟨h0, hr⟩)]
  rfl

/-- Settles O42: the entry that the bytes spell, or its refusal. -/
theorem tariffAndClockResult : Obligations.TariffAndClockResult := by
  refine ⟨?_, ?_, ?_⟩
  · rintro s n valid classes allDay s0 s1 s2 s3 e0 e1 e2 e3 p0 p1 p2 p3 c rfl h
    have set (t : Tariff) (ht : tariffOf valid classes allDay (u32 s0 s1 s2 s3) (u32 e0 e1 e2 e3)
        (u32 p0 p1 p2 p3) = some t) :
        Accepts (.tariffSet tillPort
          [byteOf n.val, valid, classes, allDay, s0, s1, s2, s3, e0, e1, e2, e3, p0, p1, p2, p3]) s
          (.byte (some n.val) :: t.fields) (some (.tariff n))
          (issue [.tariff n t] { s with work := { s.work with tariffs := s.work.tariffs.set n t } }) :=
      accepts_intro rfl rfl (screen_passes rfl (by simp) rfl) h (by simp only [idOf_byteOf (n := 8) (by omega), ht]; rfl) h.evt
    dsimp only
    split_ifs with hv hr
    · exact set _ (tariffOf_invalid hv)
    · exact refuses_intro rfl rfl (screen_passes rfl (by simp) rfl) h
        (by simp only [idOf_byteOf (n := 8) (by omega), tariffOf_refused hv hr]; rfl)
    · exact set _ (tariffOf_valid hv hr)
  · rintro s n c rfl h
    exact accepts_intro rfl rfl (screen_passes rfl (by simp) rfl) h (by simp only [idOf_byteOf (n := 8) (by omega)]; rfl) h.evt
  · rintro s d0 d1 x0 x1 x2 x3 c rfl h
    dsimp only
    split_ifs with hr
    · exact refuses_intro rfl rfl (screen_passes rfl (by simp) rfl) h (if_pos hr)
    · exact accepts_intro rfl rfl (screen_passes rfl (by simp) rfl) h (if_neg hr) h.evt

end Sys2Proof.Machine
end

section
/-! SUPPORT. The queries and the settings of a port (R31, R163, R176 to R178), AUTHORIZE (R12) and VEHICLE_DATA (R47). -/

namespace Sys2Proof.Machine

/-! ### A port whose frame is taken -/

theorem dropFrame_port (n m : PortId) (s : State) : ∃ l, (dropFrame n s).port m = { s.port m with rxBuffer := l } := by
  by_cases e : m = n
  · subst e
    exact ⟨_, by simp [dropFrame]; rfl⟩
  · exact ⟨(s.port m).rxBuffer, by rw [dropFrame, State.modPort_port_ne s n m _ e]⟩

@[simp] theorem dropFrame_supervision (n m : PortId) (s : State) :
    ((dropFrame n s).port m).supervision = (s.port m).supervision := by
  obtain ⟨l, e⟩ := dropFrame_port n m s
  rw [e]

@[simp] theorem dropFrame_counters (n m : PortId) (s : State) :
    ((dropFrame n s).port m).counters = (s.port m).counters := by
  obtain ⟨l, e⟩ := dropFrame_port n m s
  rw [e]

@[simp] theorem dropFrame_pendingNotices (n m : PortId) (s : State) :
    ((dropFrame n s).port m).pending = (s.port m).pending := by
  obtain ⟨l, e⟩ := dropFrame_port n m s
  rw [e]

/-- A port update after the frame is taken, and what the port then is but for its buffer. -/
theorem port_modPort_dropFrame (n : PortId) (f : Port → Port) (s : State) :
    ((dropFrame n s).modPort n f).port n = f { s.port n with rxBuffer := (s.port n).rxBuffer.drop 1 } := by
  simp [dropFrame]

/-! ### STATUS_QUERY, COUNTERS_CLEAR, SUPERVISION_SET (R163, R177, R178) -/

/-- STATUS_QUERY reads nothing that the frame taken changes. -/
theorem statusFields_dropFrame (n : PortId) (s : State) : statusFields (dropFrame n s) n = statusFields s n := by
  simp only [statusFields, dropFrame_supervision]
  rfl

theorem Supervision.timed_iff (x : Supervision) : x.timed = true ↔ x.state = .alive ∨ x.state = .late := by
  unfold Supervision.timed
  split <;> simp_all

theorem setInterval_accepted {n : PortId} {v : Nat} {s : State} (h : v = 250 ∨ v = 500 ∨ v = 1000 ∨ v = 2000) :
    setInterval n v (dropFrame n s) = (dropFrame n (s.setPort n { s.port n with
      supervision := { (s.port n).supervision with
        interval := v
        timer := if (s.port n).supervision.state = .alive ∨ (s.port n).supervision.state = .late then some v
          else (s.port n).supervision.timer } }),
      .accepted [.half (some v), .byte (some (s.port n).supervision.state.code)] none) := by
  refine (if_pos h).trans ?_
  simp only [accept, port_modPort_dropFrame]
  rw [modPort_dropFrame _ _ _ _ (fun _ => rfl)]
  simp only [State.modPort, Supervision.timed_iff]

/-! ### NOTICE_SET (R176) -/

/-- Of a list in which one element at most passes a test, the first that passes a second test too is that element. -/
theorem find?_and_of_unique {α : Type} (p q : α → Bool) (l : List α)
    (h : ∀ a ∈ l, ∀ b ∈ l, p a = true → p b = true → a = b) :
    l.find? (fun a => p a && q a) = (l.find? p).filter q := by
  induction l with
  | nil => rfl
  | cons a l ih =>
    have ih := ih fun a ha b hb => h a (List.mem_cons_of_mem _ ha) b (List.mem_cons_of_mem _ hb)
    cases hp : p a with
    | false => simp [hp, ih]
    | true =>
      cases hq : q a with
      | true => simp [hp, hq, Option.filter]
      | false =>
        have : l.find? (fun a => p a && q a) = none := by
          rw [List.find?_eq_none]
          intro b hb hpq
          simp only [Bool.and_eq_true] at hpq
          have e := h a List.mem_cons_self b (List.mem_cons_of_mem _ hb) hp hpq.1
          rw [e] at hq
          simp [hq] at hpq
        simp [hp, hq, this, Option.filter]

theorem NoticeKind.code_injective : ∀ a b : NoticeKind, a.code = b.code → a = b := by
  intro a b
  cases a <;> cases b <;> decide

/-- R176: a slot of NOTICE_SET names no kind by 0xFF, and else a kind that the port may promote. -/
theorem promotedOf_eq (r : Role) (b : Byte) : promotedOf r b =
    if b = 0xFF#8 then some [] else
      (noticeKinds.filter (fun k => k.code == b.toNat && k.level != 7 && k.sentTo r)).head?.map (fun k => [k]) := by
  unfold promotedOf
  split
  · rfl
  · have h := find?_and_of_unique (fun k : NoticeKind => k.code == b.toNat) (fun k => k.level != 7 && k.sentTo r)
      noticeKinds fun a _ c _ ha hc => NoticeKind.code_injective a c (by simp at ha hc; rw [ha, hc])
    simp only [List.head?_filter, Bool.and_assoc, h]
    cases noticeKinds.find? (fun k : NoticeKind => k.code == b.toNat) with
    | none => rfl
    | some k =>
      by_cases hk : k.level ≠ 7 ∧ k.sentTo r = true
      · simp [hk]
      · have : (k.level != 7 && k.sentTo r) = false := by simpa using hk
        simp only [hk, if_false, Option.filter, this]
        rfl

theorem promotedOf_length {r : Role} {b : Byte} {l : List NoticeKind} (h : promotedOf r b = some l) :
    l.length ≤ 1 := by
  unfold promotedOf at h
  split at h
  · cases h; simp
  · split at h
    · split at h
      · cases h; simp
      · cases h
    · cases h

/-- R176: a kind named twice counts once. -/
theorem promotedKinds_eq {a b : List NoticeKind} (ha : a.length ≤ 1) (hb : b.length ≤ 1) :
    promotedKinds a b = if a = b then a else a ++ b := by
  unfold promotedKinds
  match a, b, ha, hb with
  | [], [], _, _ => rfl
  | [], [y], _, _ => rfl
  | [x], [], _, _ => rfl
  | [x], [y], _, _ =>
    by_cases e : x = y
    · simp [e]
    · have e' : y ≠ x := Ne.symm e
      simp [e, e']

theorem setNotices_range {n : PortId} {mask a b : Byte} {s : State}
    (h : 7 < mask.toNat ∨ promotedOf (portRole n) a = none ∨ promotedOf (portRole n) b = none) :
    setNotices n mask a b s = (s, .refused .range) := by
  unfold setNotices
  by_cases hm : 7 < mask.toNat
  · rw [if_pos hm]; rfl
  · rw [if_neg hm]
    rcases h with h | h | h
    · exact absurd h hm
    · simp [h, refuse]
    · cases promotedOf (portRole n) a <;> simp [h, refuse]

theorem setNotices_accepted {n : PortId} {mask a b : Byte} {ka kb : List NoticeKind} {s : State}
    (h : ¬7 < mask.toNat) (ha : promotedOf (portRole n) a = some ka) (hb : promotedOf (portRole n) b = some kb) :
    setNotices n mask a b (dropFrame n s) =
      (dropFrame n (s.setPort n ((s.port n).setNotices mask.toNat (if ka = kb then ka else ka ++ kb))),
      .accepted [.byte (some mask.toNat), .byte ((if ka = kb then ka else ka ++ kb)[0]?.map NoticeKind.code),
        .byte ((if ka = kb then ka else ka ++ kb)[1]?.map NoticeKind.code),
        .byte (some ((s.port n).setNotices mask.toNat (if ka = kb then ka else ka ++ kb)).pending.length)] none) := by
  unfold setNotices
  rw [if_neg h]
  simp only [ha, hb, promotedKinds_eq (promotedOf_length ha) (promotedOf_length hb), accept, port_modPort_dropFrame]
  rw [modPort_dropFrame _ _ _ _ (fun _ => rfl)]
  rfl

/-- Settles O44: the queries field by field, the settings by the port they leave. -/
theorem queriesAndPortSettings : Obligations.QueriesAndPortSettings := by
  refine ⟨?_, ?_, ?_, ?_, ?_, ?_⟩
  · rintro s p c rfl h
    exact accepts_intro rfl rfl (screen_passes rfl (by simp) rfl) h ((forPosition_byteOf ..).trans rfl) h.evt
  · rintro s n b c rfl h
    refine accepts_intro rfl rfl (screen_passes rfl (Role.mem_all _) rfl) h ?_ h.evt
    refine (congrArg (fun l => (dropFrame n s, Answer.accepted l none)) (statusFields_dropFrame n s)).trans ?_
    unfold statusFields
    cases s.esd.change <;> rfl
  · rintro s n b c rfl h
    exact accepts_intro rfl rfl (screen_passes rfl (Role.mem_all _) rfl) h
      (by simp [accept]) h.evt
  · rintro s n b c rfl h
    exact accepts_intro rfl rfl (screen_passes rfl (Role.mem_all _) rfl) h
      (congrArg (fun u : State => (u, Answer.accepted [] none))
        (modPort_dropFrame n n (fun x => { x with counters := .zero }) s fun _ => rfl)) h.evt
  · rintro s n i0 i1 c rfl h
    dsimp only
    by_cases hv : u16 i0 i1 = 250 ∨ u16 i0 i1 = 500 ∨ u16 i0 i1 = 1000 ∨ u16 i0 i1 = 2000
    · rw [if_pos hv]
      exact accepts_intro rfl rfl (screen_passes rfl (Role.mem_all _) rfl) h (setInterval_accepted hv) h.evt
    · rw [if_neg hv]
      exact refuses_intro rfl rfl (screen_passes rfl (Role.mem_all _) rfl) h (if_neg hv)
  · rintro s n mask a b c rfl h
    dsimp only
    have range (hr : 7 < mask.toNat ∨ promotedOf (portRole n) a = none ∨ promotedOf (portRole n) b = none) :
        Refuses (.noticeSet n [mask, a, b]) s .range :=
      refuses_intro rfl rfl (screen_passes rfl (Role.mem_all _) rfl) h (setNotices_range hr)
    by_cases hm : 7 < mask.toNat
    · rw [if_pos hm]
      exact range (.inl hm)
    · rw [if_neg hm, ← promotedOf_eq, ← promotedOf_eq]
      cases ha : promotedOf (portRole n) a with
      | none => exact range (.inr (.inl ha))
      | some ka =>
        cases hb : promotedOf (portRole n) b with
        | none => exact range (.inr (.inr hb))
        | some kb =>
          exact accepts_intro rfl rfl (screen_passes rfl (Role.mem_all _) rfl) h (setNotices_accepted hm ha hb) h.evt

/-! ### AUTHORIZE (R12) -/

theorem presetOf_eq (kind : Byte) (v : Nat) : presetOf kind v =
    if kind = 0#8 then some .none
    else if kind = 1#8 ∧ 1 ≤ v ∧ v ≤ 999999 then some (.mass v)
    else if kind = 2#8 ∧ 1 ≤ v ∧ v ≤ 99999999 then some (.amount v)
    else none := by
  unfold presetOf
  by_cases h0 : kind = 0#8
  · simp [h0]
  · by_cases h1 : kind = 1#8
    · simp [h1]
    · by_cases h2 : kind = 2#8
      · simp [h2]
      · simp [h0, h1, h2]

theorem classSetOf_eq (b : Byte) : classSetOf b = if 64 ≤ b.toNat then none else some (b.setWidth 6) := by
  unfold classSetOf
  split_ifs <;> first | rfl | omega

section
variable {s : State} {p : PosId} {tag : Tag} {classes kind : Byte} {v : Nat}

theorem authorizePosition_esdActive (h : s.esd.latched = true) :
    authorizePosition tag classes kind v p s = (s, .refused .esdActive) := if_pos h

theorem authorizePosition_badState (h : s.esd.latched = false)
    (hs : (s.pos p).state ≠ .idle ∧ (s.pos p).state ≠ .waitAuth) :
    authorizePosition tag classes kind v p s = (s, .refused .badState) := by
  unfold authorizePosition
  rw [if_neg (by simp [h]), if_pos hs]
  rfl

theorem authorizePosition_range (h : s.esd.latched = false)
    (hs : ¬((s.pos p).state ≠ .idle ∧ (s.pos p).state ≠ .waitAuth))
    (hr : presetOf kind v = none ∨ 64 ≤ classes.toNat ∨ classes = 0#8) :
    authorizePosition tag classes kind v p s = (s, .refused .range) := by
  unfold authorizePosition
  rw [if_neg (by simp [h]), if_neg hs, classSetOf_eq]
  by_cases hc : 64 ≤ classes.toNat
  · simp [hc, refuse]
  · rcases hr with hr | hr | hr
    · simp [hr, hc, refuse]
    · exact absurd hr hc
    · cases presetOf kind v <;> simp [hr, refuse]

theorem authorizePosition_storeFull (h : s.esd.latched = false)
    (hs : ¬((s.pos p).state ≠ .idle ∧ (s.pos p).state ≠ .waitAuth)) {preset : Preset}
    (hp : presetOf kind v = some preset) (hc : ¬64 ≤ classes.toNat) (h0 : classes ≠ 0#8)
    (hf : storeFull s = true) : authorizePosition tag classes kind v p s = (s, .refused .storeFull) := by
  have h6 := mt (setWidth_eq_zero_iff (b := classes) (by omega)).1 h0
  unfold authorizePosition
  rw [if_neg (by simp [h]), if_neg hs, classSetOf_eq]
  simp [hc, hp, h6, hf, refuse]

theorem authorizePosition_accepted (h : s.esd.latched = false)
    (hs : ¬((s.pos p).state ≠ .idle ∧ (s.pos p).state ≠ .waitAuth)) {preset : Preset}
    (hp : presetOf kind v = some preset) (hc : ¬64 ≤ classes.toNat) (h0 : classes ≠ 0#8)
    (hf : storeFull s = false) : authorizePosition tag classes kind v p s =
      (s.setPos p { s.pos p with
        authorization := some ⟨tag, classes.setWidth 6, preset, true⟩
        phaseTimer := some 180000
        state := if (s.pos p).state = .idle then .waitNozzle else .ready },
      .accepted [.byte (some p.val), .raw tag,
        .byte (some (if (s.pos p).state = .idle then PosState.waitNozzle else .ready).code)] none) := by
  have h6 := mt (setWidth_eq_zero_iff (b := classes) (by omega)).1 h0
  unfold authorizePosition
  rw [if_neg (by simp [h]), if_neg hs, classSetOf_eq]
  simp [hc, hp, h6, hf, accept, State.modPos]

end

theorem storeFull_iff (s : State) : storeFull s = true ↔
    64 ≤ s.reservations + s.records ∨ 4294967295 ≤ s.reservations + s.work.nextNumber := by simp [storeFull]

theorem authorize_refuses {s : State} {p : PosId} {g0 g1 g2 g3 classes kind v0 v1 v2 v3 : Byte} {code : RefusalCode}
    (h : Standing (.authorize tillPort [byteOf p.val, g0, g1, g2, g3, classes, kind, v0, v1, v2, v3]) s)
    (ho : authorizePosition (w32 g0 g1 g2 g3) classes kind (u32 v0 v1 v2 v3) p (dropFrame tillPort s) =
      (dropFrame tillPort s, .refused code)) :
    Refuses (.authorize tillPort [byteOf p.val, g0, g1, g2, g3, classes, kind, v0, v1, v2, v3]) s code :=
  refuses_intro rfl rfl (screen_passes rfl (by simp) rfl) h ((forPosition_byteOf ..).trans ho)

/-- Settles O17: the checks of R12 one after the other. -/
theorem authorizeResult : Obligations.AuthorizeResult := by
  rintro s p g0 g1 g2 g3 classes kind v0 v1 v2 v3 c rfl h
  dsimp only
  simp only [← presetOf_eq]
  by_cases he : s.esd.latched = true
  · rw [if_pos he]
    exact authorize_refuses h (authorizePosition_esdActive he)
  rw [if_neg he]
  have he : (dropFrame tillPort s).esd.latched = false := by simpa using he
  by_cases hs : (s.pos p).state ≠ .idle ∧ (s.pos p).state ≠ .waitAuth
  · rw [if_pos hs]
    exact authorize_refuses h (authorizePosition_badState he hs)
  rw [if_neg hs]
  by_cases hr : presetOf kind (u32 v0 v1 v2 v3) = none ∨ 64 ≤ classes.toNat ∨ classes = 0#8
  · rw [if_pos hr]
    exact authorize_refuses h (authorizePosition_range he hs hr)
  rw [if_neg hr]
  simp only [not_or] at hr
  obtain ⟨hp, hc, h0⟩ := hr
  obtain ⟨preset, hp⟩ := Option.ne_none_iff_exists'.1 hp
  by_cases hf : 64 ≤ s.reservations + s.records ∨ 4294967295 ≤ s.reservations + s.work.nextNumber
  · rw [if_pos hf]
    exact authorize_refuses h (authorizePosition_storeFull he hs hp hc h0 ((storeFull_iff (dropFrame _ s)).2 hf))
  · rw [if_neg hf, hp]
    have hf := Bool.eq_false_iff.2 (mt (storeFull_iff (dropFrame tillPort s)).1 hf)
    exact accepts_intro rfl rfl (screen_passes rfl (by simp) rfl) h
      ((forPosition_byteOf ..).trans (authorizePosition_accepted he hs hp hc h0 hf)) h.evt

/-! ### VEHICLE_DATA (R47, R48) -/

theorem satSucc_eq (n : Nat) : satSucc n = min (n + 1) 65535 := by
  unfold satSucc
  split <;> omega

/-- R48: the buffer and the drops after a valid report. -/
theorem RampGenerator.push_eq (g : RampGenerator) (r : VehicleReport) : g.push r =
    { g with
      buffer := (if 4 ≤ g.buffer.length then g.buffer.drop 1 else g.buffer) ++ [r]
      drops := if 4 ≤ g.buffer.length then min (g.drops + 1) 65535 else g.drops } := by
  unfold RampGenerator.push
  split
  · rw [if_neg (by omega), if_neg (by omega)]
  · rw [if_pos (by omega), if_pos (by omega), satSucc_eq]

section
variable {s : State} {p : PosId}

theorem reportVehicle_badState {r : Option VehicleReport} (h : (s.pos p).state = .unavailable) :
    reportVehicle r p s = (s, .refused .badState) := if_pos h

theorem reportVehicle_invalid (h : (s.pos p).state ≠ .unavailable) : reportVehicle none p s =
    (s.setPos p { s.pos p with
      ramp := { (s.pos p).ramp with drops := min ((s.pos p).ramp.drops + 1) 65535 } },
    .accepted [.byte (some 2), .byte (some (s.pos p).ramp.buffer.length),
      .half (some (min ((s.pos p).ramp.drops + 1) 65535)), .half (some (s.pos p).ramp.holds)] none) := by
  simp [reportVehicle, h, accept, satSucc_eq, State.modPos]

theorem reportVehicle_valid (r : VehicleReport) (h : (s.pos p).state ≠ .unavailable) : reportVehicle (some r) p s =
    (s.setPos p { s.pos p with
      ramp := { (s.pos p).ramp.push r with lastValid := some ⟨r, s.clock⟩ } },
    .accepted [.byte (some (if 4 ≤ (s.pos p).ramp.buffer.length then 1 else 0)),
      .byte (some ((s.pos p).ramp.push r).buffer.length), .half (some ((s.pos p).ramp.push r).drops),
      .half (some ((s.pos p).ramp.push r).holds), .flag r.sensorRange] none) := by
  simp [reportVehicle, h, accept, State.modPos]

end

theorem vehicleData_refuses {s : State} {p : PosId} {v0 v1 p0 p1 t0 t1 command : Byte} {code : RefusalCode}
    (h : Standing (.vehicleData (islandPort p) [byteOf p.val, v0, v1, p0, p1, t0, t1, command]) s)
    (ho : ∀ r, reportVehicle r p (dropFrame (islandPort p) s) = (dropFrame (islandPort p) s, .refused code)) :
    Refuses (.vehicleData (islandPort p) [byteOf p.val, v0, v1, p0, p1, t0, t1, command]) s code :=
  refuses_intro rfl rfl (screen_passes rfl (by simp) rfl) h ((forOwn_byteOf ..).trans (ho _))

/-- A VEHICLE_DATA that its position takes answers as the owning rule does for the report it spells. -/
theorem vehicleData_accepts {s e : State} {p : PosId} {v0 v1 p0 p1 t0 t1 command : Byte} {data : List Field}
    (h : Standing (.vehicleData (islandPort p) [byteOf p.val, v0, v1, p0, p1, t0, t1, command]) s)
    (ho : reportVehicle (vehicleReportOf (u16 v0 v1) (u16 p0 p1) (i16 t0 t1) command) p (dropFrame (islandPort p) s) =
      (dropFrame (islandPort p) e, .accepted data none)) (he : e.evt = s.evt) :
    Accepts (.vehicleData (islandPort p) [byteOf p.val, v0, v1, p0, p1, t0, t1, command]) s data none e :=
  accepts_intro rfl rfl (screen_passes rfl (by simp) rfl) h ((forOwn_byteOf ..).trans ho) (he.trans h.evt)

/-- Settles O26: an invalid report is a drop, a valid one joins the buffer. -/
theorem vehicleDataResult : Obligations.VehicleDataResult := by
  rintro s p v0 v1 p0 p1 t0 t1 command c rfl h
  dsimp only
  by_cases hs : (s.pos p).state = .unavailable
  · rw [if_pos hs]
    exact vehicleData_refuses h fun _ => reportVehicle_badState hs
  · rw [if_neg hs]
    have invalid (hr : vehicleReportOf (u16 v0 v1) (u16 p0 p1) (i16 t0 t1) command = none) :
        Accepts (.vehicleData (islandPort p) [byteOf p.val, v0, v1, p0, p1, t0, t1, command]) s
          [.byte (some 2), .byte (some (s.pos p).ramp.buffer.length),
            .half (some (min ((s.pos p).ramp.drops + 1) 65535)), .half (some (s.pos p).ramp.holds)] none
          (s.setPos p { s.pos p with
            ramp := { (s.pos p).ramp with drops := min ((s.pos p).ramp.drops + 1) 65535 } }) :=
      vehicleData_accepts h (hr ▸ reportVehicle_invalid (s := dropFrame _ s) hs) rfl
    cases hc : commandOf command with
    | none =>
      exact invalid (by unfold vehicleReportOf; rw [hc]; split <;> rfl)
    | some order =>
      cases hv : decide (10 ≤ u16 v0 v1 ∧ u16 v0 v1 ≤ 5000) with
      | false =>
        rw [decide_eq_false_iff_not] at hv
        exact invalid (if_pos (by omega))
      | true =>
        rw [decide_eq_true_iff] at hv
        have hr : vehicleReportOf (u16 v0 v1) (u16 p0 p1) (i16 t0 t1) command =
            some ⟨u16 v0 v1, min (u16 p0 p1) 12000, max (-600) (min (i16 t0 t1) 1200), order,
              decide (12000 < u16 p0 p1 ∨ i16 t0 t1 < -600 ∨ 1200 < i16 t0 t1)⟩ := by
          refine (if_neg (by omega)).trans ?_
          simp [hc, clampPressure, clampTemp]
        have ho := reportVehicle_valid (s := dropFrame (islandPort p) s) (p := p)
          ⟨u16 v0 v1, min (u16 p0 p1) 12000, max (-600) (min (i16 t0 t1) 1200), order,
            decide (12000 < u16 p0 p1 ∨ i16 t0 t1 < -600 ∨ 1200 < i16 t0 t1)⟩ hs
        rw [RampGenerator.push_eq] at ho
        exact vehicleData_accepts h (hr ▸ ho) rfl

end Sys2Proof.Machine
end

section
/-! SUPPORT. The events of the links, of the timers that make no cascade, of the store and of the lines (R124, R125, R137,
R139, R158, R164, R168 to R172, R175, R180 to R183). -/

namespace Sys2Proof.Machine

/-! ### All ports at once -/

/-- One update of every port in turn updates them all. -/
theorem foldl_modPort_all (f : Port → Port) (s : State) :
    allPorts.foldl (fun s n => s.modPort n f) s = { s with ports := s.ports.map f } := by
  simp only [allPorts, List.foldl, State.modPort, State.setPort, State.port]
  congr 1
  apply Vector.ext
  intro j hj
  match j, hj with
  | 0, _ | 1, _ | 2, _ | 3, _ | 4, _ | 5, _ => simp

theorem transmitAll_eq {s : State} (h : s.phase = .serving) :
    transmitAll s = { s with ports := s.ports.map (fun x => x.transmit s.clock) } := by
  have key (l : List PortId) (u : State) (hu : u.clock = s.clock) :
      l.foldl (fun u n => u.modPort n (fun x => x.transmit u.clock)) u =
        l.foldl (fun u n => u.modPort n (fun x => x.transmit s.clock)) u := by
    induction l generalizing u with
    | nil => rfl
    | cons a l ih => rw [List.foldl_cons, List.foldl_cons, hu]; exact ih _ hu
  unfold transmitAll
  rw [if_pos (by simp [h]), key _ s rfl, foldl_modPort_all]

/-- The end of an event with nothing of the budget in it is the transmitters alone. -/
theorem endEvent_eq {s : State} (h : s.evt = .empty) (hp : s.phase = .serving) :
    endEvent s = { s with ports := s.ports.map (fun x => x.transmit s.clock) } := by
  have hw : postWaitNotices s = s := by simp [postWaitNotices, h, Scratch.empty]
  have hc : postCoolingState s = s := by simp [postCoolingState, h, Scratch.empty]
  unfold endEvent
  simp only [hw, hc, transmitAll_eq hp, h]
  rfl

/-- An event of the part in any way of running: while it serves, its effect but for begun frames. -/
theorem takes_endEvent {c : Instr} {s e : State} (hx : exec c s = .next (endEvent e)) (he : e.evt = .empty) :
    Takes c s e := ⟨_, hx, delivers_endEvent _ (by rw [he]; rfl) (by rw [he]; rfl)⟩

/-! ### The transmitter (R172, R175) -/

theorem Port.sendsBefore_iff (x : Port) (now : Clock) (m n : Notice) : x.sendsBefore now m n = true ↔
    x.rank m < x.rank n ∨ x.rank m = x.rank n ∧
      (age now n.joined < age now m.joined ∨ age now m.joined = age now n.joined ∧
        (m.kind.code < n.kind.code ∨ m.kind.code = n.kind.code ∧ m.subject < n.subject)) := by
  unfold Port.sendsBefore
  split
  · simp only [decide_eq_true_eq]; omega
  · split
    · simp only [decide_eq_true_eq]; omega
    · split <;> simp only [decide_eq_true_eq] <;> omega

theorem Port.rank_eq (x : Port) (n : Notice) : x.rank n =
    if n.kind.level = 7 then 0 else if n.kind ∈ x.promoted ∧ x.mask ≤ 5 then 1 else 8 - n.kind.level := by
  simp [Port.rank]

/-- Among the notices the scan has passed none precedes the one it holds. -/
theorem Port.nextNotice_spec {x : Port} {now : Clock} (h : x.pending ≠ []) :
    ∃ n ∈ x.pending, x.nextNotice now = some n ∧ ∀ m ∈ x.pending, x.sendsBefore now m n = false := by
  have trans {a b c : Notice} (hab : x.sendsBefore now a b = false) (hbc : x.sendsBefore now b c = false) :
      x.sendsBefore now a c = false := by
    simp only [← Bool.not_eq_true, Port.sendsBefore_iff] at *
    omega
  have asymm {a b : Notice} (hab : x.sendsBefore now a b = true) : x.sendsBefore now b a = false := by
    simp only [← Bool.not_eq_true, Port.sendsBefore_iff] at *
    omega
  have irrefl (a : Notice) : x.sendsBefore now a a = false := by
    simp only [← Bool.not_eq_true, Port.sendsBefore_iff]
    omega
  have scan (l : List Notice) (b : Notice) : ∃ n, n ∈ b :: l ∧
      l.foldl (fun best n => match best with
        | none => some n
        | some b => if x.sendsBefore now n b then some n else some b) (some b) = some n ∧
      ∀ m ∈ b :: l, x.sendsBefore now m n = false := by
    induction l generalizing b with
    | nil => exact ⟨b, by simp, rfl, by simpa using irrefl b⟩
    | cons a l ih =>
      have step : ∃ c, (if x.sendsBefore now a b then some a else some b) = some c ∧ (c = a ∨ c = b) ∧
          x.sendsBefore now a c = false ∧ x.sendsBefore now b c = false := by
        cases hab : x.sendsBefore now a b with
        | true => exact ⟨a, rfl, .inl rfl, irrefl a, asymm hab⟩
        | false => exact ⟨b, rfl, .inr rfl, hab, irrefl b⟩
      obtain ⟨c, hc, hm, hac, hbc⟩ := step
      obtain ⟨n, hn, hs, hl⟩ := ih c
      have hcn := hl c List.mem_cons_self
      refine ⟨n, ?_, by rw [List.foldl_cons]; simp only [hc]; exact hs, ?_⟩
      · rcases List.mem_cons.1 hn with rfl | hn
        · rcases hm with rfl | rfl <;> simp
        · simp [hn]
      · intro m hm
        rcases List.mem_cons.1 hm with rfl | hm
        · exact trans hbc hcn
        · rcases List.mem_cons.1 hm with rfl | hm
          · exact trans hac hcn
          · exact hl m (List.mem_cons_of_mem _ hm)
  unfold Port.nextNotice
  cases hp : x.pending with
  | nil => exact absurd hp h
  | cons a l => exact scan l a

/-- Settles O9: the free line, the order of notices, the sources of a frame in turn. -/
theorem transmitterTakesTheNextFrame : Obligations.TransmitterTakesTheNextFrame := by
  refine ⟨fun s n h => ?_, fun x now m n => ?_, fun x now => ⟨fun h => ?_, fun hl hm => ⟨?_, ?_, ?_, ?_, ?_⟩⟩⟩
  · have hx : exec (.frameSent n) s = .next (endEvent (s.modPort n (fun x => { x with line := none }))) := by
      simp [exec, execFrameSent, takeEvent, h.serving]
    rw [hx, endEvent_eq (s := s.modPort n _) h.between h.serving]
    rfl
  · rw [Port.sendsBefore_iff, Port.rank_eq, Port.rank_eq]
    rfl
  · refine if_neg ?_
    rcases h with h | h
    · simp [h]
    · simp [h]
  all_goals
    have hfree : (x.line.isNone && x.maySend) = true := by simp [hl, hm]
  · intro r rest hr hh
    simp [Port.transmit, hl, hm, hr, Option.isSome_iff_ne_none.2 hh]
  · intro r rest hr hh
    cases hc : r.refusal <;> simp [Port.transmit, hl, hm, hr, hh, hc]
  · intro d rest hr hd
    simp [Port.transmit, hl, hm, hr, hd]
  · intro hr hd hp
    simp [Port.transmit, hl, hm, hr, hd, Port.nextNotice, hp]
  · intro hr hd hp
    obtain ⟨n, hn, hs, hfirst⟩ := Port.nextNotice_spec (now := now) hp
    exact ⟨n, hn, hfirst, by simp [Port.transmit, hl, hm, hr, hd, hs]⟩

/-! ### The receivers (R164, R169, R170) -/

/-- What a good frame leaves in the buffer and in the counters of its port, before the notice of its arrival. -/
theorem Port.post_receive (x : Port) (now : Clock) (k : NoticeKind) (n : Nat) (data : List Field) (body : List Byte) :
    (x.post now k n data).receive body = (x.receive body).post now k n data := by
  unfold Port.post Port.receive Port.buffered Port.passes
  dsimp only
  split_ifs <;> rfl

/-- The buffer takes the frame before or after a notice is posted. -/
theorem postNotice_receive (k : NoticeKind) (m : Nat) (data : List Field) (ports : List PortId) (n : PortId)
    (body : List Byte) (s : State) :
    (postNotice k m data ports s).modPort n (fun x => x.receive body) =
      postNotice k m data ports (s.modPort n (fun x => x.receive body)) := by
  unfold postNotice
  induction ports generalizing s with
  | nil => rfl
  | cons a l ih =>
    rw [List.foldl_cons, List.foldl_cons, ih]
    congr 1
    exact State.modPort_comm _ _ _ _ _ (fun x => (Port.post_receive x s.clock k m data body).symm)

theorem Port.fragment_eq (x : Port) : x.fragment =
    if x.rx = .inFrame then
      { x with rx := .hunting, counters := { x.counters with fragment := x.counters.fragment + 1 } }
    else x := by
  unfold Port.fragment
  split <;> simp [*]

/-- The record, the counter and the buffer of a port after a good frame. -/
theorem Port.received_eq (x : Port) (body : List Byte) :
    Port.receive { x.refresh with rx := .hunting, counters := { x.counters with good := x.counters.good + 1 } } body =
      { x with
        rx := .hunting
        supervision := { x.supervision with count := 0, state := .alive, timer := some x.supervision.interval }
        rxBuffer := if (x.rxBuffer.map (fun b => b.length + 1)).sum + (body.length + 1) ≤ 512 then x.rxBuffer ++ [body]
          else x.rxBuffer
        counters := { x.counters with
          good := x.counters.good + 1
          overrun := if (x.rxBuffer.map (fun b => b.length + 1)).sum + (body.length + 1) ≤ 512 then x.counters.overrun
            else x.counters.overrun + 1 } } := by
  unfold Port.receive Port.buffered Port.refresh
  dsimp only
  split_ifs <;> rfl

theorem goodFrame_eq (n : PortId) (body : List Byte) (s : State) : goodFrame n body s =
    (if (s.port n).supervision.state = .late ∨ (s.port n).supervision.state = .lost then
      postNotice .portAlive n.val
        [.byte (some (Role.code (portRole n))), .half (some (s.port n).supervision.interval), .raw s.clock]
        [plantPort, tillPort] (s.modPort n fun x => Port.receive { x.refresh with
          rx := .hunting, counters := { x.counters with good := x.counters.good + 1 } } body)
    else s.modPort n fun x => Port.receive { x.refresh with
          rx := .hunting, counters := { x.counters with good := x.counters.good + 1 } } body) := by
  unfold goodFrame
  simp only [Bool.or_eq_true, beq_iff_eq]
  split
  · rw [postPortNotice, postNotice_receive, State.modPort_modPort]
    simp [Port.refresh]
  · rw [State.modPort_modPort]

/-- Settles O47: each event of a receiver is one update of its port. -/
theorem receiverEventsResult : Obligations.ReceiverEventsResult := by
  intro s n h
  refine ⟨takes_intro rfl h rfl h.between, takes_intro rfl h ?_ h.between, fun length hl => takes_intro rfl h ?_ h.between,
    takes_intro rfl h rfl h.between, fun body _ _ => takes_intro rfl h ?_ ?_⟩
  · exact congrArg (s.setPort n) (Port.fragment_eq _)
  · exact (if_pos hl).trans (congrArg (s.setPort n) (Port.fragment_eq _))
  · rw [goodFrame_eq, State.modPort, Port.received_eq]
  · dsimp only
    split_ifs <;> simp [h.between]

/-! ### The interval timers (R164, R167) -/

theorem teardown_till (s : State) : teardown tillPort s = s := rfl

/-- Settles O48: the two expiries by the count of missed intervals. -/
theorem intervalExpiryMarksThePort : Obligations.IntervalExpiryMarksThePort := by
  intro s n h
  dsimp only
  have posted (k : NoticeKind) (y : Supervision) (hy : y.interval = (s.port n).supervision.interval) :
      postPortNotice k n (s.modPort n fun x => { x with supervision := y }) =
        postNotice k n.val [.byte (some (Role.code (portRole n))), .half (some (s.port n).supervision.interval),
          .raw s.clock] [plantPort, tillPort] (s.setPort n { s.port n with supervision := y }) := by
    simp [postPortNotice, State.modPort, hy]
  by_cases ht : (s.port n).supervision.timer = some 0
  · rw [if_neg (not_not.2 ht)]
    have isDue : due (s.port n).supervision.timer = true := by simp [due, ht]
    by_cases hc : (s.port n).supervision.count = 0
    · rw [if_pos hc]
      refine takes_intro rfl h ((if_pos isDue).trans ((if_pos hc).trans (posted _ _ rfl))) ?_
      exact (postNotice_evt ..).trans h.between
    · rw [if_neg hc]
      rintro rfl
      refine takes_intro rfl h ((if_pos isDue).trans ((if_neg hc).trans ((teardown_till _).trans (posted _ _ rfl)))) ?_
      exact (postNotice_evt ..).trans h.between
  · rw [if_pos ht]
    exact takes_intro rfl h (if_neg (by simpa [due] using ht)) h.between

/-! ### Pulses, gates and seconds (R124, R125, R139) -/

theorem Channel.edge_eq (x : Channel) (now : Clock) : x.edge now =
    if x.count < 65535 then
      { x with
        lastPulse := some now
        count := x.count + 1
        creepCount := if x.gateOpen = true then x.creepCount + 1 else x.creepCount
        overflow := x.overflow || decide (x.count = 65534) }
    else { x with lastPulse := some now } := by
  simp [Channel.edge]

theorem TimeOfDay.tick_eq {t : TimeOfDay} (hs : t.second < 86400) (hd : t.day < 65536) : t.tick =
    if t.second = 86399 then { t with second := 0, day := if t.day = 65535 then 0 else t.day + 1 }
    else { t with second := t.second + 1 } := by
  unfold TimeOfDay.tick
  by_cases h : t.second = 86399
  · rw [if_pos h, if_neg (by omega)]
    by_cases k : t.day = 65535
    · rw [if_pos k, if_neg (by omega)]
    · rw [if_neg k, if_pos (by omega)]
  · rw [if_neg h, if_pos (by omega)]

/-- Settles O50: the edge, the gate and the second, by the phase. -/
theorem pulsesGatesAndSeconds : Obligations.PulsesGatesAndSeconds := by
  refine ⟨fun s p => ?_, fun s p h => ?_, fun s => ?_⟩
  · dsimp only
    rw [← Channel.edge_eq]
    refine ⟨fun h => takes_endEvent (e := s.modChan p fun c => c.edge s.clock) ?_ h.between, ?_, ?_⟩
    · simp [exec, execPulseEdge, h.serving]
    · rintro (h | h) <;> simp [exec, execPulseEdge, h, State.modChan]
    · rintro (h | h) <;> simp [exec, execPulseEdge, h]
  · by_cases hd : (s.chan p).settleGate = some 0
    · rw [if_pos hd]
      exact takes_intro rfl h (if_pos (by simp [due, hd])) h.between
    · rw [if_neg hd]
      exact takes_intro rfl h (if_neg (by simpa [due] using hd)) h.between
  · intro day next e hs hd
    have hn : s.tod.tick = next := TimeOfDay.tick_eq hs hd
    refine ⟨fun h => ?_, fun h hq => ?_, fun h ho hp => ?_⟩
    · have : ¬(s.phase ≠ .off ∧ due s.oneSecond = true) := by
        simp only [due, beq_iff_eq]
        tauto
      simp [exec, execOneSecondTimerExpiry, this]
    · refine takes_endEvent (e := e) ?_ hq.between
      simp [exec, execOneSecondTimerExpiry, hq.serving, due, h, hn, e]
    · simp [exec, execOneSecondTimerExpiry, ho, hp, due, h, hn, e]

/-! ### The store (R180, R181) -/

theorem Port.unhold_eq (g : WriteGroup) (x : Port) : x.unhold g =
    { x with replies := x.replies.map (fun y => if y.heldOn.any g.holds = true then { y with heldOn := none } else y) } := by
  unfold Port.unhold
  congr 2
  funext y
  cases hy : y.heldOn <;> simp

theorem completeGroup_none {s : State} {r : RecId} (h : s.inFlight r = false) : completeGroup r s = s := by
  have : s.groups.find? (fun g => g.holds r) = none := by
    rw [List.find?_eq_none]
    intro g hg
    simpa using List.any_eq_false.1 h g hg
  simp [completeGroup, this]

theorem completeGroup_some {s : State} {r : RecId} {g : WriteGroup} (h : s.groups.find? (fun g => g.holds r) = some g) :
    completeGroup r s = { s with
      store := g.writes.foldl StoreData.apply s.store
      groups := s.groups.filter (fun h => !h.holds r)
      ports := s.ports.map (fun x => x.unhold g) } := by
  simp [completeGroup, h, foldl_modPort_all]

/-- Settles O51: a completion by the phase and by the group that holds the record. -/
theorem groupCompletionStoresTogether : Obligations.GroupCompletionStoresTogether := by
  intro s r
  have serves (h : Quiet s) : exec (.writeGroupCompletion r) s = .next (endEvent (completeGroup r s)) := by
    simp [exec, execWriteGroupCompletion, h.serving]
  have runs (h : s.phase ≠ .serving) : s.phase ≠ .off →
      exec (.writeGroupCompletion r) s = .next (completeGroup r s) := fun ho => by
    simp [exec, execWriteGroupCompletion, h, ho]
  have off (h : s.phase = .off) : exec (.writeGroupCompletion r) s = .next s := by
    simp [exec, execWriteGroupCompletion, h]
  refine ⟨off, fun hn hp => ?_, fun hn hq => ?_, fun g hg => ?_⟩
  · by_cases ho : s.phase = .off
    · exact off ho
    · rw [runs hp ho, completeGroup_none hn]
  · exact takes_endEvent (by rw [serves hq, completeGroup_none hn]) hq.between
  · simp only [← Port.unhold_eq, ← completeGroup_some hg]
    refine ⟨fun hq => takes_endEvent (serves hq) ?_, fun ho hp => runs hp ho⟩
    rw [completeGroup_some hg]
    exact hq.between

/-! ### Lines, power, reset (R158, R168, R180, R182, R183) -/

/-- Settles O52: each line, power and reset event by the phase. -/
theorem linesPowerAndReset : Obligations.LinesPowerAndReset := by
  intro s
  refine ⟨rfl, fun _ => rfl, fun _ _ => rfl, fun h => ?_, fun h => ?_, fun h => ?_, fun h => ?_, rfl, rfl, fun h hg => ?_,
    fun h => ?_⟩
  · exact ⟨_, congrArg Host.Outcome.next (if_neg h), rfl, rfl, rfl, rfl, rfl, rfl⟩
  · exact ⟨_, congrArg Host.Outcome.next (if_pos h), rfl, rfl, rfl, rfl, rfl, rfl, rfl⟩
  · simp [exec, execPowerLoss, h]
  · simp [exec, execPowerApplied, h]
  · simp [exec, execStartUpServe, h, hg]
  · have : ¬(s.phase = .recovering ∧ s.groups = []) := by tauto
    simp [exec, execStartUpServe, this]

end Sys2Proof.Machine
end

section
/-! SUPPORT. The refutation of the block laws: no law says that a compressor in COOLING_WAIT stands in the cooling wait
list, and R82 takes back only a compressor that stands there. -/

namespace Sys2Proof.Machine

/-- Bank 2 IDLE and the only one queued, compressor 0 in COOLING_WAIT but in no wait list; BANK_OFFLINE of bank 2 waits
to be taken. -/
def strandedWaiter : State :=
  { (State.reset.modComp 0 fun x => { x with state := .coolingWait }).modBank 2 (fun x => { x with state := .idle }) with
    pending := [.bankOffline 4 [2#8]]
    queue := [⟨2, .low, 0#32, .plantRequest⟩] }

theorem strandedWaiter_holderLaw : HolderLaw strandedWaiter :=
  ⟨by decide, by decide, by decide, by decide, fun w h => absurd (show w ∈ [] from h) (by simp)⟩

theorem strandedWaiter_grantLaw : GrantLaw strandedWaiter where
  ordered := fun r => match r with
    | .pos p => by revert p; decide
    | .comp c => by revert c; decide
  once := List.nodup_nil
  fills := by decide
  refills := by decide
  waiters := by decide

theorem strandedWaiter_esdLaw : EsdLaw strandedWaiter := ⟨by decide, by decide, by decide, by decide, by decide⟩

theorem strandedWaiter_compLaw : CompLaw strandedWaiter := ⟨by decide, by decide, by decide⟩

theorem strandedWaiter_queueLaw : QueueLaw strandedWaiter :=
  ⟨by decide, by decide, List.pairwise_singleton _ _, by decide, by decide⟩

/-- The queue is empty after the step, and the compressor waits on. -/
theorem strandedWaiter_step : ∃ t, step strandedWaiter = .next t ∧ t.queue = [] ∧ (t.comp 0).state = .coolingWait :=
  ⟨_, rfl, by decide, by decide⟩

/-- Refutes O54: BANK_OFFLINE empties the refill queue of `strandedWaiter`, whose compressor R82 does not find in the wait
list and leaves in COOLING_WAIT, so that fewer entries than compressors in COOLING_WAIT are left. -/
theorem not_stepKeepsBlockLaws : ¬ Obligations.StepKeepsBlockLaws := by
  intro h
  obtain ⟨t, hs, hq, hc⟩ := strandedWaiter_step
  obtain ⟨-, -, -, -, -, laws⟩ := h _ t hs
  obtain ⟨-, queue, -⟩ := laws strandedWaiter_holderLaw strandedWaiter_grantLaw strandedWaiter_esdLaw
    strandedWaiter_compLaw List.nodup_nil
  have matched := (queue strandedWaiter_queueLaw).matched
  rw [hq, List.length_nil, Nat.le_zero, List.length_eq_zero_iff, List.filter_eq_nil_iff] at matched
  exact matched 0 (by decide) (by simp [hc])

end Sys2Proof.Machine
end

section
/-! SUPPORT. The refutation of the shedding of COOLING_REPORT: the laws let a fill in HOLD(COOLING) that waits for nothing
keep a grant below its floor, and the holding pass takes no more than that grant from it. -/

namespace Sys2Proof.Machine

/-- A grant table entry of a cooled fill with a demand of 400. -/
def quarterFloor (grant : Nat) : GrantEntry :=
  { GrantEntry.initial with demand := 400, floor := 100, grant := grant, time := some 0#32 }

/-- Position 0 flows on its floor of 100; position 1, in HOLD(COOLING), holds a grant of 10 below its floor and is in no
wait list. The capacity of 110 is taken whole. -/
def belowFloor : State :=
  let s := (State.reset.modPos 0 fun x => { x with state := .ramp, cls := some 3 }).modPos 1 fun x =>
    { x with state := .hold, cls := some 3, holdReason := some .cooling }
  let s := (s.setGrantOf (.pos 0) (quarterFloor 100)).setGrantOf (.pos 1) (quarterFloor 10)
  { s with cooling := { s.cooling with capacity := 110, order := [.pos 0, .pos 1] } }

theorem belowFloor_esdLaw : EsdLaw belowFloor := ⟨by decide, by decide, by decide, by decide, by decide⟩

theorem belowFloor_compLaw : CompLaw belowFloor := ⟨by decide, by decide, by decide⟩

theorem belowFloor_holderLaw : HolderLaw belowFloor :=
  ⟨by decide, by decide, by decide, by decide, fun w h => absurd (show w ∈ [] from h) (by simp)⟩

theorem belowFloor_coolingLaw : CoolingLaw belowFloor where
  left := by decide
  right := fun r => match r with
    | .pos p => by revert p; decide
    | .comp c => by revert c; decide

theorem belowFloor_grantLaw : GrantLaw belowFloor where
  ordered := fun r => match r with
    | .pos p => by revert p; decide
    | .comp c => by revert c; decide
  once := by decide
  fills := by decide
  refills := by decide
  waiters := by decide

theorem belowFloor_budgetLaw : BudgetLaw belowFloor where
  floors := fun r => match r with
    | .pos p => by revert p; decide
    | .comp c => by revert c; decide
  grants := fun r => match r with
    | .pos p => by revert p; decide
    | .comp c => by revert c; decide
  whole := by decide
  flowing := fun p k _ _ hf => by
    have grants : ∀ p, (belowFloor.pos p).state = .ramp →
      (belowFloor.grantOf (.pos p)).floor ≤ (belowFloor.grantOf (.pos p)).grant := by decide
    have holds : ∀ p, (belowFloor.pos p).state = .hold → (belowFloor.pos p).holdReason = some .cooling := by decide
    exact hf.elim (grants p) fun h => absurd (holds p h.1) h.2
  asking := by decide
  waiting := by decide
  once := by decide
  fillsFirst := by decide
  derated := by decide
  head := fun w rest h => absurd (show [] = w :: rest from h) (by simp)

/-- A capacity of 60 takes the grant of position 1, which is not enough, and then that of position 0. -/
theorem belowFloor_shed : ∃ t, exec (.coolingReport plantPort [60#8, 0#8]) belowFloor = .next t ∧
    (t.grantOf (.pos 0)).grant = 0 := ⟨_, rfl, by decide⟩

/-- Refutes O40: of the excess of 50 the clause takes 100 from position 1, which is its floor, and lets position 0 flow
on; but position 1 gives up 10, and position 0 is held. -/
theorem not_coolingReportResult : ¬ Obligations.CoolingReportResult := by
  intro h
  have standing : Standing (.coolingReport plantPort [60#8, 0#8]) belowFloor := ⟨rfl, by decide, .inl rfl, rfl⟩
  have completes := h belowFloor 60#8 0#8 _ rfl standing belowFloor_coolingLaw
  rw [if_neg (by decide)] at completes
  obtain ⟨t, data, hx, -, -, -, -, -, budget, -⟩ := completes
  obtain ⟨t', hx', held⟩ := belowFloor_shed
  obtain rfl : t = t' := Host.Outcome.next.inj (hx.symm.trans hx')
  have shed := (budget belowFloor_esdLaw belowFloor_compLaw List.nodup_nil belowFloor_grantLaw belowFloor_holderLaw
    belowFloor_budgetLaw).2 (by decide)
  have flows := shed.fills 0 [] [.pos 1] rfl
  dsimp only at flows
  rw [held, if_neg (by decide), if_pos (by decide)] at flows
  exact absurd flows (by decide)

end Sys2Proof.Machine
end

section
/-! SUPPORT. Every request as the taking of its owning rule, every event as the taking of its effect (R170, R171, R182):
what no command of a kind can do is proved once for the owners and once for the effects. -/

namespace Sys2Proof.Machine

/-! ### The owning rule of a request (R171) -/

/-- The owning rule that a command's bytes are handed to; a command that is no request has none, and keeps the state. -/
def ownerOf : Instr → State → State × Answer
  | .positionOpen port args => fun s =>
    match args with
    | [b, hose, high, nozzle] => forOwn port b (openPosition hose high nozzle) s
    | _ => refuse .range s
  | .positionClose port args => fun s =>
    match args with
    | [b] => forOwn port b closePosition s
    | _ => refuse .range s
  | .nozzle port args => fun s =>
    match args with
    | [b, code] => forOwn port b (setNozzle code) s
    | _ => refuse .range s
  | .start port args => fun s =>
    match args with
    | [b] => forOwn port b startPosition s
    | _ => refuse .range s
  | .stop port args => fun s =>
    match args with
    | [b] => forOwn port b stopPosition s
    | _ => refuse .range s
  | .positionReport port args => fun s =>
    match args with
    | [b, lo, hi] => forOwn port b (reportPressure (u16 lo hi)) s
    | _ => refuse .range s
  | .vehicleData port args => fun s =>
    match args with
    | [b, v0, v1, p0, p1, t0, t1, command] =>
      forOwn port b (reportVehicle (vehicleReportOf (u16 v0 v1) (u16 p0 p1) (i16 t0 t1) command)) s
    | _ => refuse .range s
  | .laneEnable port args => fun s =>
    match args with
    | [b, value] =>
      match idOf 4 b with
      | none => refuse .unknownSubject s
      | some l => laneEnable port l value s
    | _ => refuse .range s
  | .stationConfig _ args => fun s =>
    match args with
    | [m0, m1, w0, w1, w2, w3, c0, c1, c2, c3] => setStation (u16 m0 m1) (u32 w0 w1 w2 w3) (u32 c0 c1 c2 c3) s
    | _ => refuse .range s
  | .bankConfig _ args => fun s =>
    match args with
    | [b, t, m0, m1, h0, h1, g0, g1] => forBank b (configureBank t (u16 m0 m1) (u16 h0 h1) (u16 g0 g1)) s
    | _ => refuse .range s
  | .tierWindow _ args => fun s =>
    match args with
    | [t, b0, b1, l0, l1] => setTierWindow t (u16 b0 b1) (u16 l0 l1) s
    | _ => refuse .range s
  | .bankOnline _ args => fun s =>
    match args with
    | [b] => forBank b bringOnline s
    | _ => refuse .range s
  | .bankOffline _ args => fun s =>
    match args with
    | [b] => forBank b takeOffline s
    | _ => refuse .range s
  | .bankLock _ args => fun s =>
    match args with
    | [b] => forBank b lockBank s
    | _ => refuse .range s
  | .bankUnlock _ args => fun s =>
    match args with
    | [b, c] => forBank b (unlockBank c) s
    | _ => refuse .range s
  | .bankReport _ args => fun s =>
    match args with
    | [b, p0, p1, t0, t1] => forBank b (reportBank (u16 p0 p1) (i16 t0 t1)) s
    | _ => refuse .range s
  | .refillRequest _ args => fun s =>
    match args with
    | [b] => forBank b requestRefill s
    | _ => refuse .range s
  | .refillWithdraw _ args => fun s =>
    match args with
    | [c, next] => forComp c (withdrawRequest next) s
    | _ => refuse .range s
  | .compressorConfig _ args => fun s =>
    match args with
    | [c, d0, d1] => forComp c (configureComp (u16 d0 d1)) s
    | _ => refuse .range s
  | .compressorReady _ args => fun s =>
    match args with
    | [c] => forComp c readyComp s
    | _ => refuse .range s
  | .compressorUnavailable _ args => fun s =>
    match args with
    | [c] => forComp c unavailableComp s
    | _ => refuse .range s
  | .refillDone _ args => fun s =>
    match args with
    | [c] => forComp c refillDone s
    | _ => refuse .range s
  | .laneConfig _ args => fun s =>
    match args with
    | [b, owner, c0, c1, map] => forLane b (configureLane owner (u16 c0 c1) map) s
    | _ => refuse .range s
  | .laneReport _ args => fun s =>
    match args with
    | [b, t0, t1] => forLane b (reportLane (i16 t0 t1)) s
    | _ => refuse .range s
  | .laneFaultClear _ args => fun s =>
    match args with
    | [b] => forLane b clearLaneFault s
    | _ => refuse .range s
  | .coolingReport _ args => fun s =>
    match args with
    | [c0, c1] => reportCapacity (u16 c0 c1) s
    | _ => refuse .range s
  | .ambientReport _ args => fun s =>
    match args with
    | [t0, t1] => reportAmbient (i16 t0 t1) s
    | _ => refuse .range s
  | .positionConfig _ args => fun s =>
    match args with
    | [b, lane] => forPosition b (attachLane lane) s
    | _ => refuse .range s
  | .rampTable _ args => fun s =>
    match args with
    | c :: bands => loadRampRow c bands s
    | [] => refuse .range s
  | .calWrite _ args => fun s =>
    match args with
    | [b, w0, w1, f0, f1, f2, f3] => forPosition b (writeCalibration (u16 w0 w1) (u32 f0 f1 f2 f3)) s
    | _ => refuse .range s
  | .esdClear _ _ => clearEsd
  | .authorize _ args => fun s =>
    match args with
    | [b, g0, g1, g2, g3, classes, kind, v0, v1, v2, v3] =>
      forPosition b (authorizePosition (w32 g0 g1 g2 g3) classes kind (u32 v0 v1 v2 v3)) s
    | _ => refuse .range s
  | .cancel _ args => fun s =>
    match args with
    | [b, g0, g1, g2, g3] => forPosition b (cancelPosition (w32 g0 g1 g2 g3)) s
    | _ => refuse .range s
  | .tariffSet _ args => fun s =>
    match args with
    | [b, valid, classes, allDay, s0, s1, s2, s3, e0, e1, e2, e3, p0, p1, p2, p3] =>
      match idOf 8 b with
      | none => refuse .unknownSubject s
      | some e =>
        match tariffOf valid classes allDay (u32 s0 s1 s2 s3) (u32 e0 e1 e2 e3) (u32 p0 p1 p2 p3) with
        | none => refuse .range s
        | some t => setTariff e t s
    | _ => refuse .range s
  | .tariffRead _ args => fun s =>
    match args with
    | [b] =>
      match idOf 8 b with
      | none => refuse .unknownSubject s
      | some e => accept (s.work.tariffs[e]).fields s
    | _ => refuse .range s
  | .setClock _ args => fun s =>
    match args with
    | [d0, d1, x0, x1, x2, x3] => setTimeOfDay (u16 d0 d1) (u32 x0 x1 x2 x3) s
    | _ => refuse .range s
  | .txnRead _ args => fun s =>
    match args with
    | [n0, n1, n2, n3] => readRecord (u32 n0 n1 n2 n3) s
    | _ => refuse .range s
  | .txnRelease _ args => fun s =>
    match args with
    | [n0, n1, n2, n3] => releaseRecord (u32 n0 n1 n2 n3) s
    | _ => refuse .range s
  | .totalsRead _ _ => fun s => if s.closeInFlight then refuse .busy s else accept (s.work.totals.fields s.tod) s
  | .totalsSnapshot _ _ => takeSnapshot
  | .snapshotRead _ _ => fun s => accept s.work.snapshot.fields s
  | .positionQuery _ args => fun s =>
    match args with
    | [b] => forPosition b (fun p s => accept (queryFields s p) s) s
    | _ => refuse .range s
  | .supervisionSet port args => fun s =>
    match args with
    | [i0, i1] => setInterval port (u16 i0 i1) s
    | _ => refuse .range s
  | .noticeSet port args => fun s =>
    match args with
    | [mask, a, b] => setNotices port mask a b s
    | _ => refuse .range s
  | .statusQuery port _ => fun s => accept (statusFields s port) s
  | .countersRead port _ => fun s => accept (s.port port).counters.fields s
  | .countersClear port _ => fun s => accept [] (s.modCounters port (fun _ => .zero))
  | .unknownKind _ _ _ => fun s => refuse .unknownKind s
  | _ => refuse .range

/-- An accepted START that finds no FREE slot: the model's one fault (notes/assumptions/17.md). -/
def startFaults : Instr → State → Bool
  | .start port args, s => startWithoutSlot port args s
  | _, _ => false

/-- A request is the fault of START, or the taking of its owning rule. -/
theorem exec_request {c : Instr} {port : PortId} {kind : Byte} {args : List Byte}
    (hb : requestBody c = some (port, kind :: args)) (s : State) :
    exec c s = if startFaults c s then .fault .noFreeSlot else .next (takeRequest kind port args (ownerOf c) s) := by
  cases c
  case start => obtain ⟨⟩ := hb; rfl
  all_goals
    simp only [requestBody, Option.some.injEq, Prod.mk.injEq, List.cons.injEq, reduceCtorEq] at hb
  all_goals
    obtain ⟨rfl, rfl, rfl⟩ := hb
    rfl

/-- A request that stands is taken. -/
theorem Standing.ready {c : Instr} {s : State} {port : PortId} {kind : Byte} {args : List Byte} (h : Standing c s)
    (hb : requestBody c = some (port, kind :: args)) : Ready port (kind :: args) s := by
  unfold Standing at h
  rwa [hb] at h

/-- A request body has its kind code in front. -/
theorem requestBody_cons {c : Instr} {port : PortId} {body : List Byte} (h : requestBody c = some (port, body)) :
    ∃ kind args, body = kind :: args := by
  cases c
  all_goals
    simp only [requestBody, Option.some.injEq, Prod.mk.injEq, reduceCtorEq] at h
  all_goals exact ⟨_, _, h.2.symm⟩

/-- The fault of START needs a request that can be taken and that the screen passes. -/
theorem startFaults_false {c : Instr} {s : State} {port : PortId} {kind : Byte} {args : List Byte}
    (hb : requestBody c = some (port, kind :: args))
    (h : canTake port kind args s = false ∨ (screen port kind args).isSome = true) : startFaults c s = false := by
  cases c
  case start =>
    obtain ⟨⟩ := hb
    rcases h with h | h
    · simp [startFaults, startWithoutSlot, h]
    · simp [startFaults, startWithoutSlot, Option.isNone_eq_false_iff.2 h]
  all_goals rfl

/-! ### The effect of an event (R182) -/

/-- What an event that is taken while the part serves does; none for a request, and for the events of the store, the
lines and the second, which have a way of their own. -/
def effectOf : Instr → Option (State → State)
  | .goodFrame port body => some (goodFrame port body)
  | .badCheckFrame port => some fun s => s.modPort port fun x =>
    { x with rx := .hunting, counters := { x.counters with badCheck := x.counters.badCheck + 1 } }
  | .badLengthFragment port length => some fun s =>
    if length.toNat < 2 ∨ 250 < length.toNat then s.modPort port Port.fragment else s
  | .frameGap port => some fun s => s.modPort port Port.fragment
  | .frameSent port => some fun s => s.modPort port fun x => { x with line := none }
  | .syncByte port => some fun s => s.modPort port fun x => { x with rx := .inFrame }
  | .authorizationLifeExpiry p => some fun s => if due (s.pos p).phaseTimer then loseAuthorization p .expired s else s
  | .pulseExpiry p => some fun s =>
    match (s.pos p).state, (s.pos p).pulseState, (s.pos p).cls with
    | .pulse, some .pulsing, some k => if due (s.pos p).phaseTimer then pulseExpired p k s else s
    | _, _, _ => s
  | .leakCheckExpiry p => some fun s =>
    if (s.pos p).state == .leakCheck && due (s.pos p).phaseTimer then
      let t := s.modPos p (fun x => { x with phaseTimer := none })
      if leaks s p then endFill p .leak t else rampEntryChecks p t
    else s
  | .holdLimitExpiry p => some fun s =>
    if (s.pos p).state == .hold && due (s.pos p).phaseTimer then endFill p .holdTimeout s else s
  | .settleExpiry p => some fun s => if (s.pos p).state == .ending && due (s.pos p).phaseTimer then closeFill p s else s
  | .periodExpiry p => some fun s =>
    if due (s.pos p).periodTimer then meterUpdate p (s.modPos p (fun x => { x with periodTimer := some 1000 })) else s
  | .sensorStaleWatchExpiry p => some fun s => if due (s.pos p).staleWatch then endFill p .sensorStale s else s
  | .bankStaleWatchExpiry b => some fun s => if due (s.bank b).staleWatch then bankStale b s else s
  | .pullDownTimerExpiry l => some fun s =>
    if (s.lane l).state == .pulldown && due (s.lane l).pulldownTimer then
      postLaneState l .pulldownTimeout (s.modLane l (fun x =>
        { x with state := .fault, pulldownTimer := none, faultPulldown := true }))
    else s
  | .laneStaleWatchExpiry l => some fun s =>
    if (s.lane l).state == .ready && due (s.lane l).staleWatch then
      laneLeavesReady l .fault .stale (s.modLane l (fun x => { x with faultStale := true }))
    else s
  | .warmTimerExpiry l => some fun s =>
    if (s.lane l).state == .ready && due (s.lane l).warmTimer then warmExpired l s else s
  | .settleGateTimerExpiry p => some fun s =>
    if due (s.chan p).settleGate then s.modChan p (fun c => { c with settleGate := none, gateOpen := true }) else s
  | .intervalTimerExpiry port => some fun s =>
    if due (s.port port).supervision.timer then intervalExpired port s else s
  | _ => none

theorem exec_effect {c : Instr} {f : State → State} (hc : effectOf c = some f) (s : State) :
    exec c s = .next (takeEvent f s) := by
  cases c
  all_goals simp only [effectOf, reduceCtorEq, Option.some.injEq] at hc
  all_goals
    subst hc
    rfl

/-- The events that have a way of their own: the second, the store, pulses, lines, power and start-up. -/
def isSpecial : Instr → Bool
  | .oneSecondTimerExpiry | .writeGroupCompletion _ | .pulseEdge _ | .esdNFallingEdge | .esdNRisingEdge
  | .calEnChange _ | .powerApplied | .powerLoss | .resetNAsserted | .resetNReleased | .startUpSequence | .startUpServe
  | .brStrapsChange _ _ => true
  | _ => false

/-- Every command is a request, an event with an effect, or one of the special events. -/
theorem command_cases (c : Instr) : (∃ port kind args, requestBody c = some (port, kind :: args)) ∨
    (∃ f, effectOf c = some f) ∨ isSpecial c = true := by
  cases c
  all_goals
    simp only [requestBody, effectOf, isSpecial, Option.some.injEq, Prod.mk.injEq, List.cons.injEq,
      exists_and_left, exists_eq', or_true, true_or, and_true, reduceCtorEq, exists_const]

/-! ### What is not taken (R170, R182) -/

theorem takeEvent_out (f : State → State) {s : State} (h : s.phase ≠ .serving) : takeEvent f s = s :=
  if_neg (by simpa using h)

theorem canTake_eq_false {port : PortId} {kind : Byte} {args : List Byte} {s : State}
    (h : 8 ≤ (s.port port).replies.length ∨ s.phase ≠ .serving ∨
      ∃ other rest, (s.port port).rxBuffer = other :: rest ∧ other ≠ kind :: args) :
    canTake port kind args s = false := by
  rcases h with h | h | ⟨other, rest, h, hne⟩
  · simp [canTake, Nat.not_lt.2 h]
  · simp [canTake, h]
  · simp [canTake, h, hne]

/-- Settles O6: a request that cannot be taken, and an event with an effect outside service. -/
theorem untakenCommandsChangeNothing : Obligations.UntakenCommandsChangeNothing := by
  refine ⟨fun c s port body hb h => ?_, fun s c h hc => ?_⟩
  · obtain ⟨kind, args, rfl⟩ := requestBody_cons hb
    have untaken := canTake_eq_false h
    rw [exec_request hb, startFaults_false hb (.inl untaken)]
    simp [takeRequest, untaken]
  · have hf : ∃ f, effectOf c = some f := by
      rcases hc with ⟨p, hc⟩ | ⟨n, hc⟩ | ⟨l, hc⟩ | ⟨b, rfl⟩
      · rcases hc with rfl | rfl | rfl | rfl | rfl | rfl | rfl | rfl <;> exact ⟨_, rfl⟩
      · rcases hc with rfl | rfl | rfl | rfl | rfl | ⟨body, rfl⟩ <;> exact ⟨_, rfl⟩
      · rcases hc with rfl | rfl | rfl <;> exact ⟨_, rfl⟩
      · exact ⟨_, rfl⟩
    obtain ⟨f, hf⟩ := hf
    rw [exec_effect hf, takeEvent_out f h]

/-! ### Screen and subjects (R3, R171) -/

/-- A request that the screen refuses is refused, whatever its kind. -/
theorem refuses_of_screen {c : Instr} {s : State} {port : PortId} {kind : Byte} {args : List Byte}
    {code : RefusalCode} (hb : requestBody c = some (port, kind :: args)) (hs : screen port kind args = some code)
    (h : Standing c s) : Refuses c s code := by
  refine refuses_screened (owner := ownerOf c) ?_ hb hs h
  rw [exec_request hb, startFaults_false hb (.inr (by simp [hs]))]
  rfl

/-- A request that passes the screen and whose owning rule refuses it. -/
theorem refuses_of_owner {c : Instr} {s : State} {port : PortId} {kind : Byte} {args : List Byte}
    {code : RefusalCode} (hb : requestBody c = some (port, kind :: args)) (hs : screen port kind args = none)
    (h : Standing c s) (hf : startFaults c s = false)
    (ho : ownerOf c (dropFrame port s) = (dropFrame port s, .refused code)) : Refuses c s code := by
  refine refuses_intro ?_ hb hs h ho
  rw [exec_request hb, hf]
  rfl

theorem idOf_eq_none {n : Nat} {b : Byte} (h : n ≤ b.toNat) : idOf n b = none := dif_neg (Nat.not_lt.2 h)

theorem forOwn_unknown {port : PortId} {b : Byte} (f : PosId → State → State × Answer) (s : State)
    (h : 8 ≤ b.toNat ∨ b.toNat / 2 ≠ port.val) : forOwn port b f s = (s, .refused .unknownSubject) := by
  unfold forOwn
  by_cases hb : b.toNat < 8
  · have hne : islandPort ⟨b.toNat, hb⟩ ≠ port := fun e => h.elim (by omega) fun h => h (congrArg Fin.val e)
    simp [idOf, hb, hne, refuse]
  · simp [idOf_eq_none (Nat.not_lt.1 hb), refuse]

/-- A START that names a position of another island has no fault. -/
theorem startFaults_unknown {port : PortId} {b : Byte} (s : State) (h : 8 ≤ b.toNat ∨ b.toNat / 2 ≠ port.val) :
    startFaults (.start port [b]) s = false := by
  have hc : startWithoutSlot port [b] s = false := by
    unfold startWithoutSlot
    by_cases hb : b.toNat < 8
    · have hne : islandPort ⟨b.toNat, hb⟩ ≠ port := fun e => h.elim (by omega) fun h => h (congrArg Fin.val e)
      simp [idOf, hb, hne]
    · simp [idOf_eq_none (Nat.not_lt.1 hb)]
  exact hc

theorem forBank_unknown {b : Byte} (f : BankId → State → State × Answer) (s : State) (h : 12 ≤ b.toNat) :
    forBank b f s = (s, .refused .unknownSubject) := by simp [forBank, idOf_eq_none h, refuse]

theorem forComp_unknown {b : Byte} (f : CompId → State → State × Answer) (s : State) (h : 2 ≤ b.toNat) :
    forComp b f s = (s, .refused .unknownSubject) := by simp [forComp, idOf_eq_none h, refuse]

theorem forLane_unknown {b : Byte} (f : LaneId → State → State × Answer) (s : State) (h : 4 ≤ b.toNat) :
    forLane b f s = (s, .refused .unknownSubject) := by simp [forLane, idOf_eq_none h, refuse]

theorem forPosition_unknown {b : Byte} (f : PosId → State → State × Answer) (s : State) (h : 8 ≤ b.toNat) :
    forPosition b f s = (s, .refused .unknownSubject) := by simp [forPosition, idOf_eq_none h, refuse]

/-- Settles O8: the screen in its order, and the owner of each kind that names a subject. -/
theorem screenAndSubjectRefusals : Obligations.ScreenAndSubjectRefusals := by
  refine ⟨fun c s port kind args hb h => ?_, fun c s hn h => ?_⟩
  · cases hk : kindRow kind.toNat with
    | none => exact refuses_of_screen hb (by simp [screen, hk]) h
    | some row =>
      dsimp only
      by_cases hr : portRole port ∈ row.roles
      · rw [if_neg (not_not.2 hr)]
        exact fun hl => refuses_of_screen hb (by simp [screen, hk, hr, hl]) h
      · rw [if_pos hr]
        exact refuses_of_screen hb (by simp [screen, hk, hr]) h
  · unfold NamesUnknown at hn
    split at hn
    all_goals obtain ⟨role, number⟩ := hn
    case h_4 =>
      exact refuses_of_owner rfl (screen_passes rfl (by simp [role]) rfl) h (startFaults_unknown _ number)
        (forOwn_unknown _ _ number)
    case h_1 | h_2 | h_3 | h_5 | h_6 | h_7 =>
      exact refuses_of_owner rfl (screen_passes rfl (by simp [role]) rfl) h rfl (forOwn_unknown _ _ number)
    case h_8 port b value =>
      have screened : screen port 0x17#8 [b, value] = none :=
        screen_passes rfl (by cases hr : portRole port <;> simp_all) rfl
      exact refuses_of_owner rfl screened h rfl (by simp [ownerOf, idOf_eq_none number, refuse])
    case h_9 | h_10 | h_11 | h_12 | h_13 | h_14 | h_15 =>
      subst role
      exact refuses_of_owner rfl (screen_passes rfl (by simp) rfl) h rfl (forBank_unknown _ _ number)
    case h_16 | h_17 | h_18 | h_19 | h_20 =>
      subst role
      exact refuses_of_owner rfl (screen_passes rfl (by simp) rfl) h rfl (forComp_unknown _ _ number)
    case h_21 | h_22 | h_23 =>
      subst role
      exact refuses_of_owner rfl (screen_passes rfl (by simp) rfl) h rfl (forLane_unknown _ _ number)
    case h_24 | h_25 | h_26 | h_27 | h_30 =>
      subst role
      exact refuses_of_owner rfl (screen_passes rfl (by simp) rfl) h rfl (forPosition_unknown _ _ number)
    case h_28 | h_29 =>
      subst role
      exact refuses_of_owner rfl (screen_passes rfl (by simp) rfl) h rfl
        (by simp [ownerOf, idOf_eq_none number, refuse])

end Sys2Proof.Machine
end

section
/-! SUPPORT. Positions between fills and the requests that end a fill: POSITION_CLOSE (R6), STOP and the expiries (R7, R25,
R26), CANCEL and the authorization life (R13, R14), and what RAMP entry fixes (R36 to R38). -/

namespace Sys2Proof.Machine

/-! ### Notices and positions -/

/-- A notice is posted to the ports alone, and reads nothing else than the clock. -/
theorem postNotice_eq (k : NoticeKind) (n : Nat) (data : List Field) (ports : List PortId) (s : State) :
    postNotice k n data ports s = { s with
      ports := ports.foldl (fun (v : Vector Port 6) (m : PortId) => v.set m (v[m].post s.clock k n data)) s.ports } := by
  unfold postNotice
  induction ports generalizing s with
  | nil => rfl
  | cons a l ih => rw [List.foldl_cons, ih]; rfl

theorem postNotice_setPos (k : NoticeKind) (n : Nat) (data : List Field) (ports : List PortId) (p : PosId)
    (x : Position) (s : State) :
    postNotice k n data ports (s.setPos p x) = (postNotice k n data ports s).setPos p x := by
  rw [postNotice_eq, postNotice_eq]
  rfl

/-- The entry to UNAVAILABLE keeps of the position its lane alone (R2). -/
theorem makeUnavailable_setPos (p : PosId) (x : Position) (s : State) (h : x.lane = (s.pos p).lane) :
    makeUnavailable p (s.setPos p x) = makeUnavailable p s := by
  simp [makeUnavailable, State.modPos, State.setPos_setPos, h]

@[simp] theorem postNotice_pos (k : NoticeKind) (n : Nat) (data : List Field) (ports : List PortId) (p : PosId)
    (s : State) : (postNotice k n data ports s).pos p = s.pos p := by
  rw [postNotice_eq]
  rfl

@[simp] theorem makeUnavailable_evt (p : PosId) (s : State) : (makeUnavailable p s).evt = s.evt := rfl

theorem makeUnavailable_dropFrame (p : PosId) (n : PortId) (s : State) :
    makeUnavailable p (dropFrame n s) = dropFrame n (makeUnavailable p s) := rfl

/-- The authorization goes, with its notice; the nozzle and the rest of the position stay (R13, R14, R29). -/
theorem removeAuthorization_eq (p : PosId) (why : AuthEnd) (s : State) : removeAuthorization p why s =
    (postNotice .authEnded p.val [.raw (s.pos p).tag, .byte (some why.code)] [tillPort] s).setPos p
      { s.pos p with authorization := none, phaseTimer := none } := postNotice_setPos ..

/-! ### POSITION_CLOSE (R6) -/

section
variable {s : State} {p : PosId}

theorem close_refuses {code : RefusalCode} (h : Standing (.positionClose (islandPort p) [byteOf p.val]) s)
    (ho : ∀ u : State, u.pos p = s.pos p → closePosition p u = (u, .refused code)) :
    Refuses (.positionClose (islandPort p) [byteOf p.val]) s code :=
  refuses_intro rfl rfl (screen_passes rfl (by simp) rfl) h ((forOwn_byteOf ..).trans (ho _ rfl))

theorem close_accepts {e : State} (h : Standing (.positionClose (islandPort p) [byteOf p.val]) s)
    (ho : closePosition p (dropFrame (islandPort p) s) = (dropFrame (islandPort p) e, .accepted [] none))
    (he : e.evt = s.evt) : Accepts (.positionClose (islandPort p) [byteOf p.val]) s [] none e :=
  accepts_intro rfl rfl (screen_passes rfl (by simp) rfl) h ((forOwn_byteOf ..).trans ho) (he.trans h.evt)

/-- A close before START takes the authorization back first. -/
theorem makeUnavailable_removeAuthorization (p : PosId) (why : AuthEnd) (n : PortId) (s : State) :
    makeUnavailable p (removeAuthorization p why (dropFrame n s)) = dropFrame n (makeUnavailable p
      (postNotice .authEnded p.val [.raw (s.pos p).tag, .byte (some why.code)] [tillPort] s)) := by
  rw [removeAuthorization_eq, makeUnavailable_setPos _ _ _ (by simp), postNotice_dropFrame]
  rfl

/-- Settles O11: the states of R6 one by one. -/
theorem positionCloseResult : Obligations.PositionCloseResult := by
  rintro s p c rfl h
  cases hs : (s.pos p).state
  case unavailable | pulse | leakCheck | ramp | hold | ending =>
    exact close_refuses h fun u e => by simp [closePosition, e, hs, refuse]
  case idle | waitAuth =>
    refine close_accepts h ?_ (makeUnavailable_evt p s)
    simp [closePosition, hs, accept, makeUnavailable_dropFrame]
  case waitNozzle | ready =>
    refine close_accepts h ?_ (by simp)
    simp [closePosition, hs, accept, makeUnavailable_removeAuthorization]
  case finished =>
    refine close_accepts h ?_ rfl
    simp only [closePosition, dropFrame_pos, hs, accept, State.modPos]
    rfl

end

/-! ### STOP and the expiries (R7, R25, R26) -/

section
variable {s : State} {p : PosId}

/-- An end of a fill by an expiry. -/
theorem brings_ended {c : Instr} {f : State → State} {reason : EndReason} (hc : effectOf c = some f) (hq : Quiet s)
    (hf : f s = endFill p reason s) (h : endable (s.pos p).state = true) : Brings c s s (Ended p reason s) :=
  brings_intro (exec_effect hc s) hq.serving (by rw [hf, steady_endFill]) (by
    rw [hf]
    exact (endFill_ended reason h).endEvent)

/-- An expiry that finds nothing to do. -/
theorem takes_nothing {c : Instr} {f : State → State} (hc : effectOf c = some f) (hq : Quiet s) (hf : f s = s) :
    Takes c s s := takes_intro (exec_effect hc s) hq hf hq.between

/-- A request that ends a fill. -/
theorem completes_ended {c : Instr} {port : PortId} {kind : Byte} {args : List Byte} {reason : EndReason}
    {owner : State → State × Answer} (hx : exec c s = .next (takeRequest kind port args owner s))
    (hb : requestBody c = some (port, kind :: args)) (hs : screen port kind args = none) (h : Standing c s)
    (ho : owner (dropFrame port s) = (endFill p reason (dropFrame port s), .accepted [] none))
    (he : endable (s.pos p).state = true) :
    Completes c s none s (fun data t => data = [] ∧ Ended p reason s t) :=
  completes_intro hx hb hs h ho (steady_endFill ..)
    ⟨rfl, ((((endFill_ended (s := dropFrame port s) reason he).of_dropFrame).sends (sends_pushReply ..)).endEvent)⟩

theorem due_iff (t : Option Nat) : due t = true ↔ t = some 0 := by simp [due]

/-- Settles O16: STOP by the state, and the two expiries by state and timer. -/
theorem stopAndExpiriesEndTheFill : Obligations.StopAndExpiriesEndTheFill := by
  refine ⟨?_, fun s p hq => ?_, fun s p hq => ?_⟩
  · rintro s p c rfl h
    by_cases he : endable (s.pos p).state = true
    · rw [if_pos he]
      exact completes_ended rfl rfl (screen_passes rfl (by simp) rfl) h
        ((forOwn_byteOf ..).trans (by simp [stopPosition, he, accept])) he
    rw [if_neg he]
    by_cases hs : (s.pos p).state = .ending
    · rw [if_pos hs]
      exact accepts_intro rfl rfl (screen_passes rfl (by simp) rfl) h
        ((forOwn_byteOf ..).trans (by simp [stopPosition, hs, endable, accept])) h.evt
    · rw [if_neg hs]
      exact refuses_intro rfl rfl (screen_passes rfl (by simp) rfl) h
        ((forOwn_byteOf ..).trans (by simp [stopPosition, he, hs, refuse]))
  · by_cases ht : (s.pos p).staleWatch = some 0
    · by_cases he : endable (s.pos p).state = true
      · rw [if_pos ⟨he, ht⟩]
        exact brings_ended rfl hq (if_pos (by simp [due, ht])) he
      · rw [if_neg (fun k => he k.1)]
        exact takes_nothing rfl hq
          ((if_pos (by simp [due, ht])).trans (endFill_of_not_endable (by simpa using he)))
    · rw [if_neg (fun k => ht k.2)]
      exact takes_nothing rfl hq (if_neg (by simpa [due] using ht))
  · by_cases hc : (s.pos p).state = .hold ∧ (s.pos p).phaseTimer = some 0
    · rw [if_pos hc]
      exact brings_ended rfl hq (if_pos (by simp [due, hc.1, hc.2])) (by simp [hc.1, endable])
    · rw [if_neg hc]
      exact takes_nothing rfl hq (if_neg (by simpa [due] using hc))

end

/-! ### CANCEL and the authorization life (R13, R14) -/

section
variable {s : State} {p : PosId}

/-- The state in which an authorization has been taken back before START. -/
def State.authorizationLost (s : State) (p : PosId) (why : AuthEnd) (next : PosState) : State :=
  postNotice .authEnded p.val [.raw (s.pos p).tag, .byte (some why.code)] [tillPort]
    (s.setPos p { s.pos p with state := next, authorization := none, phaseTimer := none })

theorem State.authorizationLost_evt (why : AuthEnd) (next : PosState) :
    (s.authorizationLost p why next).evt = s.evt := by simp [State.authorizationLost]

theorem State.authorizationLost_dropFrame (why : AuthEnd) (next : PosState) (n : PortId) :
    (dropFrame n s).authorizationLost p why next = dropFrame n (s.authorizationLost p why next) :=
  postNotice_dropFrame _ _ _ _ n (s.setPos p { s.pos p with state := next, authorization := none, phaseTimer := none })

theorem removeAuthorization_state (why : AuthEnd) (next : PosState) :
    (removeAuthorization p why s).modPos p (fun x => { x with state := next }) = s.authorizationLost p why next := by
  rw [removeAuthorization_eq, State.authorizationLost, postNotice_setPos, State.modPos, State.setPos_pos,
    State.setPos_setPos]

theorem loseAuthorization_waitNozzle (why : AuthEnd) (h : (s.pos p).state = .waitNozzle) :
    loseAuthorization p why s = s.authorizationLost p why .idle := by
  simp only [loseAuthorization, h, removeAuthorization_state]

theorem loseAuthorization_ready (why : AuthEnd) (h : (s.pos p).state = .ready) :
    loseAuthorization p why s = s.authorizationLost p why .waitAuth := by
  simp only [loseAuthorization, h, removeAuthorization_state]

theorem loseAuthorization_other (why : AuthEnd) (h : (s.pos p).state ≠ .waitNozzle) (k : (s.pos p).state ≠ .ready) :
    loseAuthorization p why s = s := by
  unfold loseAuthorization
  split
  · contradiction
  · contradiction
  · rfl

section
variable {g0 g1 g2 g3 : Byte} (h : Standing (.cancel tillPort [byteOf p.val, g0, g1, g2, g3]) s)
include h

theorem cancel_refuses {code : RefusalCode}
    (ho : ∀ u : State, u.pos p = s.pos p → cancelPosition (w32 g0 g1 g2 g3) p u = (u, .refused code)) :
    Refuses (.cancel tillPort [byteOf p.val, g0, g1, g2, g3]) s code :=
  refuses_intro rfl rfl (screen_passes rfl (by simp) rfl) h ((forPosition_byteOf ..).trans (ho _ rfl))

theorem cancel_accepts {e : State} (he : e.evt = s.evt)
    (ho : cancelPosition (w32 g0 g1 g2 g3) p (dropFrame tillPort s) = (dropFrame tillPort e, .accepted [] none)) :
    Accepts (.cancel tillPort [byteOf p.val, g0, g1, g2, g3]) s [] none e :=
  accepts_intro rfl rfl (screen_passes rfl (by simp) rfl) h ((forPosition_byteOf ..).trans ho) (he.trans h.evt)

end

/-- Settles O18: CANCEL by state and tag, and the end of the life by state and timer. -/
theorem cancelAndAuthorizationLife : Obligations.CancelAndAuthorizationLife := by
  refine ⟨?_, fun s p hq => ?_⟩
  · rintro s p g0 g1 g2 g3 c rfl h
    dsimp only
    cases hs : (s.pos p).state
    case unavailable | idle | waitAuth | finished =>
      exact cancel_refuses h fun u e => by simp [cancelPosition, e, hs, refuse]
    case waitNozzle =>
      refine ⟨fun ht => cancel_accepts h (s.authorizationLost_evt ..) ?_,
        fun ht => cancel_refuses h fun u e => by simp [cancelPosition, e, hs, ht, refuse]⟩
      simp only [cancelPosition, dropFrame_pos, hs, if_pos ht, accept,
        loseAuthorization_waitNozzle (s := dropFrame tillPort s) _ hs, State.authorizationLost_dropFrame]
      rfl
    case ready =>
      refine ⟨fun ht => cancel_accepts h (s.authorizationLost_evt ..) ?_,
        fun ht => cancel_refuses h fun u e => by simp [cancelPosition, e, hs, ht, refuse]⟩
      simp only [cancelPosition, dropFrame_pos, hs, if_pos ht, accept,
        loseAuthorization_ready (s := dropFrame tillPort s) _ hs, State.authorizationLost_dropFrame]
      rfl
    case ending =>
      refine ⟨fun ht => cancel_accepts h rfl ?_,
        fun ht => cancel_refuses h fun u e => by simp [cancelPosition, e, hs, ht, refuse]⟩
      simp [cancelPosition, hs, ht, accept, endFill_of_not_endable, endable]
    all_goals
      refine ⟨fun ht => completes_ended rfl rfl (screen_passes rfl (by simp) rfl) h
        ((forPosition_byteOf ..).trans (by simp [cancelPosition, hs, ht, accept])) (by rw [hs]; rfl),
        fun ht => cancel_refuses h fun u e => by simp [cancelPosition, e, hs, ht, refuse]⟩
  · dsimp only
    by_cases ht : (s.pos p).phaseTimer = some 0
    · have lost : effectOf (.authorizationLifeExpiry p) = some fun s =>
          if due (s.pos p).phaseTimer then loseAuthorization p .expired s else s := rfl
      have isDue : due (s.pos p).phaseTimer = true := by simp [due, ht]
      by_cases hw : (s.pos p).state = .waitNozzle
      · rw [if_pos ⟨ht, hw⟩]
        exact takes_intro (exec_effect lost s) hq ((if_pos isDue).trans (loseAuthorization_waitNozzle _ hw))
          ((s.authorizationLost_evt ..).trans hq.between)
      rw [if_neg (fun k => hw k.2)]
      by_cases hr : (s.pos p).state = .ready
      · rw [if_pos ⟨ht, hr⟩]
        exact takes_intro (exec_effect lost s) hq ((if_pos isDue).trans (loseAuthorization_ready _ hr))
          ((s.authorizationLost_evt ..).trans hq.between)
      · rw [if_neg (fun k => hr k.2)]
        exact takes_nothing lost hq ((if_pos isDue).trans (loseAuthorization_other _ hw hr))
    · rw [if_neg (fun k => ht k.1), if_neg (fun k => ht k.1)]
      exact takes_nothing rfl hq (if_neg (by simpa [due] using ht))

end

/-! ### RAMP entry (R36 to R38) -/

/-- Settles O21: `fixTarget` is one update of the ramp generator of the position. -/
theorem rampEntryFixesTheTarget : Obligations.RampEntryFixesTheTarget := by
  intro s p k hk
  have hy := s.modPos_pos p
  dsimp only [fixTarget]
  rw [hy]
  refine ⟨rfl, fun e he => by simp [he], fun hn => by simp [hn], fun hm => ⟨by simp [hm], fun r hr => ?_⟩,
    fun hm e he => ?_, fun t ht => ?_, rfl, fun q hq => s.modPos_pos_ne p q _ hq⟩
  · simp [hm, hr, commTarget]
  · dsimp only at he
    simp [hm, he]
  · exact congrArg (fun t => some (min (heldPressure (s.pos p)) t)) (Option.some.inj ht)

end Sys2Proof.Machine
end

section
/-! SUPPORT. What a cascade is made of. Each operation of Cascade.lean is a run of small moves, each of one record of the
state; what no such move breaks, no cascade breaks. -/

namespace Sys2Proof.Machine

/-! ### One move -/

/-- The states of a position that holds a reservation (R147). -/
def beforeStart : PosState → Bool
  | .waitNozzle | .ready => true
  | _ => false

/-- The flags of a record that no cascade sets (section 8.5). -/
def RecordFlags.metered (f : RecordFlags) : RecordFlags := { f with derated := false, segmentsMerged := false }

/-- The record of a fill but for what cascades mark in it. -/
def TxnRecord.Marks (r r' : TxnRecord) : Prop := r'.steady = r.steady ∧ r'.flags.metered = r.flags.metered

/-- The pending notices of the ESD latch (R161). -/
def Port.esdPending (x : Port) : List Notice := x.pending.filter (fun n => n.kind == .esd)

/-- A port whose queues to and from its master stand, and whose ESD notices do; no notice is lost. -/
structure Port.Told (x y : Port) : Prop where
  replies : y.replies = x.replies
  line : y.line = x.line
  rxBuffer : y.rxBuffer = x.rxBuffer
  esd : y.esdPending = x.esdPending
  notices : ∀ m ∈ x.outNotices, ∃ m' ∈ y.outNotices, m'.sameKey m

/-- One move of a cascade: of a port, of the scratch of the event, of a wait list or the refill queue, of a compressor, a
bank, a lane, a channel, a position, of the marks of a record, a checkpoint, a grant within what is free. -/
inductive Move (s : State) : State → Prop
  | port (n : PortId) (x : Port) : (s.port n).Told x → Move s (s.setPort n x)
  | evt (e : Scratch) : e.plantLost = s.evt.plantLost → Move s { s with evt := e }
  | drawList (l : List DrawWait) : Move s { s with drawList := l }
  | queue (l : List QueueEntry) : Move s { s with queue := l }
  | wait (l : List CoolWait) : Move s { s with cooling := { s.cooling with wait := l } }
  | comp (c : CompId) (x : Compressor) : Move s (s.setComp c x)
  | bank (b : BankId) (x : Bank) : Move s (s.setBank b x)
  | lane (l : LaneId) (x : Lane) : Move s (s.setLane l x)
  | chan (p : PosId) (x : Channel) : Move s (s.setChan p x)
  | pos (p : PosId) (x : Position) : x.steady = (s.pos p).steady →
      (beforeStart x.state = true → x.state = (s.pos p).state) → Move s (s.setPos p x)
  | record (i : SlotId) (r r' : TxnRecord) : s.slot i = .txn r → r.Marks r' → Move s (s.setSlot i (.txn r'))
  | checkpoint (i : SlotId) : Move s (issue [.slot i (s.slot i)] s)
  | grant (r : Requester) (g : Nat) : g ≤ (s.grantOf r).grant + s.freeCapacity → Move s (setGrant r g s)

/-- A run of moves. -/
abbrev Moves : State → State → Prop := Relation.ReflTransGen Move

/-- What each move keeps, a run keeps. -/
theorem Moves.keep {P : State → Prop} (hP : ∀ s t, Move s t → P s → P t) {s t : State} (h : Moves s t) (hs : P s) :
    P t := by
  induction h with
  | refl => exact hs
  | tail _ k ih => exact hP _ _ k ih

theorem moves_ite {s t u : State} (c : Prop) [Decidable c] (ht : Moves s t) (hu : Moves s u) :
    Moves s (if c then t else u) := by
  split
  · exact ht
  · exact hu

/-- A fold of operations that are each a run of moves. -/
theorem moves_foldl {α : Type} (l : List α) (f : State → α → State) (hf : ∀ s a, Moves s (f s a)) (s : State) :
    Moves s (l.foldl f s) := by
  induction l generalizing s with
  | nil => exact .refl
  | cons a l ih => exact (hf s a).trans (ih _)

variable {s t : State}

theorem moves_modPos (p : PosId) (f : Position → Position) (h : Moves s t)
    (hf : (f (t.pos p)).steady = (t.pos p).steady)
    (hs : beforeStart (f (t.pos p)).state = true → (f (t.pos p)).state = (t.pos p).state) :
    Moves s (t.modPos p f) := h.tail (.pos p _ hf hs)

theorem moves_modChan (p : PosId) (f : Channel → Channel) (h : Moves s t) : Moves s (t.modChan p f) :=
  h.tail (.chan p _)

theorem moves_modBank (b : BankId) (f : Bank → Bank) (h : Moves s t) : Moves s (t.modBank b f) := h.tail (.bank b _)

theorem moves_modComp (c : CompId) (f : Compressor → Compressor) (h : Moves s t) : Moves s (t.modComp c f) :=
  h.tail (.comp c _)

theorem moves_modLane (l : LaneId) (f : Lane → Lane) (h : Moves s t) : Moves s (t.modLane l f) := h.tail (.lane l _)

theorem moves_evt (e : Scratch) (h : Moves s t) (he : e.plantLost = t.evt.plantLost := by rfl) : Moves s { t with evt := e } :=
  h.tail (.evt e he)

theorem moves_drawList (l : List DrawWait) (h : Moves s t) : Moves s { t with drawList := l } := h.tail (.drawList l)

theorem moves_queue (l : List QueueEntry) (h : Moves s t) : Moves s { t with queue := l } := h.tail (.queue l)

theorem moves_wait (l : List CoolWait) (h : Moves s t) :
    Moves s { t with cooling := { t.cooling with wait := l } } := h.tail (.wait l)

theorem moves_setGrant (r : Requester) (g : Nat) (h : Moves s t)
    (hg : g ≤ (t.grantOf r).grant + t.freeCapacity) : Moves s (setGrant r g t) := h.tail (.grant r g hg)

theorem moves_setGrant_zero (r : Requester) (h : Moves s t) : Moves s (setGrant r 0 t) :=
  moves_setGrant r 0 h (Nat.zero_le _)

theorem moves_budgetChanged (c : CoolingCause) (h : Moves s t) : Moves s (budgetChanged c t) := moves_evt _ h

theorem moves_modRecord (p : PosId) (f : TxnRecord → TxnRecord) (h : Moves s t) (hf : ∀ r : TxnRecord, r.Marks (f r)) :
    Moves s (modRecord p f t) := by
  unfold modRecord
  split
  · exact h
  · split
    next hr => exact h.tail (.record _ _ _ hr (hf _))
    · exact h

/-! ### Posting (Ops.lean) -/

theorem sameKey_refl (m : Notice) : m.sameKey m := ⟨rfl, rfl⟩

/-- A notice that is posted leaves those of other kinds and subjects, and takes the place of one of its own (R174). -/
theorem Port.post_notices (x : Port) (now : Clock) (k : NoticeKind) (n : Nat) (data : List Field) :
    ∀ m ∈ x.outNotices, ∃ m' ∈ (x.post now k n data).outNotices, m'.sameKey m := by
  intro m hm
  unfold Port.post
  split
  · split
    · rcases List.mem_append.1 hm with line | pending
      · exact ⟨m, List.mem_append_left _ line, sameKey_refl m⟩
      · refine ⟨_, List.mem_append_right _ (List.mem_map_of_mem pending), ?_⟩
        split
        · exact ⟨rfl, rfl⟩
        · exact sameKey_refl m
    · rcases List.mem_append.1 hm with line | pending
      · exact ⟨m, List.mem_append_left _ line, sameKey_refl m⟩
      · exact ⟨m, List.mem_append_right _ (List.mem_append_left _ pending), sameKey_refl m⟩
  · exact ⟨m, hm, sameKey_refl m⟩

theorem Port.post_kept (x : Port) (now : Clock) {k : NoticeKind} (n : Nat) (data : List Field) (hk : k ≠ .esd) :
    (x.post now k n data).replies = x.replies ∧ (x.post now k n data).line = x.line ∧
    (x.post now k n data).rxBuffer = x.rxBuffer ∧ (x.post now k n data).esdPending = x.esdPending := by
  unfold Port.post
  split
  · split
    · refine ⟨rfl, rfl, rfl, ?_⟩
      simp only [Port.esdPending, List.filter_map]
      refine (List.map_congr_left fun m hm => ?_).trans ((List.map_id _).trans (List.filter_congr fun m _ => ?_))
      · have hm := (List.mem_filter.1 hm).2
        dsimp only [Function.comp] at hm
        split at hm
        next he =>
          simp only [Bool.and_eq_true, beq_iff_eq] at he
          simp only [Notice.coalesce, beq_iff_eq] at hm
          exact absurd (he.1.symm.trans hm) hk
        next he => exact if_neg he
      · dsimp only [Function.comp]
        split <;> rfl
    · refine ⟨rfl, rfl, rfl, ?_⟩
      simp [Port.esdPending, hk]
  · exact ⟨rfl, rfl, rfl, rfl⟩

theorem Port.post_told (x : Port) (now : Clock) {k : NoticeKind} (n : Nat) (data : List Field) (hk : k ≠ .esd) :
    x.Told (x.post now k n data) := by
  obtain ⟨replies, line, rxBuffer, esd⟩ := x.post_kept now n data hk
  exact ⟨replies, line, rxBuffer, esd, x.post_notices now k n data⟩

theorem Port.direct_told (x : Port) (d : Directive) : x.Told (x.direct d) := by
  unfold Port.direct
  split <;> exact ⟨rfl, rfl, rfl, rfl, fun m hm => ⟨m, hm, sameKey_refl m⟩⟩

theorem moves_postNotice {k : NoticeKind} (n : Nat) (data : List Field) (ports : List PortId) (hk : k ≠ .esd)
    (h : Moves s t) : Moves s (postNotice k n data ports t) :=
  h.trans (moves_foldl _ _ (fun _ m => .single (.port m _ (Port.post_told _ _ n data hk))) t)

theorem moves_postDirective (n : PortId) (d : Directive) (h : Moves s t) : Moves s (postDirective n d t) :=
  h.tail (.port n _ (Port.direct_told _ d))

theorem moves_sendValve (p : PosId) (h : Moves s t) : Moves s (sendValve p t) := moves_postDirective _ _ h

theorem moves_checkpoint (p : PosId) (h : Moves s t) : Moves s (checkpoint p [] t) := by
  have hm : Moves s (modRecord p (fun r => { r with checkpointMass := (t.chan p).mass }) t) :=
    moves_modRecord p _ h fun r => ⟨rfl, rfl⟩
  unfold checkpoint
  dsimp only
  split
  · exact hm
  · exact hm.tail (.checkpoint _)

theorem moves_postFillState (p : PosId) (tag : Tag) (h : Moves s t) : Moves s (postFillState p tag t) :=
  moves_postNotice _ _ _ (by decide) h

theorem moves_fillState (p : PosId) (h : Moves s t) : Moves s (fillState p t) :=
  moves_checkpoint p (moves_postFillState p _ h)

theorem TxnRecord.openSegment_marks (r : TxnRecord) (x : Segment) : r.Marks (r.openSegment x) := by
  unfold TxnRecord.openSegment
  split <;> exact ⟨rfl, rfl⟩

theorem TxnRecord.endSegment_marks (r : TxnRecord) (m : Nat) (v : Option Nat) (c : SegmentEnd) :
    r.Marks (r.endSegment m v c) := by
  obtain ⟨l, e⟩ := r.endSegment_eq m v c
  rw [e]
  exact ⟨rfl, rfl⟩

theorem moves_openSegment (p : PosId) (b : BankId) (h : Moves s t) : Moves s (openSegment p b t) :=
  moves_modRecord p _ h fun r => r.openSegment_marks _

theorem moves_endSegment (p : PosId) (c : SegmentEnd) (h : Moves s t) : Moves s (endSegment p c t) :=
  moves_modRecord p _ h fun r => r.endSegment_marks ..

theorem moves_postCompData (c : CompId) (data : List Field) (h : Moves s t) : Moves s (postCompData c data t) :=
  moves_postNotice _ _ _ (by decide) h

theorem moves_postCompState (c : CompId) (cause : CompCause) (h : Moves s t) : Moves s (postCompState c cause t) :=
  moves_postCompData _ _ h

theorem moves_postBankState (b : BankId) (h : Moves s t) : Moves s (postBankState b t) :=
  moves_postNotice _ _ _ (by decide) h

/-! ### Banks and their grants (R68 to R73) -/

theorem moves_moveBank (b : BankId) (st : BankState) (x : Option Holder) (h : Moves s t) :
    Moves s (moveBank b st x t) := by
  have hm := moves_modBank b (fun y => { y with state := st, holder := x }) h
  unfold moveBank
  dsimp only
  split
  · exact moves_postBankState b (moves_drawList _ hm)
  · exact moves_postBankState b hm

theorem moves_enterRamp (p : PosId) (b : BankId) (h : Moves s t) : Moves s (enterRamp p b t) := by
  have flow (f : Position → Position) (g : Channel → Channel) (hf : ∀ x, (f x).steady = x.steady)
      (hs : ∀ x, (f x).state = .ramp) :
      Moves s (sendValve p ((openSegment p b (t.modPos p f)).modChan p g)) :=
    moves_sendValve p (moves_modChan p g (moves_openSegment p b (moves_modPos p f h (hf _) (by simp [hs, beforeStart]))))
  unfold enterRamp
  dsimp only
  split
  · exact flow _ _ (fun _ => rfl) (fun _ => rfl)
  · exact moves_fillState p (flow _ _ (fun _ => rfl) (fun _ => rfl))

theorem moves_startPulse (p : PosId) (b : BankId) (h : Moves s t) : Moves s (startPulse p b t) :=
  moves_sendValve p (moves_modPos p _ h rfl fun _ => rfl)

theorem moves_grantBank (p : PosId) (b : BankId) (h : Moves s t) : Moves s (grantBank p b t) := by
  have kept (f : Bank → Bank) (l : List DrawWait) :
      Moves s (moveBank b .drawing (some (.pos p)) { t.modBank b f with drawList := l }) :=
    moves_moveBank b _ _ (moves_drawList l (moves_modBank b f h))
  unfold grantBank
  dsimp only
  split
  · exact moves_startPulse p b (kept _ _)
  · exact moves_enterRamp p b (kept _ _)

theorem moves_drawRequest (p : PosId) (k : DrawKind) (x : Option BankId) (h : Moves s t) :
    Moves s (drawRequest p k x t) := by
  unfold drawRequest
  split
  · exact moves_grantBank p _ h
  · exact moves_drawList _ h

theorem moves_offerBank (b : BankId) (h : Moves s t) : Moves s (offerBank b t) := by
  unfold offerBank
  split
  · exact moves_grantBank _ b h
  · exact h

theorem moves_offerPass (l : List BankId) (h : Moves s t) : Moves s (offerPass l t) := by
  unfold offerPass
  split
  · exact h
  · refine h.trans (moves_foldl _ _ (fun s b => ?_) t)
    split
    · exact moves_offerBank b .refl
    · exact .refl

theorem moves_retestWaiter (p : PosId) (h : Moves s t) : Moves s (retestWaiter p t) := by
  unfold retestWaiter
  split
  · exact h
  · split
    · exact moves_grantBank p _ h
    · exact h

/-! ### Grants, the refill queue, assignment -/

theorem moves_tellDerated (p : PosId) (h : Moves s t) : Moves s (tellDerated p t) :=
  moves_modRecord p _ h fun _ => ⟨rfl, rfl⟩

theorem moves_grantFill (p : PosId) (g : Nat) (h : Moves s t)
    (hg : g ≤ (t.grantOf (.pos p)).grant + t.freeCapacity) : Moves s (grantFill p g t) := by
  have k := moves_setGrant (.pos p) g h hg
  unfold grantFill
  dsimp only
  split
  · exact moves_tellDerated p k
  · exact k

theorem moves_flushWaitNotice (c : CompId) (h : Moves s t) : Moves s (flushWaitNotice c t) := by
  unfold flushWaitNotice
  split
  · exact moves_postCompState c _ (moves_evt _ h)
  · exact h

theorem moves_startRefill (c : CompId) (h : Moves s t) : Moves s (startRefill c t).1 := by
  have h0 := moves_modComp c (fun x => { x with requestTime := none }) h
  unfold startRefill
  dsimp only
  split
  · exact moves_postCompState c _ (moves_postDirective _ _ (moves_modComp c _ (moves_queue _ (moves_moveBank _ _ _
      (moves_evt _ h0)))))
  · exact moves_postCompState c _ (moves_modComp c _ (moves_setGrant_zero _ (moves_budgetChanged _
      (moves_flushWaitNotice c h0))))

theorem moves_compressorAsks (c : CompId) (h : Moves s t) : Moves s (compressorAsks c t) := by
  unfold compressorAsks
  dsimp only
  split
  next hd =>
    simp only [Bool.and_eq_true, decide_eq_true_eq] at hd
    exact moves_startRefill c (moves_setGrant _ _ (moves_budgetChanged _ h) (Nat.le_trans hd.2 (Nat.le_add_left _ _)))
  · exact moves_evt _ (moves_modComp c _ (moves_wait _ (moves_budgetChanged _ h)))

theorem moves_assignmentPass (h : Moves s t) : Moves s (assignmentPass t) := by
  unfold assignmentPass
  split
  · exact h
  · refine h.trans (moves_foldl _ _ (fun s c => ?_) t)
    split
    · exact moves_compressorAsks c .refl
    · exact .refl

theorem moves_enqueueEntry (e : QueueEntry) (h : Moves s t) : Moves s (enqueueEntry e t) := moves_queue _ h

theorem moves_enqueue (b : BankId) (o : QueueOrigin) (h : Moves s t) : Moves s (enqueue b o t) := moves_queue _ h

theorem moves_tellIdle (b : BankId) (h : Moves s t) : Moves s (tellIdle b t) := by
  unfold tellIdle
  split
  · exact moves_assignmentPass h
  · split
    · split
      · exact moves_assignmentPass (moves_enqueue b _ h)
      · exact h
    · exact h

theorem moves_bankIdle (b : BankId) (h : Moves s t) : Moves s (bankIdle b t) := by
  have ho := moves_offerPass [b] h
  unfold bankIdle
  dsimp only
  split
  · exact moves_tellIdle b ho
  · exact ho

theorem moves_releaseBank (p : PosId) (h : Moves s t) : Moves s (releaseBank p t) := by
  unfold releaseBank
  split
  · exact h
  · exact moves_bankIdle _ (moves_moveBank _ _ _ (moves_modPos p _ h rfl fun _ => rfl))

/-! ### Holds and redistribution (R21 to R25, R114 to R116) -/

theorem moves_enterHold (p : PosId) (r : HoldReason) (h : Moves s t) : Moves s (enterHold p r t) := by
  have held (f : Position → Position) (g : Channel → Channel) (hf : ∀ x, (f x).steady = x.steady)
      (hs : ∀ x, (f x).state = .hold) : Moves s ((t.modPos p f).modChan p g) :=
    moves_modChan p g (moves_modPos p f h (hf _) (by simp [hs, beforeStart]))
  unfold enterHold
  dsimp only
  split
  · exact moves_fillState p (moves_sendValve p (held _ _ (fun _ => rfl) (fun _ => rfl)))
  · exact moves_fillState p (held _ _ (fun _ => rfl) (fun _ => rfl))

theorem moves_holdFromRamp (p : PosId) (r : HoldReason) (h : Moves s t) : Moves s (holdFromRamp p r t) :=
  moves_enterHold p r (moves_releaseBank p (moves_endSegment p _ h))

theorem moves_checksCD (p : PosId) (h : Moves s t) : Moves s (checksCD p t) := by
  unfold checksCD
  dsimp only
  split
  · exact moves_enterHold p _ h
  · split
    · exact moves_drawRequest p _ _ h
    · exact moves_enterHold p _ (moves_drawRequest p _ _ h)

theorem moves_raiseDerated (h : Moves s t) : Moves s (raiseDerated t) := by
  refine h.trans (moves_foldl _ _ (fun s r => ?_) t)
  cases r with
  | comp c => exact .refl
  | pos p =>
    dsimp only
    split
    · exact moves_setGrant _ _ (moves_budgetChanged _ .refl) (Nat.add_le_add_left (Nat.min_le_right _ _) _)
    · exact .refl

theorem moves_dropWait (r : Requester) (h : Moves s t) : Moves s (dropWait r t) := moves_wait _ h

theorem moves_serveFills (l : List CoolWait) (h : Moves s t) : Moves s (serveFills l t).1 := by
  induction l generalizing t with
  | nil => exact h
  | cons w l ih =>
    unfold serveFills
    split
    · exact h
    · dsimp only
      split
      · exact ih (moves_grantFill _ _ (moves_dropWait _ (moves_budgetChanged _ h))
          (Nat.le_trans (Nat.min_le_right _ _) (Nat.le_add_left _ _)))
      · exact h

theorem moves_serveComps (l : List CoolWait) (h : Moves s t) : Moves s (serveComps l t).1 := by
  induction l generalizing t with
  | nil => exact h
  | cons w l ih =>
    unfold serveComps
    split
    · exact h
    · dsimp only
      split
      next hd =>
        exact ih (moves_setGrant _ _ (moves_dropWait _ (moves_budgetChanged _ h)) (Nat.le_trans hd (Nat.le_add_left _ _)))
      · exact h

theorem moves_redistributePasses (h : Moves s t) : Moves s (redistributePasses t).1 := by
  unfold redistributePasses
  split
  · exact h
  · exact moves_serveComps _ (moves_serveFills _ (moves_raiseDerated h))

theorem moves_tellServed (fills : List PosId) (comps : List CompId) (h : Moves s t) :
    Moves s (tellServed fills comps t).1 := by
  have refills (l : List CompId) (r : State × Bool) (h : Moves s r.1) :
      Moves s (l.foldl (fun r c => ((startRefill c r.1).1, r.2 || (startRefill c r.1).2)) r).1 := by
    induction l generalizing r with
    | nil => exact h
    | cons c l ih => exact ih _ (moves_startRefill c h)
  exact refills comps (_, false) (h.trans (moves_foldl _ _ (fun s p => moves_checksCD p .refl) t))

theorem moves_redistributeN (n : Nat) (h : Moves s t) : Moves s (redistributeN n t) := by
  induction n generalizing t with
  | zero => exact h
  | succ n ih =>
    have k := moves_tellServed (redistributePasses t).2.1 (redistributePasses t).2.2 (moves_redistributePasses h)
    unfold redistributeN
    dsimp only
    split
    · exact ih k
    · exact k

theorem moves_redistribute (h : Moves s t) : Moves s (redistribute t) := moves_redistributeN 3 h

theorem moves_releaseGrant (r : Requester) (h : Moves s t) : Moves s (releaseGrant r t) := by
  unfold releaseGrant
  split
  · exact h
  · exact moves_redistribute (moves_setGrant_zero r (moves_budgetChanged _ h))

theorem moves_departWait (r : Requester) (h : Moves s t) : Moves s (departWait r t) := by
  unfold departWait
  split
  · exact moves_redistribute (moves_dropWait r (moves_budgetChanged _ h))
  · exact h

theorem moves_fillAsks (p : PosId) (h : Moves s t) : Moves s (fillAsks p t).1 := by
  unfold fillAsks
  dsimp only
  split
  · exact moves_grantFill _ _ (moves_budgetChanged _ h) (Nat.le_trans (Nat.min_le_right _ _) (Nat.le_add_left _ _))
  · exact moves_wait _ (moves_budgetChanged _ h)

theorem moves_warmTest (l : LaneId) (h : Moves s t) : Moves s (warmTest l t) := by
  unfold warmTest
  split
  · split <;> exact moves_modLane _ _ h
  · exact h

theorem moves_warmTestOf (l : Option LaneId) (h : Moves s t) : Moves s (warmTestOf l t) := by
  unfold warmTestOf
  split
  · exact moves_warmTest _ h
  · exact h

/-! ### Ends of fills and of refills -/

theorem moves_endMarks (p : PosId) (reason : EndReason) (h : Moves s t) : Moves s (endMarks p reason t) := by
  have marked := moves_modPos p (Position.marked reason) h rfl (by simp [Position.marked, beforeStart])
  have told := moves_modRecord p (TxnRecord.told reason (t.pos p).ramp.pSet) marked fun _ => ⟨rfl, rfl⟩
  exact moves_drawList _ (moves_endSegment p _ told)

theorem moves_endReleases (p : PosId) (h : Moves s t) : Moves s (endReleases p t) :=
  moves_releaseGrant _ (moves_departWait _ (moves_releaseBank p h))

theorem moves_endTells (p : PosId) (old : Position) (h : Moves s t) : Moves s (endTells p old t) := by
  have set := moves_modChan p Channel.settling (moves_modPos p Position.settling h rfl fun _ => rfl)
  unfold endTells
  dsimp only
  split
  · exact moves_warmTestOf _ (moves_fillState p set)
  · exact moves_warmTestOf _ (moves_fillState p (moves_sendValve p set))

theorem moves_endFill (p : PosId) (reason : EndReason) (h : Moves s t) : Moves s (endFill p reason t) := by
  cases he : endable (t.pos p).state
  · rw [endFill_of_not_endable he]
    exact h
  · rw [endFill_eq he]
    exact moves_endTells p _ (moves_endReleases p (moves_endMarks p reason h))

theorem moves_leaveCoolingWait (c : CompId) (next : CompState) (cause : CompCause) (h : Moves s t) :
    Moves s (leaveCoolingWait c next cause t) :=
  moves_departWait _ (moves_postCompState c _ (moves_modComp c _ (moves_flushWaitNotice c h)))

theorem moves_matchQueue (n : Nat) (h : Moves s t) : Moves s (matchQueue n t) := by
  induction n generalizing t with
  | zero => exact h
  | succ n ih =>
    unfold matchQueue
    split
    · split
      · exact ih (moves_departWait _ (moves_postCompState _ _ (moves_modComp _ _ (moves_flushWaitNotice _ h))))
      · exact h
    · exact h

theorem moves_dequeue (b : BankId) (h : Moves s t) : Moves s (dequeue b t) := by
  unfold dequeue
  split
  · exact moves_matchQueue 2 (moves_queue _ h)
  · exact h

theorem moves_stopRunning (c : CompId) (st : CompState) (h : Moves s t) : Moves s (stopRunning c st t) :=
  moves_modComp c _ h

theorem moves_completeRefill (c : CompId) (stop : StopCause) (cause : CompCause) (h : Moves s t) :
    Moves s (completeRefill c stop cause t) := by
  unfold completeRefill
  split
  · exact h
  next b hb =>
    have hd := moves_postDirective plantPort (.refillStop c b stop) h
    dsimp only
    split
    · exact moves_postCompData _ _ (moves_assignmentPass (moves_releaseGrant _ (moves_stopRunning c _
        (moves_bankIdle b (moves_moveBank b _ _ hd)))))
    · exact moves_postCompData _ _ (moves_assignmentPass (moves_releaseGrant _ (moves_stopRunning c _ hd)))

theorem moves_withdrawRefill (c : CompId) (stop : StopCause) (cause : CompCause) (next : CompState) (h : Moves s t) :
    Moves s (withdrawRefill c stop cause next t) := by
  unfold withdrawRefill
  split
  next b e hb he =>
    have hd := moves_postDirective plantPort (.refillStop c b stop) h
    have rest (u : State) (hu : Moves s u) : Moves s (releaseGrant (.comp c) (stopRunning c next u)) :=
      moves_releaseGrant _ (moves_stopRunning c _ hu)
    have requeued := moves_enqueueEntry e (moves_offerPass [b] (moves_moveBank b .idle none hd))
    dsimp only
    split <;> split
    · exact moves_postCompData _ _ (moves_assignmentPass (rest _ requeued))
    · exact moves_postCompData _ _ (rest _ requeued)
    · exact moves_postCompData _ _ (moves_assignmentPass (rest _ hd))
    · exact moves_postCompData _ _ (rest _ hd)
  · exact h

theorem moves_loseBank (c : CompId) (h : Moves s t) : Moves s (loseBank c t) :=
  moves_postCompData _ _ (moves_assignmentPass (moves_releaseGrant _ (moves_stopRunning c _ h)))

/-! ### Banks leaving service, lanes -/

theorem moves_withdrawPosition (p : PosId) (h : Moves s t) : Moves s (withdrawPosition p t) := by
  have h0 := moves_modPos p (fun x => { x with bank := none }) h rfl fun _ => rfl
  unfold withdrawPosition
  dsimp only
  split
  · exact moves_drawRequest p _ _ (moves_sendValve p (moves_modPos p _ h0 rfl fun _ => rfl))
  · have hd := moves_drawRequest p .ramp none (moves_endSegment p .bankWithdrawn h0)
    split
    · exact hd
    · exact moves_enterHold p _ hd
  · exact h0

theorem moves_vacateBank (b : BankId) (next : BankState) (h : Moves s t) : Moves s (vacateBank b next t) := by
  have hm := moves_moveBank b next none h
  unfold vacateBank
  dsimp only
  split
  · exact moves_modPos _ _ hm rfl fun _ => rfl
  · exact hm

theorem moves_tellBankLeft (b : BankId) (old : Bank) (h : Moves s t) : Moves s (tellBankLeft b old t) := by
  unfold tellBankLeft
  split
  · exact moves_dequeue b (moves_withdrawPosition _ h)
  · exact moves_dequeue b (moves_loseBank _ (moves_postDirective _ _ h))
  · exact moves_dequeue b h

theorem moves_bankLeaves (b : BankId) (next : BankState) (h : Moves s t) : Moves s (bankLeaves b next t) :=
  moves_tellBankLeft b _ (moves_vacateBank b next h)

theorem moves_postLaneState (l : LaneId) (cause : LaneCause) (h : Moves s t) : Moves s (postLaneState l cause t) :=
  moves_postNotice _ _ _ (by decide) h

theorem moves_laneLeavesReady (l : LaneId) (next : LaneState) (cause : LaneCause) (h : Moves s t) :
    Moves s (laneLeavesReady l next cause t) := by
  unfold laneLeavesReady
  dsimp only
  refine moves_postLaneState l _ (moves_modLane l _ ((moves_modLane l _ h).trans (moves_foldl _ _ (fun s p => ?_) _)))
  split
  · exact moves_endFill p _ .refl
  · exact .refl

theorem moves_enablePresent (l : LaneId) (h : Moves s t) : Moves s (enablePresent l t) := by
  unfold enablePresent
  dsimp only
  split
  · split
    · exact moves_postLaneState l _ (moves_modLane l _ h)
    · exact moves_postLaneState l _ (moves_modLane l _ h)
  · exact h

theorem moves_enableWithdrawn (l : LaneId) (h : Moves s t) : Moves s (enableWithdrawn l t) := by
  unfold enableWithdrawn
  split
  · exact h
  · exact moves_postLaneState l _ (moves_modLane l _ h)
  · exact moves_laneLeavesReady l _ _ h
  · exact moves_postLaneState l _ (moves_modLane l _ h)

theorem moves_setPlantEnable (l : LaneId) (v : Bool) (h : Moves s t) : Moves s (setPlantEnable l v t) := by
  have hm := moves_modLane l (fun x => { x with plantEnable := v }) h
  unfold setPlantEnable
  split
  · exact h
  · dsimp only
    split
    · exact moves_enablePresent l hm
    · exact moves_enableWithdrawn l hm

theorem moves_setIslandEnable (l : LaneId) (v : Bool) (h : Moves s t) : Moves s (setIslandEnable l v t) := by
  have hm := moves_modLane l (fun x => { x with islandEnable := v }) h
  unfold setIslandEnable
  split
  · exact h
  · dsimp only
    split
    · exact moves_enablePresent l hm
    · exact moves_enableWithdrawn l hm

/-! ### Shedding: its table passes, and what follows them (R117, R118) -/

theorem moves_shedComps (l : List Requester) (h : Moves s t) : Moves s (shedComps l t).1 := by
  induction l generalizing t with
  | nil => exact h
  | cons r l ih =>
    cases r with
    | pos p => exact ih h
    | comp c =>
      unfold shedComps
      split
      · exact ih (moves_setGrant_zero _ h)
      · exact h

theorem moves_shedCuts (l : List Requester) (h : Moves s t) : Moves s (shedCuts l t) := by
  induction l generalizing t with
  | nil => exact h
  | cons r l ih =>
    cases r with
    | comp c => exact ih h
    | pos p =>
      unfold shedCuts
      dsimp only
      split
      · exact ih (moves_tellDerated p (moves_setGrant _ _ h (Nat.le_trans (Nat.sub_le _ _) (Nat.le_add_right _ _))))
      · exact ih h

theorem moves_shedHolds (l : List Requester) (h : Moves s t) : Moves s (shedHolds l t).1 := by
  induction l generalizing t with
  | nil => exact h
  | cons r l ih =>
    cases r with
    | comp c => exact ih h
    | pos p =>
      unfold shedHolds
      split
      · exact ih (moves_setGrant_zero _ h)
      · exact h

theorem moves_holdByShedding (p : PosId) (h : Moves s t) : Moves s (holdByShedding p t) := by
  unfold holdByShedding
  split
  · exact moves_holdFromRamp p _ h
  · exact moves_enterHold p _ (moves_drawList _ h)
  · exact h

/-- The table after the three passes of a shedding (R117). -/
def shedTable (s : State) : State :=
  let s1 := (shedComps s.cooling.order.reverse (budgetChanged .shed s)).1
  let s2 := shedCuts s1.cooling.order.reverse s1
  (shedHolds s2.cooling.order.reverse s2).1

theorem moves_shedTable (h : Moves s t) : Moves s (shedTable t) :=
  moves_shedHolds _ (moves_shedCuts _ (moves_shedComps _ (moves_budgetChanged _ h)))

/-- A shedding is its table, and moves after it. -/
theorem shedTable_moves_shed (s : State) : Moves (shedTable s) (shed s) := by
  unfold shed
  dsimp only
  have told (fills : List PosId) (comps held : List CompId) (gone : List PosId) (u : State)
      (h : Moves (shedTable s) u) : Moves (shedTable s)
      (tellServed fills comps (gone.foldl (fun s p => holdByShedding p s)
        (held.foldl (fun s c => withdrawRefill c .shed .shed .ready s) u))).1 :=
    moves_tellServed _ _ ((h.trans (moves_foldl _ _ (fun s c => moves_withdrawRefill c _ _ _ .refl) _)).trans
      (moves_foldl _ _ (fun s p => moves_holdByShedding p .refl) _))
  split <;> split
  · exact moves_redistribute (told _ _ _ _ _ (moves_redistributePasses (moves_wait _ .refl)))
  · exact told _ _ _ _ _ (moves_redistributePasses (moves_wait _ .refl))
  · exact moves_redistribute (told _ _ _ _ _ (moves_wait _ .refl))
  · exact told _ _ _ _ _ (moves_wait _ .refl)

theorem moves_shed (h : Moves s t) : Moves s (shed t) :=
  (moves_shedTable h).trans (shedTable_moves_shed t)

end Sys2Proof.Machine
end

section
/-! SUPPORT. What the moves of a cascade keep: the links, the slots of the store, and the laws of set-points, bills, totals,
room and grants; and the updates beyond moves that keep those laws too. -/

namespace Sys2Proof.Machine

variable {s t u : State}

/-! ### Ports -/

theorem Port.Told.refl (x : Port) : x.Told x :=
  ⟨rfl, rfl, rfl, rfl, fun m hm => ⟨m, hm, sameKey_refl m⟩⟩

theorem Port.Told.trans {x y z : Port} (h : x.Told y) (k : y.Told z) : x.Told z :=
  ⟨k.replies.trans h.replies, k.line.trans h.line, k.rxBuffer.trans h.rxBuffer, k.esd.trans h.esd, fun m hm => by
    obtain ⟨m', hm', ⟨kind, subject⟩⟩ := h.notices m hm
    obtain ⟨m'', hm'', ⟨kind', subject'⟩⟩ := k.notices m' hm'
    exact ⟨m'', hm'', kind'.trans kind, subject'.trans subject⟩⟩

theorem Move.told (h : Move s t) (n : PortId) : (s.port n).Told (t.port n) := by
  cases h
  case port m x hx =>
    by_cases e : n = m
    · subst e
      simpa using hx
    · rw [State.setPort_port_ne s m n x e]
      exact .refl _
  case grant r g _ => cases r <;> exact .refl _
  all_goals exact .refl _

theorem Moves.told (h : Moves s t) (n : PortId) : (s.port n).Told (t.port n) := by
  induction h with
  | refl => exact .refl _
  | tail _ k ih => exact ih.trans (k.told n)

/-! ### Slots and groups -/

/-- A slot whose record only takes marks. -/
def Slot.Marks : Slot → Slot → Prop
  | .free, y => y = .free
  | .txn r, y => ∃ r', y = .txn r' ∧ r.Marks r'

theorem Slot.Marks.refl (x : Slot) : x.Marks x := by
  cases x
  · exact rfl
  · exact ⟨_, rfl, rfl, rfl⟩

theorem Slot.Marks.trans {x y z : Slot} (h : x.Marks y) (k : y.Marks z) : x.Marks z := by
  cases x with
  | free =>
    obtain rfl : y = .free := h
    exact k
  | txn r =>
    obtain ⟨r', rfl, h1, h2⟩ := h
    obtain ⟨r'', rfl, k1, k2⟩ := k
    exact ⟨r'', rfl, k1.trans h1, k2.trans h2⟩

theorem Move.slot (h : Move s t) (i : SlotId) : (s.slot i).Marks (t.slot i) := by
  cases h
  case record j r r' hr hm =>
    by_cases e : i = j
    · subst e
      rw [State.setSlot_slot, hr]
      exact ⟨r', rfl, hm⟩
    · rw [State.setSlot_slot_ne s j i _ e]
      exact .refl _
  case grant r g _ => cases r <;> exact .refl _
  all_goals exact .refl _

theorem Moves.slot (h : Moves s t) (i : SlotId) : (s.slot i).Marks (t.slot i) := by
  induction h with
  | refl => exact .refl _
  | tail _ k ih => exact ih.trans (k.slot i)

theorem Slot.Marks.opensFor {x y : Slot} (h : x.Marks y) (p : PosId) : y.opensFor p = x.opensFor p := by
  cases x with
  | free =>
    obtain rfl : y = .free := h
    rfl
  | txn r =>
    obtain ⟨r', rfl, hr, -⟩ := h
    have hs : r'.steady.state = r.steady.state := by rw [hr]
    have hp : r'.steady.pos = r.steady.pos := by rw [hr]
    change r'.state = r.state at hs
    change r'.pos = r.pos at hp
    simp [Slot.opensFor, hs, hp]

theorem Moves.openSlot (h : Moves s t) (p : PosId) : t.openSlot p = s.openSlot p := by
  unfold State.openSlot
  congr 1
  funext i
  exact (h.slot i).opensFor p

theorem Move.inFlight (h : Move s t) (r : RecId) (hr : s.inFlight r = true) : t.inFlight r = true := by
  cases h
  case checkpoint i => exact (issue_spec _ s).2.2.2 r hr
  case grant q g _ => cases q <;> exact hr
  all_goals exact hr

theorem Moves.inFlight (h : Moves s t) (r : RecId) (hr : s.inFlight r = true) : t.inFlight r = true :=
  h.keep (P := fun s => s.inFlight r = true) (fun _ _ k hs => k.inFlight r hs) hr

/-- What commands of their own alone change: stored contents, calibration in use, clock, ESD latch, time of day. -/
def State.fixed (s : State) : StoreData × Calibration × Clock × EsdLatch × TimeOfDay :=
  (s.store, s.work.calibration, s.clock, s.esd, s.tod)

theorem Move.fixed (h : Move s t) : t.fixed = s.fixed := by
  cases h
  case grant r g _ => cases r <;> rfl
  all_goals rfl

/-- A cascade takes or ends no loss of the plant. -/
theorem Move.lost (h : Move s t) : t.evt.plantLost = s.evt.plantLost := by
  cases h
  case evt e he => exact he
  case grant r g _ => cases r <;> rfl
  all_goals rfl

theorem Moves.lost (h : Moves s t) : t.evt.plantLost = s.evt.plantLost := by
  induction h with
  | refl => rfl
  | tail _ k ih => exact k.lost.trans ih

theorem Moves.fixed (h : Moves s t) : t.fixed = s.fixed := by
  induction h with
  | refl => rfl
  | tail _ k ih => exact k.fixed.trans ih

theorem mem_issue {ws : List RecWrite} {g : WriteGroup} {w : RecWrite} (hg : g ∈ (issue ws s).groups)
    (hw : w ∈ g.writes) : w ∈ ws ∨ ∃ g' ∈ s.groups, w ∈ g'.writes := by
  rcases List.mem_append.1 hg with hg | hg
  · exact .inr ⟨g, List.mem_of_mem_filter hg, hw⟩
  · rw [List.mem_singleton.1 hg] at hw
    rcases List.mem_append.1 hw with hw | hw
    · obtain ⟨g', hg', hw'⟩ := List.mem_flatMap.1 (List.mem_of_mem_filter hw)
      exact .inr ⟨g', List.mem_of_mem_filter hg', hw'⟩
    · exact .inl hw

/-! ### The laws, one update each -/

/-- The laws of set-points, bills, totals, room and grants, each kept from `s` to `t`. -/
structure Keeps (s t : State) : Prop where
  setPoint : SetPointLaw s → SetPointLaw t
  bill : BillLaw s → BillLaw t
  totals : TotalsLaw s → TotalsLaw t
  room : RoomLaw s → RoomLaw t
  cooling : CoolingLaw s → CoolingLaw t

theorem Keeps.refl (s : State) : Keeps s s := ⟨id, id, id, id, id⟩

theorem Keeps.trans (h : Keeps s t) (k : Keeps t u) : Keeps s u :=
  ⟨k.setPoint ∘ h.setPoint, k.bill ∘ h.bill, k.totals ∘ h.totals, k.room ∘ h.room, k.cooling ∘ h.cooling⟩

/-- What these laws are about stands: positions, ramp table, working copies, store, groups in flight, grants. -/
theorem keeps_same (h1 : t.positions = s.positions) (h2 : t.rampTable = s.rampTable) (h3 : t.work = s.work)
    (h4 : t.store = s.store) (h5 : t.groups = s.groups) (h6 : t.cooling = s.cooling) : Keeps s t where
  setPoint := by
    unfold SetPointLaw State.rampEntry State.pos
    rw [h1, h2]
    exact id
  bill := by
    unfold BillLaw
    rw [h3, h4, h5]
    exact id
  totals := by
    unfold TotalsLaw
    rw [h3, h4, h5]
    exact id
  room h := by
    refine ⟨?_, ?_⟩
    · have := h.room
      unfold State.reservations State.records State.slot State.pos at this ⊢
      rwa [h1, h3]
    · have := h.reserved
      unfold State.pos at this ⊢
      rwa [h1]
  cooling := by
    have hg : ∀ r, t.grantOf r = s.grantOf r := fun r => by cases r <;> simp [State.grantOf, h6]
    unfold CoolingLaw State.sumGrants
    simp only [hg, h6]
    exact id

/-- A position holds a reservation (R147). -/
def Position.reserved (x : Position) : Bool := (x.authorization.map (·.reservation)).getD false

theorem Position.reserved_iff (x : Position) :
    x.reserved = true ↔ ∃ a, x.authorization = some a ∧ a.reservation = true := by
  unfold Position.reserved
  cases x.authorization <;> simp

theorem beforeStart_iff (x : PosState) : beforeStart x = true ↔ x = .waitNozzle ∨ x = .ready := by
  cases x <;> simp [beforeStart]

theorem RoomLaw.reserved_of (h : RoomLaw s) (p : PosId) (k : beforeStart (s.pos p).state = true) :
    (s.pos p).reserved = true := (Position.reserved_iff _).2 (h.reserved p ((beforeStart_iff _).1 k))

theorem setPointLaw_setPos (h : SetPointLaw s) (p : PosId) (x : Position) (hx : setPointLaw x) :
    SetPointLaw (s.setPos p x) := by
  refine ⟨h.1, fun q => ?_⟩
  by_cases e : q = p
  · subst e
    simpa using hx
  · rw [State.setPos_pos_ne s p q x e]
    exact h.2 q

/-- A position changes; the room is left to show. -/
theorem keeps_setPos_room (p : PosId) (x : Position) (hp : SetPointLaw s → setPointLaw x)
    (hr : RoomLaw s → RoomLaw (s.setPos p x)) : Keeps s (s.setPos p x) where
  setPoint h := setPointLaw_setPos h p x (hp h)
  bill := id
  totals := id
  cooling := id
  room := hr

/-- Every position in WAIT_NOZZLE or READY holds a reservation where the changed one does. -/
theorem reserved_setPos (h : RoomLaw s) (p : PosId) (x : Position) (hb : beforeStart x.state = true →
    (beforeStart (s.pos p).state = true → (s.pos p).reserved = true) → x.reserved = true) (q : PosId)
    (hq : ((s.setPos p x).pos q).state = .waitNozzle ∨ ((s.setPos p x).pos q).state = .ready) :
    ∃ a, ((s.setPos p x).pos q).authorization = some a ∧ a.reservation = true := by
  by_cases e : q = p
  · subst e
    rw [State.setPos_pos] at hq ⊢
    exact (Position.reserved_iff _).1 (hb ((beforeStart_iff _).2 hq) (h.reserved_of q))
  · rw [State.setPos_pos_ne s p q x e] at hq ⊢
    exact h.reserved q hq

/-- A position that takes no reservation changes. -/
theorem keeps_setPos (p : PosId) (x : Position) (hp : SetPointLaw s → setPointLaw x)
    (hr : x.reserved = true → (s.pos p).reserved = true)
    (hb : beforeStart x.state = true → (beforeStart (s.pos p).state = true → (s.pos p).reserved = true) →
      x.reserved = true) : Keeps s (s.setPos p x) := by
  refine keeps_setPos_room p x hp fun h =>
    ⟨Nat.le_trans (Nat.add_le_add_right ?_ _) h.room, reserved_setPos h p x hb⟩
  refine (List.monotone_filter_right allPositions fun q hq => ?_).length_le
  by_cases e : q = p
  · subst e
    rw [State.setPos_pos] at hq
    exact hr hq
  · rwa [State.setPos_pos_ne s p q x e] at hq

/-- A position whose authorization stands, and that comes into no state before START. -/
theorem keeps_modPos (p : PosId) (f : Position → Position) (hp : SetPointLaw s → setPointLaw (f (s.pos p)))
    (ha : (f (s.pos p)).authorization = (s.pos p).authorization)
    (hs : beforeStart (f (s.pos p)).state = true → beforeStart (s.pos p).state = true) : Keeps s (s.modPos p f) := by
  have hr : (f (s.pos p)).reserved = (s.pos p).reserved := by rw [Position.reserved, ha]; rfl
  exact keeps_setPos p _ hp (fun h => hr ▸ h) fun h k => hr ▸ k (hs h)

/-- A slot takes a record, or is freed. -/
theorem keeps_setSlot (i : SlotId) (x : Slot) (hb : BillLaw s → x.billLaw)
    (hf : isFree (s.slot i) = true → isFree x = true) : Keeps s (s.setSlot i x) where
  setPoint := id
  totals := id
  cooling := id
  bill h := by
    refine ⟨fun j => ?_, h.2.1, h.2.2⟩
    by_cases e : j = i
    · subst e
      show ((s.setSlot j x).slot j).billLaw
      simpa using hb h
    · show ((s.setSlot i x).slot j).billLaw
      rw [State.setSlot_slot_ne s i j x e]
      exact h.1 j
  room h := by
    refine ⟨Nat.le_trans (Nat.add_le_add_left ?_ _) h.room, h.reserved⟩
    refine (List.monotone_filter_right allSlots fun j hj => ?_).length_le
    by_cases e : j = i
    · subst e
      rw [State.setSlot_slot] at hj
      cases hs : isFree (s.slot j)
      · rfl
      · rw [hf hs] at hj
        cases hj
    · rwa [State.setSlot_slot_ne s i j x e] at hj

/-- A store operation that carries lawful contents. -/
theorem keeps_issue (ws : List RecWrite) (h : ∀ w ∈ ws, (BillLaw s → w.billLaw) ∧ (TotalsLaw s → w.totalsLaw)) :
    Keeps s (issue ws s) where
  setPoint := id
  cooling := id
  room h := ⟨h.room, h.reserved⟩
  bill hb := ⟨hb.1, hb.2.1, fun _ hg w hw =>
    (mem_issue hg hw).elim (fun k => (h w k).1 hb) fun ⟨g', hg', hw'⟩ => hb.2.2 g' hg' w hw'⟩
  totals ht := ⟨ht.1, ht.2.1, ht.2.2.1, ht.2.2.2.1, fun _ hg w hw =>
    (mem_issue hg hw).elim (fun k => (h w k).2 ht) fun ⟨g', hg', hw'⟩ => ht.2.2.2.2 g' hg' w hw'⟩

/-- Working copies that no law of the books is about: calibration, tariffs, the next number, the reset cause. -/
theorem keeps_work (w : StoreData) (h1 : w.slots = s.work.slots) (h2 : w.totals = s.work.totals)
    (h3 : w.snapshot = s.work.snapshot) : Keeps s { s with work := w } where
  setPoint := id
  cooling := id
  bill h := ⟨fun i => by simpa [h1] using h.1 i, h.2⟩
  totals h := ⟨by simpa [h2] using h.1, h.2.1, by simpa [h3] using h.2.2.1, h.2.2.2⟩
  room h := by
    have same : State.records { s with work := w } = s.records := by simp [State.records, State.slot, h1]
    exact ⟨same ▸ h.room, h.reserved⟩

/-! ### Grants -/

theorem setGrantOf_grant (r q : Requester) (x : GrantEntry) (hx : x.grant = (s.grantOf r).grant) :
    ((s.setGrantOf r x).grantOf q).grant = (s.grantOf q).grant := by
  by_cases e : q = r
  · subst e
    rw [State.setGrantOf_grantOf, hx]
  · rw [State.setGrantOf_grantOf_ne s r q x e]

/-- Demand and floor of a requester change. -/
theorem keeps_setGrantOf (r : Requester) (x : GrantEntry) (hx : x.grant = (s.grantOf r).grant) :
    Keeps s (s.setGrantOf r x) where
  setPoint := by cases r <;> exact id
  bill := by cases r <;> exact id
  totals := by cases r <;> exact id
  room := by
    cases r <;> exact fun h => ⟨h.room, h.reserved⟩
  cooling h := by
    have ho : (s.setGrantOf r x).cooling.order = s.cooling.order := by cases r <;> rfl
    have hc : (s.setGrantOf r x).cooling.capacity = s.cooling.capacity := by cases r <;> rfl
    unfold CoolingLaw State.sumGrants at h ⊢
    simp only [setGrantOf_grant _ _ x hx, ho, hc]
    exact h

/-- A sum in which one term is replaced. -/
theorem sum_map_replaced {α : Type} (l : List α) (f g : α → Nat) (a : α) (hn : l.Nodup) (ha : a ∈ l)
    (h : ∀ b, b ≠ a → g b = f b) : (l.map g).sum + f a = (l.map f).sum + g a := by
  induction l with
  | nil => cases ha
  | cons b l ih =>
    obtain ⟨hb, hl⟩ := List.nodup_cons.1 hn
    rcases List.mem_cons.1 ha with rfl | ha
    · have same : l.map g = l.map f := List.map_congr_left fun c hc => h c fun e => hb (e ▸ hc)
      simp only [List.map_cons, List.sum_cons, same]
      omega
    · have hne : b ≠ a := fun e => hb (e ▸ ha)
      have := ih hl ha
      simp only [List.map_cons, List.sum_cons, h b hne]
      omega

theorem mem_allPositions (p : PosId) : p ∈ allPositions := by revert p; decide

theorem mem_allComps (c : CompId) : c ∈ allComps := by revert c; decide

/-- Σ grants moves with the one grant that changes. -/
theorem setGrant_sumGrants (r : Requester) (g : Nat) (s : State) :
    (setGrant r g s).sumGrants + (s.grantOf r).grant = s.sumGrants + g := by
  unfold State.sumGrants
  cases r with
  | pos p =>
    have h1 := sum_map_replaced allPositions (fun q => (s.grantOf (.pos q)).grant)
      (fun q => ((setGrant (.pos p) g s).grantOf (.pos q)).grant) p (by decide) (mem_allPositions p)
      fun q hq => by simp [setGrant_grantOf, hq]
    have h2 : ∀ c, ((setGrant (.pos p) g s).grantOf (.comp c)).grant = (s.grantOf (.comp c)).grant :=
      fun c => by simp [setGrant_grantOf]
    have h3 : ((setGrant (.pos p) g s).grantOf (.pos p)).grant = g := by simp [setGrant_grantOf]
    simp only [h2]
    simp only [h3] at h1
    omega
  | comp c =>
    have h1 := sum_map_replaced allComps (fun q => (s.grantOf (.comp q)).grant)
      (fun q => ((setGrant (.comp c) g s).grantOf (.comp q)).grant) c (by decide) (mem_allComps c)
      fun q hq => by simp [setGrant_grantOf, hq]
    have h2 : ∀ p, ((setGrant (.comp c) g s).grantOf (.pos p)).grant = (s.grantOf (.pos p)).grant :=
      fun p => by simp [setGrant_grantOf]
    have h3 : ((setGrant (.comp c) g s).grantOf (.comp c)).grant = g := by simp [setGrant_grantOf]
    simp only [h2]
    simp only [h3] at h1
    omega

@[simp] theorem setGrant_capacity (r : Requester) (g : Nat) (s : State) :
    (setGrant r g s).cooling.capacity = s.cooling.capacity := by cases r <;> rfl

theorem setGrant_cooling (r : Requester) {g : Nat} (h : g ≤ (s.grantOf r).grant + s.freeCapacity)
    (hs : CoolingLaw s) : CoolingLaw (setGrant r g s) := by
  have sum := setGrant_sumGrants r g s
  have le := hs.1
  refine ⟨?_, setGrant_order r g s hs.2⟩
  rw [setGrant_capacity]
  unfold State.freeCapacity at h
  omega

/-! ### Moves keep the laws -/

theorem Move.keeps (h : Move s t) : Keeps s t := by
  cases h
  case pos p x hx hb =>
    have ha : x.steady.authorization = (s.pos p).steady.authorization := by rw [hx]
    change x.authorization = (s.pos p).authorization at ha
    have hr : x.reserved = (s.pos p).reserved := by rw [Position.reserved, ha]; rfl
    refine keeps_setPos p x (fun hs => ?_) (fun k => hr ▸ k) fun k j => hr ▸ j (hb k ▸ k)
    have : setPointLaw x.steady := hx ▸ hs.2 p
    exact this
  case record i r r' hr hm =>
    refine keeps_setSlot i _ (fun hb => ?_) fun k => by rw [hr] at k; cases k
    have old : (s.slot i).billLaw := hb.1 i
    rw [hr] at old
    have : r'.steady.billLaw := hm.1 ▸ old
    exact this
  case checkpoint i =>
    refine keeps_issue _ fun w hw => ?_
    rw [List.mem_singleton.1 hw]
    exact ⟨fun hb => hb.1 i, fun _ => trivial⟩
  case grant r g hg =>
    constructor
    case setPoint | bill | totals => cases r <;> exact id
    case room => cases r <;> exact fun h => ⟨h.room, h.reserved⟩
    case cooling => exact setGrant_cooling r hg
  case wait l => exact ⟨id, id, id, fun h => ⟨h.room, h.reserved⟩, id⟩
  all_goals exact keeps_same rfl rfl rfl rfl rfl rfl

theorem Moves.keeps (h : Moves s t) : Keeps s t := by
  induction h with
  | refl => exact .refl _
  | tail _ k ih => exact ih.trans k.keeps

end Sys2Proof.Machine
end

section
/-! SUPPORT. What every owning rule keeps: the links, the laws of set-points, bills, totals, room and grants; and that a
refusal changes nothing (R171). -/

namespace Sys2Proof.Machine

variable {s t u : State}

/-! ### Owned changes -/

/-- A port whose queues to and from its master stand. -/
structure Port.Linked (x y : Port) : Prop where
  replies : y.replies = x.replies
  line : y.line = x.line
  rxBuffer : y.rxBuffer = x.rxBuffer

theorem Port.Linked.trans {x y z : Port} (h : x.Linked y) (k : y.Linked z) : x.Linked z :=
  ⟨k.replies.trans h.replies, k.line.trans h.line, k.rxBuffer.trans h.rxBuffer⟩

theorem Port.Told.linked {x y : Port} (h : x.Told y) : x.Linked y := ⟨h.replies, h.line, h.rxBuffer⟩

/-- A change that an owning rule may make: it keeps the laws and leaves the links to those who take and answer. -/
structure Owned (s t : State) : Prop where
  keeps : Keeps s t
  links : ∀ n, (s.port n).Linked (t.port n)
  fixed : t.fixed = s.fixed

theorem Owned.refl (s : State) : Owned s s := ⟨.refl s, fun _ => ⟨rfl, rfl, rfl⟩, rfl⟩

theorem Owned.trans (h : Owned s t) (k : Owned t u) : Owned s u :=
  ⟨h.keeps.trans k.keeps, fun n => (h.links n).trans (k.links n), k.fixed.trans h.fixed⟩

theorem Moves.owned (h : Moves s t) : Owned s t := ⟨h.keeps, fun n => (h.told n).linked, h.fixed⟩

/-- A change that moves no port. -/
theorem Keeps.owned (h : Keeps s t) (hp : t.ports = s.ports) (hf : t.fixed = s.fixed := by rfl) : Owned s t := by
  refine ⟨h, fun n => ?_, hf⟩
  rw [State.port, State.port, hp]
  exact ⟨rfl, rfl, rfl⟩

theorem owned_ite (c : Prop) [Decidable c] (ht : Owned s t) (hu : Owned s u) : Owned s (if c then t else u) := by
  split
  · exact ht
  · exact hu

theorem owned_modPort (n : PortId) (f : Port → Port) (hf : (s.port n).Linked (f (s.port n))) :
    Owned s (s.modPort n f) := by
  refine ⟨keeps_same rfl rfl rfl rfl rfl rfl, fun m => ?_, rfl⟩
  by_cases e : m = n
  · subst e
    rwa [State.modPort_port]
  · rw [State.modPort_port_ne s n m f e]
    exact ⟨rfl, rfl, rfl⟩

theorem owned_foldl {α : Type} (l : List α) (f : State → α → State) (hf : ∀ s a, Owned s (f s a)) (s : State) :
    Owned s (l.foldl f s) := by
  induction l generalizing s with
  | nil => exact .refl s
  | cons a l ih => exact (hf s a).trans (ih _)

/-- A notice, of any kind. -/
theorem owned_postNotice (k : NoticeKind) (n : Nat) (data : List Field) (ports : List PortId) (s : State) :
    Owned s (postNotice k n data ports s) := by
  refine owned_foldl _ _ (fun s m => owned_modPort m _ ?_) s
  unfold Port.post
  split
  · split <;> exact ⟨rfl, rfl, rfl⟩
  · exact ⟨rfl, rfl, rfl⟩

/-- A position whose authorization and set-points stand, and that comes into no state before START. -/
theorem owned_modPos (p : PosId) (f : Position → Position) (hp : setPointLaw (s.pos p) → setPointLaw (f (s.pos p)))
    (ha : (f (s.pos p)).authorization = (s.pos p).authorization)
    (hs : beforeStart (f (s.pos p)).state = true → beforeStart (s.pos p).state = true) : Owned s (s.modPos p f) :=
  (keeps_modPos p f (fun h => hp (h.2 p)) ha hs).owned rfl

/-- What an owning rule answers: an owned change, and where it refuses none. -/
structure Answers (s : State) (r : State × Answer) : Prop where
  owned : Owned s r.1
  refused : ∀ code, r.2 = .refused code → r.1 = s

theorem answers_refuse (code : RefusalCode) (s : State) : Answers s (refuse code s) := ⟨.refl s, fun _ _ => rfl⟩

theorem answers_accepted (data : List Field) (held : Option RecId) (h : Owned s t) :
    Answers s (t, .accepted data held) := ⟨h, fun _ k => nomatch k⟩

theorem answers_accept (data : List Field) (h : Owned s t) : Answers s (accept data t) := answers_accepted data none h

theorem answers_moves (data : List Field) (h : Moves s t) : Answers s (accept data t) := answers_accept data h.owned

theorem answers_ite {a b : State × Answer} (c : Prop) [Decidable c] (ha : Answers s a) (hb : Answers s b) :
    Answers s (if c then a else b) := by
  split
  · exact ha
  · exact hb

/-! ### Positions (chapter 01) -/

theorem setPointLaw_initial (l : Option LaneId) : setPointLaw { Position.initial with lane := l } :=
  fun _ h => nomatch h

theorem owned_makeUnavailable (p : PosId) (s : State) : Owned s (makeUnavailable p s) := by
  have emptied : Keeps s (s.modPos p (fun x => { Position.initial with lane := x.lane })) :=
    keeps_setPos p _ (fun _ => setPointLaw_initial _) (fun h => nomatch h) (fun h => nomatch h)
  have left : Keeps (s.modPos p (fun x => { Position.initial with lane := x.lane }))
      { s.modPos p (fun x => { Position.initial with lane := x.lane }) with
        drawList := s.drawList.filter (fun w => w.pos != p) } := (Move.drawList _).keeps
  unfold makeUnavailable
  exact Keeps.owned (emptied.trans (left.trans (keeps_setGrantOf (.pos p) _ rfl))) rfl

theorem owned_removeAuthorization (p : PosId) (why : AuthEnd) (next : PosState) (h : beforeStart next = false) :
    Owned s (s.authorizationLost p why next) := by
  have back : Keeps s (s.setPos p { s.pos p with state := next, authorization := none, phaseTimer := none }) :=
    keeps_setPos p _ (fun hs => hs.2 p) (fun k => nomatch k) fun k => nomatch h.symm.trans k
  exact (back.owned rfl).trans (owned_postNotice ..)

/-- An authorization taken back where the position becomes UNAVAILABLE at once. -/
theorem owned_removed_unavailable (p : PosId) (why : AuthEnd) (s : State) :
    Owned s (makeUnavailable p (removeAuthorization p why s)) := by
  rw [removeAuthorization_eq, makeUnavailable_setPos _ _ _ (by simp)]
  exact (owned_postNotice ..).trans (owned_makeUnavailable p _)

theorem owned_loseAuthorization (p : PosId) (why : AuthEnd) (s : State) : Owned s (loseAuthorization p why s) := by
  by_cases hw : (s.pos p).state = .waitNozzle
  · rw [loseAuthorization_waitNozzle why hw]
    exact owned_removeAuthorization p why _ rfl
  by_cases hr : (s.pos p).state = .ready
  · rw [loseAuthorization_ready why hr]
    exact owned_removeAuthorization p why _ rfl
  · rw [loseAuthorization_other why hw hr]
    exact .refl s

theorem answers_openPosition (hose high nozzle : Byte) (p : PosId) (s : State) :
    Answers s (openPosition hose high nozzle p s) := by
  unfold openPosition
  split
  · exact answers_refuse _ _
  · split
    · exact answers_refuse _ _
    · split
      · refine answers_accept _ ((owned_modPos p _ id rfl fun k => ?_).trans (moves_sendValve p .refl).owned)
        dsimp only at k
        split at k <;> cases k
      · exact answers_refuse _ _

theorem answers_closePosition (p : PosId) (s : State) : Answers s (closePosition p s) := by
  unfold closePosition
  split
  · exact answers_refuse _ _
  · exact answers_accept _ (owned_makeUnavailable p s)
  · exact answers_accept _ (owned_makeUnavailable p s)
  · exact answers_accept _ (owned_removed_unavailable p _ s)
  · exact answers_accept _ (owned_removed_unavailable p _ s)
  iterate 5 exact answers_refuse _ _
  · exact answers_accept _ (owned_modPos p _ id rfl id)

theorem owned_moveNozzle (p : PosId) (n : Nozzle) (s : State) : Owned s (moveNozzle p n s) := by
  have moved : Owned s (s.modPos p (fun x => { x with nozzle := n })) := owned_modPos p _ id rfl id
  unfold moveNozzle
  dsimp only
  split
  next => exact moved.trans (owned_modPos p _ id rfl fun k => nomatch k)
  next h => exact moved.trans (owned_modPos p _ id rfl fun _ => by rw [State.modPos_pos]; simp [h, beforeStart])
  next => exact moved.trans (owned_modPos p _ id rfl fun k => nomatch k)
  next h => exact moved.trans (owned_modPos p _ id rfl fun _ => by rw [State.modPos_pos]; simp [h, beforeStart])
  next =>
    split
    · exact moved.trans (owned_makeUnavailable p _)
    · exact moved.trans (owned_modPos p _ id rfl fun k => nomatch k)
  next => exact moved.trans (moves_endFill p _ .refl).owned
  next => exact moved

theorem answers_setNozzle (code : Byte) (p : PosId) (s : State) : Answers s (setNozzle code p s) := by
  unfold setNozzle
  split
  · exact answers_refuse _ _
  · split
    · exact answers_refuse _ _
    · refine answers_accept _ ?_
      split
      · exact .refl s
      · exact owned_moveNozzle p _ s

theorem answers_stopPosition (p : PosId) (s : State) : Answers s (stopPosition p s) := by
  unfold stopPosition
  split
  · exact answers_moves _ (moves_endFill p _ .refl)
  · split
    · exact answers_moves _ .refl
    · exact answers_refuse _ _

theorem owned_postOverpressure (p : PosId) (k : ClassId) (s : State) : Owned s (postOverpressure p k s) :=
  owned_postNotice ..

theorem owned_tripped (v : Vector Bool 8) (s : State) : Owned s { s with tripped := v } :=
  Keeps.owned (keeps_same rfl rfl rfl rfl rfl rfl) rfl

theorem owned_overpressureTrip (p : PosId) (s : State) : Owned s (overpressureTrip p s) := by
  have ended : Owned s (endFill p .overpressure s) := (moves_endFill p _ .refl).owned
  unfold overpressureTrip
  split
  · split
    · dsimp only
      split
      · exact ended
      · exact (ended.trans (owned_tripped _ _)).trans (owned_postOverpressure p _ _)
    · exact .refl s
  · exact .refl s

theorem answers_reportPressure (v : Nat) (p : PosId) (s : State) : Answers s (reportPressure v p s) := by
  unfold reportPressure
  dsimp only
  split
  · exact answers_refuse _ _
  · refine answers_accept _ (Owned.trans ?_ (owned_overpressureTrip p _))
    split
    · exact owned_modPos p _ id rfl id
    · exact (owned_modPos p _ id rfl id).trans (moves_retestWaiter p .refl).owned

/-- A report pushed moves no set-point. -/
theorem setPointLaw_push (x : Position) (r : VehicleReport) (v : Option ValidReport) (h : setPointLaw x) :
    setPointLaw { x with ramp := { x.ramp.push r with lastValid := v } } := by
  unfold RampGenerator.push
  split <;> exact h

theorem answers_reportVehicle (r : Option VehicleReport) (p : PosId) (s : State) :
    Answers s (reportVehicle r p s) := by
  unfold reportVehicle
  split
  · exact answers_refuse _ _
  · split
    · exact answers_accept _ (owned_modPos p _ id rfl id)
    · exact answers_accept _ (owned_modPos p _ (setPointLaw_push _ _ _) rfl id)

theorem answers_attachLane (lane : Byte) (p : PosId) (s : State) : Answers s (attachLane lane p s) := by
  unfold attachLane
  split
  · exact answers_refuse _ _
  · split
    · exact answers_refuse _ _
    · exact answers_accept _ (owned_modPos p _ id rfl id)

theorem answers_cancelPosition (tag : Tag) (p : PosId) (s : State) : Answers s (cancelPosition tag p s) := by
  unfold cancelPosition
  split
  iterate 4 exact answers_refuse _ _
  iterate 2
    · split
      · exact answers_accept _ (owned_loseAuthorization p _ s)
      · exact answers_refuse _ _
  all_goals
    split
    · exact answers_moves _ (moves_endFill p _ .refl)
    · exact answers_refuse _ _

/-! ### AUTHORIZE and START: the room of the store (R12, R147) -/

/-- A filtered list that gains one element at most is longer by one at most. -/
theorem filter_length_le_succ {α : Type} (l : List α) (f g : α → Bool) (a : α) (hn : l.Nodup)
    (h : ∀ b ∈ l, f b = true → b = a ∨ g b = true) : (l.filter f).length ≤ (l.filter g).length + 1 := by
  have sub : l.filter f ⊆ a :: l.filter g := fun b hb => by
    obtain ⟨hl, hf⟩ := List.mem_filter.1 hb
    exact (h b hl hf).elim (fun e => e ▸ List.mem_cons_self) fun k => List.mem_cons_of_mem _ (List.mem_filter.2 ⟨hl, k⟩)
  exact (List.subperm_of_subset (hn.filter f) sub).length_le

/-- A filtered list that loses an element is shorter by one. -/
theorem filter_length_succ_le {α : Type} (l : List α) (f g : α → Bool) (a : α) (hn : l.Nodup) (ha : a ∈ l)
    (hf : f a = false) (hg : g a = true) (h : ∀ b ∈ l, f b = true → g b = true) :
    (l.filter f).length + 1 ≤ (l.filter g).length := by
  have nodup : (a :: l.filter f).Nodup := List.nodup_cons.2 ⟨fun k => by simp [hf] at k, hn.filter f⟩
  refine (List.subperm_of_subset nodup fun b hb => ?_).length_le
  rcases List.mem_cons.1 hb with rfl | hb
  · exact List.mem_filter.2 ⟨ha, hg⟩
  · obtain ⟨hl, hb⟩ := List.mem_filter.1 hb
    exact List.mem_filter.2 ⟨hl, h b hl hb⟩

theorem allSlots_nodup : allSlots.Nodup := List.nodup_finRange 64

/-- A reservation is taken while the store has room for it. -/
theorem keeps_authorized (p : PosId) (f : Position → Position) (hf : ¬storeFull s = true)
    (hx : setPointLaw (s.pos p) → setPointLaw (f (s.pos p))) (ha : (f (s.pos p)).reserved = true) :
    Keeps s (s.modPos p f) := by
  refine keeps_setPos_room p _ (fun h => hx (h.2 p)) fun h => ⟨?_, reserved_setPos h p _ fun _ _ => ha⟩
  have room : s.reservations + s.records < 64 := by
    simp only [storeFull, Bool.or_eq_true, decide_eq_true_eq, not_or, Nat.not_le] at hf
    exact hf.1
  have more : (s.modPos p f).reservations ≤ s.reservations + 1 := by
    refine filter_length_le_succ _ _ _ p (by decide) fun q _ hq => ?_
    by_cases e : q = p
    · exact .inl e
    · rw [State.modPos_pos_ne s p q f e] at hq
      exact .inr hq
  exact Nat.le_trans (Nat.add_le_add_right more s.records) (by omega)

theorem answers_authorizePosition (tag : Tag) (classes kind : Byte) (value : Nat) (p : PosId) (s : State) :
    Answers s (authorizePosition tag classes kind value p s) := by
  unfold authorizePosition
  dsimp only
  split
  · exact answers_refuse _ _
  · split
    · exact answers_refuse _ _
    · split
      · split
        · exact answers_refuse _ _
        · split
          · exact answers_refuse _ _
          next hf =>
            exact answers_accept _ ((keeps_authorized p _ hf id rfl).owned rfl)
      · exact answers_refuse _ _

theorem rne_zero (d : Nat) (h : 0 < d) : rne 0 d = 0 := by simp [rne, Nat.zero_div, Nat.zero_mod, h]

theorem openingRecord_billLaw (n : Nat) (p : PosId) (k : ClassId) (a : Authorization) (m : FillMode) (price : Nat)
    (now : Stamp) : (openingRecord n p k a m price now).billLaw := by
  refine ⟨?_, ?_⟩
  · simp [openingRecord, amountOf, rne_zero]
  · simp only [openingRecord]
    cases a.preset <;> simp [Preset.billed]

/-- The books of an accepted START: a record opens and the reservation of the position goes (R147, R149). -/
theorem keeps_opened (p : PosId) (i : SlotId) (r : TxnRecord) (x : Position) (w : StoreData) (hr : r.billLaw)
    (hp : SetPointLaw s → setPointLaw x) (hx : x.reserved = false) (hb : beforeStart x.state = false)
    (hs : (s.pos p).state = .ready) (w1 : w.slots = s.work.slots.set i (.txn r)) (w2 : w.totals = s.work.totals)
    (w3 : w.snapshot = s.work.snapshot) : Keeps s { s.setPos p x with work := w } where
  setPoint h := setPointLaw_setPos h p x (hp h)
  cooling := id
  totals h := ⟨by simpa [w2] using h.1, h.2.1, by simpa [w3] using h.2.2.1, h.2.2.2⟩
  bill h := by
    refine ⟨fun j => ?_, h.2⟩
    have old := h.1 j
    by_cases e : i.val = j.val
    · simpa [w1, e, Slot.billLaw] using hr
    · simpa [w1, Vector.getElem_set, e] using old
  room h := by
    have fewer : (s.setPos p x).reservations + 1 ≤ s.reservations := by
      refine filter_length_succ_le _ _ _ p (by decide) (mem_allPositions p) ?_
        (h.reserved_of p (by rw [hs]; rfl)) fun q _ hq => ?_
      · rw [State.setPos_pos]
        exact hx
      · by_cases e : q = p
        · subst e
          rw [State.setPos_pos] at hq
          exact absurd (hx.symm.trans hq) Bool.false_ne_true
        · rwa [State.setPos_pos_ne s p q x e] at hq
    have more : State.records { s with work := w } ≤ s.records + 1 := by
      refine filter_length_le_succ _ _ _ i allSlots_nodup fun j _ hj => ?_
      by_cases e : j = i
      · exact .inl e
      · refine .inr ?_
        have e' : i.val ≠ j.val := fun k => e (Fin.ext k.symm)
        simpa [State.slot, w1, Vector.getElem_set, e'] using hj
    have room := h.room
    refine ⟨?_, reserved_setPos h p x fun k => absurd (hb.symm.trans k) Bool.false_ne_true⟩
    show (s.setPos p x).reservations + State.records { s with work := w } ≤ 64
    omega

/-- A checkpoint with further lawful records (R136, R149). -/
theorem owned_checkpoint (p : PosId) (also : List RecWrite) (s : State)
    (h : ∀ w ∈ also, w.billLaw ∧ w.totalsLaw) : Owned s (checkpoint p also s) := by
  have marked : Moves s (modRecord p (fun r => { r with checkpointMass := (s.chan p).mass }) s) :=
    moves_modRecord p _ .refl fun _ => ⟨rfl, rfl⟩
  unfold checkpoint
  dsimp only
  split
  · exact marked.owned
  · refine marked.owned.trans (Keeps.owned (keeps_issue _ fun w hw => ?_) rfl)
    rcases List.mem_cons.1 hw with rfl | hw
    · exact ⟨fun hb => hb.1 _, fun _ => trivial⟩
    · exact ⟨fun _ => (h w hw).1, fun _ => (h w hw).2⟩

theorem owned_fillStateWith (p : PosId) (also : List RecWrite) (s : State)
    (h : ∀ w ∈ also, w.billLaw ∧ w.totalsLaw) : Owned s (fillStateWith p also s) :=
  (owned_postNotice ..).trans (owned_checkpoint p also _ h)

/-- An accepted START is its bookkeeping, the bank request, the opening write and the warm test (R18). -/
theorem startFill_eq (p : PosId) (k : ClassId) (e : Tariff) (a : Authorization) (i : SlotId) (s : State) :
    startFill p k e a i s =
      (let v := fillStateWith p [.nextNumber (s.work.nextNumber + 1)] (drawRequest p .pulse none (s.started p k e a i))
      warmTestOf (v.pos p).lane v) := rfl

/-- The books of START (R147, R149). -/
theorem owned_started (p : PosId) (k : ClassId) (e : Tariff) (a : Authorization) (i : SlotId) (s : State)
    (hs : (s.pos p).state = .ready) : Owned s (s.started p k e a i) := by
  have opened := keeps_opened p i (openingRecord s.work.nextNumber p k a (startMode s.clock (s.pos p).ramp) e.price s.stamp)
    { s.pos p with
      state := .pulse, pulseState := some .waiting, cls := some k, mode := some (startMode s.clock (s.pos p).ramp)
      transaction := some s.work.nextNumber, startTime := some s.clock, endReason := none, holdReason := none
      authorization := some { a with reservation := false }
      phaseTimer := none, periodTimer := some 1000, staleWatch := some 2000
      ramp := { RampGenerator.initial with
        startEntry := s.rampEntry k (bandOf s.clock s.ambient)
        lastValid := (s.pos p).ramp.lastValid } }
    { s.work with
      slots := s.work.slots.set i
        (.txn (openingRecord s.work.nextNumber p k a (startMode s.clock (s.pos p).ramp) e.price s.stamp))
      nextNumber := s.work.nextNumber + 1 }
    (openingRecord_billLaw ..) (fun h j hj => ?_) rfl rfl hs rfl rfl rfl
  · refine Keeps.owned (opened.trans (Keeps.trans ?_ (keeps_setGrantOf (.pos p) _ ?_))) rfl
    · exact keeps_same rfl rfl rfl rfl rfl rfl
    · rfl
  · obtain rfl : k = j := Option.some.inj hj
    exact ⟨h.1 k _, (by rintro _ ⟨⟩), Nat.le_refl 0, Nat.zero_le _⟩

theorem startCheck_chosen_ready {p : PosId} {k : ClassId} {e : Tariff} (h : startCheck s p = .chosen k e) :
    (s.pos p).state = .ready := by
  unfold startCheck at h
  split at h
  · cases h
  · split at h
    · cases h
    next hs => exact Decidable.not_not.1 hs

theorem answers_startPosition (p : PosId) (s : State) : Answers s (startPosition p s) := by
  unfold startPosition
  split
  · exact answers_refuse _ _
  next k e hc =>
    split
    next a i _ _ =>
      refine answers_accepted _ _ ?_
      rw [startFill_eq]
      refine ((owned_started p k e a i s (startCheck_chosen_ready hc)).trans ?_).trans (moves_warmTestOf _ .refl).owned
      refine (moves_drawRequest p _ _ .refl).owned.trans (owned_fillStateWith p _ _ fun w hw => ?_)
      rw [List.mem_singleton.1 hw]
      exact ⟨trivial, trivial⟩
    · exact answers_refuse _ _

end Sys2Proof.Machine
end

section
/-! SUPPORT. What the owning rules of plant, till and every port keep, and with them every request (R170, R171). -/

namespace Sys2Proof.Machine

variable {s t u : State}

/-! ### Banks (chapter 03) -/

/-- Settings that no law here is about. -/
theorem owned_same (h1 : t.positions = s.positions) (h2 : t.rampTable = s.rampTable) (h3 : t.work = s.work)
    (h4 : t.store = s.store) (h5 : t.groups = s.groups) (h6 : t.cooling = s.cooling) (h7 : t.ports = s.ports)
    (hf : t.fixed = s.fixed := by rfl) : Owned s t := Keeps.owned (keeps_same h1 h2 h3 h4 h5 h6) h7 hf

theorem answers_setStation (margin flow creep : Nat) (s : State) : Answers s (setStation margin flow creep s) := by
  unfold setStation
  split
  · exact answers_refuse _ _
  · have set : Owned s { s with margin := margin, switchMass := flow, creepLimit := creep } :=
      owned_same rfl rfl rfl rfl rfl rfl rfl
    exact answers_accept _ (owned_ite _ (set.trans (moves_offerPass _ .refl).owned) set)

theorem moves_reconfigureQueue (b : BankId) (g : BankConfig) (h : Moves s t) : Moves s (reconfigureQueue b g t) := by
  have asked (u : State) (hu : Moves s u) (v : Nat) : Moves s (if u.queued b then (if g.target ≤ v then dequeue b u else u)
      else if v ≤ g.threshold then enqueue b .lowPressure u else u) :=
    moves_ite _ (moves_ite _ (moves_dequeue b hu) hu) (moves_ite _ (moves_enqueue b _ hu) hu)
  have retiered (e : QueueEntry) := moves_enqueueEntry { e with tier := g.tier }
    (moves_queue (t.queue.filter (fun q => q.bank != b)) h)
  unfold reconfigureQueue
  dsimp only
  cases t.queue.find? (fun e => e.bank == b) <;> cases (t.bank b).report.map (·.pressure)
  case none.none => exact moves_ite _ h (moves_assignmentPass h)
  case none.some v => exact moves_ite _ (asked t h v) (moves_assignmentPass (asked t h v))
  case some.none e => exact moves_ite _ (retiered e) (moves_assignmentPass (retiered e))
  case some.some e v => exact moves_ite _ (asked _ (retiered e) v) (moves_assignmentPass (asked _ (retiered e) v))

theorem answers_configureBank (tier : Byte) (m h g : Nat) (b : BankId) (s : State) :
    Answers s (configureBank tier m h g b s) := by
  unfold configureBank
  split
  · exact answers_refuse _ _
  · split
    · exact answers_refuse _ _
    · dsimp only
      split
      · exact answers_refuse _ _
      · refine answers_moves _ ?_
        split
        · exact moves_reconfigureQueue b _ (moves_offerPass _ (moves_modBank b _ .refl))
        · exact moves_modBank b _ .refl

theorem owned_setWindow (t : Tier) (w : Option TierWindow) (s : State) : Owned s (s.setWindow t w) := by
  cases t <;> exact owned_same rfl rfl rfl rfl rfl rfl rfl

theorem answers_setTierWindow (tier : Byte) (base limit : Nat) (s : State) :
    Answers s (setTierWindow tier base limit s) := by
  unfold setTierWindow
  split
  · exact answers_refuse _ _
  · dsimp only
    split
    · exact answers_refuse _ _
    · exact answers_accept _ (owned_ite _ ((owned_setWindow _ _ s).trans (moves_offerPass _ .refl).owned)
        (owned_setWindow _ _ s))

theorem answers_bringOnline (b : BankId) (s : State) : Answers s (bringOnline b s) := by
  unfold bringOnline
  split
  · exact answers_refuse _ _
  · split
    · exact answers_refuse _ _
    · split
      · exact answers_refuse _ _
      · refine answers_moves _ ?_
        split
        · exact moves_bankIdle b (moves_moveBank b _ _ (moves_modBank b _ .refl))
        · exact moves_moveBank b _ _ (moves_modBank b _ .refl)

theorem answers_takeOffline (b : BankId) (s : State) : Answers s (takeOffline b s) := by
  unfold takeOffline
  split
  · exact answers_moves _ .refl
  · exact answers_moves _ (moves_bankLeaves b _ (moves_modBank b _ .refl))

theorem moves_causesGrown (b : BankId) (h : Moves s t) : Moves s (causesGrown b t) := by
  unfold causesGrown
  split
  iterate 2 exact moves_postBankState b h
  all_goals exact moves_bankLeaves b _ h

theorem moves_causesShrunk (b : BankId) (h : Moves s t) : Moves s (causesShrunk b t) := by
  unfold causesShrunk
  split
  · split
    · exact moves_bankIdle b (moves_moveBank b _ _ h)
    · exact moves_postBankState b h
  · exact moves_postBankState b h
  all_goals exact h

theorem answers_lockBank (b : BankId) (s : State) : Answers s (lockBank b s) := by
  unfold lockBank
  split
  · exact answers_moves _ .refl
  · exact answers_moves _ (moves_causesGrown b (moves_modBank b _ .refl))

theorem answers_unlockBank (code : Byte) (b : BankId) (s : State) : Answers s (unlockBank code b s) := by
  unfold unlockBank
  split
  · exact answers_refuse _ _
  · refine answers_moves _ ?_
    split
    · exact moves_modBank b _ .refl
    · exact moves_causesShrunk b (moves_modBank b _ .refl)

theorem moves_tellReport (b : BankId) (h : Moves s t) : Moves s (tellReport b t) := by
  unfold tellReport
  split
  · split
    · split
      · exact moves_dequeue b h
      · exact h
    · split
      · exact moves_assignmentPass (moves_enqueue b _ h)
      · exact h
  · exact h

theorem moves_reportFurther (b : BankId) (differs : Bool) (h : Moves s t) : Moves s (reportFurther b differs t) := by
  unfold reportFurther
  split
  · refine moves_tellReport b ?_
    split
    · exact moves_offerPass _ h
    · exact h
  · split
    · split
      · exact moves_completeRefill _ _ _ h
      · exact h
    · exact h
  all_goals exact h

theorem moves_testReport (b : BankId) (differs : Bool) (h : Moves s t) : Moves s (testReport b differs t) := by
  have tested := moves_modBank b
    (fun x => { x with staleWatch := some 5000, causes := testedCauses (t.bank b) }) h
  unfold testReport
  refine moves_reportFurther b differs ?_
  split
  · exact tested
  · split
    · exact moves_causesShrunk b tested
    · exact moves_causesGrown b tested

theorem answers_reportBank (v : Nat) (x : Int) (b : BankId) (s : State) : Answers s (reportBank v x b s) := by
  unfold reportBank
  refine answers_moves _ ?_
  split
  · exact moves_modBank b _ .refl
  · exact moves_testReport b _ (moves_modBank b _ .refl)

/-! ### Refill (chapter 04) -/

theorem answers_requestRefill (b : BankId) (s : State) : Answers s (requestRefill b s) := by
  unfold requestRefill
  dsimp only
  split
  · exact answers_refuse _ _
  · split
    · exact answers_moves _ .refl
    · split
      · exact answers_moves _ .refl
      · exact answers_ite _ (answers_moves _ .refl) (answers_moves _
          (moves_ite _ (moves_assignmentPass (moves_enqueue b _ .refl)) (moves_enqueue b _ .refl)))

theorem answers_withdrawRequest (next : Byte) (c : CompId) (s : State) : Answers s (withdrawRequest next c s) := by
  unfold withdrawRequest
  split
  · exact answers_refuse _ _
  · split
    · exact answers_refuse _ _
    · exact answers_moves _ (moves_withdrawRefill c _ _ _ .refl)

theorem answers_configureComp (demand : Nat) (c : CompId) (s : State) : Answers s (configureComp demand c s) := by
  unfold configureComp
  split
  · exact answers_refuse _ _
  · split
    · exact answers_refuse _ _
    · have set : Owned s (s.setGrantOf (.comp c) { s.grantOf (.comp c) with demand := demand, floor := demand }) :=
        Keeps.owned (keeps_setGrantOf (.comp c) _ rfl) rfl
      exact answers_accept _ (set.trans (moves_modComp c _ .refl).owned)

theorem answers_readyComp (c : CompId) (s : State) : Answers s (readyComp c s) := by
  unfold readyComp
  split
  · exact answers_refuse _ _
  · split
    · exact answers_refuse _ _
    · split
      · exact answers_moves _ (moves_assignmentPass (moves_postCompState c _ (moves_modComp c _ .refl)))
      · exact answers_moves _ .refl

theorem answers_unavailableComp (c : CompId) (s : State) : Answers s (unavailableComp c s) := by
  unfold unavailableComp
  split
  · exact answers_moves _ .refl
  · exact answers_moves _ (moves_postCompState c _ (moves_modComp c _ .refl))
  · exact answers_moves _ (moves_leaveCoolingWait c _ _ .refl)
  · exact answers_moves _ (moves_withdrawRefill c _ _ _ .refl)

theorem answers_refillDone (c : CompId) (s : State) : Answers s (refillDone c s) := by
  unfold refillDone
  split
  · exact answers_refuse _ _
  · exact answers_moves _ (moves_completeRefill c _ _ .refl)

/-! ### Lanes (chapter 05) -/

theorem answers_laneEnable (port : PortId) (l : LaneId) (value : Byte) (s : State) :
    Answers s (laneEnable port l value s) := by
  unfold laneEnable
  split
  · exact answers_refuse _ _
  · split
    · exact answers_refuse _ _
    · split
      · split
        · exact answers_refuse _ _
        · exact answers_moves _ (moves_setIslandEnable l _ .refl)
      · exact answers_moves _ (moves_setPlantEnable l _ .refl)

theorem moves_applyLaneConfig (g : LaneConfig) (m : ClassSet) (l : LaneId) (h : Moves s t) :
    Moves s (applyLaneConfig g m l t) := by
  have set := moves_modLane l (fun x => { x with
    config := some g, classMap := m ||| 1#6, warmHold := (t.lane l).warmHold &&& (m ||| 1#6) }) h
  have tested (c : Prop) [Decidable c] (u : State) (hu : Moves s u) :
      Moves s (if c then u else warmTest l (postLaneState l .configured u)) := by
    split
    · exact hu
    · exact moves_warmTest l (moves_postLaneState l _ hu)
  unfold applyLaneConfig
  dsimp only
  split
  · exact moves_setIslandEnable l _ (tested _ _ set)
  · exact tested _ _ set

theorem answers_configureLane (owner : Byte) (k : Nat) (map : Byte) (l : LaneId) (s : State) :
    Answers s (configureLane owner k map l s) := by
  unfold configureLane
  split
  · split
    · exact answers_refuse _ _
    · split
      · exact answers_refuse _ _
      · exact answers_moves _ (moves_applyLaneConfig _ _ l .refl)
  · exact answers_refuse _ _

theorem moves_tellLifted (l : LaneId) (m : ClassSet) (p : PosId) (h : Moves s t) : Moves s (tellLifted l m t p) := by
  exact moves_ite _ (moves_checksCD p h) h

theorem moves_liftTest (l : LaneId) (v : Int) (h : Moves s t) : Moves s (liftTest l v t) := by
  unfold liftTest
  dsimp only
  split
  · exact h
  · exact moves_postLaneState l _
      ((moves_modLane l _ h).trans (moves_foldl _ _ (fun s p => moves_tellLifted l _ p .refl) _))

theorem moves_laneReportFurther (l : LaneId) (v : Int) (clamped : Bool) (h : Moves s t) :
    Moves s (laneReportFurther l v clamped t) := by
  unfold laneReportFurther
  split
  iterate 2 exact h
  · split
    · exact moves_postLaneState l _ (moves_modLane l _ h)
    · exact h
  · exact moves_warmTest l (moves_liftTest l v (moves_modLane l _ h))

theorem answers_reportLane (v : Int) (l : LaneId) (s : State) : Answers s (reportLane v l s) :=
  answers_moves _ (moves_laneReportFurther l _ _ (moves_modLane l _ .refl))

theorem answers_clearLaneFault (l : LaneId) (s : State) : Answers s (clearLaneFault l s) := by
  have cleared := moves_modLane l (fun x => { x with faultPulldown := false, faultStale := false }) (.refl (a := s))
  unfold clearLaneFault
  refine answers_moves _ ?_
  split
  · split
    · exact moves_postLaneState l _ (moves_modLane l _ (moves_postLaneState l _ (moves_modLane l _ cleared)))
    · exact moves_postLaneState l _ (moves_modLane l _ cleared)
  all_goals
    split
    · exact moves_postLaneState l _ cleared
    · exact cleared

/-! ### Shedding: what a fall of the capacity leaves (R117, R118) -/

/-- Every grant above 0 stands in grant order (R110). -/
def Listed (s : State) : Prop := ∀ r, (s.grantOf r).grant ≠ 0 → r ∈ s.cooling.order

/-- Grants only fall, the capacity stands, and grant order still lists every grant above 0. -/
structure Falls (s t : State) : Prop where
  grants : ∀ r, (t.grantOf r).grant ≤ (s.grantOf r).grant
  capacity : t.cooling.capacity = s.cooling.capacity
  listed : Listed s → Listed t

theorem Falls.refl (s : State) : Falls s s := ⟨fun _ => Nat.le_refl _, rfl, id⟩

theorem Falls.trans (h : Falls s t) (k : Falls t u) : Falls s u :=
  ⟨fun r => Nat.le_trans (k.grants r) (h.grants r), k.capacity.trans h.capacity, k.listed ∘ h.listed⟩

theorem falls_setGrant (r : Requester) {g : Nat} (h : g ≤ (s.grantOf r).grant) : Falls s (setGrant r g s) := by
  refine ⟨fun q => ?_, setGrant_capacity r g s, setGrant_order r g s⟩
  rw [setGrant_grantOf]
  split
  next e => exact e ▸ h
  · exact Nat.le_refl _

/-- Sums of grants that only fall only fall. -/
theorem sum_map_le {α : Type} (l : List α) (f g : α → Nat) (h : ∀ a, f a ≤ g a) : (l.map f).sum ≤ (l.map g).sum := by
  induction l with
  | nil => exact Nat.le_refl 0
  | cons a l ih => exact Nat.add_le_add (h a) ih

theorem Falls.sum (h : Falls s t) : t.sumGrants ≤ s.sumGrants :=
  Nat.add_le_add (sum_map_le _ _ _ fun p => h.grants (.pos p)) (sum_map_le _ _ _ fun c => h.grants (.comp c))

/-- The grants fit the capacity. -/
def Fits (s : State) : Prop := s.sumGrants ≤ s.cooling.capacity

theorem Falls.fits (h : Falls s t) (k : Fits s) : Fits t := by
  unfold Fits
  rw [h.capacity]
  exact Nat.le_trans h.sum k

theorem falls_tellDerated (p : PosId) (s : State) : Falls s (tellDerated p s) := by
  obtain ⟨w, e⟩ := modRecord_eq p (fun r => { r with flags := { r.flags with derated := true } }) s
  unfold tellDerated
  rw [e]
  exact ⟨fun _ => Nat.le_refl _, rfl, id⟩

/-- Pass 1 goes on until the grants fit or every compressor of the list has none. -/
theorem shedComps_falls (l : List Requester) (s : State) : Falls s (shedComps l s).1 ∧
    (Fits (shedComps l s).1 ∨ ∀ c, .comp c ∈ l → ((shedComps l s).1.grantOf (.comp c)).grant = 0) := by
  induction l generalizing s with
  | nil => exact ⟨.refl s, .inr fun _ h => nomatch h⟩
  | cons r l ih =>
    cases r with
    | pos p =>
      obtain ⟨h, k⟩ := ih s
      refine ⟨h, k.imp_right fun k c hc => k c ?_⟩
      rcases List.mem_cons.1 hc with e | hc
      · cases e
      · exact hc
    | comp c =>
      unfold shedComps
      split
      · obtain ⟨h, k⟩ := ih (setGrant (.comp c) 0 s)
        refine ⟨(falls_setGrant _ (Nat.zero_le _)).trans h, k.imp_right fun k d hd => ?_⟩
        rcases List.mem_cons.1 hd with e | hd
        · obtain rfl : d = c := Requester.comp.inj e
          have := h.grants (.comp d)
          rw [setGrant_grantOf, if_pos rfl] at this
          exact Nat.le_zero.1 this
        · exact k d hd
      next hn => exact ⟨.refl s, .inl (Nat.not_lt.1 hn)⟩

theorem shedCuts_falls (l : List Requester) (s : State) : Falls s (shedCuts l s) := by
  induction l generalizing s with
  | nil => exact .refl s
  | cons r l ih =>
    cases r with
    | comp c => exact ih s
    | pos p =>
      unfold shedCuts
      dsimp only
      split
      · exact ((falls_setGrant _ (Nat.sub_le _ _)).trans (falls_tellDerated p _)).trans (ih _)
      · exact ih s

/-- Pass 3 goes on until the grants fit or every fill of the list has none. -/
theorem shedHolds_falls (l : List Requester) (s : State) : Falls s (shedHolds l s).1 ∧
    (Fits (shedHolds l s).1 ∨ ∀ p, .pos p ∈ l → ((shedHolds l s).1.grantOf (.pos p)).grant = 0) := by
  induction l generalizing s with
  | nil => exact ⟨.refl s, .inr fun _ h => nomatch h⟩
  | cons r l ih =>
    cases r with
    | comp c =>
      obtain ⟨h, k⟩ := ih s
      refine ⟨h, k.imp_right fun k p hp => k p ?_⟩
      rcases List.mem_cons.1 hp with e | hp
      · cases e
      · exact hp
    | pos p =>
      unfold shedHolds
      split
      · obtain ⟨h, k⟩ := ih (setGrant (.pos p) 0 s)
        refine ⟨(falls_setGrant _ (Nat.zero_le _)).trans h, k.imp_right fun k q hq => ?_⟩
        rcases List.mem_cons.1 hq with e | hq
        · obtain rfl : q = p := Requester.pos.inj e
          have := h.grants (.pos q)
          rw [setGrant_grantOf, if_pos rfl] at this
          exact Nat.le_zero.1 this
        · exact k q hq
      next hn => exact ⟨.refl s, .inl (Nat.not_lt.1 hn)⟩

/-- After the table passes of a shedding the grants fit. -/
theorem shedTable_cooling (h : Listed s) : CoolingLaw (shedTable s) := by
  obtain ⟨f1, d1⟩ := shedComps_falls s.cooling.order.reverse (budgetChanged .shed s)
  have f2 := shedCuts_falls ((shedComps s.cooling.order.reverse (budgetChanged .shed s)).1.cooling.order.reverse)
    (shedComps s.cooling.order.reverse (budgetChanged .shed s)).1
  have f3 := shedHolds_falls (shedCuts (shedComps s.cooling.order.reverse (budgetChanged .shed s)).1.cooling.order.reverse
    (shedComps s.cooling.order.reverse (budgetChanged .shed s)).1).cooling.order.reverse
    (shedCuts (shedComps s.cooling.order.reverse (budgetChanged .shed s)).1.cooling.order.reverse
      (shedComps s.cooling.order.reverse (budgetChanged .shed s)).1)
  obtain ⟨f3, d3⟩ := f3
  have listed2 := f2.listed (f1.listed h)
  refine ⟨?_, f3.listed listed2⟩
  rcases d1 with fits | comps
  · exact f3.fits (f2.fits fits)
  rcases d3 with fits | fills
  · exact fits
  have none1 : ∀ c, ((shedComps s.cooling.order.reverse (budgetChanged .shed s)).1.grantOf (.comp c)).grant = 0 := by
    intro c
    by_cases hc : (s.grantOf (.comp c)).grant = 0
    · exact Nat.le_zero.1 (hc ▸ f1.grants (.comp c))
    · exact comps c (List.mem_reverse.2 (h _ hc))
  have none : ∀ r, ((shedTable s).grantOf r).grant = 0 := by
    rintro (p | c)
    · by_contra hp
      have hp2 := fun k => hp (Nat.le_zero.1 (Nat.le_trans (f3.grants (.pos p)) (Nat.le_of_eq k)))
      exact hp (fills p (List.mem_reverse.2 (listed2 _ hp2)))
    · exact Nat.le_zero.1 (none1 c ▸ Nat.le_trans (f3.grants (.comp c)) (f2.grants (.comp c)))
  simp [State.sumGrants, none]

end Sys2Proof.Machine
end

section
/-! SUPPORT. The owning rules that are left, and every request: what it keeps and what it leaves at the links (R170, R171). -/

namespace Sys2Proof.Machine

variable {s t u : State}

/-! ### Cooling capacity, ramp table (chapters 02 and 06) -/

/-- A capacity that the grants fit. -/
theorem keeps_setCapacity (v : Nat) (f : Bool) (h : s.sumGrants ≤ v) : Keeps s (setCapacity v f s) where
  setPoint := id
  bill := id
  totals := id
  room h := ⟨h.room, h.reserved⟩
  cooling k := ⟨h, k.2⟩

/-- A capacity that falls below the grants, and the shedding it brings. -/
theorem keeps_shed_setCapacity (v : Nat) (f : Bool) (c : CoolingCause) (s : State) :
    Keeps s (shed (budgetChanged c (setCapacity v f s))) := by
  have moved : Keeps (setCapacity v f s) (shed (budgetChanged c (setCapacity v f s))) :=
    (moves_shed (moves_budgetChanged c .refl)).keeps
  exact ⟨moved.setPoint, moved.bill, moved.totals, fun h => moved.room ⟨h.room, h.reserved⟩,
    fun h => (shedTable_moves_shed _).keeps.cooling (shedTable_cooling h.2)⟩

/-- Laws that are kept across a first change that moves no port, and cascades after it. -/
theorem Keeps.owned_moves (hk : Keeps s u) (hp : t.ports = s.ports) (hf : t.fixed = s.fixed) (h : Moves t u) :
    Owned s u := by
  refine ⟨hk, fun n => ?_, h.fixed.trans hf⟩
  rw [State.port, ← hp]
  exact (h.told n).linked

theorem owned_shed_setCapacity (v : Nat) (f : Bool) (c : CoolingCause) (s : State) :
    Owned s (shed (budgetChanged c (setCapacity v f s))) :=
  (keeps_shed_setCapacity v f c s).owned_moves (t := setCapacity v f s) rfl rfl (moves_shed (moves_budgetChanged c .refl))

theorem answers_reportCapacity (v : Nat) (s : State) : Answers s (reportCapacity v s) := by
  unfold reportCapacity
  dsimp only
  split
  · exact answers_accept _ (owned_shed_setCapacity _ _ _ s)
  next hn =>
    have set : Owned s (setCapacity (clampCapacity v).1 (clampCapacity v).2 s) :=
      Keeps.owned (keeps_setCapacity _ _ (Nat.not_lt.1 hn)) rfl
    have changed := set.trans (moves_budgetChanged .report .refl).owned
    split
    · exact answers_accept _ set
    · exact answers_accept _ (owned_ite _ (changed.trans (moves_redistribute .refl).owned) changed)

theorem rampEntryOf_bound {k : ClassId} {a p : Nat} {x : RampEntry} (h : rampEntryOf k a p = some (some x)) :
    x.pnc ≤ (classRow k).pNom := by
  unfold rampEntryOf at h
  split at h
  · cases h
  · split at h
    next hb =>
      obtain rfl : _ = x := Option.some.inj (Option.some.inj h)
      exact hb.2.2
    · cases h

/-- Every entry of a row read from a body is within its bound (R33). -/
theorem rampRowOf_bound {k : ClassId} (bs : List Byte) {row : List (Option RampEntry)} (h : rampRowOf k bs = some row)
    {x : RampEntry} (hx : some x ∈ row) : x.pnc ≤ (classRow k).pNom := by
  induction bs using rampRowOf.induct k generalizing row with
  | case1 a0 a1 p0 p1 rest e l hl he ih =>
    simp only [rampRowOf, he, hl, Option.some.injEq] at h
    subst h
    rcases List.mem_cons.1 hx with e | hx
    · exact rampEntryOf_bound (e ▸ he)
    · exact ih hl hx
  | case2 a0 a1 p0 p1 rest hn ih => simp_all [rampRowOf]
  | case3 bs hn =>
    unfold rampRowOf at h
    split at h
    · exact absurd rfl (hn _ _ _ _ _)
    · obtain rfl := Option.some.inj h
      cases hx

theorem answers_loadRampRow (c : Byte) (bands : List Byte) (s : State) : Answers s (loadRampRow c bands s) := by
  unfold loadRampRow
  split
  · exact answers_refuse _ _
  next k hk =>
    split
    · exact answers_refuse _ _
    next row hrow =>
      split
      · exact answers_refuse _ _
      · refine answers_accept _ (Keeps.owned ⟨fun h => ⟨fun j b e he => ?_, h.2⟩, id, id,
          fun h => ⟨h.room, h.reserved⟩, id⟩ rfl)
        simp only [State.rampEntry] at he
        by_cases hj : k.val = j.val
        · obtain rfl : k = j := Fin.ext hj
          simp only [Fin.getElem_fin, Vector.getElem_set_self, Vector.getElem_ofFn] at he
          refine rampRowOf_bound bands hrow (x := e) ?_
          rw [List.getD_eq_getElem?_getD] at he
          cases hb : row[b.val]? with
          | none => simp [hb] at he
          | some y =>
            simp only [hb, Option.getD_some] at he
            exact he ▸ List.mem_of_getElem? hb
        · refine h.1 j b e ?_
          simpa [State.rampEntry, Vector.getElem_set, hj] using he

/-- What a request answers that may change the calibration, the latch or the time of day. -/
structure Answered (s : State) (r : State × Answer) : Prop where
  keeps : Keeps s r.1
  links : ∀ n, (s.port n).Linked (r.1.port n)
  refused : ∀ code, r.2 = .refused code → r.1 = s

theorem Answers.answered {r : State × Answer} (h : Answers s r) : Answered s r :=
  ⟨h.owned.keeps, h.owned.links, h.refused⟩

theorem answered_refuse (code : RefusalCode) (s : State) : Answered s (refuse code s) := (answers_refuse code s).answered

/-- An accepted change that moves no port. -/
theorem answered_accepted (data : List Field) (held : Option RecId) (h : Keeps s t) (hp : t.ports = s.ports) :
    Answered s (t, .accepted data held) := by
  refine ⟨h, fun n => ?_, fun _ k => nomatch k⟩
  rw [State.port, State.port, hp]
  exact ⟨rfl, rfl, rfl⟩

theorem answered_forPosition (b : Byte) {f : PosId → State → State × Answer} (h : ∀ p, Answered s (f p s)) :
    Answered s (forPosition b f s) := by
  unfold forPosition
  split
  · exact h _
  · exact answered_refuse _ _

theorem answered_writeCalibration (w f : Nat) (p : PosId) (s : State) : Answered s (writeCalibration w f p s) := by
  unfold writeCalibration
  split
  · exact answered_refuse _ _
  · split
    · exact answered_refuse _ _
    · split
      · exact answered_refuse _ _
      · dsimp only
        split
        · exact answered_refuse _ _
        · refine answered_accepted _ _ (Keeps.trans (keeps_work _ ?_ ?_ ?_) (keeps_issue _ ?_)) ?_
          iterate 3 rfl
          · intro w hw
            rw [List.mem_singleton.1 hw]
            exact ⟨fun _ => trivial, fun _ => trivial⟩
          · rfl

theorem answered_clearEsd (s : State) : Answered s (clearEsd s) := by
  have awaits (v : State) : Owned v (awaitEdge v) := (moves_evt _ .refl).owned
  have further : Owned (setLatch false .cleared s) (awaitEdge (postEsd (assignmentPass (setLatch false .cleared s)))) :=
    ((moves_assignmentPass .refl).owned.trans (owned_postNotice ..)).trans (awaits _)
  have cleared : Keeps s (setLatch false .cleared s) := keeps_same rfl rfl rfl rfl rfl rfl
  unfold clearEsd
  split
  · exact answered_refuse _ _
  · refine ⟨?_, ?_, fun _ k => nomatch k⟩
    · change Keeps s (if _ then _ else _)
      split
      · exact cleared.trans further.keeps
      · exact .refl s
    · intro n
      change Port.Linked _ (State.port (if _ then _ else _) n)
      split
      · exact further.links n
      · exact ⟨rfl, rfl, rfl⟩

/-! ### The till (chapter 08) -/

theorem answers_setTariff (e : EntryId) (x : Tariff) (s : State) : Answers s (setTariff e x s) := by
  refine answers_accepted _ _ (Keeps.owned (Keeps.trans (keeps_work _ ?_ ?_ ?_) (keeps_issue _ ?_)) ?_)
  iterate 3 rfl
  · intro w hw
    rw [List.mem_singleton.1 hw]
    exact ⟨fun _ => trivial, fun _ => trivial⟩
  · rfl

theorem answered_setTimeOfDay (day second : Nat) (s : State) : Answered s (setTimeOfDay day second s) := by
  unfold setTimeOfDay
  split
  · exact answered_refuse _ _
  · exact answered_accepted _ _ (keeps_same rfl rfl rfl rfl rfl rfl) rfl

theorem answers_readRecord (number : Nat) (s : State) : Answers s (readRecord number s) := by
  unfold readRecord
  dsimp only
  generalize (if number = 0 then s.oldestCollectable else s.slotOf number) = slot
  cases slot with
  | none => exact answers_refuse _ _
  | some i =>
    dsimp only
    split
    · exact answers_refuse _ _
    · exact answers_ite _ (answers_refuse _ _) (answers_accept _ (.refl s))

theorem answers_releaseRecord (number : Nat) (s : State) : Answers s (releaseRecord number s) := by
  unfold releaseRecord
  split
  · exact answers_refuse _ _
  · split
    · exact answers_refuse _ _
    · split
      · exact answers_refuse _ _
      · split
        · exact answers_refuse _ _
        · refine answers_accepted _ _ (Keeps.owned
            (Keeps.trans (keeps_setSlot _ .free (fun _ => trivial) fun _ => rfl) (keeps_issue _ fun w hw => ?_)) rfl)
          rw [List.mem_singleton.1 hw]
          exact ⟨fun _ => trivial, fun _ => trivial⟩

theorem answers_takeSnapshot (s : State) : Answers s (takeSnapshot s) := by
  unfold takeSnapshot
  split
  · exact answers_refuse _ _
  · have taken : Keeps s { s with work := { s.work with snapshot := ⟨s.work.totals, s.stamp⟩ } } :=
      ⟨id, id, fun h => ⟨h.1, h.2.1, h.1, h.2.2.2⟩, fun h => ⟨h.room, h.reserved⟩, id⟩
    refine answers_accepted _ _ (Keeps.owned (taken.trans (keeps_issue _ fun w hw => ?_)) rfl)
    rw [List.mem_singleton.1 hw]
    exact ⟨fun _ => trivial, fun h => h.1⟩

/-! ### Every port (chapters 09 and 10) -/

theorem answers_setInterval (port : PortId) (v : Nat) (s : State) : Answers s (setInterval port v s) :=
  answers_ite _ (answers_accept _ (owned_modPort port _ ⟨rfl, rfl, rfl⟩)) (answers_refuse _ _)

theorem answers_setNotices (port : PortId) (mask a b : Byte) (s : State) : Answers s (setNotices port mask a b s) := by
  unfold setNotices
  split
  · exact answers_refuse _ _
  · split
    · exact answers_accept _ (owned_modPort port _ ⟨rfl, rfl, rfl⟩)
    · exact answers_refuse _ _

/-! ### Every request -/

theorem answers_forOwn (port : PortId) (b : Byte) {f : PosId → State → State × Answer}
    (h : ∀ p, Answers s (f p s)) : Answers s (forOwn port b f s) := by
  unfold forOwn
  split
  · exact answers_ite _ (h _) (answers_refuse _ _)
  · exact answers_refuse _ _

theorem answers_forPosition (b : Byte) {f : PosId → State → State × Answer} (h : ∀ p, Answers s (f p s)) :
    Answers s (forPosition b f s) := by
  unfold forPosition
  split
  · exact h _
  · exact answers_refuse _ _

theorem answers_forBank (b : Byte) {f : BankId → State → State × Answer} (h : ∀ p, Answers s (f p s)) :
    Answers s (forBank b f s) := by
  unfold forBank
  split
  · exact h _
  · exact answers_refuse _ _

theorem answers_forComp (b : Byte) {f : CompId → State → State × Answer} (h : ∀ p, Answers s (f p s)) :
    Answers s (forComp b f s) := by
  unfold forComp
  split
  · exact h _
  · exact answers_refuse _ _

theorem answers_forLane (b : Byte) {f : LaneId → State → State × Answer} (h : ∀ p, Answers s (f p s)) :
    Answers s (forLane b f s) := by
  unfold forLane
  split
  · exact h _
  · exact answers_refuse _ _

/-- The requests that may change the calibration, the latch or the time of day. -/
def touchesFixed : Instr → Bool
  | .calWrite _ _ | .esdClear _ _ | .setClock _ _ => true
  | _ => false

/-- What an owning rule of any other request keeps, and that its refusal changes nothing. -/
theorem ownerOf_answers (c : Instr) (s : State) (h : touchesFixed c = false) : Answers s (ownerOf c s) := by
  cases c
  case calWrite | esdClear | setClock => cases h
  case statusQuery | countersRead | snapshotRead => exact answers_accept _ (.refl s)
  case countersClear port args => exact answers_accept _ (owned_modPort port _ ⟨rfl, rfl, rfl⟩)
  case totalsSnapshot => exact answers_takeSnapshot s
  case totalsRead => exact answers_ite _ (answers_refuse _ _) (answers_accept _ (.refl s))
  case unknownKind => exact answers_refuse _ _
  case goodFrame | badCheckFrame | badLengthFragment | frameGap | frameSent | authorizationLifeExpiry |
    pulseExpiry | leakCheckExpiry | holdLimitExpiry | settleExpiry | periodExpiry | sensorStaleWatchExpiry |
    bankStaleWatchExpiry | pullDownTimerExpiry | laneStaleWatchExpiry | warmTimerExpiry |
    settleGateTimerExpiry | oneSecondTimerExpiry | intervalTimerExpiry | writeGroupCompletion | pulseEdge |
    esdNFallingEdge | esdNRisingEdge | calEnChange | powerApplied | powerLoss | resetNAsserted |
    resetNReleased | startUpSequence | startUpServe | syncByte | brStrapsChange =>
    exact answers_refuse .range s
  all_goals
    unfold ownerOf
    dsimp only
    split
    rotate_left
    · exact answers_refuse _ _
  · exact answers_forOwn _ _ fun p => answers_openPosition _ _ _ p s
  · exact answers_forOwn _ _ fun p => answers_closePosition p s
  · exact answers_forOwn _ _ fun p => answers_setNozzle _ p s
  · exact answers_forOwn _ _ fun p => answers_startPosition p s
  · exact answers_forOwn _ _ fun p => answers_stopPosition p s
  · exact answers_forOwn _ _ fun p => answers_reportPressure _ p s
  · exact answers_forOwn _ _ fun p => answers_reportVehicle _ p s
  · split
    · exact answers_refuse _ _
    · exact answers_laneEnable _ _ _ s
  · exact answers_setStation _ _ _ s
  · exact answers_forBank _ fun b => answers_configureBank _ _ _ _ b s
  · exact answers_setTierWindow _ _ _ s
  · exact answers_forBank _ fun b => answers_bringOnline b s
  · exact answers_forBank _ fun b => answers_takeOffline b s
  · exact answers_forBank _ fun b => answers_lockBank b s
  · exact answers_forBank _ fun b => answers_unlockBank _ b s
  · exact answers_forBank _ fun b => answers_reportBank _ _ b s
  · exact answers_forBank _ fun b => answers_requestRefill b s
  · exact answers_forComp _ fun c => answers_withdrawRequest _ c s
  · exact answers_forComp _ fun c => answers_configureComp _ c s
  · exact answers_forComp _ fun c => answers_readyComp c s
  · exact answers_forComp _ fun c => answers_unavailableComp c s
  · exact answers_forComp _ fun c => answers_refillDone c s
  · exact answers_forLane _ fun l => answers_configureLane _ _ _ l s
  · exact answers_forLane _ fun l => answers_reportLane _ l s
  · exact answers_forLane _ fun l => answers_clearLaneFault l s
  · exact answers_reportCapacity _ s
  · exact answers_accept _ (owned_same rfl rfl rfl rfl rfl rfl rfl)
  · exact answers_forPosition _ fun p => answers_attachLane _ p s
  · exact answers_loadRampRow _ _ s
  · exact answers_forPosition _ fun p => answers_authorizePosition _ _ _ _ p s
  · exact answers_forPosition _ fun p => answers_cancelPosition _ p s
  · split
    · exact answers_refuse _ _
    · split
      · exact answers_refuse _ _
      · exact answers_setTariff _ _ s
  · split
    · exact answers_refuse _ _
    · exact answers_accept _ (.refl s)
  · exact answers_readRecord _ s
  · exact answers_releaseRecord _ s
  · exact answers_forPosition _ fun _p => answers_accept _ (.refl s)
  · exact answers_setInterval _ _ s
  · exact answers_setNotices _ _ _ _ s

/-- What every owning rule keeps, and that its refusal changes nothing. -/
theorem ownerOf_answered (c : Instr) (s : State) : Answered s (ownerOf c s) := by
  cases h : touchesFixed c
  · exact (ownerOf_answers c s h).answered
  cases c
  case esdClear => exact answered_clearEsd s
  case calWrite =>
    unfold ownerOf
    dsimp only
    split
    · exact answered_forPosition _ fun p => answered_writeCalibration _ _ p s
    · exact answered_refuse _ _
  case setClock =>
    unfold ownerOf
    dsimp only
    split
    · exact answered_setTimeOfDay _ _ s
    · exact answered_refuse _ _
  all_goals cases h

end Sys2Proof.Machine
end

section
/-! SUPPORT. One reply to every taken request, and none of the state behind a refusal (R170, R171). -/

namespace Sys2Proof.Machine

variable {s t : State}

/-! ### The end of an event at the links -/

theorem settled_port (s : State) (n : PortId) : s.settled.port n = (s.port n).settled := by
  simp [State.settled, State.port]

theorem postWaitNotices_owned (s : State) : Owned s (postWaitNotices s) := by
  refine owned_foldl _ _ (fun s c => ?_) s
  split
  · exact owned_postNotice ..
  · exact .refl s

theorem postCoolingState_owned (s : State) : Owned s (postCoolingState s) := by
  unfold postCoolingState
  split
  · exact owned_postNotice ..
  · exact .refl s

/-- The end of an event answers nothing and takes nothing from a buffer. -/
theorem endEvent_links (s : State) (n : PortId) :
    ((endEvent s).port n).outReplies = (s.port n).outReplies ∧ ((endEvent s).port n).rxBuffer = (s.port n).rxBuffer := by
  have posted := ((postWaitNotices_owned s).trans (postCoolingState_owned _)).links n
  have sent : ∀ u : State, ((transmitAll u).port n).settled = (u.port n).settled := fun u => by
    rw [← settled_port, ← settled_port, (delivers_transmitAll u).rest]
  have ended : ((endEvent s).port n).settled = ((postCoolingState (postWaitNotices s)).port n).settled := by
    unfold endEvent
    dsimp only
    split
    · rfl
    · exact sent _
  constructor
  · calc ((endEvent s).port n).outReplies = _ := congrArg Port.replies ended
      _ = (s.port n).outReplies := by
        change Port.outReplies _ = _
        rw [Port.outReplies, posted.line, posted.replies, Port.outReplies]
  · exact (congrArg Port.rxBuffer ended).trans posted.rxBuffer

/-! ### Every taken request -/

/-- The reply an answer makes. -/
def replyOf (kind : Byte) (args : List Byte) : Answer → Reply
  | .accepted data held => ⟨kind, none, data, held⟩
  | .refused code => ⟨kind, some code, subjectFields args, none⟩

theorem pushReply_eq (port : PortId) (kind : Byte) (args : List Byte) (a : Answer) (s : State) :
    pushReply port kind args a s = s.modPort port (fun x => { x with replies := x.replies ++ [replyOf kind args a] }) := by
  cases a <;> rfl

/-- A taken request runs its owning rule on the state without the frame, and ends its event with the reply. -/
theorem request_answered {c : Instr} {port : PortId} {kind : Byte} {args : List Byte}
    (hb : requestBody c = some (port, kind :: args)) (h : Standing c s) (hx : exec c s = .next t) :
    ∃ r : State × Answer, Answered (dropFrame port s) r ∧ t = endEvent (pushReply port kind args r.2 r.1) := by
  have ready : Ready port (kind :: args) s := by
    unfold Standing at h
    rwa [hb] at h
  have taken : t = takeRequest kind port args (ownerOf c) s := by
    rw [exec_request hb] at hx
    split at hx
    · cases hx
    · exact (Host.Outcome.next.inj hx).symm
  cases hs : screen port kind args with
  | none => exact ⟨_, ownerOf_answered c _, by rw [taken, takeRequest_owner _ ready hs]⟩
  | some code => exact ⟨_, answered_refuse code _, by rw [taken, takeRequest_screened _ ready hs]; rfl⟩

theorem Answered.outReplies {port : PortId} {r : State × Answer} (h : Answered (dropFrame port s) r) (kind : Byte)
    (args : List Byte) : ((endEvent (pushReply port kind args r.2 r.1)).port port).outReplies =
      (s.port port).outReplies ++ [replyOf kind args r.2] := by
  have links := h.links port
  rw [dropFrame, State.modPort_port] at links
  rw [(endEvent_links _ port).1, pushReply_eq, State.modPort_port]
  simp [Port.outReplies, links.line, links.replies]

/-- Settles O5: the owning rule moves no queue of a link, and the end of the event keeps what a port has to answer. -/
theorem takenRequestIsAnsweredOnce : Obligations.TakenRequestIsAnsweredOnce := by
  unfold Obligations.TakenRequestIsAnsweredOnce
  intro c s t port kind args hb h hx
  obtain ⟨r, answers, rfl⟩ := request_answered hb h hx
  have links := answers.links
  refine ⟨⟨replyOf kind args r.2, by cases r.2 <;> rfl, answers.outReplies kind args⟩, ?_, fun n hn => ?_⟩
  · rw [(endEvent_links _ port).2, pushReply_eq, State.modPort_port]
    exact ((links port).rxBuffer).trans (by rw [dropFrame, State.modPort_port])
  · have link := links n
    rw [dropFrame, State.modPort_port_ne _ _ _ _ hn] at link
    rw [(endEvent_links _ n).1, (endEvent_links _ n).2, pushReply_eq, State.modPort_port_ne _ _ _ _ hn]
    exact ⟨by rw [Port.outReplies, link.line, link.replies, Port.outReplies], link.rxBuffer⟩

/-- Settles O7: an owning rule that refuses answers the state it was given, so the reply is all there is. -/
theorem refusedRequestChangesNothing : Obligations.RefusedRequestChangesNothing := by
  unfold Obligations.RefusedRequestChangesNothing
  intro c s t port kind args r code hb h hx hr hcode
  obtain ⟨⟨e, a⟩, answers, rfl⟩ := request_answered hb h hx
  have same : replyOf kind args a = r := by
    have := (answers.outReplies kind args).symm.trans hr
    simpa using this
  cases a with
  | accepted data held => simp [← same, replyOf] at hcode
  | refused code' =>
    obtain rfl : code' = code := by simpa [← same, replyOf] using hcode
    obtain rfl : e = dropFrame port s := answers.refused code' rfl
    refine ⟨same.symm, ?_⟩
    unfold Refuses
    rw [hb]
    refine ⟨_, hx, ?_⟩
    have quiet : (s.replied port ⟨kind, some code', subjectFields args, none⟩).evt = .empty := h.evt
    rw [pushReply_dropFrame]
    exact delivers_endEvent _ (by rw [quiet]; rfl) (by rw [quiet]; rfl)

end Sys2Proof.Machine
end

section
/-! SUPPORT. What the timers of a position bring about keeps the laws of set-points, bills, totals, room and grants: the pulse
and leak-check expiries, the meter update with its ramp step, and the close (R10, R19 to R28, R40 to R54, R126 to R136,
R153). -/

namespace Sys2Proof.Machine

variable {s t u : State}

theorem Owned.moves (h : Owned s t) (k : Moves t u) : Owned s u := h.trans k.owned

theorem Moves.posSteady (h : Moves s t) (p : PosId) : (t.pos p).steady = (s.pos p).steady := by
  induction h with
  | refl => rfl
  | tail _ k ih =>
    refine Eq.trans ?_ ih
    cases k
    case pos q x hx _ =>
      by_cases e : p = q
      · subst e
        rw [State.setPos_pos, hx]
      · rw [State.setPos_pos_ne _ _ _ _ e]
    case grant r g _ => cases r <;> rfl
    all_goals rfl

theorem Moves.cls (h : Moves s t) (p : PosId) : (t.pos p).cls = (s.pos p).cls := by
  have := congrArg Position.cls (h.posSteady p)
  exact this

/-- A record whose bill stands. -/
theorem owned_modRecord (p : PosId) (f : TxnRecord → TxnRecord) (hf : ∀ r : TxnRecord, r.billLaw → (f r).billLaw)
    (s : State) : Owned s (modRecord p f s) := by
  unfold modRecord
  split
  · exact .refl s
  next i _ =>
    split
    next r hr =>
      refine Keeps.owned (keeps_setSlot _ _ (fun hb => hf r ?_) fun k => by rw [hr] at k; cases k) rfl
      have old : (s.slot i).billLaw := hb.1 i
      rwa [hr] at old
    · exact .refl s

/-- A position that changes nothing of its authorization, state, class, target, set-point or ramp entries. -/
theorem owned_modPos_same (p : PosId) (f : Position → Position)
    (hc : ∀ x, (f x).cls = x.cls) (hg : ∀ x, (f x).ramp.startEntry = x.ramp.startEntry)
    (hu : ∀ x, (f x).ramp.inUse = x.ramp.inUse) (ht : ∀ x, (f x).ramp.pTarget = x.ramp.pTarget)
    (hp : ∀ x, (f x).ramp.pSet = x.ramp.pSet) (ha : ∀ x, (f x).authorization = x.authorization)
    (hs : ∀ x, (f x).state = x.state) (s : State) : Owned s (s.modPos p f) := by
  refine owned_modPos p f (fun h => ?_) (ha _) fun k => hs (s.pos p) ▸ k
  unfold setPointLaw at h ⊢
  rwa [hc, hg, hu, ht, hp]

/-! ### Pulse and leak check (R19 to R21) -/

theorem owned_pulseExpired (p : PosId) (k : ClassId) (s : State) : Owned s (pulseExpired p k s) := by
  unfold pulseExpired
  dsimp only
  generalize heldPressure (s.pos p) = v
  have taken : Owned s (s.modPos p (fun x => { x with phaseTimer := none, initialPressure := some v })) :=
    owned_modPos p _ id rfl id
  have noted := taken.trans (owned_modRecord p (fun r => { r with initialPressure := some v }) (fun _ h => h) _)
  refine owned_ite _ (noted.moves (moves_endFill p _ .refl)) (noted.moves (moves_fillState p (moves_sendValve p
    (moves_modChan p _ (moves_modPos p _ (moves_releaseBank p .refl) rfl fun h => nomatch h)))))

theorem pNom_le_pMax (k : ClassId) : (classRow k).pNom ≤ (classRow k).pMax := by revert k; decide

theorem commTarget_le (k : ClassId) (x : Int) : commTarget k x ≤ (classRow k).pMax := Nat.min_le_right ..

theorem entry_bound {x : Option RampEntry} {n : Nat} (h : ∀ e, x = some e → e.pnc ≤ n) :
    (x.map (·.pnc)).getD 0 ≤ n := by
  cases x with
  | none => exact Nat.zero_le n
  | some e => exact h e rfl

theorem fixTarget_setPointLaw {p : PosId} {k : ClassId} (hk : (s.pos p).cls = some k) (h : SetPointLaw s) :
    setPointLaw ((fixTarget p k s).pos p) := by
  obtain ⟨start, -, -, -⟩ := h.2 p k hk
  have inUse : ∀ e, (match s.rampEntry k (bandOf s.clock s.ambient) with
      | some e => some e
      | none => (s.pos p).ramp.startEntry) = some e → e.pnc ≤ (classRow k).pNom := by
    intro e he
    split at he
    next e' hr => exact Option.some.inj he ▸ h.1 k _ e' hr
    · exact start e he
  intro j hj
  rw [fixTarget, State.modPos_pos] at hj ⊢
  obtain rfl : k = j := Option.some.inj (hk.symm.trans hj)
  refine ⟨start, inUse, Nat.min_le_right .., ?_⟩
  dsimp only [Option.getD_some]
  split
  · exact commTarget_le k _
  · exact Nat.le_trans (entry_bound inUse) (pNom_le_pMax k)

theorem owned_fixTarget {p : PosId} {k : ClassId} (hk : (s.pos p).cls = some k) : Owned s (fixTarget p k s) := by
  refine Keeps.owned (keeps_modPos p _ (fun h => ?_) rfl id) rfl
  have := fixTarget_setPointLaw hk h
  rwa [fixTarget, State.modPos_pos] at this

theorem owned_rampEntryChecks (p : PosId) (s : State) : Owned s (rampEntryChecks p s) := by
  unfold rampEntryChecks
  split
  · exact .refl s
  next k hk =>
    refine owned_ite _ ((owned_fixTarget hk).moves (moves_endFill p _ .refl)) (owned_ite _ ?_
      ((owned_fixTarget hk).moves (moves_checksCD p .refl)))
    exact owned_ite _ ((owned_fixTarget hk).moves (moves_checksCD p (moves_fillAsks p .refl)))
      ((owned_fixTarget hk).moves (moves_enterHold p _ (moves_fillAsks p .refl)))

/-! ### The ramp step (R40 to R54) -/

theorem owned_consumeAt (p : PosId) (s : State) : Owned s (consumeAt p s) := by
  have same (g : RampGenerator) : g.consume.startEntry = g.startEntry ∧ g.consume.inUse = g.inUse ∧
      g.consume.pTarget = g.pTarget ∧ g.consume.pSet = g.pSet := by
    unfold RampGenerator.consume
    split <;> exact ⟨rfl, rfl, rfl, rfl⟩
  exact owned_modPos_same p (fun x => { x with ramp := x.ramp.consume }) (fun _ => rfl) (fun x => (same x.ramp).1) (fun x => (same x.ramp).2.1)
    (fun x => (same x.ramp).2.2.1) (fun x => (same x.ramp).2.2.2) (fun _ => rfl) (fun _ => rfl) s

/-- The position at a degrade: NONCOMM, its target that of the table, or the set-point above it (R52). -/
def Position.degraded (x : Position) : Position :=
  { x with
    mode := some .noncomm
    ramp := { x.ramp with
      degraded := true
      pTarget := some (if decide ((x.ramp.inUse.map (·.pnc)).getD 0 < x.ramp.pSet.getD 0) then x.ramp.pSet.getD 0
        else (x.ramp.inUse.map (·.pnc)).getD 0) } }

theorem Position.degraded_setPointLaw {x : Position} (h : setPointLaw x) : setPointLaw x.degraded := by
  intro k hk
  obtain ⟨start, inUse, low, high⟩ := h k hk
  refine ⟨start, inUse, ?_, ?_⟩ <;> simp only [Position.degraded, Option.getD_some]
  · split
    · exact Nat.le_refl _
    next hn => exact Nat.not_lt.1 fun c => hn (decide_eq_true c)
  · split
    · exact Nat.le_trans low high
    · exact Nat.le_trans (entry_bound inUse) (pNom_le_pMax k)

/-- A degrade is the position degraded, the mark in its record, the end of a fill above the new target, and the
notice (R52). -/
theorem degrade_eq (p : PosId) (s : State) :
    degrade p s = postDegraded p (if decide (((s.pos p).ramp.inUse.map (·.pnc)).getD 0 < (s.pos p).ramp.pSet.getD 0) then
      endFill p .targetReached (modRecord p (fun r => { r with flags := { r.flags with degraded := true } })
        (s.modPos p Position.degraded))
      else modRecord p (fun r => { r with flags := { r.flags with degraded := true } }) (s.modPos p Position.degraded)) :=
  rfl

theorem owned_degrade (p : PosId) (s : State) : Owned s (degrade p s) := by
  have degraded : Owned s (s.modPos p Position.degraded) :=
    owned_modPos p _ Position.degraded_setPointLaw rfl id
  have marked := degraded.trans (owned_modRecord p (fun r => { r with flags := { r.flags with degraded := true } })
    (fun _ h => h) _)
  rw [degrade_eq]
  exact (owned_ite _ (marked.moves (moves_endFill p _ .refl)) marked).trans (owned_postNotice ..)

theorem degrade_cls (p : PosId) (s : State) : ((degrade p s).pos p).cls = (s.pos p).cls := by
  have marked (u : State) : ((modRecord p (fun r => { r with flags := { r.flags with degraded := true } }) u).pos p).cls =
      (u.pos p).cls := by
    obtain ⟨w, hw⟩ := modRecord_eq p (fun r => { r with flags := { r.flags with degraded := true } }) u
    rw [hw]
    rfl
  have degraded : ((s.modPos p Position.degraded).pos p).cls = (s.pos p).cls := by rw [State.modPos_pos]; rfl
  have noticed (u : State) : ((postDegraded p u).pos p).cls = (u.pos p).cls :=
    (moves_postNotice _ _ _ (by decide) .refl : Moves u (postDegraded p u)).cls p
  rw [degrade_eq, noticed]
  split
  · rw [(moves_endFill p _ .refl).cls, marked, degraded]
  · rw [marked, degraded]

theorem moves_switchBank (p : PosId) (c : SegmentEnd) (s : State) : Moves s (switchBank p c s) := by
  unfold switchBank
  split
  · exact .refl
  next b _ =>
    have asked : Moves s _ := moves_drawRequest p .ramp
      (if ((releaseBank p (endSegment p c s)).bank b).state == .idle then some b else none)
      (moves_releaseBank p (moves_endSegment p c .refl))
    exact moves_ite _ asked (moves_enterHold p _ asked)

/-- R46: the new set-point is within the target that the old one was within. -/
theorem nextSetPoint_le {a b : Nat} (rate bank margin : Nat) (h : a ≤ b) : nextSetPoint a b rate bank margin ≤ b :=
  Nat.max_le.2 ⟨h, Nat.le_trans (Nat.min_le_left ..) (Nat.min_le_right ..)⟩

theorem owned_setPointStage (p : PosId) (k : ClassId) (b : BankId) (s : State) : Owned s (setPointStage p k b s) := by
  refine Owned.moves (owned_modPos p _ (fun h j hj => ?_) rfl id) (moves_sendValve p .refl)
  obtain ⟨start, inUse, low, high⟩ := h j hj
  exact ⟨start, inUse, nextSetPoint_le _ _ _ low, high⟩

theorem owned_switchStage (p : PosId) (k : ClassId) (b : BankId) (mass : Nat) (s : State) :
    Owned s (switchStage p k b mass s) := by
  have counted (n : Nat) : Owned s (s.modPos p (fun x => { x with ramp := { x.ramp with lowFlow := n } })) :=
    owned_modPos p _ id rfl id
  unfold switchStage
  exact owned_ite _ ((counted _).moves (moves_switchBank ..)) (owned_ite _ ((counted _).moves (moves_switchBank ..))
    ((counted _).trans (owned_setPointStage ..)))

theorem owned_stages3to5 (p : PosId) (k : ClassId) (b : BankId) (mass : Nat) (s : State) :
    Owned s (stages3to5 p k b mass s) :=
  owned_ite _ (moves_endFill p _ .refl).owned (owned_switchStage p k b mass s)

theorem owned_stages2to5 {p : PosId} {k : ClassId} (b : BankId) (mass : Nat) (hk : (s.pos p).cls = some k) :
    Owned s (stages2to5 p k b mass s) := by
  unfold stages2to5
  dsimp only
  split
  next r _ _ =>
    have raised : Owned s (s.modPos p (fun x =>
        { x with ramp := { x.ramp with pTarget := some (max (commTarget k r.temperature) ((s.pos p).ramp.pSet.getD 0)) } })) := by
      refine owned_modPos p _ (fun h j hj => ?_) rfl id
      obtain rfl : k = j := Option.some.inj (hk.symm.trans hj)
      obtain ⟨start, inUse, low, high⟩ := h k hj
      exact ⟨start, inUse, Nat.le_max_right .., Nat.max_le.2 ⟨commTarget_le k _, Nat.le_trans low high⟩⟩
    exact owned_ite _ (raised.moves (moves_endFill p _ .refl)) (raised.trans (owned_stages3to5 ..))
  · exact owned_stages3to5 ..

theorem consumeAt_cls (p : PosId) (s : State) : ((consumeAt p s).pos p).cls = (s.pos p).cls := by
  rw [consumeAt, State.modPos_pos]

theorem owned_rampStep {p : PosId} {k : ClassId} (b : BankId) (mass : Nat) (hk : (s.pos p).cls = some k) :
    Owned s (rampStep p k b mass s) := by
  have consumed := owned_consumeAt p s
  have hc : ((consumeAt p s).pos p).cls = some k := (consumeAt_cls p s).trans hk
  unfold rampStep
  dsimp only
  split
  · exact consumed.moves (moves_endFill p _ .refl)
  · have hd : ((degrade p (consumeAt p s)).pos p).cls = some k := (degrade_cls p _).trans hc
    exact consumed.trans ((owned_degrade p _).trans (owned_ite _ (owned_stages2to5 b mass hd) (.refl _)))
  · exact consumed.moves (moves_holdFromRamp p _ .refl)
  · exact consumed.trans (owned_stages2to5 b mass hc)
  · exact consumed.trans (owned_stages2to5 b mass hc)

theorem owned_vehicleUpdate (p : PosId) (s : State) : Owned s (vehicleUpdate p s) := by
  have consumed := owned_consumeAt p s
  unfold vehicleUpdate
  dsimp only
  split
  · exact consumed.moves (moves_endFill p _ .refl)
  · exact consumed.trans ((owned_degrade p _).trans (owned_ite _ (moves_checksCD p .refl).owned (.refl _)))
  · exact consumed.moves (moves_checksCD p .refl)
  · exact consumed
  · exact consumed

/-! ### The meter update (R126 to R136) -/

theorem TxnRecord.update_billLaw (r : TxnRecord) (mass : Nat) : (r.update mass).billLaw := by
  unfold TxnRecord.update
  exact ⟨rfl, rfl⟩

theorem owned_meterTake (p : PosId) (s : State) : Owned s (meterTake p s) := by
  have taken : Owned s (s.modChan p (fun c => c.take (s.cal p))) := (moves_modChan p _ .refl).owned
  exact owned_ite _ (taken.trans (owned_modRecord p
    (fun r => { r with flags := { r.flags with saturated := true } }) (fun _ h => h) _)) taken

theorem owned_tellCreep (p : PosId) (s : State) : Owned s (tellCreep p s) :=
  owned_ite _ (Owned.trans (moves_modChan p _ .refl).owned (owned_modRecord p
    (fun r => { r with flags := { r.flags with creep := true } }) (fun _ h => h) _)) (.refl s)

theorem owned_creepTest (p : PosId) (x : PosState) (s : State) : Owned s (creepTest p x s) := by
  unfold creepTest
  split
  · exact owned_ite _ (moves_endFill p _ .refl).owned (.refl s)
  · exact owned_tellCreep p s
  · exact owned_tellCreep p s
  · exact .refl s

theorem owned_meterFaults (p : PosId) (c : Channel) (s : State) : Owned s (meterFaults p c s) := by
  have ended (why : EndReason) (u : State) (b : Bool) : Owned u (if b then endFill p why u else u) :=
    owned_ite _ (moves_endFill p _ .refl).owned (.refl u)
  unfold meterFaults
  exact (((ended _ s _).trans (ended _ _ _)).trans (owned_creepTest p _ _)).trans (ended _ _ _)

theorem owned_meterBill (p : PosId) (s : State) : Owned s (meterBill p s) := by
  have billed : Owned s (modRecord p (fun r => r.update (s.chan p).mass) s) :=
    owned_modRecord p _ (fun r _ => r.update_billLaw _) s
  exact owned_ite _ (billed.moves (moves_endFill p _ .refl)) billed

theorem moves_setDrawn (p : PosId) (s : State) : Moves s (setDrawn p s) := by
  unfold setDrawn
  split
  · exact moves_ite _ (moves_modBank _ _ .refl) .refl
  · exact .refl

theorem owned_setPrevious (p : PosId) (s : State) : Owned s (setPrevious p s) := owned_modPos p _ id rfl id

theorem owned_meterComplete (p : PosId) (s : State) : Owned s (meterComplete p s) := by
  have drawn := (moves_setDrawn p s).owned
  unfold meterComplete
  dsimp only
  refine Owned.trans ?_ (owned_setPrevious p _)
  split
  next hk => exact drawn.trans (owned_rampStep _ _ hk)
  · exact drawn.trans (owned_vehicleUpdate p _)
  · exact drawn

theorem owned_meterUpdate (p : PosId) (s : State) : Owned s (meterUpdate p s) := by
  have crossed (n : Nat) (u : State) : Owned u (meterCross p n u) :=
    owned_ite _ (moves_checkpoint p .refl).owned (.refl u)
  unfold meterUpdate
  exact ((((owned_meterTake p s).trans (owned_meterFaults p _ _)).trans (owned_meterBill p _)).trans (crossed _ _)).trans
    (owned_meterComplete p _)

/-! ### The close (R28, R135, R153) -/

theorem owned_closingUpdate (p : PosId) (s : State) : Owned s (closingUpdate p s) := by
  unfold closingUpdate
  exact (((((owned_meterTake p s).trans (owned_tellCreep p _)).trans
    (owned_modRecord p _ (fun r _ => r.update_billLaw _) _))).trans (owned_setPrevious p _)).moves (moves_modChan p _ .refl)

/-- A sum in which one entry takes an addition, modulo the range of the totals. -/
theorem sum_addTotal {n : Nat} (v : Vector Nat n) (i : Fin n) (m g : Nat)
    (h : v.toList.sum % 1000000000000 = g) :
    (v.set i (addTotal v[i] m)).toList.sum % 1000000000000 = addTotal g m := by
  have replaced : (v.set i (addTotal v[i] m)).toList.sum + v[i] = v.toList.sum + addTotal v[i] m := by
    have hi : i.val < v.toList.length := by simp
    have new := List.sum_set v.toList i.val (addTotal v[i] m)
    have old := List.sum_set v.toList i.val v.toList[i.val]
    rw [List.set_getElem_self] at old
    rw [if_pos hi] at new old
    rw [Vector.toList_set, new, old]
    simp only [Vector.getElem_toList, Fin.getElem_fin]
    omega
  unfold addTotal at replaced ⊢
  omega

theorem Totals.add_law {x : Totals} (h : x.law) (r : TxnRecord) : (x.add r).law :=
  ⟨sum_addTotal _ r.pos _ _ h.1, sum_addTotal _ r.cls _ _ h.2.1, sum_addTotal _ r.cls _ _ h.2.2⟩

theorem keeps_closeSlot (i : SlotId) (r : TxnRecord) (hb : BillLaw s → r.billLaw) (hf : isFree (s.slot i) = false) :
    Keeps s (closeSlot i r s) := by
  have closed : Keeps s (s.setSlot i (.txn r)) := keeps_setSlot i _ hb fun k => by rw [hf] at k; cases k
  have added : Keeps (s.setSlot i (.txn r))
      { s.setSlot i (.txn r) with work := { (s.setSlot i (.txn r)).work with totals := s.work.totals.add r } } :=
    ⟨id, id, fun h => ⟨Totals.add_law h.1 r, h.2⟩, fun h => ⟨h.room, h.reserved⟩, id⟩
  refine (closed.trans added).trans (keeps_issue _ fun w hw => ?_)
  rcases List.mem_cons.1 hw with rfl | hw
  · refine ⟨fun h => ?_, fun _ => trivial⟩
    have : ((s.setSlot i (.txn r)).slot i).billLaw := h.1 i
    rwa [State.setSlot_slot] at this
  · rw [List.mem_singleton.1 hw]
    exact ⟨fun _ => trivial, fun h => h.1⟩

theorem owned_closeTransaction (p : PosId) (s : State) : Owned s (closeTransaction p s) := by
  unfold closeTransaction
  split
  · exact .refl s
  next i _ =>
    split
    · exact .refl s
    next r hr =>
      refine Keeps.owned (keeps_closeSlot i _ (fun h => ?_) (by rw [hr]; rfl)) rfl
      have : (s.slot i).billLaw := h.1 i
      rwa [hr] at this

/-- The state a closed fill goes to, by its close flag and its nozzle (R28). -/
def closedState (x : Position) : PosState :=
  if x.closePending == some .linkLost then .unavailable else if x.nozzle == .off then .idle else .finished

/-- A closed position but for its FILL_STATE (R28). -/
def Position.closed (next : PosState) (x : Position) : Position :=
  { x with
    state := next, periodTimer := none, phaseTimer := none, authorization := none
    ramp := { x.ramp with startEntry := none } }

/-- What follows the close of the transaction (R28). -/
def leaveFill (p : PosId) (next : PosState) (tag : Tag) (s : State) : State :=
  let s := postFillState p tag (s.modPos p (Position.closed next))
  if next == .unavailable then makeUnavailable p s else s

theorem closeFill_eq (p : PosId) (s : State) :
    closeFill p s = leaveFill p (closedState ((closeTransaction p (closingUpdate p s)).pos p))
      ((closeTransaction p (closingUpdate p s)).pos p).tag (closeTransaction p (closingUpdate p s)) := rfl

theorem beforeStart_closedState (x : Position) : beforeStart (closedState x) = false := by
  unfold closedState
  split
  · rfl
  · split <;> rfl

theorem owned_leaveFill (p : PosId) {next : PosState} (tag : Tag) (h : beforeStart next = false) (s : State) :
    Owned s (leaveFill p next tag s) := by
  have left : Owned s (s.modPos p (Position.closed next)) := by
    refine Keeps.owned (keeps_setPos p _ (fun h k hk => ?_) (fun h => nomatch h) fun k => by
      rw [Position.closed, h] at k; cases k) rfl
    obtain ⟨-, inUse, low, high⟩ := h.2 p k hk
    exact ⟨fun _ h => (nomatch h), inUse, low, high⟩
  have told := left.moves (moves_postFillState p tag .refl)
  exact owned_ite _ (told.trans (owned_makeUnavailable p _)) told

theorem owned_closeFill (p : PosId) (s : State) : Owned s (closeFill p s) := by
  rw [closeFill_eq]
  exact ((owned_closingUpdate p s).trans (owned_closeTransaction p _)).trans
    (owned_leaveFill p _ (beforeStart_closedState _) _)

end Sys2Proof.Machine
end

section
/-! SUPPORT. Every effect of an event keeps the laws of set-points, bills, totals, room and grants, and the contents stored,
the calibration, the clock, the latch and the time of day (chapters 01 to 11). -/

namespace Sys2Proof.Machine

variable {s t u : State}

/-! ### Teardown of a port (R165 to R167) -/

theorem owned_permuted {α : Type} (l : List α) (s : State) : Owned s (s.permute l).1 :=
  owned_same rfl rfl rfl rfl rfl rfl rfl

theorem owned_takeActions (actions : List LossAction) (f : State → LossAction → State) (hf : ∀ s a, Owned s (f s a))
    (s : State) : Owned s (takeActions actions f s) :=
  (owned_permuted actions s).trans (owned_foldl _ f hf _)

theorem owned_islandLossAt (p : PosId) (s : State) : Owned s (islandLossAt p s) := by
  have marked : Owned s (s.modPos p (fun x => { x with closePending := some .linkLost })) := owned_modPos p _ id rfl id
  have ended := marked.moves (moves_endFill p .linkLost .refl)
  unfold islandLossAt
  cases (s.pos p).state
  case pulse | leakCheck | ramp | hold => exact ended
  case ending => exact marked
  case waitNozzle | ready => exact owned_removed_unavailable p _ s
  case idle | waitAuth | finished => exact owned_makeUnavailable p s
  case unavailable => exact .refl s

theorem owned_islandLossAction (port : PortId) (s : State) (a : LossAction) : Owned s (islandLossAction port s a) := by
  cases a
  case position p => exact owned_islandLossAt p s
  case lanes => exact owned_foldl _ _ (fun s l => owned_ite _ (moves_setIslandEnable l _ .refl).owned (.refl s)) s
  case cooling | refill | banks => exact .refl s

/-- Shedding brings the grants within any capacity. -/
theorem shed_cooling (h : Listed s) : CoolingLaw (shed s) :=
  (shedTable_moves_shed s).keeps.cooling (shedTable_cooling h)

theorem Move.listed (h : Move s t) (k : Listed s) : Listed t := by
  cases h
  case grant r g _ => exact setGrant_order r g s k
  all_goals exact k

/-- The capacity gone, and the shedding where there is a grant (R121). -/
theorem owned_capacityGone (h : Moves (setCapacity 0 false s) t) :
    Owned s (if 0 < t.sumGrants then shed t else t) := by
  have moved := moves_ite (0 < t.sumGrants) (moves_shed h) h
  refine Keeps.owned_moves (t := setCapacity 0 false s) ⟨moved.keeps.setPoint, moved.keeps.bill, moved.keeps.totals,
    fun k => moved.keeps.room ⟨k.room, k.reserved⟩, fun k => ?_⟩ rfl rfl moved
  have listed : Listed t := h.keep (P := Listed) (fun _ _ m => m.listed) k.2
  split
  · exact shed_cooling listed
  next hn => exact ⟨Nat.le_trans (Nat.not_lt.1 hn) (Nat.zero_le _), listed⟩

theorem owned_capacityLost (s : State) : Owned s (capacityLost s) :=
  owned_capacityGone (moves_ite _ (moves_budgetChanged _ .refl) .refl)

theorem moves_compressorLost (s : State) (c : CompId) : Moves s (compressorLost s c) := by
  unfold compressorLost
  split
  · exact moves_withdrawRefill c _ _ _ .refl
  · exact moves_leaveCoolingWait c _ _ .refl
  · exact moves_postCompState c _ (moves_modComp c _ .refl)
  · exact .refl

theorem moves_lockStale (s : State) (b : BankId) : Moves s (lockStale s b) := by
  have marked : Moves s (s.modBank b (fun x => { x with causes := { x.causes with stale := true } })) :=
    moves_modBank b _ .refl
  have vacated := moves_vacateBank b .locked marked
  unfold lockStale
  dsimp only
  split
  · exact .refl
  · exact moves_ite _ .refl (moves_postBankState b marked)
  · exact vacated
  · exact vacated
  · exact vacated

theorem moves_banksLinkLost (s : State) : Moves s (banksLinkLost s) :=
  (moves_foldl _ _ moves_lockStale s).trans (moves_foldl _ _ (fun _ b => moves_ite _ (moves_tellBankLeft b _ .refl) .refl) _)

theorem owned_plantLossAction (s : State) (a : LossAction) : Owned s (plantLossAction s a) := by
  cases a
  case position p => exact (moves_endFill p _ .refl).owned
  case lanes => exact (moves_foldl _ _ (fun _ l => moves_setPlantEnable l _ .refl) s).owned
  case cooling => exact owned_capacityLost s
  case refill => exact (moves_foldl _ _ moves_compressorLost s).owned
  case banks => exact (moves_banksLinkLost s).owned

theorem owned_teardown (port : PortId) (s : State) : Owned s (teardown port s) := by
  unfold teardown
  split
  · exact owned_takeActions _ _ (owned_islandLossAction port) s
  · exact (owned_same rfl rfl rfl rfl rfl rfl rfl : Owned s (budgetCause .plantLost (plantLossBegins s))).trans
      (owned_takeActions _ _ owned_plantLossAction _)
  · exact .refl s

/-! ### The ESD latch (R29, R89, R120, R159) -/

theorem moves_compressorEsd (s : State) (c : CompId) : Moves s (compressorEsd s c) := by
  unfold compressorEsd
  split
  · exact moves_withdrawRefill c _ _ _ .refl
  · exact moves_leaveCoolingWait c _ _ .refl
  · exact .refl
  · exact .refl

theorem moves_compressorGrantsGone (s : State) : Moves s (compressorGrantsGone s) :=
  moves_foldl _ _ (fun _ c => moves_ite _ .refl (moves_setGrant_zero (.comp c) (moves_budgetChanged _ .refl))) s

theorem owned_esdAction (s : State) (a : LossAction) : Owned s (esdAction s a) := by
  cases a
  case position p =>
    change Owned s (esdAt p s)
    unfold esdAt
    split
    · exact owned_loseAuthorization p _ s
    · exact owned_loseAuthorization p _ s
    · exact (moves_endFill p _ .refl).owned
  case refill => exact (moves_foldl _ _ moves_compressorEsd s).owned
  case cooling => exact (moves_compressorGrantsGone s).owned
  case lanes | banks => exact .refl s

theorem owned_setEsd (s : State) : Owned (setLatch true .edge s) (setEsd s) :=
  ((owned_postNotice ..).trans (moves_evt _ .refl).owned).trans (owned_takeActions _ _ owned_esdAction _)

/-! ### Lanes and banks (R64, R97, R98, R103) -/

theorem moves_bankStale (b : BankId) (s : State) : Moves s (bankStale b s) := by
  unfold bankStale
  exact moves_ite _ (moves_modBank b _ .refl) (moves_causesGrown b (moves_modBank b _ .refl))

theorem moves_tellWarm (l : LaneId) (m : ClassSet) (s : State) (p : PosId) : Moves s (tellWarm l m s p) := by
  have held := moves_enterHold p .laneWarm (moves_drawList (s.drawList.filter (fun w => w.pos != p)) (.refl (a := s)))
  unfold tellWarm
  dsimp only
  refine moves_ite _ ?_ .refl
  split
  · exact moves_holdFromRamp p _ .refl
  · exact held
  · exact held
  · exact .refl

theorem moves_warmExpired (l : LaneId) (s : State) : Moves s (warmExpired l s) := by
  have marked : Moves s (s.modLane l (fun x => { x with warmTimer := none, warmHold := x.warmHold ||| warmClasses s l })) :=
    moves_modLane l _ .refl
  unfold warmExpired
  exact moves_ite _ marked (moves_warmTest l (moves_postLaneState l _
    (marked.trans (moves_foldl _ _ (moves_tellWarm l _) _))))

/-! ### Every effect -/

/-- A change that keeps the laws and what few commands change. -/
structure Stands (s t : State) : Prop where
  keeps : Keeps s t
  fixed : t.fixed = s.fixed

theorem Stands.refl (s : State) : Stands s s := ⟨.refl s, rfl⟩

theorem Stands.trans (h : Stands s t) (k : Stands t u) : Stands s u := ⟨h.keeps.trans k.keeps, k.fixed.trans h.fixed⟩

theorem Owned.stands (h : Owned s t) : Stands s t := ⟨h.keeps, h.fixed⟩

theorem Moves.stands (h : Moves s t) : Stands s t := h.owned.stands

theorem stands_ite (c : Prop) [Decidable c] (ht : Stands s t) (hu : Stands s u) : Stands s (if c then t else u) := by
  split
  · exact ht
  · exact hu

theorem stands_modPort (n : PortId) (f : Port → Port) (s : State) : Stands s (s.modPort n f) :=
  ⟨keeps_same rfl rfl rfl rfl rfl rfl, rfl⟩

theorem stands_intervalExpired (port : PortId) (s : State) : Stands s (intervalExpired port s) := by
  have told (f : Port → Port) (k : NoticeKind) : Stands s (postPortNotice k port (s.modPort port f)) :=
    (stands_modPort port f s).trans (owned_postNotice ..).stands
  unfold intervalExpired
  exact stands_ite _ (told _ _) ((told _ _).trans (owned_teardown port _).stands)

theorem stands_goodFrame (port : PortId) (body : List Byte) (s : State) : Stands s (goodFrame port body s) := by
  unfold goodFrame
  dsimp only
  have refreshed (f : Port → Port) (c : Bool) : Stands s (if c then postPortNotice .portAlive port (s.modPort port f)
      else s.modPort port f) :=
    stands_ite _ ((stands_modPort port f s).trans (owned_postNotice ..).stands) (stands_modPort port f s)
  exact (refreshed _ _).trans (stands_modPort port _ _)

/-- Every effect of an event keeps the laws, and what few commands change. -/
theorem effectOf_stands {c : Instr} {f : State → State} (hc : effectOf c = some f) (s : State) : Stands s (f s) := by
  cases c
  all_goals simp only [effectOf, reduceCtorEq, Option.some.injEq] at hc
  all_goals subst hc
  case goodFrame => exact stands_goodFrame _ _ s
  case badCheckFrame | frameGap | frameSent | syncByte => exact stands_modPort _ _ s
  case badLengthFragment => exact stands_ite _ (stands_modPort _ _ s) (.refl s)
  case authorizationLifeExpiry p => exact stands_ite _ (owned_loseAuthorization p _ s).stands (.refl s)
  case pulseExpiry p =>
    dsimp only
    split
    · exact stands_ite _ (owned_pulseExpired p _ s).stands (.refl s)
    · exact .refl s
  case leakCheckExpiry p =>
    have stopped : Owned s (s.modPos p (fun x => { x with phaseTimer := none })) := owned_modPos p _ id rfl id
    exact stands_ite _ (stands_ite _ (stopped.moves (moves_endFill p _ .refl)).stands
      (stopped.trans (owned_rampEntryChecks p _)).stands) (.refl s)
  case holdLimitExpiry p => exact stands_ite _ (moves_endFill p _ .refl).stands (.refl s)
  case settleExpiry p => exact stands_ite _ (owned_closeFill p s).stands (.refl s)
  case periodExpiry p =>
    have restarted : Owned s (s.modPos p (fun x => { x with periodTimer := some 1000 })) := owned_modPos p _ id rfl id
    exact stands_ite _ (restarted.trans (owned_meterUpdate p _)).stands (.refl s)
  case sensorStaleWatchExpiry p => exact stands_ite _ (moves_endFill p _ .refl).stands (.refl s)
  case bankStaleWatchExpiry b => exact stands_ite _ (moves_bankStale b s).stands (.refl s)
  case pullDownTimerExpiry l =>
    exact stands_ite _ (moves_postLaneState l _ (moves_modLane l _ .refl)).stands (.refl s)
  case laneStaleWatchExpiry l =>
    exact stands_ite _ (moves_laneLeavesReady l _ _ (moves_modLane l _ .refl)).stands (.refl s)
  case warmTimerExpiry l => exact stands_ite _ (moves_warmExpired l s).stands (.refl s)
  case settleGateTimerExpiry p => exact stands_ite _ (moves_modChan p _ .refl).stands (.refl s)
  case intervalTimerExpiry port => exact stands_ite _ (stands_intervalExpired port s) (.refl s)

end Sys2Proof.Machine
end

section
/-! SUPPORT. Every step keeps the laws of set-points and of the books, and which commands change what they alone may
change (R33 to R39, R137, R139, R144 to R157, R158 to R160, R179 to R184). -/

namespace Sys2Proof.Machine

variable {s t u : State}

/-! ### Taking and ending -/

theorem stands_transmitAll (s : State) : Stands s (transmitAll s) := by
  have each (l : List PortId) (s : State) : Stands s (l.foldl (fun s n => s.modPort n (fun x => x.transmit s.clock)) s) := by
    induction l generalizing s with
    | nil => exact .refl s
    | cons n l ih => exact (stands_modPort n _ s).trans (ih _)
  exact stands_ite _ (each _ s) (.refl s)

theorem stands_endEvent (s : State) : Stands s (endEvent s) := by
  have posted := ((postWaitNotices_owned s).trans (postCoolingState_owned _)).stands
  have cleared (u : State) : Stands u { u with evt := .empty } := ⟨keeps_same rfl rfl rfl rfl rfl rfl, rfl⟩
  unfold endEvent
  exact (posted.trans (stands_ite _ (.refl _) (stands_transmitAll _))).trans (cleared _)

theorem stands_takeEvent (f : State → State) (hf : Stands s (f s)) : Stands s (takeEvent f s) :=
  stands_ite _ (hf.trans (stands_endEvent _)) (.refl s)

/-- A request keeps the laws. -/
theorem keeps_takeRequest (c : Instr) (port : PortId) (kind : Byte) (args : List Byte) (s : State) :
    Keeps s (takeRequest kind port args (ownerOf c) s) := by
  have ended (a : Answer) (u : State) : Keeps u (endEvent (pushReply port kind args a u)) := by
    rw [pushReply_eq]
    exact ((stands_modPort port _ u).trans (stands_endEvent _)).keeps
  have dropped : Keeps s (dropFrame port s) := (stands_modPort port _ s).keeps
  unfold takeRequest
  split
  · dsimp only
    split
    · exact dropped.trans (ended _ _)
    · exact (dropped.trans (ownerOf_answered c _).keeps).trans (ended _ _)
  · exact .refl s

/-! ### The store (R180) -/

theorem slots_apply (d : StoreData) (w : RecWrite) (h : ∀ i : SlotId, (d.slots[i]).billLaw) (hw : w.billLaw) (i : SlotId) :
    ((d.apply w).slots[i]).billLaw := by
  cases w
  case slot j x =>
    by_cases e : j.val = i.val
    · have : x.billLaw := hw
      simpa [StoreData.apply, e] using this
    · simpa [StoreData.apply, Vector.getElem_set, e] using h i
  all_goals exact h i

theorem slots_applied (ws : List RecWrite) (d : StoreData) (h : ∀ i : SlotId, (d.slots[i]).billLaw)
    (hw : ∀ w ∈ ws, w.billLaw) (i : SlotId) : ((ws.foldl StoreData.apply d).slots[i]).billLaw := by
  induction ws generalizing d with
  | nil => exact h i
  | cons w ws ih =>
    exact ih _ (slots_apply d w h (hw w List.mem_cons_self)) fun v hv => hw v (List.mem_cons_of_mem _ hv)

theorem totals_applied (ws : List RecWrite) (d : StoreData) (h : d.totals.law ∧ d.snapshot.totals.law)
    (hw : ∀ w ∈ ws, w.totalsLaw) :
    (ws.foldl StoreData.apply d).totals.law ∧ (ws.foldl StoreData.apply d).snapshot.totals.law := by
  induction ws generalizing d with
  | nil => exact h
  | cons w ws ih =>
    refine ih _ ?_ fun v hv => hw v (List.mem_cons_of_mem _ hv)
    have lawful := hw w List.mem_cons_self
    cases w
    case totals => exact ⟨lawful, h.2⟩
    case snapshot => exact ⟨h.1, lawful⟩
    all_goals exact h

theorem keeps_completeGroup (r : RecId) (s : State) : Keeps s (completeGroup r s) := by
  cases hg : s.groups.find? (fun g => g.holds r) with
  | none =>
    unfold completeGroup
    rw [hg]
    exact .refl s
  | some g =>
    have mem := List.mem_of_find?_eq_some hg
    rw [completeGroup_some hg]
    refine ⟨id, fun h => ⟨h.1, slots_applied _ _ h.2.1 (h.2.2 g mem), fun k hk => h.2.2 k (List.mem_of_mem_filter hk)⟩,
      fun h => ?_, fun h => ⟨h.room, h.reserved⟩, id⟩
    obtain ⟨work, store, snapshot, stored, flight⟩ := h
    have applied := totals_applied g.writes s.store ⟨store, stored⟩ (flight g mem)
    exact ⟨work, applied.1, snapshot, applied.2, fun k hk => flight k (List.mem_of_mem_filter hk)⟩

/-! ### Power, reset and start-up (R182 to R184) -/

theorem volatileReset_setPoint (s : State) : SetPointLaw s.volatileReset := by
  constructor
  · intro k b e he
    simp [State.rampEntry, State.volatileReset] at he
  · intro p k hk
    simp [State.pos, State.volatileReset, Position.initial] at hk

theorem volatileReset_cooling (s : State) : CoolingLaw s.volatileReset := by
  have none (r : Requester) : (s.volatileReset.grantOf r).grant = 0 := by
    cases r <;> simp [State.grantOf, State.volatileReset, Cooling.initial, GrantEntry.initial]
  refine ⟨?_, fun r hr => absurd (none r) hr⟩
  simp [State.sumGrants, none]

/-- Without authorizations the records alone are within the slots. -/
theorem volatileReset_room (s : State) (w : StoreData) : RoomLaw { s.volatileReset with work := w } := by
  have initial (p : PosId) : State.pos { s.volatileReset with work := w } p = .initial := by
    simp [State.pos, State.volatileReset]
  refine ⟨?_, fun p hp => ?_⟩
  · have few : State.records { s.volatileReset with work := w } ≤ 64 := List.length_filter_le ..
    have none : State.reservations { s.volatileReset with work := w } = 0 := by
      simp [State.reservations, initial, Position.initial]
    omega
  · rw [initial] at hp
    rcases hp with hp | hp <;> cases hp

/-- The state of a stopped or starting part: volatile items reset, working copies taken. -/
theorem keeps_restarted (w : StoreData) (hb : BillLaw s → ∀ i : SlotId, (w.slots[i]).billLaw)
    (ht : TotalsLaw s → w.totals.law ∧ w.snapshot.totals.law) : Keeps s { s.volatileReset with work := w } where
  setPoint _ := volatileReset_setPoint s
  cooling _ := volatileReset_cooling s
  room _ := volatileReset_room s w
  bill h := ⟨hb h, h.2⟩
  totals h := ⟨(ht h).1, h.2.1, (ht h).2, h.2.2.2⟩

theorem owned_recoverSlot (s : State) (i : SlotId) : Owned s (recoverSlot i s) := by
  unfold recoverSlot
  split
  · exact .refl s
  next r hr =>
    exact (Keeps.owned (keeps_closeSlot i _ (fun _ => ⟨rfl, rfl⟩) (by rw [hr]; rfl)) rfl).trans (owned_postNotice ..)

theorem keeps_startUpStages (s : State) : Keeps s (startUpStages s) := by
  have restarted : Keeps s { s.volatileReset with work := s.store } :=
    keeps_restarted s.store (fun h => h.2.1) fun h => ⟨h.2.1, h.2.2.2.1⟩
  have recovered := restarted.trans (owned_foldl (openSlots s.store) _ owned_recoverSlot _).keeps
  have written (u : State) : Keeps u (writeCause u) := by
    unfold writeCause
    refine Keeps.trans (keeps_work _ ?_ ?_ ?_) (keeps_issue _ fun w hw => ?_)
    iterate 3 rfl
    rw [List.mem_singleton.1 hw]
    exact ⟨fun _ => trivial, fun _ => trivial⟩
  have read (u : State) : Keeps u (readLines u) := by
    have rated : Keeps u { u with rate := u.pins.rate } := keeps_same rfl rfl rfl rfl rfl rfl
    unfold readLines
    dsimp only
    split
    · exact rated.trans (keeps_same rfl rfl rfl rfl rfl rfl)
    · have latched (v : State) : Keeps v (postEsd (setLatch true .startLow v)) :=
        Keeps.trans (keeps_same rfl rfl rfl rfl rfl rfl : Keeps v (setLatch true .startLow v)) (owned_postNotice ..).keeps
      exact rated.trans (latched _)
  have served (u : State) (x : Phase) : Keeps u { u with phase := x } := keeps_same rfl rfl rfl rfl rfl rfl
  exact ((recovered.trans (written _)).trans (read _)).trans (served _ _)

/-- Every special event keeps the laws. -/
theorem keeps_special {c : Instr} (hc : isSpecial c = true) (h : exec c s = .next t) : Keeps s t := by
  have same (u : State) (h1 : u.positions = s.positions) (h2 : u.rampTable = s.rampTable) (h3 : u.work = s.work)
    (h4 : u.store = s.store) (h5 : u.groups = s.groups) (h6 : u.cooling = s.cooling) : Keeps s u :=
    keeps_same h1 h2 h3 h4 h5 h6
  cases c
  all_goals simp only [isSpecial, Bool.false_eq_true] at hc
  all_goals obtain rfl := Host.Outcome.next.inj h
  case oneSecondTimerExpiry =>
    have ticked : Keeps s { s with oneSecond := some 1000, tod := s.tod.tick } := same _ rfl rfl rfl rfl rfl rfl
    split
    · dsimp only
      split
      · exact ticked.trans (stands_endEvent _).keeps
      · exact ticked
    · exact .refl s
  case writeGroupCompletion r =>
    split
    · exact .refl s
    · split
      · exact (keeps_completeGroup r s).trans (stands_endEvent _).keeps
      · exact keeps_completeGroup r s
  case pulseEdge p =>
    have edge : Keeps s (s.modChan p (fun c => c.edge s.clock)) := same _ rfl rfl rfl rfl rfl rfl
    split
    · exact edge.trans (stands_endEvent _).keeps
    · exact edge
    · exact edge
    · exact .refl s
    · exact .refl s
  case esdNFallingEdge =>
    have low : Keeps s { s with pins := { s.pins with esdN := false } } := same _ rfl rfl rfl rfl rfl rfl
    have latched (u : State) : Keeps u (setLatch true .edge u) := keeps_same rfl rfl rfl rfl rfl rfl
    dsimp only [takeEvent]
    split
    · refine low.trans (Keeps.trans ?_ (stands_endEvent _).keeps)
      split
      · exact .refl _
      · exact (latched _).trans (owned_setEsd _).keeps
    · exact low
  case powerApplied =>
    dsimp only
    split
    · have := keeps_restarted (s := s) s.work (fun h => h.1) fun h => ⟨h.1, h.2.2.1⟩
      exact this.trans (keeps_same rfl rfl rfl rfl rfl rfl)
    · exact .refl s
  case powerLoss =>
    dsimp only
    split
    · exact .refl s
    · have := keeps_restarted (s := s) s.store (fun h => h.2.1) fun h => ⟨h.2.1, h.2.2.2.1⟩
      exact ⟨fun h => this.setPoint h, fun h => ⟨h.2.1, h.2.1, fun _ h => nomatch h⟩,
        fun h => ⟨h.2.1, h.2.1, h.2.2.2.1, h.2.2.2.1, fun _ h => nomatch h⟩,
        fun h => ⟨(this.room h).room, (this.room h).reserved⟩, this.cooling⟩
  case startUpSequence =>
    split
    · exact keeps_startUpStages s
    · exact .refl s
  case startUpServe =>
    split
    · exact same _ rfl rfl rfl rfl rfl rfl
    · exact .refl s
  all_goals exact same _ rfl rfl rfl rfl rfl rfl

/-- Every command that answers a next state keeps the laws. -/
theorem exec_keeps {c : Instr} (h : exec c s = .next t) : Keeps s t := by
  rcases command_cases c with ⟨port, kind, args, hb⟩ | ⟨f, hf⟩ | hc
  · rw [exec_request hb] at h
    split at h
    · cases h
    · exact Host.Outcome.next.inj h ▸ keeps_takeRequest c port kind args s
  · rw [exec_effect hf] at h
    exact Host.Outcome.next.inj h ▸ (stands_takeEvent f (effectOf_stands hf s)).keeps
  · exact keeps_special hc h

/-! ### The idle step -/

theorem Position.tick_setPointLaw {x : Position} (h : setPointLaw x) : setPointLaw x.tick := h

theorem keeps_tickBlocks (s : State) : Keeps s s.tickBlocks := by
  have pos (p : PosId) : s.tickBlocks.pos p = (s.pos p).tick := by simp [State.pos, State.tickBlocks]
  refine ⟨fun h => ⟨h.1, fun p => ?_⟩, id, id, fun h => ⟨?_, fun p hp => ?_⟩, id⟩
  · rw [pos]
    exact Position.tick_setPointLaw (h.2 p)
  · have same : s.tickBlocks.reservations = s.reservations := by
      unfold State.reservations
      simp only [pos, Position.tick]
    rw [same]
    exact h.room
  · rw [pos] at hp ⊢
    exact h.reserved p hp

theorem keeps_tick (s : State) : Keeps s s.tick := by
  have aged : Keeps s { s with
      clock := s.clock + 1
      queue := orderQueue (s.clock + 1) s.queue
      oneSecond := tickTimer s.oneSecond
      groups := s.groups.map (fun g => { g with left := g.left - 1 }) } := by
    refine ⟨id, fun h => ⟨h.1, h.2.1, fun g hg => ?_⟩, fun h => ⟨h.1, h.2.1, h.2.2.1, h.2.2.2.1, fun g hg => ?_⟩,
      fun h => ⟨h.room, h.reserved⟩, id⟩
    all_goals obtain ⟨g', hg', rfl⟩ := List.mem_map.1 hg
    · exact h.2.2 g' hg'
    · exact h.2.2.2.2 g' hg'
  unfold State.tick
  split
  · exact .refl s
  · dsimp only
    split
    · exact aged.trans (keeps_tickBlocks _)
    · exact aged

theorem step_keeps (h : step s = .next t) : Keeps s t := by
  unfold step at h
  split at h
  · obtain rfl := Host.Outcome.next.inj h
    unfold idle
    split
    · exact keeps_tick s
    · exact keeps_same rfl rfl rfl rfl rfl rfl
  next c rest _ =>
    have front : Keeps s { s with pending := rest } := keeps_same rfl rfl rfl rfl rfl rfl
    exact front.trans (exec_keeps h)

/-- Settles O57: the set-point law is one of those that every command and every millisecond keeps. -/
theorem stepKeepsTheSetPointBelowTheTarget : Obligations.StepKeepsTheSetPointBelowTheTarget :=
  fun _ _ h => (step_keeps h).setPoint

/-! ### START has room (R147) -/

/-- A position that may start holds a reservation, so a slot is FREE. -/
theorem RoomLaw.freeSlot (h : RoomLaw s) {p : PosId} (hp : (s.pos p).state = .ready) : s.freeSlot.isSome = true := by
  have held : 0 < s.reservations :=
    List.length_pos_of_mem (List.mem_filter.2 ⟨mem_allPositions p, h.reserved_of p (by rw [hp]; rfl)⟩)
  rw [State.freeSlot, List.find?_isSome]
  by_contra hn
  push Not at hn
  have all : s.records = 64 := by
    have : allSlots.filter (fun i => !isFree (s.slot i)) = allSlots :=
      List.filter_eq_self.2 fun i hi => by simpa using hn i hi
    rw [State.records, this]
    rfl
  have room := h.room
  omega

theorem RoomLaw.startFaults (h : RoomLaw s) (c : Instr) : startFaults c s = false := by
  cases c
  case start port args =>
    refine Bool.eq_false_iff.2 fun hf => ?_
    simp only [Machine.startFaults, startWithoutSlot, Bool.and_eq_true] at hf
    obtain ⟨-, hf⟩ := hf
    split at hf
    · split at hf
      next p _ =>
        simp only [Bool.and_eq_true] at hf
        obtain ⟨⟨-, none⟩, hc⟩ := hf
        split at hc
        next k e hchosen =>
          have some := h.freeSlot (startCheck_chosen_ready hchosen)
          rw [Option.isSome_iff_ne_none] at some
          exact some (Option.isNone_iff_eq_none.1 none)
        · cases hc
      · cases hf
    · cases hf
  all_goals rfl

/-- Settles O58: the books and the room are kept by every step, and with room the one fault cannot come. -/
theorem stepKeepsTheBooks : Obligations.StepKeepsTheBooks := by
  refine ⟨fun s t h => ⟨(step_keeps h).bill, (step_keeps h).totals, (step_keeps h).room⟩, fun s h => ?_⟩
  unfold step
  split
  · exact ⟨_, rfl⟩
  next c rest _ =>
    have room : RoomLaw { s with pending := rest } := ⟨h.room, h.reserved⟩
    rcases command_cases c with ⟨port, kind, args, hb⟩ | ⟨f, hf⟩ | hc
    · rw [exec_request hb, room.startFaults]
      exact ⟨_, rfl⟩
    · rw [exec_effect hf]
      exact ⟨_, rfl⟩
    · cases c
      all_goals simp only [isSpecial, Bool.false_eq_true] at hc
      all_goals exact ⟨_, rfl⟩

end Sys2Proof.Machine
end

section
/-! SUPPORT. Which commands change the stored contents, the calibration in use, the clock, the latch and the time of day
(R137, R139, R158 to R160, R179 to R183). -/

namespace Sys2Proof.Machine

variable {s t u : State}

theorem State.fixed_eq_iff : t.fixed = s.fixed ↔ t.store = s.store ∧ t.work.calibration = s.work.calibration ∧
    t.clock = s.clock ∧ t.esd = s.esd ∧ t.tod = s.tod := by
  simp [State.fixed]

/-- What a command may change of these is its own. -/
def ChangesItsOwn (c : Instr) (s t : State) : Prop :=
  (t.store ≠ s.store → ∃ r, c = .writeGroupCompletion r) ∧
    (t.work.calibration ≠ s.work.calibration → c = .powerLoss ∨ c = .startUpSequence ∨
      (∃ args, c = .calWrite plantPort args) ∧ s.pins.calEn = true) ∧
    (t.clock ≠ s.clock → c = .powerApplied ∨ c = .powerLoss) ∧
    (t.esd ≠ s.esd → c = .esdNFallingEdge ∨ c = .startUpSequence ∨ c = .powerApplied ∨ c = .powerLoss ∨
      (∃ args, c = .esdClear plantPort args) ∧ s.pins.esdN = true) ∧
    (t.tod ≠ s.tod → c = .oneSecondTimerExpiry ∨ c = .powerApplied ∨ c = .powerLoss ∨
      ∃ args, c = .setClock tillPort args)

theorem changesItsOwn_of_fixed (c : Instr) (h : t.fixed = s.fixed) : ChangesItsOwn c s t := by
  obtain ⟨store, cal, clock, esd, tod⟩ := State.fixed_eq_iff.1 h
  exact ⟨absurd store, absurd cal, absurd clock, absurd esd, absurd tod⟩

/-! ### Requests -/

/-- Outside its owning rule a request changes none of them, and one that the screen refuses nowhere. -/
theorem takeRequest_fixed (kind : Byte) (port : PortId) (args : List Byte) (owner : State → State × Answer) (s : State) :
    (takeRequest kind port args owner s).fixed = s.fixed ∨
      screen port kind args = none ∧ (takeRequest kind port args owner s).fixed = (owner (dropFrame port s)).1.fixed := by
  have ended (a : Answer) (u : State) : (endEvent (pushReply port kind args a u)).fixed = u.fixed := by
    rw [pushReply_eq]
    exact ((stands_modPort port _ u).trans (stands_endEvent _)).fixed
  unfold takeRequest
  split
  · dsimp only
    cases hs : screen port kind args with
    | some code => exact .inl (ended _ _)
    | none => exact .inr ⟨rfl, ended _ _⟩
  · exact .inl rfl

theorem plantPort_of_role {port : PortId} (h : portRole port = .plant) : port = plantPort := by
  revert h port
  decide

theorem tillPort_of_role {port : PortId} (h : portRole port = .till) : port = tillPort := by
  revert h port
  decide

/-- A kind that the screen passes comes from a port of its role. -/
theorem role_of_screen {port : PortId} {kind : Byte} {args : List Byte} {row : KindRow}
    (hk : kindRow kind.toNat = some row) (h : screen port kind args = none) : portRole port ∈ row.roles := by
  by_contra hn
  simp [screen, hk, hn] at h

theorem forPosition_cases {P : State → Prop} (b : Byte) {f : PosId → State → State × Answer} (hs : P s)
    (h : ∀ p, P (f p s).1) : P (forPosition b f s).1 := by
  unfold forPosition
  split
  · exact h _
  · exact hs

theorem writeCalibration_fixed (w f : Nat) (p : PosId) (s : State) :
    (writeCalibration w f p s).1.store = s.store ∧
      ((writeCalibration w f p s).1.work.calibration ≠ s.work.calibration → s.pins.calEn = true) ∧
      (writeCalibration w f p s).1.clock = s.clock ∧ (writeCalibration w f p s).1.esd = s.esd ∧
      (writeCalibration w f p s).1.tod = s.tod := by
  unfold writeCalibration
  split
  · exact ⟨rfl, fun h => absurd rfl h, rfl, rfl, rfl⟩
  · split
    · exact ⟨rfl, fun h => absurd rfl h, rfl, rfl, rfl⟩
    next hc =>
      split
      · exact ⟨rfl, fun h => absurd rfl h, rfl, rfl, rfl⟩
      · dsimp only
        split
        · exact ⟨rfl, fun h => absurd rfl h, rfl, rfl, rfl⟩
        · exact ⟨rfl, fun _ => by simpa using hc, rfl, rfl, rfl⟩

theorem clearEsd_fixed (s : State) :
    (clearEsd s).1.store = s.store ∧ (clearEsd s).1.work.calibration = s.work.calibration ∧
      (clearEsd s).1.clock = s.clock ∧ ((clearEsd s).1.esd ≠ s.esd → s.pins.esdN = true) ∧
      (clearEsd s).1.tod = s.tod := by
  unfold clearEsd
  split
  · exact ⟨rfl, rfl, rfl, fun h => absurd rfl h, rfl⟩
  next hc =>
    have posted (u : State) : (awaitEdge (postEsd u)).fixed = u.fixed :=
      (show (awaitEdge (postEsd u)).fixed = (postEsd u).fixed from rfl).trans (owned_postNotice ..).fixed
    have cleared := (posted _).trans (moves_assignmentPass (.refl (a := setLatch false .cleared s))).fixed
    obtain ⟨store, cal, clock, -, tod⟩ := State.fixed_eq_iff.1 cleared
    simp only [accept]
    split
    · exact ⟨store, cal, clock, fun _ => by simpa using hc, tod⟩
    · exact ⟨rfl, rfl, rfl, fun h => absurd rfl h, rfl⟩

theorem changesItsOwn_calWrite (port : PortId) (args : List Byte) (s : State) :
    ChangesItsOwn (.calWrite port args) s (takeRequest 0x35#8 port args (ownerOf (.calWrite port args)) s) := by
  rcases takeRequest_fixed 0x35#8 port args (ownerOf (.calWrite port args)) s with h | ⟨hs, h⟩
  · exact changesItsOwn_of_fixed _ h
  obtain rfl : port = plantPort := plantPort_of_role (by
    have := role_of_screen rfl hs
    simpa using this)
  have owner : ChangesItsOwn (.calWrite plantPort args) s (ownerOf (.calWrite plantPort args) (dropFrame plantPort s)).1 := by
    have dropped : ChangesItsOwn (.calWrite plantPort args) s (dropFrame plantPort s) := changesItsOwn_of_fixed _ rfl
    unfold ownerOf
    dsimp only
    split
    · refine forPosition_cases _ dropped fun p => ?_
      obtain ⟨store, cal, clock, esd, tod⟩ := writeCalibration_fixed _ _ p (dropFrame plantPort s)
      exact ⟨absurd store, fun hne => .inr (.inr ⟨⟨_, rfl⟩, cal hne⟩), absurd clock, absurd esd, absurd tod⟩
    · exact dropped
  obtain ⟨store, cal, clock, esd, tod⟩ := State.fixed_eq_iff.1 h
  unfold ChangesItsOwn at owner ⊢
  rwa [store, cal, clock, esd, tod]

theorem changesItsOwn_esdClear (port : PortId) (args : List Byte) (s : State) :
    ChangesItsOwn (.esdClear port args) s (takeRequest 0x36#8 port args (ownerOf (.esdClear port args)) s) := by
  rcases takeRequest_fixed 0x36#8 port args (ownerOf (.esdClear port args)) s with h | ⟨hs, h⟩
  · exact changesItsOwn_of_fixed _ h
  obtain rfl : port = plantPort := plantPort_of_role (by
    have := role_of_screen rfl hs
    simpa using this)
  obtain ⟨store, cal, clock, esd, tod⟩ := clearEsd_fixed (dropFrame plantPort s)
  obtain ⟨store', cal', clock', esd', tod'⟩ := State.fixed_eq_iff.1 h
  exact ⟨absurd (store'.trans store), absurd (cal'.trans cal), absurd (clock'.trans clock),
    fun hne => .inr (.inr (.inr (.inr ⟨⟨_, rfl⟩, esd fun e => hne (esd'.trans e)⟩))), absurd (tod'.trans tod)⟩

theorem changesItsOwn_setClock (port : PortId) (args : List Byte) (s : State) :
    ChangesItsOwn (.setClock port args) s (takeRequest 0x44#8 port args (ownerOf (.setClock port args)) s) := by
  rcases takeRequest_fixed 0x44#8 port args (ownerOf (.setClock port args)) s with h | ⟨hs, h⟩
  · exact changesItsOwn_of_fixed _ h
  obtain rfl : port = tillPort := tillPort_of_role (by
    have := role_of_screen rfl hs
    simpa using this)
  have owner : ChangesItsOwn (.setClock tillPort args) s (ownerOf (.setClock tillPort args) (dropFrame tillPort s)).1 := by
    have dropped : ChangesItsOwn (.setClock tillPort args) s (dropFrame tillPort s) := changesItsOwn_of_fixed _ rfl
    unfold ownerOf
    dsimp only
    split
    · unfold setTimeOfDay
      split
      · exact dropped
      · exact ⟨absurd rfl, absurd rfl, absurd rfl, absurd rfl, fun _ => .inr (.inr (.inr ⟨_, rfl⟩))⟩
    · exact dropped
  obtain ⟨store, cal, clock, esd, tod⟩ := State.fixed_eq_iff.1 h
  unfold ChangesItsOwn at owner ⊢
  rwa [store, cal, clock, esd, tod]

theorem changesItsOwn_request {c : Instr} {port : PortId} {kind : Byte} {args : List Byte}
    (hb : requestBody c = some (port, kind :: args)) :
    ChangesItsOwn c s (takeRequest kind port args (ownerOf c) s) := by
  cases hc : touchesFixed c
  · rcases takeRequest_fixed kind port args (ownerOf c) s with h | ⟨-, h⟩
    · exact changesItsOwn_of_fixed _ h
    · exact changesItsOwn_of_fixed _ (h.trans (ownerOf_answers c _ hc).owned.fixed)
  cases c
  case calWrite => obtain ⟨⟩ := hb; exact changesItsOwn_calWrite ..
  case esdClear => obtain ⟨⟩ := hb; exact changesItsOwn_esdClear ..
  case setClock => obtain ⟨⟩ := hb; exact changesItsOwn_setClock ..
  all_goals cases hc

/-! ### The events with a way of their own -/

theorem completeGroup_fixed (r : RecId) (s : State) :
    (completeGroup r s).work.calibration = s.work.calibration ∧ (completeGroup r s).clock = s.clock ∧
      (completeGroup r s).esd = s.esd ∧ (completeGroup r s).tod = s.tod := by
  cases hg : s.groups.find? (fun g => g.holds r) with
  | none =>
    unfold completeGroup
    rw [hg]
    exact ⟨rfl, rfl, rfl, rfl⟩
  | some g =>
    rw [completeGroup_some hg]
    exact ⟨rfl, rfl, rfl, rfl⟩

theorem startUpStages_fixed (s : State) :
    (startUpStages s).store = s.store ∧ (startUpStages s).clock = s.clock ∧ (startUpStages s).tod = s.tod := by
  have recovered : ((openSlots s.store).foldl (fun s i => recoverSlot i s) { s.volatileReset with work := s.store }).fixed =
      State.fixed { s.volatileReset with work := s.store } :=
    (owned_foldl (openSlots s.store) _ owned_recoverSlot _).fixed
  have read (u : State) : (readLines u).store = u.store ∧ (readLines u).clock = u.clock ∧ (readLines u).tod = u.tod := by
    unfold readLines
    dsimp only
    split
    · exact ⟨rfl, rfl, rfl⟩
    · have posted (v : State) : (postEsd v).fixed = v.fixed := (owned_postNotice ..).fixed
      obtain ⟨store, -, clock, -, tod⟩ := State.fixed_eq_iff.1 (posted (setLatch true .startLow { u with rate := u.pins.rate }))
      exact ⟨store, clock, tod⟩
  obtain ⟨store, -, clock, -, tod⟩ := State.fixed_eq_iff.1 recovered
  obtain ⟨store', clock', tod'⟩ := read (writeCause
    ((openSlots s.store).foldl (fun s i => recoverSlot i s) { s.volatileReset with work := s.store }))
  exact ⟨store'.trans store, clock'.trans clock, tod'.trans tod⟩

theorem setEsd_fixed (s : State) : (setEsd s).store = s.store ∧ (setEsd s).work.calibration = s.work.calibration ∧
    (setEsd s).clock = s.clock ∧ (setEsd s).tod = s.tod := by
  obtain ⟨store, cal, clock, -, tod⟩ := State.fixed_eq_iff.1 (owned_setEsd s).fixed
  exact ⟨store, cal, clock, tod⟩

theorem changesItsOwn_endEvent {c : Instr} (h : ChangesItsOwn c s t) : ChangesItsOwn c s (endEvent t) := by
  obtain ⟨store, cal, clock, esd, tod⟩ := State.fixed_eq_iff.1 (stands_endEvent t).fixed
  unfold ChangesItsOwn at h ⊢
  rwa [store, cal, clock, esd, tod]

theorem changesItsOwn_special {c : Instr} (hc : isSpecial c = true) (h : exec c s = .next t) : ChangesItsOwn c s t := by
  have same (c : Instr) : ChangesItsOwn c s s := changesItsOwn_of_fixed c rfl
  cases c
  all_goals simp only [isSpecial, Bool.false_eq_true] at hc
  all_goals obtain rfl := Host.Outcome.next.inj h
  case oneSecondTimerExpiry =>
    have ticked : ChangesItsOwn .oneSecondTimerExpiry s { s with oneSecond := some 1000, tod := s.tod.tick } :=
      ⟨absurd rfl, absurd rfl, absurd rfl, absurd rfl, fun _ => .inl rfl⟩
    split
    · dsimp only
      split
      · exact changesItsOwn_endEvent ticked
      · exact ticked
    · exact same _
  case writeGroupCompletion r =>
    obtain ⟨cal, clock, esd, tod⟩ := completeGroup_fixed r s
    have stored : ChangesItsOwn (.writeGroupCompletion r) s (completeGroup r s) :=
      ⟨fun _ => ⟨r, rfl⟩, absurd cal, absurd clock, absurd esd, absurd tod⟩
    split
    · exact same _
    · split
      · exact changesItsOwn_endEvent stored
      · exact stored
  case pulseEdge p =>
    have edge : ChangesItsOwn (.pulseEdge p) s (s.modChan p (fun c => c.edge s.clock)) := changesItsOwn_of_fixed _ rfl
    split
    · exact changesItsOwn_endEvent edge
    · exact edge
    · exact edge
    · exact same _
    · exact same _
  case esdNFallingEdge =>
    obtain ⟨store, cal, clock, tod⟩ := setEsd_fixed { s with pins := { s.pins with esdN := false } }
    dsimp only [takeEvent]
    split
    · refine changesItsOwn_endEvent ?_
      split
      · exact changesItsOwn_of_fixed _ rfl
      · exact ⟨absurd store, absurd cal, absurd clock, fun _ => .inl rfl, absurd tod⟩
    · exact changesItsOwn_of_fixed _ rfl
  case powerApplied =>
    split
    · exact ⟨absurd rfl, absurd rfl, fun _ => .inl rfl, fun _ => .inr (.inr (.inl rfl)), fun _ => .inr (.inl rfl)⟩
    · exact same _
  case powerLoss =>
    split
    · exact same _
    · exact ⟨absurd rfl, fun _ => .inl rfl, fun _ => .inr rfl, fun _ => .inr (.inr (.inr (.inl rfl))),
        fun _ => .inr (.inr (.inl rfl))⟩
  case startUpSequence =>
    obtain ⟨store, clock, tod⟩ := startUpStages_fixed s
    split
    · exact ⟨absurd store, fun _ => .inr (.inl rfl), absurd clock, fun _ => .inr (.inl rfl), absurd tod⟩
    · exact same _
  case startUpServe =>
    split
    · exact changesItsOwn_of_fixed _ rfl
    · exact same _
  all_goals exact changesItsOwn_of_fixed _ rfl

/-- Settles O60: owning rules and cascades change none of these; of the commands that may, each its own. -/
theorem onlyTheseCommandsChange : Obligations.OnlyTheseCommandsChange := by
  unfold Obligations.OnlyTheseCommandsChange
  intro c s t h
  change ChangesItsOwn c s t
  rcases command_cases c with ⟨port, kind, args, hb⟩ | ⟨f, hf⟩ | hc
  · rw [exec_request hb] at h
    split at h
    · cases h
    · exact Host.Outcome.next.inj h ▸ changesItsOwn_request hb
  · rw [exec_effect hf] at h
    exact Host.Outcome.next.inj h ▸ changesItsOwn_of_fixed c (stands_takeEvent f (effectOf_stands hf s)).fixed
  · exact changesItsOwn_special hc h

end Sys2Proof.Machine
end

section
/-! SUPPORT. What a bank grant and a hold make of a position: its record, its channel, the bank, its valve and its segment
(R19, R21, R23, R43, R69, R75, R125, R151). -/

namespace Sys2Proof.Machine

variable {p : PosId} {b : BankId} {s t u : State}

/-! ### Notices alone -/

/-- A change of the ports that leaves what is directed. -/
def State.Noticing (s : State) (x : Vector Port 6) : Prop := Sends s { s with ports := x }

theorem postNotice_eq_ports (k : NoticeKind) (n : Nat) (data : List Field) (ports : List PortId) (s : State) :
    ∃ x, postNotice k n data ports s = { s with ports := x } ∧ s.Noticing x := by
  have hs : Sends s (postNotice k n data ports s) := sends_postNotice ..
  exact ⟨_, hs.rest, hs.rest ▸ hs⟩

/-- A bank moves: its state and holder, exclusions of it gone, and its notice. -/
theorem moveBank_eq (b : BankId) (st : BankState) (h : Option Holder) (s : State) : ∃ l x,
    moveBank b st h s = { s.modBank b (fun y => { y with state := st, holder := h }) with drawList := l, ports := x } ∧
      l.map (fun w => (w.pos, w.kind)) = s.drawList.map (fun w => (w.pos, w.kind)) ∧ s.Noticing x := by
  unfold moveBank
  dsimp only
  split
  · obtain ⟨x, e, hx⟩ := postNotice_eq_ports .bankState b.val _ [plantPort] _
    refine ⟨_, x, e, ?_, ⟨rfl, hx.directives⟩⟩
    simp only [List.map_map]
    refine List.map_congr_left fun w _ => ?_
    simp only [Function.comp]
    split <;> rfl
  · obtain ⟨x, e, hx⟩ := postNotice_eq_ports .bankState b.val _ [plantPort] _
    exact ⟨_, x, e, rfl, ⟨rfl, hx.directives⟩⟩

/-! ### Flow -/

/-- A position that flows on a bank. -/
def Position.flowing (b : BankId) (x : Position) : Position :=
  { x with
    state := .ramp, bank := some b, holdReason := none, phaseTimer := none
    ramp := { x.ramp with lowFlow := 0 } }

/-- The channel of a position that flows. -/
def Channel.flowing (since : Option Clock) (c : Channel) : Channel := { c with gateOpen := false, flowSince := since }

/-- A bank that a position draws from. -/
def Bank.drawnBy (p : PosId) (mass : Nat) (x : Bank) : Bank :=
  { x with state := .drawing, holder := some (.pos p), massAtGrant := mass, drawnMass := 0 }

/-- Where a fill flows since, at a moment: a fill that changes its bank flows on. -/
def State.flowsSince (s : State) (p : PosId) : Option Clock :=
  if (s.pos p).state == .ramp then (s.chan p).flowSince else some s.clock

/-- The segment that opens with a bank. -/
def State.segmentOn (s : State) (p : PosId) (b : BankId) : Segment :=
  ⟨.bank b (((s.bank b).config.map (·.tier)).getD .low), (s.chan p).mass, (s.pos p).pressure.map (·.value), none, none, none⟩

theorem openSegment_openRecord (p : PosId) (b : BankId) (s : State) :
    (openSegment p b s).openRecord p = (s.openRecord p).map (fun r => r.openSegment (s.segmentOn p b)) := by
  refine (modRecord_openRecord p (fun r => r.openSegment (s.segmentOn p b)) s (fun r => ?_) (fun r => ?_)).2
  all_goals
    obtain ⟨l, f, e⟩ := r.openSegment_eq (s.segmentOn p b)
    rw [e]

theorem openSegment_eq (p : PosId) (b : BankId) (s : State) : ∃ w, openSegment p b s = { s with work := w } :=
  modRecord_eq ..

/-- What a flow leaves: the position, its channel, the ports, working copies and groups. -/
theorem enterRamp_eq (p : PosId) (b : BankId) (s : State) : ∃ x w g,
    enterRamp p b s = { (s.modPos p (Position.flowing b)).modChan p (Channel.flowing (s.flowsSince p)) with
      ports := x, work := w, groups := g } := by
  obtain ⟨w, hw⟩ := openSegment_eq p b (s.modPos p (Position.flowing b))
  unfold Position.flowing at hw
  unfold enterRamp State.flowsSince
  dsimp only
  rw [hw]
  split
  next => exact ⟨_, _, _, rfl⟩
  next =>
    obtain ⟨x, v, g, e, -⟩ := fillState_eq p (sendValve p (State.modChan
      { s.modPos p (Position.flowing b) with work := w } p (Channel.flowing (some s.clock))))
    exact ⟨x, v, g, e⟩

/-- What the channel of a position measures stands in a flow. -/
theorem enterRamp_openRecord (p : PosId) (b : BankId) (s : State) {r : TxnRecord} (h : s.openRecord p = some r)
    (hl : r.segments.length < 8) : ∃ r', (enterRamp p b s).openRecord p = some r' ∧
      r'.segments = r.segments ++ [s.segmentOn p b] := by
  have opened : (openSegment p b (s.modPos p (Position.flowing b))).openRecord p =
      some (r.openSegment (s.segmentOn p b)) := by
    rw [openSegment_openRecord, State.modPos_openRecord, h]
    simp [State.segmentOn, Position.flowing]
  have segments : (r.openSegment (s.segmentOn p b)).segments = r.segments ++ [s.segmentOn p b] := by
    rw [TxnRecord.openSegment, if_pos hl]
  unfold Position.flowing at opened
  unfold enterRamp
  dsimp only
  split
  · exact ⟨_, opened, segments⟩
  · rw [fillState_openRecord]
    refine ⟨_, congrArg (Option.map _) opened, segments⟩

theorem sendValve_directed (p : PosId) (s : State) :
    .valve p (s.pos p).picture (s.pos p).directiveLane ∈ ((sendValve p s).port (islandPort p)).outDirectives :=
  postDirective_mem ..

theorem fillState_directives (p : PosId) (s : State) (n : PortId) :
    ((fillState p s).port n).outDirectives = (s.port n).outDirectives := by
  obtain ⟨x, w, g, e, hs⟩ := fillState_eq p s
  rw [e]
  exact hs.directives n

/-- A flow sends its FLOW directive (R9). -/
theorem enterRamp_directed (p : PosId) (b : BankId) (s : State) :
    .valve p (.flow b ((s.pos p).ramp.pSet.getD 0)) ((s.pos p).flowing b).directiveLane ∈
      ((enterRamp p b s).port (islandPort p)).outDirectives := by
  obtain ⟨w, hw⟩ := openSegment_eq p b (s.modPos p (Position.flowing b))
  have sent (c : Channel → Channel) : .valve p (.flow b ((s.pos p).ramp.pSet.getD 0)) ((s.pos p).flowing b).directiveLane ∈
      ((sendValve p (State.modChan { s.modPos p (Position.flowing b) with work := w } p c)).port
        (islandPort p)).outDirectives := by
    have pos : (State.modChan { s.modPos p (Position.flowing b) with work := w } p c).pos p = (s.pos p).flowing b :=
      s.modPos_pos p _
    have := sendValve_directed p (State.modChan { s.modPos p (Position.flowing b) with work := w } p c)
    rwa [pos] at this
  unfold Position.flowing at hw
  unfold enterRamp
  dsimp only
  rw [hw]
  split
  · exact sent _
  · rw [fillState_directives]
    exact sent _

/-! ### The grant of a bank -/

/-- The bank counts from here, and the position leaves the draw wait list. -/
def State.reserving (s : State) (p : PosId) (b : BankId) : State :=
  { s.modBank b (fun x => { x with massAtGrant := (s.chan p).mass, drawnMass := 0 }) with
    drawList := s.drawList.filter (fun w => w.pos != p) }

/-- The bank is the position's. -/
def State.taking (s : State) (p : PosId) (b : BankId) : State := moveBank b .drawing (some (.pos p)) (s.reserving p b)

theorem grantBank_taking (p : PosId) (b : BankId) (s : State) :
    grantBank p b s =
      if ((s.taking p b).pos p).state == .pulse then startPulse p b (s.taking p b) else enterRamp p b (s.taking p b) := rfl

theorem taking_eq (p : PosId) (b : BankId) (s : State) : ∃ l x,
    s.taking p b = { s.setBank b ((s.bank b).drawnBy p (s.chan p).mass) with drawList := l, ports := x } ∧
      (∀ v ∈ l, v.pos ≠ p) ∧ s.Noticing x := by
  obtain ⟨l, x, e, hl, hx⟩ := moveBank_eq b .drawing (some (.pos p)) (s.reserving p b)
  refine ⟨l, x, e.trans ?_, fun v hv h => ?_, ⟨rfl, hx.directives⟩⟩
  · simp [State.reserving, State.modBank, State.setBank, State.bank, Bank.drawnBy]
  · have : (v.pos, v.kind) ∈ (s.reserving p b).drawList.map (fun w => (w.pos, w.kind)) :=
      hl ▸ List.mem_map.2 ⟨v, hv, rfl⟩
    obtain ⟨w, hw, hvw⟩ := List.mem_map.1 this
    have out := (List.mem_filter.1 hw).2
    rw [← (Prod.mk.inj hvw).1] at h
    simp [h] at out

theorem taking_pos (p q : PosId) (b : BankId) (s : State) : (s.taking p b).pos q = s.pos q := by
  obtain ⟨l, x, e, -⟩ := taking_eq p b s
  rw [e]
  rfl

theorem taking_flowsSince (p : PosId) (b : BankId) (s : State) : (s.taking p b).flowsSince p = s.flowsSince p := by
  obtain ⟨l, x, e, -⟩ := taking_eq p b s
  rw [e]
  rfl

/-- A bank granted to a fill that does not pulse: the fill flows on it. -/
theorem grantBank_eq (hp : (s.pos p).state ≠ .pulse) (b : BankId) : ∃ x w g l,
    grantBank p b s = { ((s.setPos p ((s.pos p).flowing b)).setChan p ((s.chan p).flowing (s.flowsSince p))).setBank b
        ((s.bank b).drawnBy p (s.chan p).mass) with ports := x, work := w, groups := g, drawList := l } ∧
      ∀ v ∈ l, v.pos ≠ p := by
  obtain ⟨x, w, g, he⟩ := enterRamp_eq p b (s.taking p b)
  rw [taking_flowsSince] at he
  obtain ⟨l, y, e, hl, -⟩ := taking_eq p b s
  have flows : grantBank p b s = enterRamp p b (s.taking p b) := by
    rw [grantBank_taking, taking_pos, if_neg (by simpa using hp)]
  refine ⟨x, w, g, l, ?_, hl⟩
  rw [flows, he, e]
  rfl

/-- A position that pulses on a bank. -/
def Position.pulsing (b : BankId) (x : Position) : Position :=
  { x with bank := some b, pulseState := some .pulsing, phaseTimer := some 1000 }

/-- A bank granted to a fill that pulses. -/
theorem grantBank_pulse (hp : (s.pos p).state = .pulse) (b : BankId) : ∃ x l,
    grantBank p b s = { (s.setPos p ((s.pos p).pulsing b)).setBank b
        ((s.bank b).drawnBy p (s.chan p).mass) with ports := x, drawList := l } ∧ ∀ v ∈ l, v.pos ≠ p := by
  obtain ⟨l, y, e, hl, -⟩ := taking_eq p b s
  have pulses : grantBank p b s = startPulse p b (s.taking p b) := by
    rw [grantBank_taking, taking_pos, if_pos (by simpa using hp)]
  refine ⟨(startPulse p b (s.taking p b)).ports, l, ?_, hl⟩
  rw [pulses, e]
  rfl

theorem grantBank_pulse_directed (hp : (s.pos p).state = .pulse) (b : BankId) :
    .valve p (.pulse b) ((grantBank p b s).pos p).directiveLane ∈
      ((grantBank p b s).port (islandPort p)).outDirectives := by
  have pulses : grantBank p b s = startPulse p b (s.taking p b) := by
    rw [grantBank_taking, taking_pos, if_pos (by simpa using hp)]
  have pos : (startPulse p b (s.taking p b)).pos p = ((s.taking p b).pos p).pulsing b :=
    (s.taking p b).modPos_pos p (Position.pulsing b)
  have picture : (((s.taking p b).pos p).pulsing b).picture = .pulse b := by
    simp [Position.picture, Position.pulsing, taking_pos, hp]
  have sent := sendValve_directed p ((s.taking p b).modPos p (Position.pulsing b))
  rw [State.modPos_pos, picture] at sent
  rw [pulses, pos]
  exact sent

/-- R21, R43, R69: a fill not yet in RAMP flows on the bank it is granted. -/
theorem grantBank_flows (hp : (s.pos p).state ≠ .pulse) (hr : (s.pos p).state ≠ .ramp) (b : BankId) :
    Flows p b s (grantBank p b s) := by
  obtain ⟨x, w, g, l, e, hl⟩ := grantBank_eq hp b
  have since : s.flowsSince p = some s.clock := if_neg (by simpa using hr)
  have flows : grantBank p b s = enterRamp p b (s.taking p b) := by
    rw [grantBank_taking, taking_pos, if_neg (by simpa using hp)]
  have pos : (grantBank p b s).pos p = (s.pos p).flowing b := by
    rw [e]
    simp [State.pos, State.setPos, State.setChan, State.setBank]
  constructor
  case position => exact pos
  case channel =>
    rw [e]
    simp [State.chan, State.setPos, State.setChan, State.setBank, Channel.flowing, since]
  case bank =>
    rw [e]
    simp [State.bank, State.setPos, State.setChan, State.setBank, Bank.drawnBy, State.chan]
  case notWaiting =>
    rw [e]
    exact hl
  case flowSent =>
    rw [pos]
    have := enterRamp_directed p b (s.taking p b)
    rwa [taking_pos, ← flows] at this
  case segment =>
    intro r hr hlen
    obtain ⟨m, y, f, -, -⟩ := taking_eq p b s
    have opened : (s.taking p b).openRecord p = some r := by
      rw [f]
      exact hr
    have segment : (s.taking p b).segmentOn p b = s.segmentOn p b := by
      rw [f]
      simp [State.segmentOn, State.bank, State.setBank, Bank.drawnBy, State.chan, State.pos]
    obtain ⟨r', hr', hs⟩ := enterRamp_openRecord p b (s.taking p b) opened hlen
    rw [segment] at hs
    exact ⟨r', flows ▸ hr', hs⟩

/-! ### Holds -/

/-- A position in HOLD without a bank, its limit loaded where the hold begins. -/
def Position.heldFor (r : HoldReason) (x : Position) : Position :=
  { x with
    state := .hold, holdReason := some r
    phaseTimer := if x.state == .hold then x.phaseTimer else some 120000
    ramp := { x.ramp with lowFlow := 0 } }

/-- The channel of a position in HOLD (R125). -/
def Channel.held (c : Channel) : Channel := { c with gateOpen := true, flowSince := none }

/-- A hold leaves the position in HOLD, its gate open. -/
theorem enterHold_eq (p : PosId) (r : HoldReason) (s : State) : ∃ x w g,
    enterHold p r s = { (s.setPos p ((s.pos p).heldFor r)).setChan p (s.chan p).held with
      ports := x, work := w, groups := g } := by
  unfold enterHold
  dsimp only
  split
  all_goals
    obtain ⟨x, w, g, e, -⟩ := fillState_eq p _
    exact ⟨x, w, g, e⟩

theorem enterHold_pos (p : PosId) (r : HoldReason) (s : State) : (enterHold p r s).pos p = (s.pos p).heldFor r := by
  obtain ⟨x, w, g, e⟩ := enterHold_eq p r s
  rw [e]
  exact s.setPos_pos p _

theorem enterHold_chan (p : PosId) (r : HoldReason) (s : State) : (enterHold p r s).chan p = (s.chan p).held := by
  obtain ⟨x, w, g, e⟩ := enterHold_eq p r s
  rw [e]
  exact (s.setPos p ((s.pos p).heldFor r)).setChan_chan p _

theorem enterHold_held (hp : (s.pos p).state ≠ .hold) (r : HoldReason) : Held p r s (enterHold p r s) := by
  constructor
  · rw [enterHold_pos, Position.heldFor, if_neg (by simpa using hp)]
  · exact enterHold_chan p r s

end Sys2Proof.Machine
end

section
/-! SUPPORT. What follows an action of a position in its event: notices, checkpoint, warm test, reply, transmitters; and
the accepted START (R18, R19, R68, R69, R149, R181). -/

namespace Sys2Proof.Machine

variable {p : PosId} {b : BankId} {s t u : State}

/-! ### The trail of an action -/

/-- Ports, working copies, groups, lanes and scratch alone change, and nothing is directed. -/
structure Trails (s t : State) : Prop where
  rest : t = { s with ports := t.ports, work := t.work, groups := t.groups, lanes := t.lanes, evt := t.evt }
  directives : ∀ n, (t.port n).outDirectives = (s.port n).outDirectives

theorem Trails.refl (s : State) : Trails s s := ⟨rfl, fun _ => rfl⟩

theorem Trails.trans (h : Trails s t) (k : Trails t u) : Trails s u where
  rest := by
    refine k.rest.trans ?_
    rw [h.rest]
  directives n := (k.directives n).trans (h.directives n)

theorem Sends.trails (h : Sends s t) : Trails s t := ⟨by rw [h.rest], h.directives⟩

theorem trails_checkpoint (p : PosId) (also : List RecWrite) (s : State) : Trails s (checkpoint p also s) := by
  obtain ⟨w, g, e⟩ := checkpoint_eq p also s
  rw [e]
  exact ⟨rfl, fun _ => rfl⟩

theorem trails_fillStateWith (p : PosId) (also : List RecWrite) (s : State) : Trails s (fillStateWith p also s) :=
  (sends_postNotice ..).trails.trans (trails_checkpoint p also _)

theorem trails_modRecord (p : PosId) (f : TxnRecord → TxnRecord) (s : State) : Trails s (modRecord p f s) := by
  obtain ⟨w, e⟩ := modRecord_eq p f s
  rw [e]
  exact ⟨rfl, fun _ => rfl⟩

theorem trails_warmTestOf (l : Option LaneId) (s : State) : Trails s (warmTestOf l s) := by
  obtain ⟨x, e⟩ := warmTestOf_eq l s
  rw [e]
  exact ⟨rfl, fun _ => rfl⟩

theorem trails_endEvent (s : State) : Trails s (endEvent s) := by
  have cleared : Trails s { s with evt := .empty } := ⟨rfl, fun _ => rfl⟩
  exact cleared.trans (sends_endEvent s).trails

theorem trails_pushReply (n : PortId) (kind : Byte) (args : List Byte) (a : Answer) (s : State) :
    Trails s (pushReply n kind args a s) := (sends_pushReply ..).trails

/-- The end of a taken request. -/
theorem trails_answered (n : PortId) (kind : Byte) (args : List Byte) (a : Answer) (s : State) :
    Trails s (endEvent (pushReply n kind args a s)) := (trails_pushReply ..).trans (trails_endEvent _)

theorem Trails.pos (h : Trails s t) (q : PosId) : t.pos q = s.pos q := by
  rw [h.rest]
  rfl

theorem Trails.chan (h : Trails s t) (q : PosId) : t.chan q = s.chan q := by
  rw [h.rest]
  rfl

theorem Trails.bank (h : Trails s t) (c : BankId) : t.bank c = s.bank c := by
  rw [h.rest]
  rfl

theorem Trails.drawList (h : Trails s t) : t.drawList = s.drawList := by rw [h.rest]

theorem Trails.cooling (h : Trails s t) : t.cooling = s.cooling := by rw [h.rest]

theorem Trails.grantOf (h : Trails s t) (r : Requester) : t.grantOf r = s.grantOf r := by
  rw [h.rest]
  cases r <;> rfl

theorem Trails.directed (h : Trails s t) (n : PortId) (d : Directive) : Directed t n d ↔ Directed s n d := by
  rw [Directed, Directed, h.directives]

/-! ### Groups in flight to the end of an event -/

theorem endEvent_inFlight (s : State) (r : RecId) : (endEvent s).inFlight r = s.inFlight r := by
  rw [(sends_endEvent s).rest]
  rfl

theorem pushReply_inFlight (n : PortId) (kind : Byte) (args : List Byte) (a : Answer) (s : State) (r : RecId) :
    (pushReply n kind args a s).inFlight r = s.inFlight r := by
  rw [(sends_pushReply ..).rest]
  rfl

theorem warmTestOf_inFlight (l : Option LaneId) (s : State) (r : RecId) : (warmTestOf l s).inFlight r = s.inFlight r := by
  obtain ⟨x, e⟩ := warmTestOf_eq l s
  rw [e]
  rfl

/-- A checkpoint puts the slot of the open record in flight, with the records written beside it. -/
theorem checkpoint_inFlight {i : SlotId} (h : s.openSlot p = some i) (also : List RecWrite) :
    (checkpoint p also s).inFlight (.slot i) = true ∧
      ∀ w ∈ also, (checkpoint p also s).inFlight w.key = true := by
  have opens := (modRecord_openRecord p (fun r => { r with checkpointMass := (s.chan p).mass }) s
    (fun _ => rfl) (fun _ => rfl)).1 p
  have issued : checkpoint p also s =
      issue (.slot i ((modRecord p (fun r => { r with checkpointMass := (s.chan p).mass }) s).slot i) :: also)
        (modRecord p (fun r => { r with checkpointMass := (s.chan p).mass }) s) := by
    unfold checkpoint
    dsimp only
    rw [opens, h]
  rw [issued]
  obtain ⟨-, -, flies, -⟩ := issue_spec
    (.slot i ((modRecord p (fun r => { r with checkpointMass := (s.chan p).mass }) s).slot i) :: also)
    (modRecord p (fun r => { r with checkpointMass := (s.chan p).mass }) s)
  exact ⟨flies _ List.mem_cons_self, fun w hw => flies w (List.mem_cons_of_mem _ hw)⟩

theorem postNotice_openSlot (k : NoticeKind) (n : Nat) (data : List Field) (ports : List PortId) (s : State) (q : PosId) :
    (postNotice k n data ports s).openSlot q = s.openSlot q := by
  obtain ⟨x, e, -⟩ := postNotice_eq_ports k n data ports s
  rw [e]
  rfl

/-! ### Slots in their order -/

/-- The first slot with a property. -/
theorem find_allSlots {f : SlotId → Bool} {i : SlotId} (hi : f i = true) (h : ∀ j, j < i → f j = false) :
    allSlots.find? f = some i := by
  rw [List.find?_eq_some_iff_getElem]
  refine ⟨hi, i.val, by simp [allSlots], by simp [allSlots], fun j hj => ?_⟩
  have := h ⟨j, Nat.lt_trans hj i.isLt⟩ hj
  simpa [allSlots] using this

theorem isFree_iff (x : Slot) : isFree x = true ↔ x = .free := by cases x <;> simp [isFree]

/-! ### START (R18) -/

theorem started_pos_ne {q : PosId} (h : q ≠ p) (k : ClassId) (e : Tariff) (a : Authorization) (i : SlotId) (s : State) :
    (s.started p k e a i).pos q = s.pos q ∧ (s.started p k e a i).chan q = s.chan q := by
  have h' : p.val ≠ q.val := fun e => h (Fin.ext e.symm)
  constructor
  · simp [State.started, State.setGrantOf, State.pos, State.setPos, State.setChan, h']
  · simp [State.started, State.setGrantOf, State.chan, State.setPos, State.setChan, h']

theorem started_pos (k : ClassId) (e : Tariff) (a : Authorization) (i : SlotId) (s : State) :
    ((s.started p k e a i).pos p).state = .pulse ∧ ((s.started p k e a i).pos p).pressure = (s.pos p).pressure := by
  simp [State.started, State.setGrantOf, State.pos, State.setPos, State.setChan]

/-- The record that a START opens is the open one of its position. -/
theorem started_openSlot {i : SlotId} (hn : s.openSlot p = none) (k : ClassId) (e : Tariff) (a : Authorization) :
    (s.started p k e a i).openSlot p = some i := by
  have others (j : SlotId) : (s.slot j).opensFor p = false := by
    have := List.find?_eq_none.1 hn j (by simp [allSlots])
    simpa using this
  refine find_allSlots ?_ fun j hj => ?_
  · simp [State.started, State.setGrantOf, State.slot, State.setPos, State.setChan, Slot.opensFor, openingRecord]
  · have hne : i.val ≠ j.val := Nat.ne_of_gt hj
    have := others j
    simpa [State.started, State.setGrantOf, State.slot, State.setPos, State.setChan, Vector.getElem_set, hne] using this

theorem eligible_congr (q : PosId) (k : DrawKind) (x : Option BankId) (c : BankId) (h1 : t.banks = s.banks)
    (h2 : t.windows = s.windows) (h3 : t.margin = s.margin) (h4 : t.evt.plantLost = s.evt.plantLost)
    (h5 : (t.pos q).pressure = (s.pos q).pressure) : eligible t q k x c = eligible s q k x c := by
  have window (tier : Tier) : t.window tier = s.window tier := by cases tier <;> simp [State.window, h2]
  unfold eligible heldPressure State.bank
  simp only [h1, h3, h4, h5, window]

theorem bestBank_congr (q : PosId) (k : DrawKind) (x : Option BankId) (h1 : t.banks = s.banks)
    (h2 : t.windows = s.windows) (h3 : t.margin = s.margin) (h4 : t.evt.plantLost = s.evt.plantLost)
    (h5 : (t.pos q).pressure = (s.pos q).pressure) : bestBank t q k x = bestBank s q k x := by
  have banks : t.bank = s.bank := funext fun c => by rw [State.bank, State.bank, h1]
  have before : bankBefore t = bankBefore s := by
    unfold bankBefore
    rw [banks]
  have same : eligible t q k x = eligible s q k x := funext fun c => eligible_congr q k x c h1 h2 h3 h4 h5
  unfold bestBank
  simp only [same, before]

theorem started_bestBank (k : ClassId) (e : Tariff) (a : Authorization) (i : SlotId) (s : State) :
    bestBank (s.started p k e a i) p .pulse none = bestBank s p .pulse none :=
  bestBank_congr p .pulse none rfl rfl rfl rfl (started_pos k e a i s).2

/-- What the position of an accepted START does, its request told (R18, R19). -/
theorem startFill_trails (k : ClassId) (e : Tariff) (a : Authorization) (i : SlotId) (s : State) :
    Trails (drawRequest p .pulse none (s.started p k e a i)) (startFill p k e a i s) := by
  rw [startFill_eq]
  exact (trails_fillStateWith ..).trans (trails_warmTestOf ..)

theorem startFill_inFlight {i : SlotId} (hn : s.openSlot p = none) (k : ClassId) (e : Tariff) (a : Authorization) :
    (startFill p k e a i s).inFlight (.slot i) = true ∧ (startFill p k e a i s).inFlight .nextNumber = true := by
  have opens : (postFillState p ((drawRequest p .pulse none (s.started p k e a i)).pos p).tag
      (drawRequest p .pulse none (s.started p k e a i))).openSlot p = some i := by
    rw [postFillState, postNotice_openSlot, (moves_drawRequest p _ _ .refl).openSlot, started_openSlot hn]
  obtain ⟨slot, also⟩ := checkpoint_inFlight opens [.nextNumber (s.work.nextNumber + 1)]
  rw [startFill_eq]
  dsimp only
  rw [warmTestOf_inFlight, warmTestOf_inFlight]
  exact ⟨slot, also _ List.mem_cons_self⟩

theorem startFill_mode (k : ClassId) (e : Tariff) (a : Authorization) (i : SlotId) (s : State) :
    ((startFill p k e a i s).pos p).mode = some (startMode s.clock (s.pos p).ramp) := by
  have kept := congrArg Position.mode ((moves_drawRequest p .pulse none (.refl (a := s.started p k e a i))).posSteady p)
  change ((drawRequest p .pulse none (s.started p k e a i)).pos p).mode = ((s.started p k e a i).pos p).mode at kept
  rw [(startFill_trails k e a i s).pos, kept]
  simp [State.started, State.setGrantOf, State.pos, State.setPos, State.setChan]

theorem startFill_steady (k : ClassId) (e : Tariff) (a : Authorization) (i : SlotId) (s : State) :
    (startFill p k e a i s).steady = (s.started p k e a i).steady := by
  rw [startFill_eq]
  simp

theorem startCheck_eq_chosen {k : ClassId} {e : Tariff} {x : Int} (h1 : s.esd.latched = false)
    (h2 : (s.pos p).state = .ready) (h3 : freshAmbient s.clock s.ambient = some x) (h4 : x ≤ 500)
    (h5 : chooseClass s p = some (k, e)) : startCheck s p = .chosen k e := by
  simp [startCheck, h1, h2, h3, Int.not_lt.2 h4, h5]

/-- What a position does on the request for a pulse bank (R19, R68 to R70). -/
theorem drawRequest_pulse (hp : (s.pos p).state = .pulse) :
    match bestBank s p .pulse none with
    | some b => (drawRequest p .pulse none s).pos p = (s.pos p).pulsing b ∧
        ((drawRequest p .pulse none s).bank b).state = .drawing ∧
        ((drawRequest p .pulse none s).bank b).holder = some (.pos p) ∧
        Directed (drawRequest p .pulse none s) (islandPort p)
          (.valve p (.pulse b) ((drawRequest p .pulse none s).pos p).directiveLane)
    | none => (drawRequest p .pulse none s).pos p = s.pos p ∧
        (drawRequest p .pulse none s).drawList = s.drawList.filter (fun w => w.pos != p) ++ [⟨p, .pulse, s.clock, none⟩] := by
  unfold drawRequest
  cases bestBank s p .pulse none with
  | some b =>
    dsimp only
    obtain ⟨x, l, e, -⟩ := grantBank_pulse hp b
    refine ⟨?_, ?_, ?_, grantBank_pulse_directed hp b⟩
    · rw [e]
      simp [State.pos, State.setPos, State.setBank]
    · rw [e]
      simp [State.bank, State.setPos, State.setBank, Bank.drawnBy]
    · rw [e]
      simp [State.bank, State.setPos, State.setBank, Bank.drawnBy]
  | none => exact ⟨rfl, rfl⟩

/-- Settles O15: the bookkeeping, the pulse bank asked for, and the opening write; without a FREE slot the fault. -/
theorem startOpensTheTransaction : Obligations.StartOpensTheTransaction := by
  unfold Obligations.StartOpensTheTransaction
  rintro s p k e a c rfl h hl hs ⟨x, hx, hx'⟩ hc ha hn
  have chosen := startCheck_eq_chosen hl hs hx hx' hc
  have screened : screen (islandPort p) 0x13#8 [byteOf p.val] = none := screen_passes rfl (by simp) rfl
  have taken := canTake_of_ready (h.ready (kind := 0x13#8) (args := [byteOf p.val]) rfl)
  constructor
  · intro full
    have none : s.freeSlot = none := by
      rw [State.freeSlot, List.find?_eq_none]
      intro i _ hi
      exact full i ((isFree_iff _).1 hi)
    have faults : startFaults (.start (islandPort p) [byteOf p.val]) s = true := by
      simp [startFaults, startWithoutSlot, taken, screened, idOf_byteOf (show 8 ≤ 256 by decide) p, none, chosen]
    rw [exec_request (kind := 0x13#8) (args := [byteOf p.val]) rfl, faults]
    rfl
  · intro i hi hfirst
    have free : s.freeSlot = some i :=
      find_allSlots ((isFree_iff _).2 hi) fun j hj => Bool.eq_false_iff.2 (mt (isFree_iff _).1 (hfirst j hj))
    have runs : exec (.start (islandPort p) [byteOf p.val]) s = .next (takeRequest 0x13#8 (islandPort p) [byteOf p.val]
        (ownerOf (.start (islandPort p) [byteOf p.val])) s) := by
      rw [exec_request (kind := 0x13#8) (args := [byteOf p.val]) rfl]
      have : startFaults (.start (islandPort p) [byteOf p.val]) s = false := by
        simp [startFaults, startWithoutSlot, free, idOf_byteOf (show 8 ≤ 256 by decide) p]
      rw [this]
      rfl
    have owner : (fun s => match [byteOf p.val] with
        | [b] => forOwn (islandPort p) b startPosition s
        | _ => refuse .range s) (dropFrame (islandPort p) s) =
        (startFill p k e a i (dropFrame (islandPort p) s), .accepted
          [.byte (some k.val), .byte (some (startMode s.clock (s.pos p).ramp).code), .word (some s.work.nextNumber)]
          (some (.slot i))) := by
      have mode := startFill_mode (p := p) k e a i (dropFrame (islandPort p) s)
      refine (forOwn_byteOf ..).trans ?_
      unfold startPosition
      rw [startCheck_dropFrame, chosen]
      have free' : (dropFrame (islandPort p) s).freeSlot = some i := free
      have ha' : ((dropFrame (islandPort p) s).pos p).authorization = some a := ha
      simp only [free', ha', mode]
      rfl
    refine completes_intro runs rfl screened h owner (startFill_steady k e a i (dropFrame (islandPort p) s)) ?_
    have trail := (startFill_trails (p := p) k e a i (dropFrame (islandPort p) s)).trans
      (trails_answered (islandPort p) 0x13#8 [byteOf p.val] (.accepted
        [.byte (some k.val), .byte (some (startMode s.clock (s.pos p).ramp).code), .word (some s.work.nextNumber)]
        (some (.slot i))) _)
    obtain ⟨slot, number⟩ := startFill_inFlight (s := dropFrame (islandPort p) s) (i := i) hn k e a
    refine ⟨rfl, ?_, ?_, fun q hq => ?_, ?_⟩
    · rw [endEvent_inFlight, pushReply_inFlight, slot]
    · rw [endEvent_inFlight, pushReply_inFlight, number]
    · have spared : Spares q ((dropFrame (islandPort p) s).started p k e a i) _ := spares_drawRequest hq .pulse none
      obtain ⟨pos, chan⟩ := started_pos_ne hq k e a i (dropFrame (islandPort p) s)
      exact ⟨(trail.pos q).trans (spared.pos.trans pos), (trail.chan q).trans (spared.chan.trans chan)⟩
    · have drawn := drawRequest_pulse (started_pos (p := p) k e a i (dropFrame (islandPort p) s)).1
      rw [started_bestBank] at drawn
      have same : bestBank (dropFrame (islandPort p) s) p .pulse none = bestBank s p .pulse none := rfl
      rw [same] at drawn
      split
      next b hb =>
        rw [hb] at drawn
        obtain ⟨pos, state, holder, directed⟩ := drawn
        refine ⟨(trail.pos p).trans pos, (congrArg Bank.state (trail.bank b)).trans state,
          (congrArg Bank.holder (trail.bank b)).trans holder, (trail.directed ..).2 ?_⟩
        rw [trail.pos]
        exact directed
      next hb =>
        rw [hb] at drawn
        exact ⟨(trail.pos p).trans drawn.1, trail.drawList.trans drawn.2⟩

end Sys2Proof.Machine
end

section
/-! SUPPORT. The pulse and leak-check expiries as a whole (R19 to R21, R23, R112). -/

namespace Sys2Proof.Machine

variable {p : PosId} {b : BankId} {s t u : State}

/-! ### The end of the pulse (R19) -/

/-- The initial pressure taken, in the position and its record. -/
def State.taken (s : State) (p : PosId) (v : Nat) : State :=
  modRecord p (fun r => { r with initialPressure := some v })
    (s.setPos p { s.pos p with initialPressure := some v, phaseTimer := none })

/-- A position in LEAKCHECK (R19). -/
def Position.leakChecking (x : Position) : Position :=
  { x with state := .leakCheck, pulseState := none, phaseTimer := some 5000 }

/-- A channel whose creep gate is open. -/
def Channel.gated (c : Channel) : Channel := { c with gateOpen := true }

/-- The leak check begins: gate open, valve closed, FILL_STATE. -/
def enterLeakCheck (p : PosId) (s : State) : State :=
  fillState p (sendValve p ((s.modPos p Position.leakChecking).modChan p Channel.gated))

theorem pulseExpired_eq (p : PosId) (k : ClassId) (s : State) :
    pulseExpired p k s =
      if heldPressure (s.pos p) < 50 ∨ (classRow k).pMax < heldPressure (s.pos p) then
        endFill p .vehiclePressure (s.taken p (heldPressure (s.pos p)))
      else enterLeakCheck p (releaseBank p (s.taken p (heldPressure (s.pos p)))) := rfl

theorem steady_enterLeakCheck (p : PosId) (s : State) : (enterLeakCheck p s).steady = s.steady := by
  unfold enterLeakCheck
  rw [steady_fillState, steady_sendValve, steady_modChan _ _ _ (by intro _; rfl), steady_modPos _ _ _ (by intro _; rfl)]

theorem spares_enterLeakCheck {q : PosId} (h : q ≠ p) : Spares q s (enterLeakCheck p s) :=
  (((spares_modPos h _).trans (spares_modChan h _)).trans (spares_sendValve p)).trans (spares_fillState h)

/-- What the beginning of a leak check leaves, ports, working copies and groups apart. -/
theorem enterLeakCheck_eq (p : PosId) (s : State) : ∃ x w g, enterLeakCheck p s =
    { (s.setPos p (s.pos p).leakChecking).setChan p (s.chan p).gated with ports := x, work := w, groups := g } := by
  obtain ⟨x, w, g, e, -⟩ := fillState_eq p (sendValve p ((s.modPos p Position.leakChecking).modChan p Channel.gated))
  exact ⟨x, w, g, e⟩

theorem enterLeakCheck_directed (p : PosId) (s : State) :
    Directed (enterLeakCheck p s) (islandPort p) (.valve p .closed none) := by
  have sent := sendValve_directed p ((s.modPos p Position.leakChecking).modChan p Channel.gated)
  have pos : ((s.modPos p Position.leakChecking).modChan p Channel.gated).pos p = (s.pos p).leakChecking :=
    s.modPos_pos p _
  rw [pos] at sent
  rw [Directed, enterLeakCheck, fillState_directives]
  exact sent

theorem taken_pos (p : PosId) (v : Nat) (s : State) :
    (s.taken p v).pos p = { s.pos p with initialPressure := some v, phaseTimer := none } := by
  rw [State.taken, (trails_modRecord ..).pos, State.setPos_pos]

theorem taken_chan (p q : PosId) (v : Nat) (s : State) : (s.taken p v).chan q = s.chan q := by
  rw [State.taken, (trails_modRecord ..).chan]
  rfl

theorem spares_taken {q : PosId} (h : q ≠ p) (v : Nat) : Spares q s (s.taken p v) :=
  (spares_setPos h _).trans (spares_modRecord h _ (fun _ => rfl) fun _ => rfl)

theorem not_draws_of_not_waits {q : PosId} (h : ¬ Waits s q) : ¬ Draws s q := fun k => h (.inl k)

/-- The draw wait list stands while the initial pressure is taken. -/
theorem taken_draws {q : PosId} (v : Nat) : Draws (s.taken p v) q ↔ Draws s q := by
  have := (trails_modRecord p (fun r => { r with initialPressure := some v })
    (s.setPos p { s.pos p with initialPressure := some v, phaseTimer := none })).drawList
  rw [Draws, State.taken, this]
  exact Iff.rfl

/-- A leak check that begins after the release of the pulse bank (R19). -/
theorem leakCheck_begins (v : Nat) (hw : ¬ Waits s p) :
    let t := enterLeakCheck p (releaseBank p (s.taken p v))
    t.pos p = { (s.taken p v).pos p with
        state := .leakCheck, pulseState := none, bank := none, phaseTimer := some 5000 } ∧
      t.chan p = { s.chan p with gateOpen := true } ∧
      (∀ b, (s.pos p).bank = some b → (t.bank b).holder ≠ some (.pos p)) ∧
      Directed t (islandPort p) (.valve p .closed none) ∧ OthersKept p s t := by
  have draws : ¬ Draws (s.taken p v) p := fun h => not_draws_of_not_waits hw ((taken_draws v).1 h)
  have released := spares_releaseBank draws p
  obtain ⟨x, w, g, e⟩ := enterLeakCheck_eq p (releaseBank p (s.taken p v))
  have pos : (releaseBank p (s.taken p v)).pos p = { (s.taken p v).pos p with bank := none } :=
    released.pos.trans (State.modPos_pos ..)
  have chan : (releaseBank p (s.taken p v)).chan p = s.chan p := released.chan.trans (taken_chan ..)
  refine ⟨?_, ?_, fun c hc => ?_, enterLeakCheck_directed .., fun q hne hwq => ?_⟩
  · rw [e]
    refine (State.setPos_pos _ _ _).trans ?_
    rw [pos]
    rfl
  · rw [e]
    refine (State.setChan_chan _ _ _).trans ?_
    rw [chan]
    rfl
  · rw [e]
    refine releaseBank_holder draws ?_
    rw [taken_pos]
    exact hc
  · have taken : Spares q s (s.taken p v) := spares_taken hne v
    have kept := (taken.trans ((spares_modPos hne _).trans
      (spares_releaseBank (mt taken.draws (not_draws_of_not_waits hwq)) p))).trans (spares_enterLeakCheck hne)
    exact ⟨kept.pos, kept.chan⟩

/-- Settles O19: the initial pressure, then the end of the fill, or the release of the bank and the leak check. -/
theorem pulseExpiryResult : Obligations.PulseExpiryResult := by
  unfold Obligations.PulseExpiryResult
  rintro s e p k v hq hs hp hk rfl rfl
  obtain ⟨f, effect, hf⟩ : ∃ f, effectOf (.pulseExpiry p) = some f ∧
      f s = if due (s.pos p).phaseTimer then pulseExpired p k s else s := ⟨_, rfl, by simp [hs, hp, hk]⟩
  split
  next ht => exact takes_nothing effect hq (by rw [hf, if_neg (mt (due_iff _).1 ht)])
  next ht =>
    rw [if_pos ((due_iff _).2 (not_not.1 ht)), pulseExpired_eq] at hf
    split
    next hv =>
      rw [if_pos hv] at hf
      have endable : endable ((s.taken p (heldPressure (s.pos p))).pos p).state = true := by
        rw [taken_pos]
        simp [endable, hs]
      refine brings_intro (exec_effect effect s) hq.serving ?_ ?_ <;> rw [hf]
      · rw [steady_endFill]
        rfl
      · exact (endFill_ended .vehiclePressure endable).endEvent
    next hv =>
      intro hw
      rw [if_neg hv] at hf
      refine brings_intro (exec_effect effect s) hq.serving ?_ ?_ <;> rw [hf]
      · rw [steady_enterLeakCheck, steady_releaseBank]
        rfl
      · obtain ⟨pos, chan, holder, directed, others⟩ := leakCheck_begins (heldPressure (s.pos p)) hw
        have trail := trails_endEvent (enterLeakCheck p (releaseBank p (s.taken p (heldPressure (s.pos p)))))
        exact ⟨(trail.pos p).trans pos, (trail.chan p).trans chan,
          fun c hc => (trail.bank c).symm ▸ holder c hc, (trail.directed ..).2 directed,
          fun q hne hwq => ⟨(trail.pos q).trans (others q hne hwq).1, (trail.chan q).trans (others q hne hwq).2⟩⟩

end Sys2Proof.Machine
end

section
/-! SUPPORT. The end of the leak check: the checks of RAMP entry, the cooling request, and the bank request (R20, R21, R68,
R112). -/

namespace Sys2Proof.Machine

variable {p : PosId} {b : BankId} {s t u : State}

/-! ### The checks (c) and (d) of R21 -/

/-- A request that finds no bank leaves an entry in the draw wait list. -/
def State.drawing (s : State) (p : PosId) : State :=
  { s with drawList := s.drawList.filter (fun w => w.pos != p) ++ [⟨p, .ramp, s.clock, none⟩] }

/-- Checks (c) and (d) of a fill without a bank: a hold for warmth, a bank, or a hold for one. -/
theorem checksCD_eq (hb : (s.pos p).bank = none) (hp : (s.pos p).state ≠ .pulse) :
    checksCD p s =
      if warmHeld s p = true then enterHold p .laneWarm s
      else match bestBank s p .ramp none with
        | some b => grantBank p b s
        | none => enterHold p .bank (s.drawing p) := by
  unfold checksCD drawRequest
  split
  · rfl
  · dsimp only
    cases bestBank s p .ramp none with
    | some b =>
      obtain ⟨x, w, g, l, e, -⟩ := grantBank_eq hp b
      have holds : ((grantBank p b s).pos p).bank.isSome = true := by
        rw [e]
        simp [State.pos, State.setPos, State.setChan, State.setBank, Position.flowing]
      exact if_pos holds
    | none =>
      have none : ¬ ((s.drawing p).pos p).bank.isSome = true := by
        have : ((s.drawing p).pos p).bank = none := hb
        simp [this]
      exact if_neg none

/-- What the checks (c) and (d) leave alone: the budget. -/
theorem checksCD_cooling (hb : (s.pos p).bank = none) (hp : (s.pos p).state ≠ .pulse) :
    (checksCD p s).cooling = s.cooling := by
  have held (r : HoldReason) (u : State) : (enterHold p r u).cooling = u.cooling := by
    obtain ⟨x, w, g, e⟩ := enterHold_eq p r u
    rw [e]
    rfl
  rw [checksCD_eq hb hp]
  split
  · exact held _ _
  · split
    next b _ =>
      obtain ⟨x, w, g, l, e, -⟩ := grantBank_eq hp b
      rw [e]
      rfl
    next _ => exact held _ _

theorem spares_checksCD_ne {q : PosId} (h : q ≠ p) : Spares q s (checksCD p s) := by
  unfold checksCD
  split
  · exact spares_enterHold h _
  · dsimp only
    split
    · exact spares_drawRequest h _ _
    · exact (spares_drawRequest h _ _).trans (spares_enterHold h _)

/-- The outcome of the checks (c) and (d) for a fill that neither pulses nor flows nor is held. -/
theorem checksCD_leaves (hb : (s.pos p).bank = none) (hp : (s.pos p).state = .leakCheck) :
    if warmHeld s p = true then Held p .laneWarm s (checksCD p s)
    else match bestBank s p .ramp none with
      | some b => Flows p b s (checksCD p s)
      | none => Held p .bank s (checksCD p s) ∧
        (checksCD p s).drawList = s.drawList.filter (fun w => w.pos != p) ++ [⟨p, .ramp, s.clock, none⟩] := by
  have pulse : (s.pos p).state ≠ .pulse := by rw [hp]; decide
  have ramp : (s.pos p).state ≠ .ramp := by rw [hp]; decide
  have hold : (s.pos p).state ≠ .hold := by rw [hp]; decide
  rw [checksCD_eq hb pulse]
  split
  · exact enterHold_held hold _
  · split
    next b _ => exact grantBank_flows pulse ramp b
    next _ =>
      have held : Held p .bank (s.drawing p) (enterHold p .bank (s.drawing p)) :=
        enterHold_held (s := s.drawing p) hold _
      obtain ⟨x, w, g, e⟩ := enterHold_eq p .bank (s.drawing p)
      refine ⟨⟨held.position, held.channel⟩, ?_⟩
      rw [e]
      rfl

/-! ### A state in which the timer still runs -/

/-- Two states that agree on a fill but for its phase timer. -/
structure SameFill (p : PosId) (s w : State) : Prop where
  pos : { w.pos p with phaseTimer := none } = { s.pos p with phaseTimer := none }
  chan : w.chan p = s.chan p
  banks : w.banks = s.banks
  clock : w.clock = s.clock
  segments : ∀ r, s.openRecord p = some r → ∃ r', w.openRecord p = some r' ∧ r'.segments = r.segments

theorem Held.of_same {r : HoldReason} (h : Held p r u t) (k : SameFill p s u) : Held p r s t := by
  constructor
  · have := congrArg (fun x : Position => { x with
      state := .hold, holdReason := some r, phaseTimer := some 120000, ramp := { x.ramp with lowFlow := 0 } }) k.pos
    exact h.position.trans this
  · rw [h.channel, k.chan]

theorem Flows.of_same (h : Flows p b u t) (k : SameFill p s u) : Flows p b s t := by
  have bank : u.bank b = s.bank b := by rw [State.bank, k.banks]; rfl
  have pos (f : Position → Nat) (hf : ∀ x : Position, f x = f { x with phaseTimer := none }) :
      f (u.pos p) = f (s.pos p) := by
    rw [hf, k.pos, ← hf]
  constructor
  case position =>
    have := congrArg (fun x : Position => { x with
      state := .ramp, bank := some b, holdReason := none, phaseTimer := none, ramp := { x.ramp with lowFlow := 0 } }) k.pos
    exact h.position.trans this
  case channel => rw [h.channel, k.chan, k.clock]
  case bank => rw [h.bank, bank, k.chan]
  case notWaiting => exact h.notWaiting
  case flowSent =>
    have := h.flowSent
    rwa [pos (fun x => x.ramp.pSet.getD 0) fun _ => rfl] at this
  case segment =>
    intro r hr hl
    obtain ⟨r', hr', hs⟩ := k.segments r hr
    obtain ⟨r'', hr'', hs'⟩ := h.segment r' hr' (hs ▸ hl)
    have pressure := congrArg Position.pressure k.pos
    change (u.pos p).pressure = (s.pos p).pressure at pressure
    rw [hs, bank, k.chan, pressure] at hs'
    exact ⟨r'', hr'', hs'⟩

/-- The end of a fill is told of the state in which its phase timer still runs. -/
theorem Ended.of_stopped {r : EndReason}
    (h : Ended p r (s.setPos p { s.pos p with phaseTimer := none }) t) : Ended p r s t := by
  obtain ⟨position, channel, noGrant, notWaiting, released, record, closedSent, others⟩ := h
  rw [State.setPos_pos] at position released record closedSent
  refine ⟨position, channel, noGrant, notWaiting, released, record, closedSent, fun q hq hw => ?_⟩
  have := others q hq hw
  rwa [State.setPos_pos_ne _ _ _ _ hq] at this

/-! ### RAMP entry (R21, R112) -/

/-- What a cooling request at RAMP entry does: served from what is free while no fill waits, else a place behind the last
fill (R112). -/
def fillWaits (s : State) (p : PosId) : Prop :=
  (∃ w ∈ s.cooling.wait, isFill w.who = true) ∨ s.freeCapacity < (s.grantOf (.pos p)).floor

/-- A fill that waits for cooling. -/
def State.queuing (s : State) (p : PosId) : State :=
  { budgetChanged .request s with cooling := { s.cooling with
      wait := s.cooling.wait.filter (fun w => isFill w.who) ++ [⟨.pos p, s.clock⟩] ++
        s.cooling.wait.filter (fun w => !isFill w.who) } }

/-- A fill served at once. -/
def State.served (s : State) (p : PosId) : State :=
  grantFill p (min (s.grantOf (.pos p)).demand s.freeCapacity) (budgetChanged .served s)

theorem fillAsks_waits (h : fillWaits s p) : fillAsks p s = (s.queuing p, false) := by
  unfold fillAsks
  refine if_neg fun hc => ?_
  simp only [Bool.and_eq_true, Bool.not_eq_true', decide_eq_true_eq] at hc
  obtain ⟨none, fits⟩ := hc
  rcases h with ⟨w, hw, hf⟩ | h
  · rw [List.any_eq_false] at none
    exact none w hw hf
  · omega

theorem fillAsks_served (h : ¬ fillWaits s p) : fillAsks p s = (s.served p, true) := by
  unfold fillAsks
  refine if_pos ?_
  simp only [fillWaits, not_or, not_exists, not_and, Nat.not_lt] at h
  simp only [Bool.and_eq_true, Bool.not_eq_true', decide_eq_true_eq, List.any_eq_false]
  exact h

/-- A fill served keeps its position, its channel, the banks and the wait list, and its record but for a mark. -/
theorem served_eq (p : PosId) (s : State) : ∃ w,
    s.served p = { setGrant (.pos p) (min (s.grantOf (.pos p)).demand s.freeCapacity) (budgetChanged .served s) with
      work := w } := by
  unfold State.served grantFill
  dsimp only
  split
  · exact modRecord_eq ..
  · exact ⟨_, rfl⟩

theorem served_segments (p : PosId) (s : State) {r : TxnRecord} (hr : s.openRecord p = some r) :
    ∃ r', (s.served p).openRecord p = some r' ∧ r'.segments = r.segments := by
  unfold State.served grantFill
  dsimp only
  split
  · unfold tellDerated
    rw [(modRecord_openRecord p (fun r => { r with flags := { r.flags with derated := true } }) _
      (fun _ => rfl) fun _ => rfl).2]
    have : (setGrant (.pos p) (min (s.grantOf (.pos p)).demand s.freeCapacity) (budgetChanged .served s)).openRecord p =
        some r := hr
    rw [this]
    exact ⟨_, rfl, rfl⟩
  · exact ⟨r, hr, rfl⟩

/-- A leak check that is over. -/
def State.stopped (s : State) (p : PosId) : State := s.setPos p { s.pos p with phaseTimer := none }

theorem fixTarget_stopped (p : PosId) (k : ClassId) (s : State) :
    fixTarget p k (s.stopped p) = (fixTarget p k s).stopped p := by
  simp only [fixTarget, State.stopped, State.modPos, State.setPos_pos, State.setPos_setPos]
  rfl

theorem rampEntryChecks_eq {k : ClassId} (hk : (s.pos p).cls = some k) :
    rampEntryChecks p s =
      if ((fixTarget p k s).pos p).ramp.pTarget.getD 0 ≤ heldPressure ((fixTarget p k s).pos p) then
        endFill p (targetReason ((fixTarget p k s).pos p)) (fixTarget p k s)
      else if cooled k && decide (((fixTarget p k s).grantOf (.pos p)).grant < ((fixTarget p k s).grantOf (.pos p)).floor) then
        if (fillAsks p (fixTarget p k s)).2 then checksCD p (fillAsks p (fixTarget p k s)).1
        else enterHold p .cooling (fillAsks p (fixTarget p k s)).1
      else checksCD p (fixTarget p k s) := by
  unfold rampEntryChecks
  rw [hk]

/-- What an agreeing state begins, the first one begins: a hold for warmth, a flow, or a hold for a bank. -/
theorem checksCD_leaves_same {e w : State} (k : SameFill p e w) (hs : (w.pos p).state = .leakCheck)
    (hb : (w.pos p).bank = none) (hd : w.drawList = e.drawList) (hwarm : warmHeld w p = warmHeld e p)
    (hbest : bestBank w p .ramp none = bestBank e p .ramp none) :
    if warmHeld e p = true then Held p .laneWarm e (checksCD p w)
    else match bestBank e p .ramp none with
      | some b => Flows p b e (checksCD p w)
      | none => Held p .bank e (checksCD p w) ∧
        (checksCD p w).drawList = e.drawList.filter (fun w => w.pos != p) ++ [⟨p, .ramp, e.clock, none⟩] := by
  have leaves := checksCD_leaves hb hs
  rw [hwarm, hbest, hd, k.clock] at leaves
  split
  next hc =>
    rw [if_pos hc] at leaves
    exact leaves.of_same k
  next hc =>
    rw [if_neg hc] at leaves
    split
    next b hb =>
      rw [hb] at leaves
      exact leaves.of_same k
    next hb =>
      rw [hb] at leaves
      exact ⟨leaves.1.of_same k, leaves.2⟩

theorem Held.trails {r : HoldReason} (h : Held p r s t) (k : Trails t u) : Held p r s u :=
  ⟨(k.pos p).trans h.position, (k.chan p).trans h.channel⟩

theorem Flows.sends (h : Flows p b s t) (k : Sends t u) : Flows p b s u := by
  have trail := k.trails
  constructor
  case position => exact (trail.pos p).trans h.position
  case channel => exact (trail.chan p).trans h.channel
  case bank => exact (trail.bank b).trans h.bank
  case notWaiting => exact trail.drawList ▸ h.notWaiting
  case flowSent =>
    rw [trail.pos, k.directives]
    exact h.flowSent
  case segment =>
    have same : u.openRecord p = t.openRecord p := by
      rw [k.rest]
      rfl
    rw [same]
    exact h.segment

theorem Flows.endEvent (h : Flows p b s t) : Flows p b s (endEvent t) := by
  have cleared : Flows p b s { t with evt := .empty } :=
    ⟨h.position, h.channel, h.bank, h.notWaiting, h.flowSent, h.segment⟩
  exact cleared.sends (sends_endEvent t)

/-- The fill that RAMP entry brings to a hold or to flow: what its state agrees on with the one before the checks. -/
theorem sameFill_stopped (e : State) : SameFill p e (e.stopped p) := by
  refine ⟨?_, rfl, rfl, rfl, fun r hr => ⟨r, hr, rfl⟩⟩
  rw [State.stopped, State.setPos_pos]

theorem sameFill_served (e : State) : SameFill p e ((e.stopped p).served p) := by
  obtain ⟨w, h⟩ := served_eq p (e.stopped p)
  refine ⟨?_, ?_, ?_, ?_, fun r hr => served_segments p (e.stopped p) hr⟩
  · rw [h]
    exact (sameFill_stopped (p := p) e).pos
  all_goals
    rw [h]
    rfl

/-! ### The expiry -/

theorem fixTarget_kept (p : PosId) (k : ClassId) (s : State) :
    heldPressure ((fixTarget p k s).pos p) = heldPressure (s.pos p) ∧
      ((fixTarget p k s).pos p).initialPressure = (s.pos p).initialPressure ∧
      ((fixTarget p k s).pos p).state = (s.pos p).state ∧ ((fixTarget p k s).pos p).cls = (s.pos p).cls ∧
      ((fixTarget p k s).pos p).lane = (s.pos p).lane ∧ ((fixTarget p k s).pos p).pressure = (s.pos p).pressure := by
  rw [fixTarget, State.modPos_pos]
  exact ⟨rfl, rfl, rfl, rfl, rfl, rfl⟩

theorem spares_fixTarget {q : PosId} (h : q ≠ p) (k : ClassId) : Spares q s (fixTarget p k s) := spares_modPos h _

theorem spares_stopped {q : PosId} (h : q ≠ p) : Spares q s (s.stopped p) := spares_setPos h _

/-- What the checks of RAMP entry leave of a cooled or uncooled fill below its target (R21, R112). -/
def EntryLeaves (p : PosId) (k : ClassId) (s e t : State) : Prop :=
  let g := s.grantOf (.pos p)
  let asks := cooled k = true ∧ g.grant < g.floor
  let waits := asks ∧ ((∃ w ∈ s.cooling.wait, isFill w.who = true) ∨ s.freeCapacity < g.floor)
  (∀ q, q ≠ p → t.pos q = s.pos q ∧ t.chan q = s.chan q) ∧
    (if waits then
      Held p .cooling e t ∧ t.cooling.order = s.cooling.order ∧
      t.cooling.wait = s.cooling.wait.filter (fun w => isFill w.who) ++ [⟨.pos p, s.clock⟩] ++
        s.cooling.wait.filter (fun w => !isFill w.who)
    else
      (t.grantOf (.pos p)).grant = (if asks then min g.demand s.freeCapacity else g.grant) ∧
      t.cooling.wait = s.cooling.wait ∧
      if warmHeld s p = true then Held p .laneWarm e t
      else
        match bestBank s p .ramp none with
        | some b => Flows p b e t
        | none => Held p .bank e t ∧
          t.drawList = s.drawList.filter (fun w => w.pos != p) ++ [⟨p, .ramp, s.clock, none⟩])

/-- The outcome without a wait for cooling, from the state that the checks (c) and (d) find. -/
theorem entryLeaves_checks {k : ClassId} {s w : State} (same : SameFill p (fixTarget p k s) w)
    (hs : (w.pos p).state = .leakCheck) (hb : (w.pos p).bank = none) (hd : w.drawList = s.drawList)
    (hl : w.lanes = s.lanes) (hwin : w.windows = s.windows) (hm : w.margin = s.margin)
    (hev : w.evt.plantLost = s.evt.plantLost) (hsp : ∀ q, q ≠ p → Spares q s w)
    (hwait : w.cooling.wait = s.cooling.wait)
    (hn : ¬ ((cooled k = true ∧ (s.grantOf (.pos p)).grant < (s.grantOf (.pos p)).floor) ∧
      ((∃ w ∈ s.cooling.wait, isFill w.who = true) ∨ s.freeCapacity < (s.grantOf (.pos p)).floor)))
    (hg : (w.grantOf (.pos p)).grant =
      if cooled k = true ∧ (s.grantOf (.pos p)).grant < (s.grantOf (.pos p)).floor then
        min (s.grantOf (.pos p)).demand s.freeCapacity else (s.grantOf (.pos p)).grant) :
    EntryLeaves p k s (fixTarget p k s) (endEvent (checksCD p w)) := by
  have trail := trails_endEvent (checksCD p w)
  have pulse : (w.pos p).state ≠ .pulse := by rw [hs]; decide
  have cooling := checksCD_cooling hb pulse
  obtain ⟨-, -, -, kept, lane, pressure⟩ := fixTarget_kept p k s
  have cls := congrArg Position.cls same.pos
  change (w.pos p).cls = ((fixTarget p k s).pos p).cls at cls
  have lane' := congrArg Position.lane same.pos
  change (w.pos p).lane = ((fixTarget p k s).pos p).lane at lane'
  have pressure' := congrArg Position.pressure same.pos
  change (w.pos p).pressure = ((fixTarget p k s).pos p).pressure at pressure'
  have warm : warmHeld w p = warmHeld s p := by
    simp only [warmHeld, State.lane, lane', lane, cls, kept, hl]
  have warm' : warmHeld (fixTarget p k s) p = warmHeld s p := by
    have : (fixTarget p k s).lanes = s.lanes := rfl
    simp only [warmHeld, State.lane, lane, kept, this]
  have best : bestBank w p .ramp none = bestBank s p .ramp none :=
    bestBank_congr p .ramp none (same.banks.trans rfl) hwin hm hev (pressure'.trans pressure)
  have best' : bestBank (fixTarget p k s) p .ramp none = bestBank s p .ramp none :=
    bestBank_congr p .ramp none rfl rfl rfl rfl pressure
  have leaves := checksCD_leaves_same same hs hb (hd.trans rfl) (warm.trans warm'.symm) (best.trans best'.symm)
  rw [warm', best'] at leaves
  refine ⟨fun q hq => ?_, ?_⟩
  · have spared := (hsp q hq).trans (spares_checksCD_ne hq)
    exact ⟨(trail.pos q).trans spared.pos, (trail.chan q).trans spared.chan⟩
  · rw [if_neg hn]
    refine ⟨?_, ?_, ?_⟩
    · rw [trail.grantOf, State.grantOf, cooling]
      exact hg
    · rw [trail.cooling, cooling, hwait]
    · split
      next hc =>
        rw [if_pos hc] at leaves
        exact leaves.trails trail
      next hc =>
        rw [if_neg hc] at leaves
        split
        next b hbb =>
          rw [hbb] at leaves
          exact leaves.endEvent
        next hbb =>
          rw [hbb] at leaves
          exact ⟨leaves.1.trails trail, trail.drawList.trans leaves.2⟩

/-- The outcome with a wait for cooling. -/
theorem entryLeaves_waits {k : ClassId}
    (h : (cooled k = true ∧ (s.grantOf (.pos p)).grant < (s.grantOf (.pos p)).floor) ∧
      ((∃ w ∈ s.cooling.wait, isFill w.who = true) ∨ s.freeCapacity < (s.grantOf (.pos p)).floor))
    (hs : (((fixTarget p k s).stopped p).pos p).state = .leakCheck) :
    EntryLeaves p k s (fixTarget p k s)
      (endEvent (enterHold p .cooling (((fixTarget p k s).stopped p).queuing p))) := by
  have trail := trails_endEvent (enterHold p .cooling (((fixTarget p k s).stopped p).queuing p))
  have hold : ((((fixTarget p k s).stopped p).queuing p).pos p).state ≠ .hold := by
    have : ((((fixTarget p k s).stopped p).queuing p).pos p).state = .leakCheck := hs
    rw [this]
    decide
  have same : SameFill p (fixTarget p k s) (((fixTarget p k s).stopped p).queuing p) :=
    ⟨(sameFill_stopped (p := p) (fixTarget p k s)).pos, rfl, rfl, rfl, fun r hr => ⟨r, hr, rfl⟩⟩
  obtain ⟨x, w, g, e⟩ := enterHold_eq p .cooling (((fixTarget p k s).stopped p).queuing p)
  refine ⟨fun q hq => ?_, ?_⟩
  · have spared : Spares q s (enterHold p .cooling (((fixTarget p k s).stopped p).queuing p)) :=
      ((spares_fixTarget hq k).trans (spares_stopped hq)).trans
        ((show Spares q ((fixTarget p k s).stopped p) (((fixTarget p k s).stopped p).queuing p) from
          (spares_budgetChanged .request).trans (spares_wait _ fun v hv hw => ?_)).trans (spares_enterHold hq _))
    · exact ⟨(trail.pos q).trans spared.pos, (trail.chan q).trans spared.chan⟩
    · simp only [List.append_assoc, List.mem_append, List.mem_filter, List.mem_singleton] at hv
      rcases hv with hv | hv | hv
      · exact ⟨v, hv.1, hw⟩
      · rw [hv] at hw
        exact absurd (Requester.pos.inj hw).symm hq
      · exact ⟨v, hv.1, hw⟩
  · rw [if_pos h]
    refine ⟨((enterHold_held hold _).of_same same).trails trail, ?_, ?_⟩
    · rw [trail.cooling, e]
      rfl
    · rw [trail.cooling, e]
      rfl

/-- What a fill served of the budget leaves of the rest. -/
theorem served_kept (p : PosId) (s : State) : (s.served p).drawList = s.drawList ∧ (s.served p).lanes = s.lanes ∧
    (s.served p).windows = s.windows ∧ (s.served p).margin = s.margin ∧
    (s.served p).evt.plantLost = s.evt.plantLost ∧ (s.served p).cooling.wait = s.cooling.wait ∧
    (s.served p).positions = s.positions ∧
    ((s.served p).grantOf (.pos p)).grant = min (s.grantOf (.pos p)).demand s.freeCapacity := by
  obtain ⟨w, h⟩ := served_eq p s
  have grant := (setGrant_grantOf (.pos p) (.pos p) (min (s.grantOf (.pos p)).demand s.freeCapacity)
    (budgetChanged .served s)).trans (if_pos rfl)
  rw [h]
  exact ⟨rfl, rfl, rfl, rfl, rfl, rfl, rfl, grant⟩

/-- The outcome of a request served. -/
theorem entryLeaves_served {k : ClassId} (ha : cooled k = true ∧ (s.grantOf (.pos p)).grant < (s.grantOf (.pos p)).floor)
    (hw : ¬ ((∃ w ∈ s.cooling.wait, isFill w.who = true) ∨ s.freeCapacity < (s.grantOf (.pos p)).floor))
    (hs : (((fixTarget p k s).stopped p).pos p).state = .leakCheck)
    (hb : (((fixTarget p k s).stopped p).pos p).bank = none) :
    EntryLeaves p k s (fixTarget p k s) (endEvent (checksCD p (((fixTarget p k s).stopped p).served p))) := by
  obtain ⟨draws, lanes, windows, margin, evt, wait, positions, grant⟩ := served_kept p ((fixTarget p k s).stopped p)
  have pos : ((((fixTarget p k s).stopped p).served p).pos p) = ((fixTarget p k s).stopped p).pos p := by
    rw [State.pos, positions]
    rfl
  have spared (q : PosId) (hq : q ≠ p) : Spares q s (((fixTarget p k s).stopped p).served p) :=
    (((spares_fixTarget hq k).trans (spares_stopped hq)).trans (spares_budgetChanged _)).trans (spares_grantFill hq _)
  refine entryLeaves_checks (sameFill_served _) (by rw [pos, hs]) (by rw [pos, hb]) draws lanes windows margin evt spared
    wait (fun c => hw c.2) ?_
  rw [grant, if_pos ha]
  rfl

/-- Settles O20: the leak test, the target, the cooling request, and the checks for warmth and for a bank. -/
theorem leakCheckExpiryResult : Obligations.LeakCheckExpiryResult := by
  unfold Obligations.LeakCheckExpiryResult
  rintro s e p k hq hs hk rfl
  obtain ⟨held, initial, state, cls, -, -⟩ := fixTarget_kept p k s
  obtain ⟨f, effect, hf⟩ : ∃ f, effectOf (.leakCheckExpiry p) = some f ∧
      f s = if due (s.pos p).phaseTimer then
        (if leaks s p then endFill p .leak (s.stopped p) else rampEntryChecks p (s.stopped p)) else s :=
    ⟨_, rfl, by simp [hs]; rfl⟩
  have stoppedCls : ((s.stopped p).pos p).cls = some k := by
    rw [State.stopped, State.setPos_pos]
    exact hk
  dsimp only
  split
  next ht => exact takes_nothing effect hq (by rw [hf, if_neg (mt (due_iff _).1 ht)])
  next ht =>
    rw [if_pos ((due_iff _).2 (not_not.1 ht))] at hf
    split
    next hleak =>
      have leak : leaks s p = true := by
        rw [held, initial] at hleak
        simpa [leaks, Channel.creepAbove] using hleak
      rw [if_pos leak] at hf
      have endable : endable ((s.stopped p).pos p).state = true := by
        rw [State.stopped, State.setPos_pos]
        simp [endable, hs]
      refine brings_intro (exec_effect effect s) hq.serving ?_ ?_ <;> rw [hf]
      · rw [steady_endFill]
        exact steady_setPos s p _ rfl
      · exact ((endFill_ended .leak endable).of_stopped).endEvent
    next hleak =>
      have leak : ¬ leaks s p = true := by
        rw [held, initial] at hleak
        simpa [leaks, Channel.creepAbove] using hleak
      rw [if_neg leak, rampEntryChecks_eq stoppedCls, fixTarget_stopped] at hf
      have pos : ((fixTarget p k s).stopped p).pos p = { (fixTarget p k s).pos p with phaseTimer := none } :=
        State.setPos_pos ..
      have grant : ((fixTarget p k s).stopped p).grantOf (.pos p) = s.grantOf (.pos p) := rfl
      have stillSteady : ((fixTarget p k s).stopped p).steady = (fixTarget p k s).steady := steady_setPos _ p _ rfl
      rw [grant] at hf
      split
      next hc =>
        have hc' : (((fixTarget p k s).stopped p).pos p).ramp.pTarget.getD 0 ≤
            heldPressure (((fixTarget p k s).stopped p).pos p) := by
          rw [pos]
          exact hc
        have reason : targetReason (((fixTarget p k s).stopped p).pos p) =
            if ((fixTarget p k s).pos p).mode = some .comm then EndReason.socReached else .targetReached := by
          rw [pos]
          simp [targetReason]
        rw [if_pos hc', reason] at hf
        have endable : endable (((fixTarget p k s).stopped p).pos p).state = true := by
          rw [pos]
          simp [endable, state, hs]
        refine brings_intro (exec_effect effect s) hq.serving ?_ ?_ <;> rw [hf]
        · rw [steady_endFill, stillSteady]
        · exact ((endFill_ended _ endable).of_stopped).endEvent
      next hc =>
        have hc' : ¬ (((fixTarget p k s).stopped p).pos p).ramp.pTarget.getD 0 ≤
            heldPressure (((fixTarget p k s).stopped p).pos p) := by
          rw [pos]
          exact hc
        rw [if_neg hc'] at hf
        intro hb
        have leakCheck : (((fixTarget p k s).stopped p).pos p).state = .leakCheck := by
          rw [pos]
          exact state.trans hs
        have noBank : (((fixTarget p k s).stopped p).pos p).bank = none := by
          rw [pos]
          exact hb
        have spared (q : PosId) (h : q ≠ p) : Spares q s ((fixTarget p k s).stopped p) :=
          (spares_fixTarget h k).trans (spares_stopped h)
        change Brings (.leakCheckExpiry p) s (fixTarget p k s) (EntryLeaves p k s (fixTarget p k s))
        have asks : (cooled k && decide ((s.grantOf (.pos p)).grant < (s.grantOf (.pos p)).floor)) = true ↔
            cooled k = true ∧ (s.grantOf (.pos p)).grant < (s.grantOf (.pos p)).floor := by simp
        by_cases ha : cooled k = true ∧ (s.grantOf (.pos p)).grant < (s.grantOf (.pos p)).floor
        · rw [if_pos (asks.2 ha)] at hf
          by_cases hw : fillWaits ((fixTarget p k s).stopped p) p
          · rw [fillAsks_waits hw] at hf
            rw [if_neg Bool.false_ne_true] at hf
            refine brings_intro (exec_effect effect s) hq.serving ?_ ?_ <;> rw [hf]
            · rw [steady_enterHold]
              exact stillSteady
            · exact entryLeaves_waits ⟨ha, hw⟩ leakCheck
          · rw [fillAsks_served hw, if_pos rfl] at hf
            refine brings_intro (exec_effect effect s) hq.serving ?_ ?_ <;> rw [hf]
            · rw [steady_checksCD, State.served, steady_grantFill, steady_budgetChanged, stillSteady]
            · exact entryLeaves_served ha (fun c => hw c) leakCheck noBank
        · rw [if_neg (mt asks.1 ha)] at hf
          refine brings_intro (exec_effect effect s) hq.serving ?_ ?_ <;> rw [hf]
          · rw [steady_checksCD, stillSteady]
          · exact entryLeaves_checks (sameFill_stopped _) leakCheck noBank rfl rfl rfl rfl rfl spared rfl
              (fun h => ha h.1) (if_neg ha).symm

end Sys2Proof.Machine
end

section
/-! SUPPORT. The closing update and the close of a fill, written out: the record, the channel and the position they leave
(R28, R126 to R130, R135, R153). -/

namespace Sys2Proof.Machine

variable {p q : PosId} {i : SlotId} {r r' : TxnRecord} {s t u : State}

/-! ### The open record of a position -/

theorem modRecord_at (ho : s.openSlot p = some i) (hr : s.slot i = .txn r) (f : TxnRecord → TxnRecord) :
    modRecord p f s = s.setSlot i (.txn (f r)) := by
  simp [modRecord, ho, hr]

theorem setSlot_self (hr : s.slot i = .txn r) : s.setSlot i (.txn r) = s := by
  have same : s.work.slots.set i (.txn r) = s.work.slots := by
    rw [← hr]
    exact Vector.set_getElem_self i.2
  rw [State.setSlot, same]

theorem setChan_self (s : State) (p : PosId) : s.setChan p (s.chan p) = s := by
  have same : s.channels.set p (s.chan p) = s.channels := Vector.set_getElem_self p.2
  rw [State.setChan, same]

theorem setSlot_openSlot (hr : s.slot i = .txn r) (hs : r'.state = r.state) (hp : r'.pos = r.pos) (q : PosId) :
    (s.setSlot i (.txn r')).openSlot q = s.openSlot q := by
  have same : (fun j => ((s.setSlot i (.txn r')).slot j).opensFor q) = fun j => (s.slot j).opensFor q := by
    funext j
    by_cases hj : j = i
    · subst hj
      rw [State.setSlot_slot, hr]
      simp [Slot.opensFor, hs, hp]
    · rw [State.setSlot_slot_ne _ _ _ _ hj]
  rw [State.openSlot, same]
  rfl

/-! ### The stages that a closing update shares with every update -/

/-- The record told that the billing mass has saturated (R128). -/
def TxnRecord.saturating (x : Bool) (r : TxnRecord) : TxnRecord :=
  { r with flags := { r.flags with saturated := r.flags.saturated || x } }

/-- The record told of creep (R130). -/
def TxnRecord.creeping (x : Bool) (r : TxnRecord) : TxnRecord :=
  { r with flags := { r.flags with creep := r.flags.creep || x } }

theorem TxnRecord.saturating_false (r : TxnRecord) : r.saturating false = r := by simp [saturating]

theorem TxnRecord.creeping_false (r : TxnRecord) : r.creeping false = r := by simp [creeping]

theorem meterTake_eq (ho : s.openSlot p = some i) (hr : s.slot i = .txn r) :
    meterTake p s = (s.setChan p ((s.chan p).take (s.cal p))).setSlot i
      (.txn (r.saturating ((s.chan p).accumulate (s.cal p)).exceeds)) := by
  have ho' : (s.modChan p fun c => c.take (s.cal p)).openSlot p = some i := ho
  have hr' : (s.modChan p fun c => c.take (s.cal p)).slot i = .txn r := hr
  unfold meterTake
  cases h : ((s.chan p).accumulate (s.cal p)).exceeds
  · rw [TxnRecord.saturating_false]
    exact (setSlot_self hr').symm
  · dsimp only
    rw [if_pos rfl, modRecord_at ho' hr', TxnRecord.saturating, Bool.or_true]
    rfl

theorem tellCreep_eq (ho : s.openSlot p = some i) (hr : s.slot i = .txn r) :
    tellCreep p s = (s.setChan p { s.chan p with creep := (s.chan p).creep || (s.chan p).creepAbove s.creepLimit }).setSlot i
      (.txn (r.creeping ((s.chan p).creepAbove s.creepLimit && !(s.chan p).creep))) := by
  have ho' : (s.modChan p fun c => { c with creep := true }).openSlot p = some i := ho
  have hr' : (s.modChan p fun c => { c with creep := true }).slot i = .txn r := hr
  unfold tellCreep
  cases h : (s.chan p).creepAbove s.creepLimit && !(s.chan p).creep
  · have same : ((s.chan p).creep || (s.chan p).creepAbove s.creepLimit) = (s.chan p).creep := by
      revert h
      cases (s.chan p).creep <;> cases (s.chan p).creepAbove s.creepLimit <;> simp
    rw [TxnRecord.creeping_false, same, setSlot_self (by exact hr)]
    exact (setChan_self s p).symm
  · have above : (s.chan p).creepAbove s.creepLimit = true := (Bool.and_eq_true_iff.1 h).1
    rw [if_pos rfl, modRecord_at ho' hr', above, TxnRecord.creeping, Bool.or_true, Bool.or_true]
    rfl

/-! ### The closing update -/

/-- A channel after the closing update (R126 to R130, R135). -/
def Channel.closing (c : Channel) (cal : ChannelCal) (limit : Nat) : Channel :=
  let t := c.take cal
  { t with creep := t.creep || t.creepAbove limit, gateOpen := false, settleGate := none }

/-- The open record after the closing update (R126 to R130, R144 to R146). -/
def TxnRecord.closing (r : TxnRecord) (c : Channel) (cal : ChannelCal) (limit : Nat) : TxnRecord :=
  let t := c.take cal
  ((r.saturating (c.accumulate cal).exceeds).creeping (t.creepAbove limit && !t.creep)).update t.mass

/-- The position with the mass of an update recorded (R40). -/
def Position.measured (x : Position) (mass : Nat) : Position := { x with ramp := { x.ramp with previousMass := mass } }

theorem TxnRecord.update_state (r : TxnRecord) (m : Nat) : (r.update m).state = r.state := by
  unfold TxnRecord.update TxnRecord.notePreset
  split <;> rfl

theorem TxnRecord.update_pos (r : TxnRecord) (m : Nat) : (r.update m).pos = r.pos := by
  unfold TxnRecord.update TxnRecord.notePreset
  split <;> rfl

theorem closingUpdate_eq (ho : s.openSlot p = some i) (hr : s.slot i = .txn r) :
    closingUpdate p s = ((s.setChan p ((s.chan p).closing (s.cal p) s.creepLimit)).setSlot i
      (.txn (r.closing (s.chan p) (s.cal p) s.creepLimit))).setPos p
        ((s.pos p).measured ((s.chan p).take (s.cal p)).mass) := by
  have taken := meterTake_eq ho hr
  have ho1 : (meterTake p s).openSlot p = some i := by
    rw [taken]
    exact (setSlot_openSlot (s := s.setChan p _) (r := r) (r' := r.saturating _) hr rfl rfl p).trans ho
  have hr1 : (meterTake p s).slot i = .txn (r.saturating ((s.chan p).accumulate (s.cal p)).exceeds) := by
    rw [taken, State.setSlot_slot]
  have told := tellCreep_eq ho1 hr1
  have ho2 : (tellCreep p (meterTake p s)).openSlot p = some i := by
    rw [told]
    exact (setSlot_openSlot (s := (meterTake p s).setChan p _) (r := r.saturating _)
      (r' := (r.saturating _).creeping _) hr1 rfl rfl p).trans ho1
  have hr2 : (tellCreep p (meterTake p s)).slot i = .txn ((r.saturating ((s.chan p).accumulate (s.cal p)).exceeds).creeping
      (((s.chan p).take (s.cal p)).creepAbove s.creepLimit && !((s.chan p).take (s.cal p)).creep)) := by
    rw [told, State.setSlot_slot, taken]
    simp
  have mass : ((tellCreep p (meterTake p s)).chan p).mass = ((s.chan p).take (s.cal p)).mass := by
    rw [told, taken]
    simp
  unfold closingUpdate
  dsimp only
  rw [modRecord_at ho2 hr2, mass, told, taken]
  simp [setPrevious, State.modPos, State.modChan, State.setChan, State.setPos, State.setSlot, State.chan, State.pos,
    Channel.closing, TxnRecord.closing, Position.measured]

/-! ### The close -/

/-- A closed transaction: its record and the totals are written together, its channel is shut (R135, R153). -/
def State.filed (s : State) (p : PosId) (i : SlotId) (r : TxnRecord) (c : Channel) : State := closeSlot i r (s.setChan p c)

theorem closeSlot_setPos (i : SlotId) (r : TxnRecord) (p : PosId) (x : Position) (s : State) :
    closeSlot i r (s.setPos p x) = (closeSlot i r s).setPos p x := rfl

theorem closeSlot_setSlot (i : SlotId) (r : TxnRecord) (y : Slot) (s : State) :
    closeSlot i r (s.setSlot i y) = closeSlot i r s := by
  have same : (s.setSlot i y).setSlot i (.txn r) = s.setSlot i (.txn r) := by simp [State.setSlot]
  rw [closeSlot, closeSlot, same]

theorem closeTransaction_at (ho : s.openSlot p = some i) (hr : s.slot i = .txn r) :
    closeTransaction p s = closeSlot i (r.complete (s.pos p).ramp s.stamp) s := by
  simp only [closeTransaction, ho, hr]

theorem complete_measured (r : TxnRecord) (g : RampGenerator) (m : Nat) (now : Stamp) :
    r.complete { g with previousMass := m } now = r.complete g now := rfl

theorem closeTransaction_eq (ho : s.openSlot p = some i) (hr : s.slot i = .txn r) :
    closeTransaction p (closingUpdate p s) =
      (s.filed p i ((r.closing (s.chan p) (s.cal p) s.creepLimit).complete (s.pos p).ramp s.stamp)
        ((s.chan p).closing (s.cal p) s.creepLimit)).setPos p ((s.pos p).measured ((s.chan p).take (s.cal p)).mass) := by
  have updated := closingUpdate_eq ho hr
  have hr1 : (closingUpdate p s).slot i = .txn (r.closing (s.chan p) (s.cal p) s.creepLimit) := by
    rw [updated]
    simp
  have ho1 : (closingUpdate p s).openSlot p = some i := by
    rw [updated]
    exact (setSlot_openSlot (s := s.setChan p _) (r := r) (r' := r.closing _ _ _) hr (TxnRecord.update_state ..)
      (TxnRecord.update_pos ..) p).trans ho
  have ramp : ((closingUpdate p s).pos p).ramp = { (s.pos p).ramp with previousMass := ((s.chan p).take (s.cal p)).mass } := by
    rw [updated, State.setPos_pos]
    rfl
  have stamp : (closingUpdate p s).stamp = s.stamp := by rw [updated]; rfl
  have closed : closeTransaction p (closingUpdate p s) =
      closeSlot i ((r.closing (s.chan p) (s.cal p) s.creepLimit).complete (s.pos p).ramp s.stamp) (closingUpdate p s) := by
    rw [closeTransaction_at ho1 hr1, ramp, stamp, complete_measured]
  rw [closed, updated, closeSlot_setPos, closeSlot_setSlot]
  rfl

/-- What a fill leaves behind at its close, but for its notices (R28). -/
def State.left (s : State) (p : PosId) (next : PosState) : State :=
  if next = .unavailable then makeUnavailable p (s.modPos p (Position.closed next)) else s.modPos p (Position.closed next)

theorem leaveFill_eq (p : PosId) (next : PosState) (tag : Tag) (s : State) :
    ∃ x, leaveFill p next tag s = { s.left p next with ports := x } ∧ x.map Port.steady = s.ports.map Port.steady := by
  have told : Sends (s.modPos p (Position.closed next)) (postFillState p tag (s.modPos p (Position.closed next))) :=
    sends_postNotice ..
  refine ⟨(postFillState p tag (s.modPos p (Position.closed next))).ports, ?_,
    congrArg State.ports (steady_postNotice ..)⟩
  unfold leaveFill State.left
  dsimp only
  by_cases h : next = .unavailable
  · rw [if_pos h, if_pos (by simpa using h), told.rest]
    rfl
  · rw [if_neg h, if_neg (by simpa using h)]
    exact told.rest

/-- The state a close leaves, but for its ports. -/
def State.after (s : State) (p : PosId) (i : SlotId) (r : TxnRecord) (c : Channel) (x : Position) (next : PosState)
    (y : Vector Port 6) : State :=
  { ((s.filed p i r c).setPos p x).left p next with ports := y, evt := .empty }

/-- The state in which a settle expiry leaves the part. -/
theorem closeFill_leaves (ho : s.openSlot p = some i) (hr : s.slot i = .txn r) : ∃ y,
    endEvent (closeFill p s) =
      s.after p i ((r.closing (s.chan p) (s.cal p) s.creepLimit).complete (s.pos p).ramp s.stamp)
        ((s.chan p).closing (s.cal p) s.creepLimit) ((s.pos p).measured ((s.chan p).take (s.cal p)).mass)
          (closedState (s.pos p)) y ∧ y.map Port.steady = s.ports.map Port.steady := by
  obtain ⟨x, left, steady⟩ := leaveFill_eq p (closedState ((closeTransaction p (closingUpdate p s)).pos p))
    ((closeTransaction p (closingUpdate p s)).pos p).tag (closeTransaction p (closingUpdate p s))
  rw [← closeFill_eq] at left
  have ended := (sends_endEvent (closeFill p s)).rest
  have same : closedState ((s.pos p).measured ((s.chan p).take (s.cal p)).mass) = closedState (s.pos p) := rfl
  have ports : (closeTransaction p (closingUpdate p s)).ports = s.ports := by
    rw [closeTransaction_eq ho hr]
    rfl
  have closes : (closeFill p s).ports = x := by rw [left]
  refine ⟨(endEvent (closeFill p s)).ports, ended.trans ?_, ?_⟩
  case refine_2 =>
    calc (endEvent (closeFill p s)).ports.map Port.steady
        = (closeFill p s).ports.map Port.steady := congrArg State.ports (steady_endEvent (closeFill p s))
      _ = s.ports.map Port.steady := by rw [closes, steady, ports]
  rw [left, closeTransaction_eq ho hr, State.setPos_pos, same]
  rfl

section
variable (p : PosId) (i : SlotId) (r : TxnRecord) (c : Channel) (x : Position) (next : PosState) (y : Vector Port 6)

theorem closeSlot_inFlight (s : State) :
    (closeSlot i r s).inFlight (.slot i) = true ∧ (closeSlot i r s).inFlight .totals = true := by
  obtain ⟨-, -, writes, -⟩ := issue_spec [.slot i (.txn r), .totals (s.work.totals.add r)]
    { s.setSlot i (.txn r) with work := { (s.setSlot i (.txn r)).work with totals := s.work.totals.add r } }
  exact ⟨writes (.slot i (.txn r)) (by simp), writes (.totals (s.work.totals.add r)) (by simp)⟩

theorem filed_setPos_left (s : State) :
    ((s.filed p i r c).setPos p x).left p next = closeSlot i r (((s.setChan p c).setPos p x).left p next) := by
  unfold State.left
  split <;> rfl

theorem left_work (s : State) : (s.left p next).work = s.work ∧ (s.left p next).groups = s.groups ∧
    (s.left p next).channels = s.channels ∧ (s.left p next).banks = s.banks ∧ (s.left p next).queue = s.queue ∧
    (s.left p next).comps = s.comps ∧ (s.left p next).lanes = s.lanes ∧
    (s.left p next).cooling.order = s.cooling.order ∧ (s.left p next).cooling.wait = s.cooling.wait := by
  unfold State.left
  split <;> exact ⟨rfl, rfl, rfl, rfl, rfl, rfl, rfl, rfl, rfl⟩

theorem after_slot (s : State) : (s.after p i r c x next y).slot i = .txn r := by
  rw [State.after, filed_setPos_left]
  exact State.setSlot_slot ..

theorem after_totals (s : State) : (s.after p i r c x next y).work.totals = s.work.totals.add r := by
  rw [State.after, filed_setPos_left]
  change (((s.setChan p c).setPos p x).left p next).work.totals.add r = _
  rw [(left_work p next _).1]
  rfl

theorem after_inFlight (s : State) : (s.after p i r c x next y).inFlight (.slot i) = true ∧
    (s.after p i r c x next y).inFlight .totals = true := by
  rw [State.after, filed_setPos_left]
  exact closeSlot_inFlight i r (((s.setChan p c).setPos p x).left p next)

theorem after_kept (s : State) : (s.after p i r c x next y).banks = s.banks ∧ (s.after p i r c x next y).queue = s.queue ∧
    (s.after p i r c x next y).comps = s.comps ∧ (s.after p i r c x next y).lanes = s.lanes ∧
    (s.after p i r c x next y).cooling.order = s.cooling.order ∧
    (s.after p i r c x next y).cooling.wait = s.cooling.wait := by
  obtain ⟨-, -, -, kept⟩ := left_work p next ((s.filed p i r c).setPos p x)
  exact kept

theorem after_chan (s : State) : (s.after p i r c x next y).chan p = c := by
  obtain ⟨-, -, channels, -⟩ := left_work p next ((s.filed p i r c).setPos p x)
  change (((s.filed p i r c).setPos p x).left p next).channels[p] = c
  rw [channels]
  exact State.setChan_chan ..

theorem after_others (s : State) {q : PosId} (h : q ≠ p) :
    (s.after p i r c x next y).pos q = s.pos q ∧ (s.after p i r c x next y).chan q = s.chan q := by
  constructor
  · have h' : p.val ≠ q.val := fun e => h (Fin.ext e.symm)
    unfold State.after State.left
    split
    · simp [makeUnavailable, State.filed, closeSlot, issue, State.pos, State.modPos, State.setPos, State.setGrantOf,
        State.setSlot, State.setChan, h']
    · simp [State.filed, closeSlot, issue, State.pos, State.modPos, State.setPos, State.setSlot, State.setChan, h']
  · obtain ⟨-, -, channels, -⟩ := left_work p next ((s.filed p i r c).setPos p x)
    change (((s.filed p i r c).setPos p x).left p next).channels[q] = s.chan q
    rw [channels]
    exact State.setChan_chan_ne _ _ _ _ h

theorem after_unavailable (s : State) :
    (s.after p i r c x .unavailable y).pos p = { Position.initial with lane := x.lane } ∧
    ((s.after p i r c x .unavailable y).grantOf (.pos p)).demand = 0 ∧
    ((s.after p i r c x .unavailable y).grantOf (.pos p)).floor = 0 := by
  unfold State.after State.left
  simp [makeUnavailable, State.filed, closeSlot, issue, State.pos, State.modPos, State.setPos, State.setGrantOf,
    State.grantOf, State.setSlot, State.setChan, Position.closed]

theorem after_available (s : State) (h : next ≠ .unavailable) :
    (s.after p i r c x next y).pos p = x.closed next ∧
    (s.after p i r c x next y).grantOf (.pos p) = s.grantOf (.pos p) := by
  unfold State.after State.left
  rw [if_neg h]
  simp [State.filed, closeSlot, issue, State.pos, State.modPos, State.setPos, State.grantOf, State.setSlot, State.setChan]

theorem after_without (s : State) (hy : y.map Port.steady = s.ports.map Port.steady) : ((s.after p i r c x next y).without p i).steady = (s.without p i).steady := by
  unfold State.after State.left
  split <;> simp [State.without, makeUnavailable, State.filed, closeSlot, issue, State.modPos, State.setPos,
    State.setGrantOf, State.setSlot, State.setChan, State.steady, Cooling.steady, hy]

end

/-! ### What an update makes of the channel and of the record -/

theorem take_mass (c : Channel) (cal : ChannelCal) :
    (c.take cal).mass = min (rne (c.accumulate cal).acc gramUnits) 999999 := by
  unfold Channel.take Channel.weigh Channel.exceeds
  split
  next h => exact (Nat.min_eq_right (Nat.le_of_lt (of_decide_eq_true h))).symm
  next h => exact (Nat.min_eq_left (Nat.not_lt.1 fun k => h (decide_eq_true k))).symm

theorem take_saturated (c : Channel) (cal : ChannelCal) :
    (c.take cal).saturated = (c.saturated || (c.accumulate cal).exceeds) := by
  unfold Channel.take Channel.weigh
  split
  next h => rw [h, Bool.or_true]
  next h =>
    rw [Bool.eq_false_iff.2 h, Bool.or_false]
    rfl

theorem take_creep (c : Channel) (cal : ChannelCal) :
    (c.take cal).creep = c.creep ∧ (c.take cal).creepAcc = (c.accumulate cal).creepAcc := by
  unfold Channel.take Channel.weigh
  split <;> exact ⟨rfl, rfl⟩

/-- The preset mass after an update with a mass (R145). -/
def TxnRecord.presetMassAt (r : TxnRecord) (m : Nat) : Option Nat :=
  if r.preset.reached m (amountOf m r.price) = true then some (r.presetMass.getD m) else r.presetMass

theorem TxnRecord.update_eq (r : TxnRecord) (m : Nat) : r.update m = { r with
    mass := m, amount := amountOf m r.price, billed := r.preset.billed (amountOf m r.price)
    presetMass := r.presetMassAt m, overrunMass := r.preset.overrun m (r.presetMassAt m)
    flags := { r.flags with
      overrun := r.flags.overrun || decide (r.preset.billed (amountOf m r.price) < amountOf m r.price) } } := by
  unfold TxnRecord.update TxnRecord.notePreset TxnRecord.presetMassAt
  split <;> rfl

/-- Settles O22: the closing update, the close of the record with the totals, and what the fill leaves behind. -/
theorem settleExpiryClosesTheTransaction : Obligations.SettleExpiryClosesTheTransaction := by
  unfold Obligations.SettleExpiryClosesTheTransaction
  intro s p i r hq hs ho hr
  obtain ⟨f, effect, hf⟩ : ∃ f, effectOf (.settleExpiry p) = some f ∧
      f s = if due (s.pos p).phaseTimer then closeFill p s else s := ⟨_, rfl, by simp [hs]⟩
  split
  next ht => exact takes_nothing effect hq (by rw [hf, if_neg (mt (due_iff _).1 ht)])
  next ht =>
    rw [if_pos ((due_iff _).2 (not_not.1 ht))] at hf
    obtain ⟨y, leaves, hy⟩ := closeFill_leaves ho hr
    have runs : exec (.settleExpiry p) s = .next (endEvent (closeFill p s)) := by
      rw [exec_effect effect, takeEvent, hq.serving, ← hf]
      rfl
    rw [leaves] at runs
    intro a exceeds creep
    obtain ⟨oldCreep, creepAcc⟩ := take_creep (s.chan p) (s.cal p)
    have above : ((s.chan p).take (s.cal p)).creepAbove s.creepLimit = creep := by rw [Channel.creepAbove, creepAcc]
    have mass := take_mass (s.chan p) (s.cal p)
    have closing : r.closing (s.chan p) (s.cal p) s.creepLimit =
        ((r.saturating exceeds).creeping (creep && !(s.chan p).creep)).update ((s.chan p).take (s.cal p)).mass := by
      rw [TxnRecord.closing, above, oldCreep]
      rfl
    rw [TxnRecord.update_eq] at closing
    have closedMass : ((s.chan p).closing (s.cal p) s.creepLimit).mass = ((s.chan p).take (s.cal p)).mass := rfl
    have closedCreep : ((s.chan p).closing (s.cal p) s.creepLimit).creep = ((s.chan p).creep || creep) := by
      rw [Channel.closing, above, oldCreep]
    generalize ((s.chan p).take (s.cal p)).mass = m at *
    generalize r.closing (s.chan p) (s.cal p) s.creepLimit = rc at *
    subst closing
    refine ⟨_, _, runs, after_slot .., rfl, rfl, mass, rfl, rfl, rfl, rfl, rfl, ?tank, rfl,
      after_totals .., (after_inFlight ..).1, (after_inFlight ..).2, ?position, ?count, ?chanMass, ?gate, ?settle, ?saturated,
      ?creep, fun q h => after_others _ _ _ _ _ _ _ _ h, ?kept⟩
    case tank => exact fun h => by simp [TxnRecord.complete, h, TxnRecord.creeping, TxnRecord.saturating]
    case position =>
      split
      next hl =>
        have gone : closedState (s.pos p) = .unavailable := by simp [closedState, hl]
        rw [gone]
        exact after_unavailable ..
      next hl =>
        have stays : closedState (s.pos p) = if (s.pos p).nozzle = .off then .idle else .finished := by
          simp [closedState, hl]
        obtain ⟨pos, grant⟩ := after_available p i
          (_ : TxnRecord) ((s.chan p).closing (s.cal p) s.creepLimit) ((s.pos p).measured m) (closedState (s.pos p)) y s
          (by rw [stays]; split <;> decide)
        refine ⟨pos.trans ?_, grant⟩
        rw [stays]
        rfl
    case kept =>
      obtain ⟨banks, queue, comps, lanes, order, wait⟩ := after_kept p i
        (_ : TxnRecord) ((s.chan p).closing (s.cal p) s.creepLimit) ((s.pos p).measured m) (closedState (s.pos p)) y s
      exact ⟨banks, queue, comps, lanes, order, wait, after_without _ _ _ _ _ _ _ _ hy⟩
    all_goals rw [after_chan]
    case count | gate | settle => rfl
    case chanMass => exact closedMass
    case saturated => exact take_saturated ..
    case creep => exact closedCreep

end Sys2Proof.Machine
end

section
/-! SUPPORT. The meter update: what the work that follows the metering leaves of the channel, of the bill and of the other
fills (R40 to R54, R126 to R136). -/

namespace Sys2Proof.Machine

variable {p q : PosId} {i : SlotId} {r r' : TxnRecord} {s t u : State}

/-! ### Fills that wait for nothing -/

/-- Every other position that waits for nothing is spared. -/
def Passes (p : PosId) (s t : State) : Prop := ∀ q, q ≠ p → ¬ Waits s q → Spares q s t

theorem Spares.not_waits (h : Spares q s t) (k : ¬ Waits s q) : ¬ Waits t q :=
  not_or.2 ⟨mt h.draws (not_or.1 k).1, mt h.cools (not_or.1 k).2⟩

theorem Passes.refl (p : PosId) (s : State) : Passes p s s := fun q _ _ => .refl q s

theorem Passes.trans (h : Passes p s t) (k : Passes p t u) : Passes p s u :=
  fun q hq hw => (h q hq hw).trans (k q hq ((h q hq hw).not_waits hw))

theorem Passes.others (h : Passes p s t) : OthersKept p s t := fun q hq hw => ⟨(h q hq hw).pos, (h q hq hw).chan⟩

theorem passes_endFill (reason : EndReason) (s : State) : Passes p s (endFill p reason s) := by
  intro q hq hw
  cases h : endable (s.pos p).state
  · rw [endFill_of_not_endable h]
    exact .refl q s
  · rw [endFill_eq h]
    obtain ⟨hd, hc⟩ := not_or.1 hw
    have marks := spares_endMarks hq reason s
    exact (marks.trans (spares_endReleases (mt marks.draws hd) (mt marks.cools hc) hq)).trans
      (spares_endTells (old := s.pos p) hq)

theorem passes_releaseBank (s : State) : Passes p s (releaseBank p s) := fun _ hq hw =>
  (spares_modPos hq _).trans (spares_releaseBank (not_or.1 hw).1 p)

theorem passes_of (h : ∀ q, q ≠ p → Spares q s t) : Passes p s t := fun q hq _ => h q hq

/-! ### What a meter update has counted -/

/-- A record whose bill and counted flags stand. -/
structure TxnRecord.Counts (r r' : TxnRecord) : Prop where
  steady : r'.steady = r.steady
  overrun : r'.flags.overrun = r.flags.overrun
  saturated : r'.flags.saturated = r.flags.saturated
  creep : r'.flags.creep = r.flags.creep

theorem TxnRecord.Marks.counts (h : r.Marks r') : r.Counts r' where
  steady := h.1
  overrun := (congrArg RecordFlags.overrun h.2 :)
  saturated := (congrArg RecordFlags.saturated h.2 :)
  creep := (congrArg RecordFlags.creep h.2 :)

theorem TxnRecord.Counts.trans {r'' : TxnRecord} (h : r.Counts r') (k : r'.Counts r'') : r.Counts r'' :=
  ⟨k.steady.trans h.steady, k.overrun.trans h.overrun, k.saturated.trans h.saturated, k.creep.trans h.creep⟩

/-- The work of a position that leaves its meter and its bill alone. -/
structure Works (p : PosId) (i : SlotId) (s t : State) : Prop where
  timer : (t.pos p).periodTimer = (s.pos p).periodTimer
  chan : (t.chan p).steady = (s.chan p).steady
  opens : t.openSlot p = s.openSlot p
  record : ∀ r, s.slot i = .txn r → ∃ r', t.slot i = .txn r' ∧ r.Counts r'
  writes : s.inFlight (.slot i) = true → t.inFlight (.slot i) = true
  frame : (t.without p i).steady = (s.without p i).steady
  passes : Passes p s t

theorem Works.refl (p : PosId) (i : SlotId) (s : State) : Works p i s s :=
  ⟨rfl, rfl, rfl, fun r h => ⟨r, h, rfl, rfl, rfl, rfl⟩, id, rfl, .refl p s⟩

theorem Works.trans (h : Works p i s t) (k : Works p i t u) : Works p i s u where
  timer := k.timer.trans h.timer
  chan := k.chan.trans h.chan
  opens := k.opens.trans h.opens
  record r hr := by
    obtain ⟨r', hr', c⟩ := h.record r hr
    obtain ⟨r'', hr'', d⟩ := k.record r' hr'
    exact ⟨r'', hr'', c.trans d⟩
  writes := k.writes ∘ h.writes
  frame := k.frame.trans h.frame
  passes := h.passes.trans k.passes

theorem works_ite (c : Prop) [Decidable c] (ht : Works p i s t) (hu : Works p i s u) :
    Works p i s (if c then t else u) := by
  split
  · exact ht
  · exact hu

theorem pos_steady_of (h : t.steady = s.steady) (q : PosId) : (t.pos q).steady = (s.pos q).steady := by
  have := congrArg (fun u : State => u.positions[q]) h
  simpa [State.steady, State.pos] using this

theorem chan_steady_of (h : t.steady = s.steady) (q : PosId) : (t.chan q).steady = (s.chan q).steady := by
  have := congrArg (fun u : State => u.channels[q]) h
  simpa [State.steady, State.chan] using this

/-- Where the states agree in what cascades leave alone, so do they without a position and its record. -/
theorem without_steady (h : t.steady = s.steady) : (t.without p i).steady = (s.without p i).steady := by
  have := congrArg (fun u : State => (u.without p i).steady) h
  have slots : Slot.steady ∘ Slot.steady = Slot.steady := funext fun x => by cases x <;> rfl
  have positions : Position.steady ∘ Position.steady = Position.steady := rfl
  have channels : Channel.steady ∘ Channel.steady = Channel.steady := rfl
  have grants : GrantEntry.steady ∘ GrantEntry.steady = GrantEntry.steady := rfl
  have banks (x : Bank) : x.steady.steady = x.steady := rfl
  have comps (x : Compressor) : x.steady.steady = x.steady := rfl
  have lanes (x : Lane) : x.steady.steady = x.steady := rfl
  have ports (x : Port) : x.steady.steady = x.steady := rfl
  have erase (u : State) : (u.steady.without p i).steady = (u.without p i).steady := by
    simp [State.without, State.steady, State.setPos, State.setChan, State.setGrantOf, StoreData.steady, Cooling.steady, Vector.map_set,
      slots, positions, channels, grants, banks, comps, lanes, ports]
  exact (erase t).symm.trans (this.trans (erase s))

theorem works_moves (m : Moves s t) (h : t.steady = s.steady) (k : Passes p s t) : Works p i s t where
  timer := (congrArg Position.periodTimer (pos_steady_of h p) :)
  chan := chan_steady_of h p
  opens := m.openSlot p
  record r hr := by
    have := m.slot i
    rw [hr] at this
    obtain ⟨r', hr', marks⟩ := this
    exact ⟨r', hr', marks.counts⟩
  writes := m.inFlight _
  frame := without_steady h
  passes := k

/-- The position itself changes, its period timer apart. -/
theorem works_modPos (f : Position → Position) (h : ∀ x, (f x).periodTimer = x.periodTimer) (s : State) :
    Works p i s (s.modPos p f) where
  timer := by rw [State.modPos_pos, h]
  chan := rfl
  opens := rfl
  record r hr := ⟨r, hr, rfl, rfl, rfl, rfl⟩
  writes := id
  frame := by simp [State.without, State.modPos, State.setPos]
  passes := passes_of fun _ hq => spares_modPos hq f

theorem works_modRecord (f : TxnRecord → TxnRecord) (hf : ∀ r : TxnRecord, r.Counts (f r)) (s : State) :
    Works p i s (modRecord p f s) where
  timer := by
    obtain ⟨w, e⟩ := modRecord_eq p f s
    rw [e]
    rfl
  chan := by
    obtain ⟨w, e⟩ := modRecord_eq p f s
    rw [e]
    rfl
  opens := (modRecord_openRecord p f s (fun r => (congrArg TxnRecord.state (hf r).steady :))
    (fun r => (congrArg TxnRecord.pos (hf r).steady :))).1 p
  record r hr := by
    unfold modRecord
    split
    · exact ⟨r, hr, rfl, rfl, rfl, rfl⟩
    next j hj =>
      split
      next r0 h0 =>
        by_cases e : i = j
        · subst e
          rw [hr] at h0
          cases h0
          exact ⟨f r, State.setSlot_slot .., hf r⟩
        · exact ⟨r, (State.setSlot_slot_ne _ _ _ _ e).trans hr, rfl, rfl, rfl, rfl⟩
      · exact ⟨r, hr, rfl, rfl, rfl, rfl⟩
  writes := by
    obtain ⟨w, e⟩ := modRecord_eq p f s
    rw [e]
    exact id
  frame := without_steady (steady_modRecord p f s fun r => (hf r).steady)
  passes := passes_of fun _ hq => spares_modRecord hq f (fun r => (congrArg TxnRecord.state (hf r).steady :))
    (fun r => (congrArg TxnRecord.pos (hf r).steady :))

/-! ### Ends, switches, holds -/

theorem works_endFill (reason : EndReason) (s : State) : Works p i s (endFill p reason s) :=
  works_moves (moves_endFill p reason .refl) (steady_endFill ..) (passes_endFill reason s)

theorem works_releaseBank (s : State) : Works p i s (releaseBank p s) :=
  works_moves (moves_releaseBank p .refl) (steady_releaseBank ..) (passes_releaseBank s)

theorem works_endSegment (c : SegmentEnd) (s : State) : Works p i s (endSegment p c s) :=
  works_moves (moves_endSegment p c .refl) (steady_endSegment ..) (passes_of fun _ hq => spares_endSegment hq c)

theorem works_enterHold (r : HoldReason) (s : State) : Works p i s (enterHold p r s) :=
  works_moves (moves_enterHold p r .refl) (steady_enterHold ..) (passes_of fun _ hq => spares_enterHold hq r)

theorem works_checksCD (s : State) : Works p i s (checksCD p s) :=
  works_moves (moves_checksCD p .refl) (steady_checksCD ..) (passes_of fun _ hq => spares_checksCD hq)

theorem works_holdFromRamp (r : HoldReason) (s : State) : Works p i s (holdFromRamp p r s) :=
  ((works_endSegment .hold s).trans (works_releaseBank _)).trans (works_enterHold r _)

theorem works_drawRequest (k : DrawKind) (x : Option BankId) (s : State) : Works p i s (drawRequest p k x s) :=
  works_moves (moves_drawRequest p k x .refl) (steady_drawRequest ..) (passes_of fun _ hq => spares_drawRequest hq k x)

theorem works_sendValve (s : State) : Works p i s (sendValve p s) :=
  works_moves (moves_sendValve p .refl) (steady_sendValve ..) (passes_of fun _ _ => spares_sendValve p)

theorem works_switchBank (c : SegmentEnd) (s : State) : Works p i s (switchBank p c s) := by
  unfold switchBank
  split
  · exact .refl p i s
  · have asked (x : Option BankId) := ((works_endSegment (p := p) (i := i) c s).trans (works_releaseBank _)).trans
      (works_drawRequest .ramp x _)
    exact works_ite _ (asked _) ((asked _).trans (works_enterHold .bank _))

theorem works_checkpoint (s : State) : Works p i s (checkpoint p [] s) :=
  works_moves (moves_checkpoint p .refl) (steady_checkpoint ..) (passes_of fun _ hq => spares_checkpoint hq _)

theorem steady_setDrawn (p : PosId) (s : State) : (setDrawn p s).steady = s.steady := by
  unfold setDrawn
  split
  · split
    · exact steady_modBank _ _ _ fun _ => rfl
    · rfl
  · rfl

theorem spares_setDrawn (p q : PosId) (s : State) : Spares q s (setDrawn p s) := by
  unfold setDrawn
  split
  · split
    · exact spares_modBank _ _ id
    · exact .refl q s
  · exact .refl q s

theorem works_setDrawn (s : State) : Works p i s (setDrawn p s) :=
  works_moves (moves_setDrawn p s) (steady_setDrawn p s) (passes_of fun q _ => spares_setDrawn p q s)

/-! ### The ramp step -/

theorem works_postNotice (k : NoticeKind) (n : Nat) (data : List Field) (ports : List PortId) (s : State) (hk : k ≠ .esd) :
    Works p i s (postNotice k n data ports s) :=
  works_moves (moves_postNotice n data ports hk .refl) (steady_postNotice ..) (passes_of fun _ _ => spares_postNotice ..)

theorem works_degrade (s : State) : Works p i s (degrade p s) := by
  have marked := (works_modPos (p := p) (i := i) Position.degraded (fun _ => rfl) s).trans
    (works_modRecord (fun r => { r with flags := { r.flags with degraded := true } }) (fun _ => ⟨rfl, rfl, rfl, rfl⟩) _)
  rw [degrade_eq]
  exact (works_ite _ (marked.trans (works_endFill _ _)) marked).trans (works_postNotice _ _ _ _ _ (by decide))

theorem works_setPointStage (k : ClassId) (b : BankId) (s : State) : Works p i s (setPointStage p k b s) :=
  (works_modPos _ (by exact fun _ => rfl) s).trans (works_sendValve _)

theorem works_switchStage (k : ClassId) (b : BankId) (mass : Nat) (s : State) : Works p i s (switchStage p k b mass s) :=
  works_ite _ ((works_modPos _ (by exact fun _ => rfl) s).trans (works_switchBank _ _))
    (works_ite _ ((works_modPos _ (by exact fun _ => rfl) s).trans (works_switchBank _ _))
      ((works_modPos _ (by exact fun _ => rfl) s).trans (works_setPointStage k b _)))

theorem works_stages3to5 (k : ClassId) (b : BankId) (mass : Nat) (s : State) : Works p i s (stages3to5 p k b mass s) :=
  works_ite _ (works_endFill _ s) (works_switchStage k b mass s)

theorem works_stages2to5 (k : ClassId) (b : BankId) (mass : Nat) (s : State) : Works p i s (stages2to5 p k b mass s) := by
  unfold stages2to5
  dsimp only
  split
  · exact (works_modPos _ (by exact fun _ => rfl) s).trans (works_ite _ (works_endFill _ _) (works_stages3to5 k b mass _))
  · exact works_stages3to5 k b mass s

theorem works_consumeAt (s : State) : Works p i s (consumeAt p s) := works_modPos _ (by exact fun _ => rfl) s

theorem works_rampStep (k : ClassId) (b : BankId) (mass : Nat) (s : State) : Works p i s (rampStep p k b mass s) := by
  refine (works_consumeAt s).trans ?_
  unfold rampStep
  dsimp only
  split
  · exact works_endFill _ _
  · exact works_ite _ ((works_degrade _).trans (works_stages2to5 k b mass _)) (works_degrade _)
  · exact works_holdFromRamp _ _
  · exact works_stages2to5 k b mass _
  · exact works_stages2to5 k b mass _

theorem works_vehicleUpdate (s : State) : Works p i s (vehicleUpdate p s) := by
  refine (works_consumeAt s).trans ?_
  unfold vehicleUpdate
  dsimp only
  split
  · exact works_endFill _ _
  · exact works_ite _ ((works_degrade _).trans (works_checksCD _)) (works_degrade _)
  · exact works_checksCD _
  · exact .refl p i _
  · exact .refl p i _

theorem works_setPrevious (s : State) : Works p i s (setPrevious p s) := works_modPos _ (by exact fun _ => rfl) s

theorem works_meterComplete (s : State) : Works p i s (meterComplete p s) := by
  refine (works_setDrawn s).trans ?_
  unfold meterComplete
  dsimp only
  split
  · exact (works_rampStep _ _ _ _).trans (works_setPrevious _)
  · exact (works_vehicleUpdate _).trans (works_setPrevious _)
  · exact works_setPrevious _

theorem works_meterCross (old : Nat) (s : State) : Works p i s (meterCross p old s) :=
  works_ite _ (works_checkpoint s) (.refl p i s)

/-! ### The stages that meter and bill -/

/-- A state within a meter update of `s`: what the channel and the record have come to, and what the update leaves
alone. -/
structure Bills (p : PosId) (i : SlotId) (s : State) (c : Channel) (r : TxnRecord) (t : State) : Prop where
  timer : (t.pos p).periodTimer = some 1000
  chan : (t.chan p).steady = c.steady
  opens : t.openSlot p = some i
  record : ∃ r', t.slot i = .txn r' ∧ r.Counts r'
  frame : (t.without p i).steady = (s.without p i).steady
  passes : Passes p s t

variable {c : Channel}

theorem Bills.works (h : Bills p i s c r t) (k : Works p i t u) : Bills p i s c r u where
  timer := k.timer.trans h.timer
  chan := k.chan.trans h.chan
  opens := k.opens.trans h.opens
  record := by
    obtain ⟨r', hr', counts⟩ := h.record
    obtain ⟨r'', hr'', more⟩ := k.record r' hr'
    exact ⟨r'', hr'', counts.trans more⟩
  frame := k.frame.trans h.frame
  passes := h.passes.trans k.passes

theorem Bills.creepLimit (h : Bills p i s c r t) : t.creepLimit = s.creepLimit := by
  have limit (u : State) : (u.without p i).steady.creepLimit = u.creepLimit := by simp [State.without, State.steady]
  rw [← limit t, h.frame, limit s]

/-- A change of the record that is open for one position leaves the record of another. -/
theorem setSlot_openRecord (ho : t.openSlot p = some i) (hr : t.slot i = .txn r) (hs : r'.state = r.state)
    (hp : r'.pos = r.pos) (h : q ≠ p) : (t.setSlot i (.txn r')).openRecord q = t.openRecord q := by
  unfold State.openRecord
  rw [setSlot_openSlot hr hs hp]
  cases hj : t.openSlot q with
  | none => rfl
  | some j =>
    have other : j ≠ i := by
      rintro rfl
      have h1 : (t.slot j).opensFor q = true := List.find?_some (p := fun i => (t.slot i).opensFor q) hj
      have h2 : (t.slot j).opensFor p = true := List.find?_some (p := fun i => (t.slot i).opensFor p) ho
      simp only [hr, Slot.opensFor, Bool.and_eq_true, beq_iff_eq] at h1 h2
      exact h (h1.2.symm.trans h2.2)
    simp only [State.setSlot_slot_ne _ _ _ _ other]

/-- The channel and the record change together, as the update counts them. -/
theorem Bills.set (h : Bills p i s c r t) (hr : t.slot i = .txn r') {c' : Channel} {r'' : TxnRecord}
    (hs : r''.state = r'.state) (hp : r''.pos = r'.pos) : Bills p i s c' r'' ((t.setChan p c').setSlot i (.txn r'')) where
  timer := h.timer
  chan := by simp
  opens := (setSlot_openSlot (s := t.setChan p c') (r := r') (r' := r'') hr hs hp p).trans h.opens
  record := ⟨r'', State.setSlot_slot .., rfl, rfl, rfl, rfl⟩
  frame := by
    have same : ((t.setChan p c').setSlot i (.txn r'')).without p i = t.without p i := by
      simp [State.without, State.setChan, State.setSlot, State.setPos, State.setGrantOf]
    rw [same]
    exact h.frame
  passes := by
    refine h.passes.trans (passes_of fun q hq => (spares_modChan hq fun _ => c').trans ?_)
    exact ⟨rfl, rfl, setSlot_openRecord (t := t.setChan p c') h.opens hr hs hp hq, id, id, id, fun _ => id⟩

/-- The update's mass and the first counts (R126 to R128). -/
theorem bills_meterTake (ho : s.openSlot p = some i) (hr : s.slot i = .txn r) (ht : (s.pos p).periodTimer = some 1000) :
    Bills p i s ((s.chan p).take (s.cal p)) (r.saturating ((s.chan p).accumulate (s.cal p)).exceeds) (meterTake p s) := by
  rw [meterTake_eq ho hr]
  exact Bills.set (c := s.chan p) ⟨ht, rfl, ho, ⟨r, hr, rfl, rfl, rfl, rfl⟩, rfl, .refl p s⟩ hr rfl rfl

theorem chan_eq_of_steady {c d : Channel} (h : c.steady = d.steady) :
    c.creepAcc = d.creepAcc ∧ c.creep = d.creep ∧ c.mass = d.mass :=
  ⟨(congrArg Channel.creepAcc h :), (congrArg Channel.creep h :), (congrArg Channel.mass h :)⟩

/-- The channel told of creep (R130). -/
def Channel.creeping (x : Bool) (c : Channel) : Channel := { c with creep := c.creep || x }

theorem Bills.tells (h : Bills p i s c r t) :
    Bills p i s (c.creeping (c.creepAbove s.creepLimit && !c.creep)) (r.creeping (c.creepAbove s.creepLimit && !c.creep))
      (tellCreep p t) := by
  obtain ⟨r', hr', counts⟩ := h.record
  obtain ⟨acc, creep, -⟩ := chan_eq_of_steady h.chan
  have above : (t.chan p).creepAbove t.creepLimit = c.creepAbove s.creepLimit := by
    rw [Channel.creepAbove, Channel.creepAbove, acc, h.creepLimit]
  rw [tellCreep_eq h.opens hr', above, creep]
  have told := Bills.set h hr' (c' := { t.chan p with creep := c.creep || c.creepAbove s.creepLimit })
    (r'' := r'.creeping (c.creepAbove s.creepLimit && !c.creep)) rfl rfl
  refine ⟨told.timer, told.chan.trans ?_, told.opens, ?_, told.frame, told.passes⟩
  · have same : (c.creep || c.creepAbove s.creepLimit) = (c.creep || (c.creepAbove s.creepLimit && !c.creep)) := by
      cases c.creep <;> simp
    have := congrArg (fun d : Channel => { d with creep := c.creep || c.creepAbove s.creepLimit }) h.chan
    rw [Channel.creeping, ← same]
    exact this
  · obtain ⟨r'', hr'', more⟩ := told.record
    refine ⟨r'', hr'', more.steady.trans counts.steady, more.overrun.trans counts.overrun,
      more.saturated.trans counts.saturated, more.creep.trans ?_⟩
    rw [TxnRecord.creeping, TxnRecord.creeping, counts.creep]

/-- The creep test of stage 4 tells the channel and the record, in HOLD and ENDING (R130). -/
def creepTold (state : PosState) (c : Channel) (limit : Nat) : Bool :=
  (state == .hold || state == .ending) && (c.creepAbove limit && !c.creep)

theorem creepTold_here {state : PosState} (h : (state == .hold || state == .ending) = true) (c : Channel) (limit : Nat) :
    creepTold state c limit = (c.creepAbove limit && !c.creep) := by rw [creepTold, h, Bool.true_and]

theorem creepTold_other {state : PosState} (h : (state == .hold || state == .ending) = false) (c : Channel) (limit : Nat) :
    creepTold state c limit = false := by rw [creepTold, h, Bool.false_and]

theorem Channel.creeping_false (c : Channel) : c.creeping false = c := by simp [creeping]

theorem Bills.tests (h : Bills p i s c r t) (state : PosState) :
    Bills p i s (c.creeping (creepTold state c s.creepLimit)) (r.creeping (creepTold state c s.creepLimit))
      (creepTest p state t) := by
  have untold (e : creepTold state c s.creepLimit = false) (k : Works p i t (creepTest p state t)) :
      Bills p i s (c.creeping (creepTold state c s.creepLimit)) (r.creeping (creepTold state c s.creepLimit))
        (creepTest p state t) := by
    rw [e, Channel.creeping_false, TxnRecord.creeping_false]
    exact h.works k
  have told (e : creepTold state c s.creepLimit = (c.creepAbove s.creepLimit && !c.creep)) :
      Bills p i s (c.creeping (creepTold state c s.creepLimit)) (r.creeping (creepTold state c s.creepLimit))
        (tellCreep p t) := by
    rw [e]
    exact h.tells
  cases state with
  | leakCheck => exact untold (creepTold_other (by decide) _ _) (works_ite _ (works_endFill _ t) (.refl p i t))
  | hold | ending => exact told (creepTold_here (by decide) _ _)
  | _ => exact untold (creepTold_other (by decide) _ _) (.refl p i t)

theorem Bills.faults (h : Bills p i s c r t) (before : Channel) :
    Bills p i s (c.creeping (creepTold (t.pos p).state c s.creepLimit))
      (r.creeping (creepTold (t.pos p).state c s.creepLimit)) (meterFaults p before t) := by
  have ended := (h.works (works_ite ((before.accumulate (t.cal p)).exceeds = true) (works_endFill .massSaturated t)
    (.refl p i t)))
  have faulted := (ended.works (works_ite (before.overflow = true) (works_endFill .meterFault _)
    (.refl p i _))).tests (t.pos p).state
  exact faulted.works (works_ite _ (works_endFill .meterFault _) (.refl p i _))

theorem TxnRecord.Counts.update (h : r.Counts r') (m : Nat) : (r.update m).Counts (r'.update m) := by
  have preset : r'.preset = r.preset := (congrArg TxnRecord.preset h.steady :)
  have price : r'.price = r.price := (congrArg TxnRecord.price h.steady :)
  have noted : r'.presetMass = r.presetMass := (congrArg TxnRecord.presetMass h.steady :)
  have presetAt : r'.presetMassAt m = r.presetMassAt m := by
    rw [TxnRecord.presetMassAt, TxnRecord.presetMassAt, preset, price, noted]
  rw [TxnRecord.update_eq, TxnRecord.update_eq, presetAt, preset, price]
  constructor
  case steady =>
    exact congrArg (fun x : TxnRecord => { x with
      price := r.price, preset := r.preset, mass := m, amount := amountOf m r.price, billed := r.preset.billed (amountOf m r.price)
      presetMass := r.presetMassAt m, overrunMass := r.preset.overrun m (r.presetMassAt m) }) h.steady
  case overrun => exact congrArg (· || _) h.overrun
  case saturated => exact h.saturated
  case creep => exact h.creep

theorem Bills.bill (h : Bills p i s c r t) : Bills p i s c (r.update c.mass) (meterBill p t) := by
  obtain ⟨r', hr', counts⟩ := h.record
  obtain ⟨-, -, mass⟩ := chan_eq_of_steady h.chan
  have billed : Bills p i s c (r.update c.mass) (modRecord p (fun r => r.update (t.chan p).mass) t) := by
    rw [modRecord_at h.opens hr', mass]
    have set := Bills.set (c' := t.chan p) h hr' (r'.update_state c.mass) (r'.update_pos c.mass)
    rw [setChan_self] at set
    obtain ⟨r'', hr'', more⟩ := set.record
    exact ⟨set.timer, set.chan.trans h.chan, set.opens, ⟨r'', hr'', (counts.update c.mass).trans more⟩, set.frame, set.passes⟩
  exact billed.works (works_ite _ (works_endFill _ _) (.refl p i _))

/-! ### The first end reason (R133) -/

/-- The position where it can end no more: state and end reason stay. -/
structure Settled (p : PosId) (s t : State) : Prop where
  state : (t.pos p).state = (s.pos p).state
  reason : (t.pos p).endReason = (s.pos p).endReason

theorem Settled.trans (h : Settled p s t) (k : Settled p t u) : Settled p s u :=
  ⟨k.state.trans h.state, k.reason.trans h.reason⟩

theorem settled_of_pos (h : t.pos p = s.pos p) : Settled p s t := ⟨by rw [h], by rw [h]⟩

theorem settled_endFill (h : endable (s.pos p).state = false) (reason : EndReason) : Settled p s (endFill p reason s) :=
  settled_of_pos (by rw [endFill_of_not_endable h])

theorem settled_ite (c : Prop) [Decidable c] (ht : Settled p s t) (hu : Settled p s u) :
    Settled p s (if c then t else u) := by
  split
  · exact ht
  · exact hu

theorem modRecord_pos (f : TxnRecord → TxnRecord) (s : State) (q : PosId) : (modRecord p f s).pos q = s.pos q := by
  obtain ⟨w, e⟩ := modRecord_eq p f s
  rw [e]
  rfl

theorem settled_tellCreep (s : State) : Settled p s (tellCreep p s) :=
  settled_ite _ (settled_of_pos (modRecord_pos _ _ p)) (settled_of_pos rfl)

theorem settled_creepTest (h : endable (s.pos p).state = false) (state : PosState) : Settled p s (creepTest p state s) := by
  cases state with
  | leakCheck => exact settled_ite _ (settled_endFill h _) (settled_of_pos rfl)
  | hold | ending => exact settled_tellCreep s
  | _ => exact settled_of_pos rfl

theorem settled_meterBill (h : endable (s.pos p).state = false) : Settled p s (meterBill p s) := by
  have billed : Settled p s (modRecord p (fun r => r.update (s.chan p).mass) s) := settled_of_pos (modRecord_pos _ _ p)
  exact settled_ite _ (billed.trans (settled_endFill (by rw [billed.state]; exact h) _)) billed

theorem settled_meterCross (old : Nat) (s : State) : Settled p s (meterCross p old s) :=
  settled_ite _ (settled_of_pos ((trails_checkpoint p [] s).pos p)) (settled_of_pos rfl)

theorem settled_setDrawn (s : State) : Settled p s (setDrawn p s) := by
  refine settled_of_pos ?_
  unfold setDrawn
  split
  · split <;> rfl
  · rfl

theorem settled_meterComplete (h : endable (s.pos p).state = false) : Settled p s (meterComplete p s) := by
  have drawn := settled_setDrawn (p := p) s
  refine drawn.trans ?_
  rw [← drawn.state] at h
  unfold meterComplete
  dsimp only
  split
  next state _ _ => simp [state, endable] at h
  next state _ => simp [state, endable] at h
  next => exact ⟨by simp [setPrevious], by simp [setPrevious]⟩

/-- What follows the first end of an update leaves it. -/
theorem settled_rest (h : endable (s.pos p).state = false) (old : Nat) :
    Settled p s (meterComplete p (meterCross p old (meterBill p s))) := by
  have billed := settled_meterBill h
  have crossed := billed.trans (settled_meterCross old _)
  exact crossed.trans (settled_meterComplete (by rw [crossed.state]; exact h))

/-- The fill has ended with a reason. -/
def Over (p : PosId) (why : EndReason) (t : State) : Prop :=
  (t.pos p).state = .ending ∧ (t.pos p).endReason = some why

theorem Over.not_endable {why : EndReason} (h : Over p why t) : endable (t.pos p).state = false := by
  rw [h.1]
  rfl

theorem Over.settled {why : EndReason} (h : Over p why s) (k : Settled p s t) : Over p why t :=
  ⟨k.state.trans h.1, k.reason.trans h.2⟩

theorem over_endFill (h : endable (s.pos p).state = true) (why : EndReason) : Over p why (endFill p why s) := by
  obtain ⟨position, -⟩ := endFill_ended why h
  exact ⟨congrArg Position.state position, congrArg Position.endReason position⟩

/-- The first fault of stage 4 (R126, R128 to R132). -/
def faultOf (before : Channel) (s : State) (p : PosId) : Option EndReason :=
  if (before.accumulate (s.cal p)).exceeds = true then some .massSaturated
  else if before.overflow = true then some .meterFault
  else if (s.pos p).state = .leakCheck ∧ (s.chan p).creepAbove s.creepLimit = true then some .leak
  else if (s.pos p).state = .ramp ∧ (s.chan p).stalled s.clock = true then some .meterFault
  else none

/-- Stage 4 after its saturation test. -/
def laterFaults (p : PosId) (before : Channel) (state : PosState) (stalled : Bool) (s : State) : State :=
  let s := creepTest p state (if before.overflow then endFill p .meterFault s else s)
  if stalled then endFill p .meterFault s else s

theorem meterFaults_eq (before : Channel) (s : State) : meterFaults p before s =
    laterFaults p before (s.pos p).state ((s.pos p).state == .ramp && (s.chan p).stalled s.clock)
      (if (before.accumulate (s.cal p)).exceeds then endFill p .massSaturated s else s) := rfl

theorem settled_laterFaults (h : endable (s.pos p).state = false) (before : Channel) (state : PosState) (stalled : Bool) :
    Settled p s (laterFaults p before state stalled s) := by
  have flowed : Settled p s (if before.overflow = true then endFill p .meterFault s else s) :=
    settled_ite _ (settled_endFill h _) (settled_of_pos rfl)
  have tested := flowed.trans (settled_creepTest (by rw [flowed.state]; exact h) state)
  exact settled_ite _ (tested.trans (settled_endFill (by rw [tested.state]; exact h) _)) tested

theorem faults_over {before : Channel} {why : EndReason} (h : endable (s.pos p).state = true)
    (hw : faultOf before s p = some why) : Over p why (meterFaults p before s) := by
  rw [meterFaults_eq]
  unfold faultOf at hw
  by_cases exceeds : (before.accumulate (s.cal p)).exceeds = true
  · rw [if_pos exceeds] at hw ⊢
    cases hw
    have ended := over_endFill h .massSaturated
    exact ended.settled (settled_laterFaults ended.not_endable ..)
  rw [if_neg exceeds] at hw ⊢
  unfold laterFaults
  dsimp only
  by_cases overflow : before.overflow = true
  · rw [if_pos overflow] at hw ⊢
    cases hw
    have ended := over_endFill h .meterFault
    have tested := ended.settled (settled_creepTest ended.not_endable (s.pos p).state)
    exact tested.settled (settled_ite _ (settled_endFill tested.not_endable _) (settled_of_pos rfl))
  rw [if_neg overflow] at hw ⊢
  by_cases leak : (s.pos p).state = .leakCheck ∧ (s.chan p).creepAbove s.creepLimit = true
  · rw [if_pos leak] at hw
    cases hw
    have test : creepTest p (s.pos p).state s = endFill p .leak s := by rw [leak.1]; exact if_pos leak.2
    rw [test]
    have ended := over_endFill h .leak
    exact ended.settled (settled_ite _ (settled_endFill ended.not_endable _) (settled_of_pos rfl))
  rw [if_neg leak] at hw
  by_cases stalled : (s.pos p).state = .ramp ∧ (s.chan p).stalled s.clock = true
  · rw [if_pos stalled] at hw
    cases hw
    have test : creepTest p (s.pos p).state s = s := by rw [stalled.1]; rfl
    rw [test, if_pos (by simp [stalled.1, stalled.2])]
    exact over_endFill h _
  · rw [if_neg stalled] at hw
    cases hw

/-- Stage 4 without a fault leaves the position. -/
theorem faults_pos {before : Channel} (hw : faultOf before s p = none) : (meterFaults p before s).pos p = s.pos p := by
  rw [meterFaults_eq]
  unfold faultOf at hw
  by_cases exceeds : (before.accumulate (s.cal p)).exceeds = true
  · rw [if_pos exceeds] at hw
    cases hw
  rw [if_neg exceeds] at hw ⊢
  unfold laterFaults
  dsimp only
  by_cases overflow : before.overflow = true
  · rw [if_pos overflow] at hw
    cases hw
  rw [if_neg overflow] at hw ⊢
  by_cases leak : (s.pos p).state = .leakCheck ∧ (s.chan p).creepAbove s.creepLimit = true
  · rw [if_pos leak] at hw
    cases hw
  rw [if_neg leak] at hw
  by_cases stalled : (s.pos p).state = .ramp ∧ (s.chan p).stalled s.clock = true
  · rw [if_pos stalled] at hw
    cases hw
  have tells : (tellCreep p s).pos p = s.pos p := by
    unfold tellCreep
    split
    · exact modRecord_pos _ _ p
    · rfl
  rw [if_neg (by simpa using stalled)]
  cases e : (s.pos p).state with
  | leakCheck =>
    have : (s.chan p).creepAbove s.creepLimit ≠ true := fun k => leak ⟨e, k⟩
    rw [creepTest, if_neg this]
  | hold | ending => exact tells
  | _ => rfl

/-! ### The update as a whole -/

theorem meterUpdate_eq (p : PosId) (s : State) : meterUpdate p s = meterComplete p (meterCross p (s.chan p).mass
    (meterBill p (meterFaults p (s.chan p) (meterTake p s)))) := rfl

theorem take_stalled (c : Channel) (cal : ChannelCal) (now : Clock) : (c.take cal).stalled now = c.stalled now := by
  unfold Channel.take Channel.weigh
  split <;> rfl

theorem meterTake_pos (s : State) (q : PosId) : (meterTake p s).pos q = s.pos q := by
  unfold meterTake
  dsimp only
  split
  · exact modRecord_pos _ _ q
  · rfl

/-- What an update of a fill bills (R126 to R130, R144 to R146). -/
def TxnRecord.metered (r : TxnRecord) (s : State) (p : PosId) : TxnRecord :=
  let c := (s.chan p).take (s.cal p)
  ((r.saturating ((s.chan p).accumulate (s.cal p)).exceeds).creeping
    (creepTold (s.pos p).state c s.creepLimit)).update c.mass

/-- The channel after an update (R126 to R130). -/
def State.meteredChan (s : State) (p : PosId) : Channel :=
  ((s.chan p).take (s.cal p)).creeping (creepTold (s.pos p).state ((s.chan p).take (s.cal p)) s.creepLimit)

/-- The first end reason of an update (R126, R133). -/
def reasonOf (s : State) (p : PosId) (r : TxnRecord) : Option EndReason :=
  (faultOf (s.chan p) (meterTake p s) p).or
    (if r.preset.reached ((s.chan p).take (s.cal p)).mass (amountOf ((s.chan p).take (s.cal p)).mass r.price) = true then
      some .presetReached else none)

section
variable (ho : s.openSlot p = some i) (hr : s.slot i = .txn r) (ht : (s.pos p).periodTimer = some 1000)
include ho hr ht

theorem bills_faults : Bills p i s (s.meteredChan p)
    ((r.saturating ((s.chan p).accumulate (s.cal p)).exceeds).creeping
      (creepTold (s.pos p).state ((s.chan p).take (s.cal p)) s.creepLimit)) (meterFaults p (s.chan p) (meterTake p s)) := by
  have faults := (bills_meterTake ho hr ht).faults (s.chan p)
  rwa [meterTake_pos] at faults

theorem bills_meterUpdate : Bills p i s (s.meteredChan p) (r.metered s p) (meterUpdate p s) := by
  have billed := (bills_faults ho hr ht).bill
  rw [meterUpdate_eq]
  exact (billed.works (works_meterCross _ _)).works (works_meterComplete _)

theorem meterUpdate_writes (h : (s.chan p).mass / 100 < ((s.chan p).take (s.cal p)).mass / 100) :
    (meterUpdate p s).inFlight (.slot i) = true := by
  have billed := (bills_faults ho hr ht).bill
  obtain ⟨-, -, mass⟩ := chan_eq_of_steady billed.chan
  have crossed : (meterCross p (s.chan p).mass (meterBill p (meterFaults p (s.chan p) (meterTake p s)))).inFlight (.slot i) = true := by
    unfold meterCross
    rw [mass, if_pos (by exact h)]
    exact (checkpoint_inFlight billed.opens []).1
  rw [meterUpdate_eq]
  exact (works_meterComplete (p := p) (i := i) _).writes crossed

theorem meterUpdate_previous : ((meterUpdate p s).pos p).ramp.previousMass = ((s.chan p).take (s.cal p)).mass := by
  obtain ⟨-, -, mass⟩ := chan_eq_of_steady (bills_meterUpdate ho hr ht).chan
  have noted (u : State) : ((setPrevious p u).pos p).ramp.previousMass = ((setPrevious p u).chan p).mass := by
    simp [setPrevious]
  exact (noted _).trans mass

theorem meterUpdate_over {why : EndReason} (h : endable (s.pos p).state = true) (hw : reasonOf s p r = some why) :
    Over p why (meterUpdate p s) := by
  have endable : endable ((meterTake p s).pos p).state = true := by rwa [meterTake_pos]
  rw [meterUpdate_eq]
  unfold reasonOf at hw
  cases hf : faultOf (s.chan p) (meterTake p s) p with
  | some fault =>
    rw [hf] at hw
    cases hw
    have ended := faults_over endable hf
    exact ended.settled (settled_rest ended.not_endable _)
  | none =>
    rw [hf] at hw
    have faults := bills_faults ho hr ht
    obtain ⟨r', hr', counts⟩ := faults.record
    obtain ⟨-, -, mass⟩ := chan_eq_of_steady faults.chan
    have preset : r'.preset = r.preset := (congrArg TxnRecord.preset counts.steady :)
    have price : r'.price = r.price := (congrArg TxnRecord.price counts.steady :)
    have reached : presetReached (meterFaults p (s.chan p) (meterTake p s)) p
        ((meterFaults p (s.chan p) (meterTake p s)).chan p).mass =
        r.preset.reached ((s.chan p).take (s.cal p)).mass (amountOf ((s.chan p).take (s.cal p)).mass r.price) := by
      rw [mass, presetReached, State.openRecord, faults.opens]
      simp only [hr', preset, price]
      rfl
    rw [← reached, Option.none_or] at hw
    split at hw
    next hit =>
      cases hw
      have ended : Over p .presetReached (meterBill p (meterFaults p (s.chan p) (meterTake p s))) := by
        unfold meterBill
        dsimp only
        rw [if_pos hit]
        exact over_endFill (by rw [modRecord_pos, faults_pos hf]; exact endable) _
      have crossed := ended.settled (settled_meterCross (s.chan p).mass _)
      exact crossed.settled (settled_meterComplete crossed.not_endable)
    · cases hw

end

theorem meterUpdate_state (h : endable (s.pos p).state = false) : ((meterUpdate p s).pos p).state = (s.pos p).state := by
  have taken : Settled p s (meterTake p s) := settled_of_pos (meterTake_pos s p)
  have faults : Settled p s (meterFaults p (s.chan p) (meterTake p s)) := by
    rw [meterFaults_eq]
    have first : Settled p (meterTake p s) (if ((s.chan p).accumulate ((meterTake p s).cal p)).exceeds = true then
        endFill p .massSaturated (meterTake p s) else meterTake p s) :=
      settled_ite _ (settled_endFill (by rw [taken.state]; exact h) _) (settled_of_pos rfl)
    exact (taken.trans first).trans (settled_laterFaults (by rw [(taken.trans first).state]; exact h) ..)
  exact (faults.trans (settled_rest (by rw [faults.state]; exact h) _)).state

theorem meterTake_kept (ho : s.openSlot p = some i) (hr : s.slot i = .txn r) :
    (meterTake p s).chan p = (s.chan p).take (s.cal p) ∧ (meterTake p s).cal p = s.cal p ∧
      (meterTake p s).creepLimit = s.creepLimit ∧ (meterTake p s).clock = s.clock := by
  rw [meterTake_eq ho hr]
  exact ⟨by simp, rfl, rfl, rfl⟩

theorem exceeds_iff (c : Channel) : c.exceeds = true ↔ 999999 < rne c.acc gramUnits := decide_eq_true_iff

theorem creepAbove_iff (c : Channel) (limit : Nat) : c.creepAbove limit = true ↔ limit * gramUnits < c.creepAcc :=
  decide_eq_true_iff

/-- The record an update leaves (R126 to R130, R144 to R146). -/
theorem metered_fields (r : TxnRecord) (s : State) (p : PosId) {m : Nat} (hm : ((s.chan p).take (s.cal p)).mass = m)
    (h : (r.metered s p).Counts r') :
    r'.state = r.state ∧ r'.mass = m ∧ r'.amount = amountOf m r.price ∧ r'.billed = r.preset.billed (amountOf m r.price) ∧
    r'.presetMass = r.presetMassAt m ∧ r'.overrunMass = r.preset.overrun m (r.presetMassAt m) ∧
    r'.flags.overrun = (r.flags.overrun || decide (r.preset.billed (amountOf m r.price) < amountOf m r.price)) ∧
    r'.flags.saturated = (r.flags.saturated || ((s.chan p).accumulate (s.cal p)).exceeds) ∧
    r'.flags.creep = (r.flags.creep || creepTold (s.pos p).state ((s.chan p).take (s.cal p)) s.creepLimit) ∧
    (r'.number, r'.pos, r'.cls, r'.tag, r'.price, r'.startTime, r'.preset) =
      (r.number, r.pos, r.cls, r.tag, r.price, r.startTime, r.preset) := by
  have metered : r.metered s p = ((r.saturating ((s.chan p).accumulate (s.cal p)).exceeds).creeping
      (creepTold (s.pos p).state ((s.chan p).take (s.cal p)) s.creepLimit)).update m := by
    rw [TxnRecord.metered, hm]
  generalize ((s.chan p).accumulate (s.cal p)).exceeds = sat at *
  generalize creepTold (s.pos p).state ((s.chan p).take (s.cal p)) s.creepLimit = told at *
  rw [metered, TxnRecord.update_eq] at h
  obtain ⟨steady, overrun, saturated, creep⟩ := h
  refine ⟨(congrArg TxnRecord.state steady :), (congrArg TxnRecord.mass steady :), (congrArg TxnRecord.amount steady :),
    (congrArg TxnRecord.billed steady :), (congrArg TxnRecord.presetMass steady :),
    (congrArg TxnRecord.overrunMass steady :), overrun, saturated, creep,
    (congrArg (fun x : TxnRecord => (x.number, x.pos, x.cls, x.tag, x.price, x.startTime, x.preset)) steady :)⟩

/-- The first end reason, by the tests of the update (R126, R128 to R132, R145). -/
theorem reasonOf_eq (ho : s.openSlot p = some i) (hr : s.slot i = .txn r) : reasonOf s p r =
    if 999999 < rne ((s.chan p).accumulate (s.cal p)).acc gramUnits then some .massSaturated
    else if (s.chan p).overflow = true then some .meterFault
    else if (s.pos p).state = .leakCheck ∧ s.creepLimit * gramUnits < ((s.chan p).accumulate (s.cal p)).creepAcc then some .leak
    else if (s.pos p).state = .ramp ∧ (s.chan p).stalled s.clock = true then some .meterFault
    else if r.preset.reached ((s.chan p).take (s.cal p)).mass (amountOf ((s.chan p).take (s.cal p)).mass r.price) = true then
      some .presetReached
    else none := by
  obtain ⟨chan, cal, limit, clock⟩ := meterTake_kept ho hr
  have acc := (take_creep (s.chan p) (s.cal p)).2
  unfold reasonOf faultOf
  simp only [chan, cal, limit, clock, meterTake_pos, exceeds_iff, creepAbove_iff, acc, take_stalled]
  split_ifs <;> rfl

theorem take_acc (c : Channel) (cal : ChannelCal) : (c.take cal).acc =
    if 999999 < rne (c.accumulate cal).acc gramUnits then 999999 * gramUnits else (c.accumulate cal).acc := by
  unfold Channel.take Channel.weigh
  simp only [exceeds_iff]
  split <;> rfl

theorem take_kept (c : Channel) (cal : ChannelCal) : (c.take cal).count = 0 ∧ (c.take cal).creepCount = 0 ∧
    (c.take cal).overflow = false ∧ (c.take cal).lastPulse = c.lastPulse := by
  unfold Channel.take Channel.weigh
  split <;> exact ⟨rfl, rfl, rfl, rfl⟩

theorem exceeds_eq (c : Channel) : c.exceeds = decide (999999 < rne c.acc gramUnits) := by
  rw [Channel.exceeds, maxMass]

theorem creepTold_eq (state : PosState) (c : Channel) (cal : ChannelCal) (limit : Nat) :
    creepTold state (c.take cal) limit =
      (decide ((state = .hold ∨ state = .ending) ∧ limit * gramUnits < (c.accumulate cal).creepAcc) && !c.creep) := by
  obtain ⟨creep, acc⟩ := take_creep c cal
  rw [creepTold, creep, Channel.creepAbove, acc, Bool.decide_and, Bool.decide_or, Bool.and_assoc]
  rfl

/-- Settles O23: the counts taken, billed and tested in order, the first end, and what the update leaves alone. -/
theorem periodExpiryMetersAndBills : Obligations.PeriodExpiryMetersAndBills := by
  unfold Obligations.PeriodExpiryMetersAndBills
  intro s p i r hq ho hr
  obtain ⟨f, effect, hf⟩ : ∃ f, effectOf (.periodExpiry p) = some f ∧
      f s = if due (s.pos p).periodTimer then meterUpdate p (s.modPos p (fun x => { x with periodTimer := some 1000 }))
        else s := ⟨_, rfl, rfl⟩
  split
  next ht => exact takes_nothing effect hq (by rw [hf, if_neg (mt (due_iff _).1 ht)])
  next ht =>
    rw [if_pos ((due_iff _).2 (not_not.1 ht))] at hf
    intro a exceeds mass leak reason
    have pos : (s.modPos p (fun x => { x with periodTimer := some 1000 })).pos p =
      { s.pos p with periodTimer := some 1000 } := State.modPos_pos ..
    generalize hw : s.modPos p (fun x => { x with periodTimer := some 1000 }) = w at *
    have chan : w.chan p = s.chan p := by rw [← hw]; rfl
    have cal : w.cal p = s.cal p := by rw [← hw]; rfl
    have limit : w.creepLimit = s.creepLimit := by rw [← hw]; rfl
    have clock : w.clock = s.clock := by rw [← hw]; rfl
    have ho' : w.openSlot p = some i := by rw [← hw]; exact ho
    have hr' : w.slot i = .txn r := by rw [← hw]; exact hr
    have state : (w.pos p).state = (s.pos p).state := by rw [pos]
    have timer : (w.pos p).periodTimer = some 1000 := by rw [pos]
    have hmass : ((w.chan p).take (w.cal p)).mass = mass := by rw [chan, cal]; exact take_mass ..
    have bills := bills_meterUpdate ho' hr' timer
    have previous := meterUpdate_previous ho' hr' timer
    have writes := meterUpdate_writes ho' hr' timer
    have ended (why : EndReason) := meterUpdate_over (why := why) ho' hr' timer
    have settled := meterUpdate_state (p := p) (s := w)
    have reasonEq : reasonOf w p r = reason := by
      rw [reasonOf_eq ho' hr', hmass, chan, cal, limit, clock, state]
    obtain ⟨r', hslot, counts⟩ := bills.record
    obtain ⟨opened, rmass, amount, billed, preset, overrun, overrunFlag, saturated, creep, same⟩ :=
      metered_fields r w p hmass counts
    have trail := trails_endEvent (meterUpdate p w)
    have slot : (endEvent (meterUpdate p w)).slot i = (meterUpdate p w).slot i := by rw [(sends_endEvent _).rest]; rfl
    have runs : exec (.periodExpiry p) s = .next (endEvent (meterUpdate p w)) := by
      rw [exec_effect effect, takeEvent, hq.serving, ← hf]
      rfl
    have told : creepTold (w.pos p).state ((w.chan p).take (w.cal p)) w.creepLimit =
        (decide (((s.pos p).state = .hold ∨ (s.pos p).state = .ending) ∧ leak) && !(s.chan p).creep) := by
      rw [state, chan, cal, limit]
      exact creepTold_eq ..
    have sat : ((w.chan p).accumulate (w.cal p)).exceeds = decide exceeds := by rw [chan, cal]; exact exceeds_eq _
    have channel := bills.chan
    rw [State.meteredChan, told, chan, cal] at channel
    rw [told] at creep
    obtain ⟨count, creepCount, overflow, lastPulse⟩ := take_kept (s.chan p) (s.cal p)
    refine ⟨_, r', runs, slot.trans hslot, ?_, ?_, ?_, ?_, ?_, ?_, ?_, ?_, opened.trans ?_, rmass, amount,
      by rw [amount]; exact billed, by rw [amount]; exact preset, by rw [preset]; exact overrun,
      by rw [billed, amount]; exact overrunFlag, by rw [← sat]; exact saturated, ⟨creep, ?_⟩, same, ?_, ?_, ?_, ?_, ?_, ?_, ?_⟩
    · rw [trail.chan]
      exact (congrArg Channel.count channel :).trans count
    · rw [trail.chan]
      exact (congrArg Channel.creepCount channel :).trans creepCount
    · rw [trail.chan]
      exact (congrArg Channel.overflow channel :).trans overflow
    · rw [trail.chan]
      exact (congrArg Channel.acc channel :).trans (take_acc ..)
    · rw [trail.chan]
      exact (congrArg Channel.creepAcc channel :).trans (take_creep ..).2
    · rw [trail.chan]
      exact (congrArg Channel.mass channel :).trans (take_mass ..)
    · rw [trail.chan]
      exact (congrArg Channel.saturated channel :).trans ((take_saturated ..).trans (congrArg _ (exceeds_eq _)))
    · rw [trail.chan]
      exact (congrArg Channel.lastPulse channel :).trans lastPulse
    · have opens : (s.slot i).opensFor p = true := List.find?_some (p := fun i => (s.slot i).opensFor p) ho
      simp only [hr, Slot.opensFor, Bool.and_eq_true, beq_iff_eq] at opens
      exact opens.1
    · rw [trail.chan]
      exact (congrArg Channel.creep channel :).trans (congrArg (· || _) (take_creep ..).1)
    · intro h
      rw [endEvent_inFlight]
      exact writes (by rwa [chan, cal, take_mass])
    · rw [trail.pos]
      exact bills.timer
    · rw [trail.pos, previous, hmass]
    · intro why hwhy hend
      rw [trail.pos]
      exact ended why (by rwa [state]) (reasonEq.trans hwhy)
    · intro hend
      rw [trail.pos, settled (by rwa [state]), state]
    · have passes : Passes p s (meterUpdate p w) := by
        refine Passes.trans (passes_of fun q hq => ?_) bills.passes
        rw [← hw]
        exact spares_modPos hq _
      exact fun q hq hwq => ⟨(trail.pos q).trans (passes.others q hq hwq).1, (trail.chan q).trans (passes.others q hq hwq).2⟩
    · have frame : w.without p i = s.without p i := by
        rw [← hw]
        simp [State.without, State.modPos, State.setPos]
      rw [without_steady (steady_endEvent _), bills.frame, frame]

end Sys2Proof.Machine
end

section
/-! SUPPORT. Notices that are posted are heard: no later move of the same event loses one (R172 to R174). -/

namespace Sys2Proof.Machine

variable {p q : PosId} {s t u : State} {n : PortId} {k : NoticeKind} {m : Nat}

/-- No port loses a notice, pending or on its line. -/
def Hears (s t : State) : Prop :=
  ∀ n : PortId, ∀ m ∈ (s.port n).outNotices, ∃ m' ∈ (t.port n).outNotices, m'.sameKey m

theorem Hears.refl (s : State) : Hears s s := fun _ m hm => ⟨m, hm, sameKey_refl m⟩

theorem Hears.trans (h : Hears s t) (k : Hears t u) : Hears s u := by
  intro n m hm
  obtain ⟨m', hm', ⟨kind, subject⟩⟩ := h n m hm
  obtain ⟨m'', hm'', ⟨kind', subject'⟩⟩ := k n m' hm'
  exact ⟨m'', hm'', kind'.trans kind, subject'.trans subject⟩

theorem hears_of_ports (h : t.ports = s.ports) : Hears s t := by
  intro n m hm
  have same : t.port n = s.port n := by rw [State.port, h]; rfl
  exact ⟨m, by rwa [same], sameKey_refl m⟩

theorem Moves.hears (h : Moves s t) : Hears s t := fun n => (h.told n).notices

theorem hears_ite (c : Prop) [Decidable c] (ht : Hears s t) (hu : Hears s u) : Hears s (if c then t else u) := by
  split
  · exact ht
  · exact hu

theorem hears_foldl {α : Type} (l : List α) (f : State → α → State) (hf : ∀ s a, Hears s (f s a)) (s : State) :
    Hears s (l.foldl f s) := by
  induction l generalizing s with
  | nil => exact .refl s
  | cons a l ih => exact (hf s a).trans (ih _)

theorem hears_modPort (n : PortId) (f : Port → Port)
    (h : ∀ x : Port, ∀ m ∈ x.outNotices, ∃ m' ∈ (f x).outNotices, m'.sameKey m) (s : State) : Hears s (s.modPort n f) := by
  intro a m hm
  by_cases e : a = n
  · subst e
    rw [State.modPort_port]
    exact h _ m hm
  · rw [State.modPort_port_ne _ _ _ _ e]
    exact ⟨m, hm, sameKey_refl m⟩

theorem hears_postNotice (k : NoticeKind) (m : Nat) (data : List Field) (ports : List PortId) (s : State) :
    Hears s (postNotice k m data ports s) :=
  hears_foldl _ _ (fun u n => hears_modPort n _ (fun x => x.post_notices u.clock k m data) u) s

theorem hears_endEvent (s : State) : Hears s (endEvent s) := by
  have waiting : Hears s (postWaitNotices s) :=
    hears_foldl _ _ (fun u c => hears_ite _ (moves_postCompState c .coolingWait .refl).hears (.refl u)) s
  have told : Hears s (postCoolingState (postWaitNotices s)) := by
    refine waiting.trans ?_
    generalize postWaitNotices s = w
    unfold postCoolingState
    split
    · exact hears_postNotice _ _ _ _ _
    · exact .refl w
  have sent : Hears s (if (postCoolingState (postWaitNotices s)).evt.edgeNext then postCoolingState (postWaitNotices s)
      else transmitAll (postCoolingState (postWaitNotices s))) :=
    hears_ite _ told (told.trans fun n => (delivers_transmitAll _).noneLost n)
  exact sent.trans (hears_of_ports rfl)

theorem Noticed.hears (h : Noticed s n k m) (l : Hears s t) : Noticed t n k m := by
  obtain ⟨x, hx, hk, hm⟩ := h
  obtain ⟨x', hx', kind, subject⟩ := l n x hx
  exact ⟨x', hx', kind.trans hk, subject.trans hm⟩

/-- A notice that passes the mask of a port is posted there (R174). -/
theorem Port.post_noticed {x : Port} (h : x.passes k = true) (now : Clock) (m : Nat) (data : List Field) :
    ∃ y ∈ (x.post now k m data).outNotices, y.kind = k ∧ y.subject = m := by
  unfold Port.post
  rw [if_pos h]
  split
  next pending =>
    obtain ⟨y, hy, hk⟩ := List.any_eq_true.1 pending
    refine ⟨_, List.mem_append_right _ (List.mem_map_of_mem hy), ?_⟩
    rw [if_pos hk]
    rwa [Bool.and_eq_true, beq_iff_eq, beq_iff_eq] at hk
  next => exact ⟨_, List.mem_append_right _ (List.mem_append_right _ (List.mem_singleton.2 rfl)), rfl, rfl⟩

theorem postNotice_noticed {ports : List PortId} (hn : n ∈ ports) (h : (s.port n).passes k = true) (m : Nat)
    (data : List Field) : Noticed (postNotice k m data ports s) n k m := by
  induction ports generalizing s with
  | nil => cases hn
  | cons a l ih =>
    rw [postNotice, List.foldl_cons]
    change Noticed (postNotice k m data l (s.modPort a fun x => x.post s.clock k m data)) n k m
    by_cases e : n = a
    · subst e
      refine Noticed.hears ?_ (hears_postNotice k m data l _)
      rw [Noticed, State.modPort_port]
      exact Port.post_noticed h _ _ _
    · refine ih ((List.mem_cons.1 hn).resolve_left e) ?_
      rwa [State.modPort_port_ne _ _ _ _ e]

/-- What cascades leave alone includes the mask of each port. -/
theorem passes_of_steady (h : t.steady = s.steady) (n : PortId) (k : NoticeKind) : (t.port n).passes k = (s.port n).passes k := by
  have ports := congrArg (fun u : State => u.ports[n]) h
  have same : (t.port n).steady = (s.port n).steady := by simpa [State.steady, State.port] using ports
  have mask : (t.port n).mask = (s.port n).mask := (congrArg Port.mask same :)
  have promoted : (t.port n).promoted = (s.port n).promoted := (congrArg Port.promoted same :)
  rw [Port.passes, Port.passes, mask, promoted]

end Sys2Proof.Machine
end

section
/-! SUPPORT. The ramp step and the vehicle update: an update without an end, then what the report taken asks for (R40 to
R54). -/

namespace Sys2Proof.Machine

variable {p q : PosId} {i : SlotId} {b : BankId} {k : ClassId} {r r' : TxnRecord} {s t u w : State}

/-! ### An update that raises no end of its own -/

/-- What a record says of the banks it drew from and of its degrade. -/
def TxnRecord.traced (r : TxnRecord) : List Segment × Bool := (r.segments, r.flags.degraded)

/-- A state that differs in the channel of a position, the counts of its record and the writes alone. -/
structure Metering (p : PosId) (s t : State) : Prop where
  rest : t = { s with channels := t.channels, work := t.work, groups := t.groups }
  chan : ∀ q, q ≠ p → t.chan q = s.chan q
  record : (t.openRecord p).map TxnRecord.traced = (s.openRecord p).map TxnRecord.traced

theorem Metering.refl (p : PosId) (s : State) : Metering p s s := ⟨rfl, fun _ _ => rfl, rfl⟩

theorem Metering.trans (h : Metering p s t) (k : Metering p t u) : Metering p s u where
  rest := by rw [k.rest, h.rest]
  chan q hq := (k.chan q hq).trans (h.chan q hq)
  record := k.record.trans h.record

theorem metering_ite (c : Prop) [Decidable c] (ht : Metering p s t) (hu : Metering p s u) :
    Metering p s (if c then t else u) := by
  split
  · exact ht
  · exact hu

theorem metering_modChan (f : Channel → Channel) (s : State) : Metering p s (s.modChan p f) :=
  ⟨rfl, fun q hq => State.modChan_chan_ne s p q f hq, rfl⟩

theorem metering_modRecord (f : TxnRecord → TxnRecord) (s : State) (hs : ∀ r, (f r).state = r.state)
    (hp : ∀ r, (f r).pos = r.pos) (ht : ∀ r, (f r).traced = r.traced) : Metering p s (modRecord p f s) := by
  have record : ((modRecord p f s).openRecord p).map TxnRecord.traced = (s.openRecord p).map TxnRecord.traced := by
    rw [(modRecord_openRecord p f s hs hp).2, Option.map_map]
    exact congrArg (fun g => (s.openRecord p).map g) (funext ht)
  obtain ⟨w, e⟩ := modRecord_eq p f s
  rw [e] at record ⊢
  exact ⟨rfl, fun _ _ => rfl, record⟩

theorem metering_meterTake (s : State) : Metering p s (meterTake p s) :=
  metering_ite _ ((metering_modChan _ s).trans (metering_modRecord _ _ (by exact fun _ => rfl) (by exact fun _ => rfl) (by exact fun _ => rfl))) (metering_modChan _ s)

theorem metering_tellCreep (s : State) : Metering p s (tellCreep p s) :=
  metering_ite _ ((metering_modChan _ s).trans (metering_modRecord _ _ (by exact fun _ => rfl) (by exact fun _ => rfl) (by exact fun _ => rfl))) (.refl p s)

theorem metering_checkpoint (also : List RecWrite) (s : State) : Metering p s (checkpoint p also s) := by
  have record : ((checkpoint p also s).openRecord p).map TxnRecord.traced = (s.openRecord p).map TxnRecord.traced := by
    rw [checkpoint_openRecord, Option.map_map]
    rfl
  obtain ⟨w, g, e⟩ := checkpoint_eq p also s
  rw [e] at record ⊢
  exact ⟨rfl, fun _ _ => rfl, record⟩

theorem metering_meterCross (old : Nat) (s : State) : Metering p s (meterCross p old s) :=
  metering_ite _ (metering_checkpoint [] s) (.refl p s)

/-- Stage 4 without a fault. -/
theorem metering_faults {before : Channel} (hw : faultOf before s p = none) : Metering p s (meterFaults p before s) := by
  rw [meterFaults_eq]
  unfold faultOf at hw
  by_cases exceeds : (before.accumulate (s.cal p)).exceeds = true
  · rw [if_pos exceeds] at hw
    cases hw
  rw [if_neg exceeds] at hw ⊢
  unfold laterFaults
  dsimp only
  by_cases overflow : before.overflow = true
  · rw [if_pos overflow] at hw
    cases hw
  rw [if_neg overflow] at hw ⊢
  by_cases leak : (s.pos p).state = .leakCheck ∧ (s.chan p).creepAbove s.creepLimit = true
  · rw [if_pos leak] at hw
    cases hw
  rw [if_neg leak] at hw
  by_cases stalled : (s.pos p).state = .ramp ∧ (s.chan p).stalled s.clock = true
  · rw [if_pos stalled] at hw
    cases hw
  rw [if_neg (by simpa using stalled)]
  cases e : (s.pos p).state with
  | leakCheck =>
    have : (s.chan p).creepAbove s.creepLimit ≠ true := fun k => leak ⟨e, k⟩
    rw [creepTest, if_neg this]
    exact .refl p s
  | hold | ending => exact metering_tellCreep s
  | _ => exact .refl p s

theorem metering_meterBill (h : presetReached s p (s.chan p).mass = false) : Metering p s (meterBill p s) := by
  unfold meterBill
  dsimp only
  rw [if_neg (by simp [h])]
  exact metering_modRecord _ s (fun r => r.update_state _) (fun r => r.update_pos _) fun r => by
    rw [TxnRecord.update_eq]
    rfl

/-- The state in which stage 7 finds the part. -/
def metered (p : PosId) (s : State) : State :=
  meterCross p (s.chan p).mass (meterBill p (meterFaults p (s.chan p) (meterTake p s)))

/-- An update that finds no end of its own leaves everything but channel, record and writes to its last stage. -/
theorem metering_metered (ho : s.openSlot p = some i) (hr : s.slot i = .txn r) (ht : (s.pos p).periodTimer = some 1000)
    (hf : faultOf (s.chan p) (meterTake p s) p = none) (hp : r.preset = .none) : Metering p s (metered p s) := by
  have faults := bills_faults ho hr ht
  obtain ⟨r', hr', counts⟩ := faults.record
  have preset : r'.preset = .none := (congrArg TxnRecord.preset counts.steady :).trans hp
  have unreached : presetReached (meterFaults p (s.chan p) (meterTake p s)) p
      ((meterFaults p (s.chan p) (meterTake p s)).chan p).mass = false := by
    rw [presetReached, State.openRecord, faults.opens]
    simp only [hr', preset]
    rfl
  exact (((metering_meterTake s).trans (metering_faults hf)).trans (metering_meterBill unreached)).trans
    (metering_meterCross _ _)

theorem Metering.pos (h : Metering p s t) (q : PosId) : t.pos q = s.pos q := by
  rw [h.rest]
  rfl

/-- What the last stage of an update without an end begins with: the drawn mass is noted too. -/
structure Begins (p : PosId) (i : SlotId) (r : TxnRecord) (m : Nat) (s t : State) : Prop where
  rest : t = { s with channels := t.channels, work := t.work, groups := t.groups, banks := t.banks }
  chan : ∀ q, q ≠ p → t.chan q = s.chan q
  mass : (t.chan p).mass = m
  bank : ∀ x, t.bank x = { s.bank x with drawnMass := (t.bank x).drawnMass }
  banks : (s.pos p).bank = none → t.banks = s.banks
  opens : t.openSlot p = some i
  record : ∃ r', t.slot i = .txn r' ∧ r'.traced = r.traced

theorem openRecord_of (ho : s.openSlot p = some i) (hr : s.slot i = .txn r) : s.openRecord p = some r := by
  simp [State.openRecord, ho, hr]

theorem begins_setDrawn (ho : s.openSlot p = some i) (hr : s.slot i = .txn r) (ht : (s.pos p).periodTimer = some 1000)
    (hf : faultOf (s.chan p) (meterTake p s) p = none) (hp : r.preset = .none) :
    Begins p i r ((s.chan p).take (s.cal p)).mass s (setDrawn p (metered p s)) := by
  have metering := metering_metered ho hr ht hf hp
  have bills : Bills p i s (s.meteredChan p) (r.metered s p) (metered p s) :=
    (bills_faults ho hr ht).bill.works (works_meterCross _ _)
  obtain ⟨-, -, mass⟩ := chan_eq_of_steady bills.chan
  obtain ⟨r', hr', -⟩ := bills.record
  have traced : r'.traced = r.traced := by
    have := metering.record
    rw [openRecord_of bills.opens hr', openRecord_of ho hr] at this
    exact Option.some_inj.1 this
  have start : Begins p i r ((s.chan p).take (s.cal p)).mass s (metered p s) := by
    refine ⟨?_, metering.chan, mass, fun x => ?_, fun _ => ?_, bills.opens, r', hr', traced⟩
    · rw [metering.rest]
    · have same : (metered p s).bank x = s.bank x := by
        rw [metering.rest]
        rfl
      rw [same]
    · rw [metering.rest]
  have pos := metering.pos p
  unfold setDrawn
  split
  next c hc =>
    split
    · refine ⟨?_, start.chan, start.mass, fun x => ?_, fun none => ?_, start.opens, start.record⟩
      · have := start.rest
        rw [this]
        rfl
      · by_cases e : x = c
        · subst e
          rw [State.modBank_bank, start.bank x]
        · rw [State.modBank_bank_ne _ _ _ _ e]
          exact start.bank x
      · rw [pos, none] at hc
        cases hc
    · exact start
  · exact start

theorem Begins.pos {m : Nat} (h : Begins p i r m s t) (q : PosId) : t.pos q = s.pos q := by
  rw [h.rest]
  rfl

/-- An update without an end, of a fill in RAMP. -/
theorem meterUpdate_ramp (ho : s.openSlot p = some i) (hr : s.slot i = .txn r) (ht : (s.pos p).periodTimer = some 1000)
    (hf : faultOf (s.chan p) (meterTake p s) p = none) (hp : r.preset = .none) (hs : (s.pos p).state = .ramp)
    (hb : (s.pos p).bank = some b) (hk : (s.pos p).cls = some k) :
    meterUpdate p s = setPrevious p (rampStep p k b ((s.chan p).take (s.cal p)).mass (setDrawn p (metered p s))) := by
  have begins := begins_setDrawn ho hr ht hf hp
  have complete (v : State) (hv : v.pos p = s.pos p) (hm : (v.chan p).mass = ((s.chan p).take (s.cal p)).mass)
      (hd : setDrawn p (metered p s) = v) :
      meterUpdate p s = setPrevious p (rampStep p k b ((s.chan p).take (s.cal p)).mass v) := by
    change meterComplete p (metered p s) = _
    unfold meterComplete
    simp only [hd, hv, hs, hb, hk, hm]
  exact complete _ (begins.pos p) begins.mass rfl

/-- An update without an end, of a fill that waits for its vehicle. -/
theorem meterUpdate_vehicle (ho : s.openSlot p = some i) (hr : s.slot i = .txn r) (ht : (s.pos p).periodTimer = some 1000)
    (hf : faultOf (s.chan p) (meterTake p s) p = none) (hp : r.preset = .none) (hs : (s.pos p).state = .hold)
    (hh : (s.pos p).holdReason = some .vehicle) :
    meterUpdate p s = setPrevious p (vehicleUpdate p (setDrawn p (metered p s))) := by
  have begins := begins_setDrawn ho hr ht hf hp
  have complete (v : State) (hv : v.pos p = s.pos p) (hd : setDrawn p (metered p s) = v) :
      meterUpdate p s = setPrevious p (vehicleUpdate p v) := by
    change meterComplete p (metered p s) = _
    unfold meterComplete
    simp only [hd, hv, hs, hh]
  exact complete _ (begins.pos p) rfl

/-! ### What follows the report taken -/

/-- A position but for what cascades change, its set-point and the mass noted. -/
def Position.fare (x : Position) : Position :=
  { x.steady with ramp := { x.steady.ramp with pSet := none, previousMass := 0 } }

/-- What cascades, set-points and the mass noted leave: the rest of the position, the degrade of its record, and every
notice. -/
structure Fares (p : PosId) (i : SlotId) (s t : State) : Prop where
  pos : (t.pos p).fare = (s.pos p).fare
  record : ∀ r, s.slot i = .txn r → ∃ r', t.slot i = .txn r' ∧ r'.flags.degraded = r.flags.degraded
  hears : Hears s t

theorem Fares.refl (p : PosId) (i : SlotId) (s : State) : Fares p i s s := ⟨rfl, fun r hr => ⟨r, hr, rfl⟩, .refl s⟩

theorem Fares.trans (h : Fares p i s t) (k : Fares p i t u) : Fares p i s u where
  pos := k.pos.trans h.pos
  record r hr := by
    obtain ⟨r', hr', e⟩ := h.record r hr
    obtain ⟨r'', hr'', e'⟩ := k.record r' hr'
    exact ⟨r'', hr'', e'.trans e⟩
  hears := h.hears.trans k.hears

theorem fares_ite (c : Prop) [Decidable c] (ht : Fares p i s t) (hu : Fares p i s u) :
    Fares p i s (if c then t else u) := by
  split
  · exact ht
  · exact hu

theorem fares_moves (h : Moves s t) : Fares p i s t where
  pos := (congrArg (fun x : Position => { x with ramp := { x.ramp with pSet := none, previousMass := 0 } })
    (h.posSteady p) :)
  record r hr := by
    have := h.slot i
    rw [hr] at this
    obtain ⟨r', hr', -, flags⟩ := this
    exact ⟨r', hr', (congrArg RecordFlags.degraded flags :)⟩
  hears := h.hears

theorem fares_modPos (f : Position → Position) (h : ∀ x, (f x).fare = x.fare) (s : State) : Fares p i s (s.modPos p f) where
  pos := by rw [State.modPos_pos, h]
  record r hr := ⟨r, hr, rfl⟩
  hears := .refl s

theorem fares_endFill (reason : EndReason) (s : State) : Fares p i s (endFill p reason s) :=
  fares_moves (moves_endFill p reason .refl)

theorem fares_setPointStage (k : ClassId) (b : BankId) (s : State) : Fares p i s (setPointStage p k b s) :=
  (fares_modPos _ (by exact fun _ => rfl) s).trans (fares_moves (moves_sendValve p .refl))

theorem fares_switchStage (k : ClassId) (b : BankId) (mass : Nat) (s : State) : Fares p i s (switchStage p k b mass s) :=
  fares_ite _ ((fares_modPos _ (by exact fun _ => rfl) s).trans (fares_moves (moves_switchBank p _ _)))
    (fares_ite _ ((fares_modPos _ (by exact fun _ => rfl) s).trans (fares_moves (moves_switchBank p _ _)))
      ((fares_modPos _ (by exact fun _ => rfl) s).trans (fares_setPointStage k b _)))

theorem fares_stages3to5 (k : ClassId) (b : BankId) (mass : Nat) (s : State) : Fares p i s (stages3to5 p k b mass s) :=
  fares_ite _ (fares_endFill _ s) (fares_switchStage k b mass s)

theorem fares_checksCD (s : State) : Fares p i s (checksCD p s) := fares_moves (moves_checksCD p .refl)

theorem fares_setPrevious (s : State) : Fares p i s (setPrevious p s) := fares_modPos _ (by exact fun _ => rfl) s

/-- The report taken, and the counts of a consumption (R50). -/
def RampGenerator.report (g : RampGenerator) : List VehicleReport × Option VehicleReport × Nat × Nat × Nat :=
  (g.buffer, g.lastTaken, g.drops, g.holds, g.consecutiveHolds)

theorem RampGenerator.report_inj {g g' : RampGenerator} (h : g.report = g'.report) :
    g.buffer = g'.buffer ∧ g.lastTaken = g'.lastTaken ∧ g.drops = g'.drops ∧ g.holds = g'.holds ∧
    g.consecutiveHolds = g'.consecutiveHolds := by
  simpa only [RampGenerator.report, Prod.mk.injEq] using h

theorem Fares.report (h : Fares p i s t) : (t.pos p).ramp.report = (s.pos p).ramp.report :=
  (congrArg (fun x : Position => x.ramp.report) h.pos :)

/-- The report of a position stands. -/
def Reports (p : PosId) (s t : State) : Prop := (t.pos p).ramp.report = (s.pos p).ramp.report

theorem Reports.andThen (h : Reports p s t) (k : Reports p t u) : Reports p s u := Eq.trans k h

theorem reports_ite (c : Prop) [Decidable c] (ht : Reports p s t) (hu : Reports p s u) :
    Reports p s (if c then t else u) := by
  split
  · exact ht
  · exact hu

theorem Moves.reports (h : Moves s t) : Reports p s t := (fares_moves (i := 0) h).report

theorem reports_stages3to5 (k : ClassId) (b : BankId) (mass : Nat) (s : State) : Reports p s (stages3to5 p k b mass s) :=
  (fares_stages3to5 (i := 0) k b mass s).report

theorem reports_modPos (f : Position → Position) (h : ∀ x, (f x).ramp.report = x.ramp.report) (s : State) :
    Reports p s (s.modPos p f) := by
  rw [Reports, State.modPos_pos, h]

theorem reports_stages2to5 (k : ClassId) (b : BankId) (mass : Nat) (s : State) : Reports p s (stages2to5 p k b mass s) := by
  unfold stages2to5
  dsimp only
  split
  · exact (reports_modPos _ (by exact fun _ => rfl) s).andThen
      (reports_ite _ (moves_endFill p _ .refl).reports (reports_stages3to5 k b mass _))
  · exact reports_stages3to5 k b mass s

theorem reports_degrade (s : State) : Reports p s (degrade p s) := by
  have marked : Reports p s (modRecord p (fun r => { r with flags := { r.flags with degraded := true } })
      (s.modPos p Position.degraded)) := by
    rw [Reports, modRecord_pos, State.modPos_pos]
    rfl
  rw [degrade_eq]
  have noticed (u : State) : Reports p u (postDegraded p u) :=
    (moves_postNotice _ _ _ (by decide) .refl : Moves u (postDegraded p u)).reports
  exact (noticed _).trans (reports_ite _ ((moves_endFill p _ .refl).reports.trans marked) marked)

/-! ### The action of the report taken (R51 to R53) -/

/-- The report that a consumption takes (R50). -/
def RampGenerator.taken (g : RampGenerator) : Option VehicleReport := g.buffer.getLast?.or g.lastTaken

theorem RampGenerator.consume_report (g : RampGenerator) :
    g.consume.buffer = [] ∧ g.consume.lastTaken = g.taken ∧
    (g.buffer = [] → g.consume.drops = g.drops ∧ g.consume.holds = min (g.holds + 1) 65535 ∧
      g.consume.consecutiveHolds = min (g.consecutiveHolds + 1) 3) ∧
    (g.buffer ≠ [] → g.consume.drops = min (g.drops + (g.buffer.length - 1)) 65535 ∧ g.consume.holds = g.holds ∧
      g.consume.consecutiveHolds = 0) := by
  unfold RampGenerator.consume RampGenerator.taken
  cases h : g.buffer.getLast? with
  | none =>
    have empty : g.buffer = [] := List.getLast?_eq_none_iff.1 h
    exact ⟨empty, rfl, fun _ => ⟨rfl, satSucc_eq _, rfl⟩, fun hn => absurd empty hn⟩
  | some v =>
    have full : g.buffer ≠ [] := fun e => by simp [e] at h
    exact ⟨rfl, rfl, fun e => absurd e full, fun _ => ⟨rfl, rfl, rfl⟩⟩

/-- The third empty consumption in a row (R52). -/
def RampGenerator.third (g : RampGenerator) : Prop := g.buffer = [] ∧ 2 ≤ g.consecutiveHolds

theorem RampGenerator.consume_third (g : RampGenerator) : g.consume.consecutiveHolds = 3 ↔ g.third := by
  obtain ⟨-, -, empty, full⟩ := g.consume_report
  unfold RampGenerator.third
  by_cases h : g.buffer = []
  · rw [(empty h).2.2]
    simp only [h, true_and]
    omega
  · rw [(full h).2.2]
    simp [h]

theorem consumeAt_pos (s : State) : (consumeAt p s).pos p = { s.pos p with ramp := (s.pos p).ramp.consume } :=
  State.modPos_pos ..

section
variable {x : Position} {v : VehicleReport}

/-- The action of the report taken, the consumption written out (R51, R52). -/
theorem vehicleAction_consumed (x : Position) : vehicleAction { x with ramp := x.ramp.consume } =
    match x.ramp.taken with
    | some r =>
      if 850 ≤ r.temperature then .endWith .vehicleTemp
      else if r.command == .abort then .endWith .vehicleAbort
      else if x.mode == some .comm && x.ramp.consume.consecutiveHolds == 3 then .degrade
      else if x.mode == some .comm && r.command == .halt then .hold
      else if x.mode == some .comm then .resume
      else .nothing
    | none => if x.mode == some .comm && x.ramp.consume.consecutiveHolds == 3 then .degrade else .nothing := by
  obtain ⟨-, taken, -⟩ := x.ramp.consume_report
  rw [← taken]
  rfl

theorem degrades_iff (x : Position) : (x.mode == some .comm && x.ramp.consume.consecutiveHolds == 3) = true ↔
    x.mode = some .comm ∧ x.ramp.third := by
  rw [Bool.and_eq_true, beq_iff_eq, beq_iff_eq, x.ramp.consume_third]

theorem action_temp (h : x.ramp.taken = some v) (ht : 850 ≤ v.temperature) :
    vehicleAction { x with ramp := x.ramp.consume } = .endWith .vehicleTemp := by
  simp [vehicleAction_consumed, h, ht]

theorem action_abort (h : x.ramp.taken = some v) (ht : v.temperature < 850) (hc : v.command = .abort) :
    vehicleAction { x with ramp := x.ramp.consume } = .endWith .vehicleAbort := by
  simp [vehicleAction_consumed, h, Int.not_le.2 ht, hc]

theorem action_degrade (h : ∀ v, x.ramp.taken = some v → v.temperature < 850 ∧ v.command ≠ .abort)
    (hm : x.mode = some .comm) (h3 : x.ramp.third) : vehicleAction { x with ramp := x.ramp.consume } = .degrade := by
  have degrades := (degrades_iff x).2 ⟨hm, h3⟩
  rw [vehicleAction_consumed]
  cases hv : x.ramp.taken with
  | none => simp only [degrades, if_true]
  | some v =>
    obtain ⟨cold, goes⟩ := h v hv
    simp only [degrades, if_true, if_neg (Int.not_le.2 cold), if_neg (mt beq_iff_eq.1 goes)]

theorem action_halt (h : x.ramp.taken = some v) (ht : v.temperature < 850) (hc : v.command = .halt)
    (hm : x.mode = some .comm) (h3 : ¬ x.ramp.third) : vehicleAction { x with ramp := x.ramp.consume } = .hold := by
  have stays : ¬ (x.mode == some .comm && x.ramp.consume.consecutiveHolds == 3) = true := fun k => h3 ((degrades_iff x).1 k).2
  rw [vehicleAction_consumed, h]
  dsimp only
  rw [if_neg (Int.not_le.2 ht), if_neg (by simp [hc]), if_neg stays, if_pos (by simp [hm, hc])]

theorem action_run (h : x.ramp.taken = some v) (ht : v.temperature < 850) (hc : v.command = .run)
    (hm : x.mode = some .comm) (h3 : ¬ x.ramp.third) : vehicleAction { x with ramp := x.ramp.consume } = .resume := by
  have stays : ¬ (x.mode == some .comm && x.ramp.consume.consecutiveHolds == 3) = true := fun k => h3 ((degrades_iff x).1 k).2
  rw [vehicleAction_consumed, h]
  dsimp only
  rw [if_neg (Int.not_le.2 ht), if_neg (by simp [hc]), if_neg stays, if_neg (by simp [hc]), if_pos (by simp [hm])]

theorem action_none (h : x.ramp.taken = none) (hm : x.mode = some .noncomm) :
    vehicleAction { x with ramp := x.ramp.consume } = .nothing := by
  rw [vehicleAction_consumed, h]
  simp [hm]

end

/-- What the vehicle's report makes of a fill: in RAMP and in HOLD for its vehicle alike. -/
structure Acts (p : PosId) (i : SlotId) (s t : State) : Prop where
  report : Reports p (consumeAt p s) t
  ends : ∀ reason, vehicleAction ((consumeAt p s).pos p) = .endWith reason → t = endFill p reason (consumeAt p s)
  degrades : vehicleAction ((consumeAt p s).pos p) = .degrade → Fares p i (degrade p (consumeAt p s)) t ∧
    (((degrade p (consumeAt p s)).pos p).state = .ending → t = degrade p (consumeAt p s))

theorem degrade_mode (s : State) : ((degrade p s).pos p).fare = ((s.pos p).degraded).fare := by
  have marked : (modRecord p (fun r => { r with flags := { r.flags with degraded := true } })
      (s.modPos p Position.degraded)).pos p = (s.pos p).degraded := by
    rw [modRecord_pos, State.modPos_pos]
  have noticed (u : State) : Fares p 0 u (postDegraded p u) :=
    fares_moves (moves_postNotice _ _ _ (by decide) .refl)
  rw [degrade_eq, (noticed _).pos]
  split
  · rw [(fares_endFill (i := 0) _ _).pos, marked]
  · rw [marked]

theorem acts_rampStep (k : ClassId) (b : BankId) (mass : Nat) (s : State) : Acts p i s (rampStep p k b mass s) := by
  constructor
  case report =>
    unfold rampStep
    dsimp only
    split
    · exact (moves_endFill p _ .refl).reports
    · exact reports_ite _ ((reports_stages2to5 k b mass _).trans (reports_degrade _)) (reports_degrade _)
    · exact (moves_holdFromRamp p _ .refl).reports
    · exact reports_stages2to5 k b mass _
    · exact reports_stages2to5 k b mass _
  case ends =>
    intro reason h
    unfold rampStep
    simp only [h]
  case degrades =>
    intro h
    have step : rampStep p k b mass s = if ((degrade p (consumeAt p s)).pos p).state == .ramp then
        stages2to5 p k b mass (degrade p (consumeAt p s)) else degrade p (consumeAt p s) := by
      unfold rampStep
      simp only [h]
    have mode : ((degrade p (consumeAt p s)).pos p).mode = some .noncomm :=
      (congrArg Position.mode (degrade_mode (consumeAt p s)) :)
    have stages (u : State) (hu : (u.pos p).mode = some .noncomm) : stages2to5 p k b mass u = stages3to5 p k b mass u := by
      unfold stages2to5
      simp only [hu]
    rw [step, stages _ mode]
    refine ⟨fares_ite _ (fares_stages3to5 k b mass _) (.refl p i _), fun e => if_neg (by simp [e])⟩

theorem acts_vehicleUpdate (s : State) : Acts p i s (vehicleUpdate p s) := by
  constructor
  case report =>
    unfold vehicleUpdate
    dsimp only
    split
    · exact (moves_endFill p _ .refl).reports
    · exact reports_ite _ ((moves_checksCD p .refl).reports.trans (reports_degrade _)) (reports_degrade _)
    · exact (moves_checksCD p .refl).reports
    · rfl
    · rfl
  case ends =>
    intro reason h
    unfold vehicleUpdate
    simp only [h]
  case degrades =>
    intro h
    have step : vehicleUpdate p s = if ((degrade p (consumeAt p s)).pos p).state == .hold then
        checksCD p (degrade p (consumeAt p s)) else degrade p (consumeAt p s) := by
      unfold vehicleUpdate
      simp only [h]
    rw [step]
    exact ⟨fares_ite _ (fares_checksCD _) (.refl p i _), fun e => if_neg (by simp [e])⟩

/-! ### The degrade (R52) -/

/-- The mark of a degrade in the record. -/
def TxnRecord.degrading (r : TxnRecord) : TxnRecord := { r with flags := { r.flags with degraded := true } }

/-- A degrade but for its notice. -/
def degradeEnd (p : PosId) (s : State) : State :=
  if decide (((s.pos p).ramp.inUse.map (·.pnc)).getD 0 < (s.pos p).ramp.pSet.getD 0) then
    endFill p .targetReached (modRecord p TxnRecord.degrading (s.modPos p Position.degraded))
  else modRecord p TxnRecord.degrading (s.modPos p Position.degraded)

theorem degrade_eq_end (p : PosId) (s : State) : degrade p s = postDegraded p (degradeEnd p s) := rfl

theorem fares_postDegraded (s : State) : Fares p i s (postDegraded p s) :=
  fares_moves (moves_postNotice _ _ _ (by decide) .refl)

theorem degrade_record (ho : s.openSlot p = some i) (hr : s.slot i = .txn r) :
    ∃ r', (degrade p s).slot i = .txn r' ∧ r'.flags.degraded = true := by
  have marked : (modRecord p TxnRecord.degrading (s.modPos p Position.degraded)).slot i = .txn r.degrading := by
    rw [modRecord_at (s := s.modPos p Position.degraded) ho hr, State.setSlot_slot]
  have ended : Fares p i (modRecord p TxnRecord.degrading (s.modPos p Position.degraded)) (degradeEnd p s) :=
    fares_ite _ (fares_endFill _ _) (.refl p i _)
  obtain ⟨r', hr', e⟩ := (ended.trans (fares_postDegraded _)).record _ marked
  exact ⟨r', hr', e⟩

theorem degrade_noticed {n : PortId} (hn : n = tillPort ∨ n = islandPort p) (hm : (s.port n).mask ≤ 3) :
    Noticed (degrade p s) n .vehicleDegraded p.val := by
  have ports : (modRecord p TxnRecord.degrading (s.modPos p Position.degraded)).ports = s.ports := by
    obtain ⟨w, e⟩ := modRecord_eq p TxnRecord.degrading (s.modPos p Position.degraded)
    rw [e]
    rfl
  have passes : (s.port n).passes .vehicleDegraded = true := by
    simp [Port.passes, NoticeKind.level, Nat.lt_succ_of_le hm]
  have marked : ((modRecord p TxnRecord.degrading (s.modPos p Position.degraded)).port n).passes .vehicleDegraded = true := by
    rwa [State.port, ports]
  have ended : ((degradeEnd p s).port n).passes .vehicleDegraded = true := by
    unfold degradeEnd
    split
    · rwa [passes_of_steady (steady_endFill ..)]
    · exact marked
  rw [degrade_eq_end]
  exact postNotice_noticed (by rcases hn with rfl | rfl <;> simp) ended _ _

theorem degrade_over (h : endable (s.pos p).state = true)
    (ha : ((s.pos p).ramp.inUse.map (·.pnc)).getD 0 < (s.pos p).ramp.pSet.getD 0) :
    Over p .targetReached (degrade p s) := by
  have ended : degradeEnd p s = endFill p .targetReached (modRecord p TxnRecord.degrading (s.modPos p Position.degraded)) :=
    if_pos (decide_eq_true ha)
  have marked : ((modRecord p TxnRecord.degrading (s.modPos p Position.degraded)).pos p).state = (s.pos p).state := by
    rw [modRecord_pos, State.modPos_pos]
    rfl
  have halted : Over p .targetReached (degradeEnd p s) := by
    rw [ended]
    exact over_endFill (by rwa [marked]) _
  exact halted.settled (settled_of_pos (postNotice_pos ..))

/-! ### What a vehicle step does to a fill (R51 to R53) -/

/-- The state with the period of a position begun again (R10). -/
def State.timed (s : State) (p : PosId) : State := s.modPos p (fun x => { x with periodTimer := some 1000 })

theorem timed_pos (s : State) : (s.timed p).pos p = { s.pos p with periodTimer := some 1000 } := State.modPos_pos ..

theorem timed_pos_ne (s : State) (h : q ≠ p) : (s.timed p).pos q = s.pos q := State.modPos_pos_ne _ _ _ _ h

/-- The update of a fill whose period is over, when it raises no end of its own (R126 to R132, R145). -/
structure Endless (s : State) (p : PosId) (i : SlotId) (r : TxnRecord) : Prop where
  quiet : Quiet s
  expired : (s.pos p).periodTimer = some 0
  opens : s.openSlot p = some i
  record : s.slot i = .txn r
  noPreset : r.preset = .none
  inRange : ((s.chan p).accumulate (s.cal p)).exceeds = false
  noOverflow : (s.chan p).overflow = false
  noStall : (s.chan p).stalled s.clock = false

section
variable {m : Nat}

theorem Endless.faultless (h : Endless s p i r) (hs : (s.pos p).state ≠ .leakCheck) :
    faultOf ((s.timed p).chan p) (meterTake p (s.timed p)) p = none := by
  obtain ⟨chan, cal, -, clock⟩ := meterTake_kept (s := s.timed p) (p := p) h.opens h.record
  have state : ((meterTake p (s.timed p)).pos p).state = (s.pos p).state := by rw [meterTake_pos, timed_pos]
  have stalled : ((meterTake p (s.timed p)).chan p).stalled (meterTake p (s.timed p)).clock = false := by
    rw [chan, clock, take_stalled]
    exact h.noStall
  have exceeds : (((s.timed p).chan p).accumulate ((meterTake p (s.timed p)).cal p)).exceeds = false := by
    rw [cal]
    exact h.inRange
  have overflow : ((s.timed p).chan p).overflow = false := h.noOverflow
  unfold faultOf
  rw [if_neg (by simp [exceeds]), if_neg (by simp [overflow]), if_neg (fun k => hs (state.symm.trans k.1)),
    if_neg (fun k => by simp [stalled] at k)]

theorem Endless.mass (h : Endless s p i r) :
    (((s.timed p).chan p).take ((s.timed p).cal p)).mass = rne ((s.chan p).accumulate (s.cal p)).acc gramUnits := by
  refine (take_mass ..).trans (Nat.min_eq_left ?_)
  have := h.inRange
  rw [exceeds_eq, decide_eq_false_iff_not] at this
  exact Nat.not_lt.1 this

theorem Endless.runs (h : Endless s p i r) :
    exec (.periodExpiry p) s = .next (endEvent (meterUpdate p (s.timed p))) := by
  obtain ⟨f, effect, hf⟩ : ∃ f, effectOf (.periodExpiry p) = some f ∧
      f s = if due (s.pos p).periodTimer then meterUpdate p (s.timed p) else s := ⟨_, rfl, rfl⟩
  rw [if_pos ((due_iff _).2 h.expired)] at hf
  rw [exec_effect effect, takeEvent, h.quiet.serving, ← hf]
  rfl

/-- An update without an end, of a fill in RAMP. -/
theorem Endless.ramp (h : Endless s p i r) (hs : (s.pos p).state = .ramp) (hb : (s.pos p).bank = some b)
    (hk : (s.pos p).cls = some k) : ∃ u, Begins p i r (rne ((s.chan p).accumulate (s.cal p)).acc gramUnits) (s.timed p) u ∧
      exec (.periodExpiry p) s = .next (endEvent (setPrevious p
        (rampStep p k b (rne ((s.chan p).accumulate (s.cal p)).acc gramUnits) u))) := by
  have timer : ((s.timed p).pos p).periodTimer = some 1000 := by rw [timed_pos]
  have faultless := h.faultless (by rw [hs]; decide)
  have begins := begins_setDrawn (s := s.timed p) h.opens h.record timer faultless h.noPreset
  have update := meterUpdate_ramp (s := s.timed p) (k := k) (b := b) h.opens h.record timer faultless h.noPreset (by rw [timed_pos]; exact hs)
    (by rw [timed_pos]; exact hb) (by rw [timed_pos]; exact hk)
  rw [h.mass] at begins update
  exact ⟨_, begins, by rw [h.runs, update]⟩

/-- An update without an end, of a fill that waits for its vehicle. -/
theorem Endless.vehicle (h : Endless s p i r) (hs : (s.pos p).state = .hold) (hh : (s.pos p).holdReason = some .vehicle) :
    ∃ u, Begins p i r (rne ((s.chan p).accumulate (s.cal p)).acc gramUnits) (s.timed p) u ∧
      exec (.periodExpiry p) s = .next (endEvent (setPrevious p (vehicleUpdate p u))) := by
  have timer : ((s.timed p).pos p).periodTimer = some 1000 := by rw [timed_pos]
  have faultless := h.faultless (by rw [hs]; decide)
  have begins := begins_setDrawn (s := s.timed p) h.opens h.record timer faultless h.noPreset
  have update := meterUpdate_vehicle (s := s.timed p) h.opens h.record timer faultless h.noPreset (by rw [timed_pos]; exact hs)
    (by rw [timed_pos]; exact hh)
  rw [h.mass] at begins
  exact ⟨_, begins, by rw [h.runs, update]⟩

theorem RampGenerator.consume_kept (g : RampGenerator) : g.consume.inUse = g.inUse ∧ g.consume.pSet = g.pSet ∧
    g.consume.pTarget = g.pTarget ∧ g.consume.lowFlow = g.lowFlow ∧ g.consume.previousMass = g.previousMass := by
  unfold RampGenerator.consume
  split <;> exact ⟨rfl, rfl, rfl, rfl, rfl⟩

theorem max_of_decide (a b : Nat) : (if decide (a < b) = true then b else a) = max b a := by
  by_cases h : a < b
  · rw [if_pos (decide_eq_true h)]
    omega
  · rw [if_neg (by simpa using h)]
    omega

/-- What becomes of a fill whose report has been acted on. -/
structure ActedOn (p : PosId) (i : SlotId) (s t : State) : Prop where
  report : (t.pos p).ramp.report = (s.pos p).ramp.consume.report
  ends : ∀ reason, vehicleAction { s.pos p with ramp := (s.pos p).ramp.consume } = .endWith reason → Over p reason t
  degrades : vehicleAction { s.pos p with ramp := (s.pos p).ramp.consume } = .degrade →
    ∀ e pSet, (s.pos p).ramp.inUse = some e → (s.pos p).ramp.pSet = some pSet →
      (t.pos p).mode = some .noncomm ∧ (t.pos p).ramp.degraded = true ∧ (t.pos p).ramp.pTarget = some (max pSet e.pnc) ∧
      (∃ r', t.slot i = .txn r' ∧ r'.flags.degraded = true) ∧
      (∀ n, n = tillPort ∨ n = islandPort p → (s.port n).mask ≤ 3 → Noticed t n .vehicleDegraded p.val) ∧
      (e.pnc < pSet → Over p .targetReached t)

theorem endEvent_slot (s : State) (i : SlotId) : (endEvent s).slot i = s.slot i := by
  rw [(sends_endEvent s).rest]
  rfl

theorem fares_endEvent (s : State) : Fares p i s (endEvent s) where
  pos := by rw [(trails_endEvent s).pos]
  record r hr := ⟨r, (endEvent_slot s i).trans hr, rfl⟩
  hears := hears_endEvent s

theorem Begins.actedOn (h : Begins p i r m (s.timed p) u) (ha : Acts p i u t)
    (hs : (s.pos p).state = .ramp ∨ (s.pos p).state = .hold) : ActedOn p i s (endEvent (setPrevious p t)) := by
  have pos : u.pos p = { s.pos p with periodTimer := some 1000 } := (h.pos p).trans (timed_pos s)
  have consumed : (consumeAt p u).pos p =
      { s.pos p with periodTimer := some 1000, ramp := (s.pos p).ramp.consume } := by rw [consumeAt_pos, pos]
  have endable : endable ((consumeAt p u).pos p).state = true := by
    rw [consumed]
    rcases hs with e | e <;> simp [e, endable]
  have action : vehicleAction ((consumeAt p u).pos p) = vehicleAction { s.pos p with ramp := (s.pos p).ramp.consume } := by
    rw [consumed]
    rfl
  have last : Fares p i t (endEvent (setPrevious p t)) := (fares_setPrevious t).trans (fares_endEvent _)
  have settled : Settled p t (endEvent (setPrevious p t)) := by
    have noted : Settled p t (setPrevious p t) := ⟨by simp [setPrevious], by simp [setPrevious]⟩
    exact noted.trans (settled_of_pos ((trails_endEvent _).pos p))
  constructor
  case report =>
    have := (last.report.trans ha.report)
    rwa [consumed] at this
  case ends =>
    intro reason hr
    have ended := ha.ends reason (action.trans hr)
    exact Over.settled (ended ▸ over_endFill endable reason) settled
  case degrades =>
    intro hd e pSet hu hp
    obtain ⟨fares, stops⟩ := ha.degrades (action.trans hd)
    have fares := fares.trans last
    have mode := fares.pos.trans (degrade_mode _)
    rw [consumed] at mode
    obtain ⟨v, hv, -⟩ := h.record
    obtain ⟨r', hr', marked⟩ := degrade_record (s := consumeAt p u) (p := p) h.opens hv
    obtain ⟨r'', hr'', same⟩ := fares.record r' hr'
    have ports (n : PortId) : (consumeAt p u).port n = s.port n := by
      change u.port n = _
      rw [h.rest]
      rfl
    refine ⟨(congrArg Position.mode mode :), (congrArg (fun x : Position => x.ramp.degraded) mode :), ?_,
      ⟨r'', hr'', same.trans marked⟩, fun n hn hm => ?_, fun above => ?_⟩
    · have target := congrArg (fun x : Position => x.ramp.pTarget) mode
      refine target.trans ?_
      simp only [Position.fare, Position.steady, Position.degraded, RampGenerator.consume_kept, hu, hp, Option.map_some,
        Option.getD_some]
      rw [max_of_decide]
    · exact (degrade_noticed hn (by rwa [ports])).hears fares.hears
    · have halted : Over p .targetReached (degrade p (consumeAt p u)) := degrade_over endable (by
        rw [consumed]
        simpa only [RampGenerator.consume_kept, hu, hp, Option.map_some, Option.getD_some] using above)
      rw [← stops halted.1] at halted
      exact halted.settled settled

end

/-! ### The grants of fills stand while banks change hands -/

theorem grantBank_cooling (p : PosId) (b : BankId) (s : State) : (grantBank p b s).cooling = s.cooling := by
  by_cases h : (s.pos p).state = .pulse
  · obtain ⟨x, l, e, -⟩ := grantBank_pulse h b
    rw [e]
    rfl
  · obtain ⟨x, w, g, l, e, -⟩ := grantBank_eq h b
    rw [e]
    rfl

theorem cooling_foldl {α : Type} (l : List α) (f : State → α → State) (hf : ∀ s a, (f s a).cooling = s.cooling) (s : State) :
    (l.foldl f s).cooling = s.cooling := by
  induction l generalizing s with
  | nil => rfl
  | cons a l ih => exact (ih _).trans (hf s a)

theorem offerBank_cooling (b : BankId) (s : State) : (offerBank b s).cooling = s.cooling := by
  unfold offerBank
  split
  · exact grantBank_cooling _ _ _
  · rfl

theorem offerPass_cooling (l : List BankId) (s : State) : (offerPass l s).cooling = s.cooling := by
  unfold offerPass
  split
  · rfl
  · refine cooling_foldl _ _ (fun u b => ?_) s
    split
    · exact offerBank_cooling b u
    · rfl

/-- The fills' entries of the budget stand. -/
def FillGrants (s t : State) : Prop := t.cooling.fills = s.cooling.fills

theorem FillGrants.andThen (h : FillGrants s t) (k : FillGrants t u) : FillGrants s u := Eq.trans k h

theorem fillGrants_of (h : t.cooling = s.cooling) : FillGrants s t := congrArg Cooling.fills h

theorem FillGrants.grantOf (h : FillGrants s t) (q : PosId) : t.grantOf (.pos q) = s.grantOf (.pos q) := by
  have : t.cooling.fills[q] = s.cooling.fills[q] := by rw [h]
  exact this

theorem fillGrants_foldl {α : Type} (l : List α) (f : State → α → State) (hf : ∀ s a, FillGrants s (f s a)) (s : State) :
    FillGrants s (l.foldl f s) := by
  induction l generalizing s with
  | nil => rfl
  | cons a l ih => exact (hf s a).andThen (ih _)

theorem postNotice_cooling (k : NoticeKind) (n : Nat) (data : List Field) (ports : List PortId) (s : State) :
    (postNotice k n data ports s).cooling = s.cooling := by
  rw [(sends_postNotice k n data ports s).rest]

theorem moveBank_cooling (b : BankId) (st : BankState) (h : Option Holder) (s : State) :
    (moveBank b st h s).cooling = s.cooling := by
  obtain ⟨l, x, e, -⟩ := moveBank_eq b st h s
  rw [e]
  rfl

theorem flushWaitNotice_cooling (c : CompId) (s : State) : (flushWaitNotice c s).cooling = s.cooling := by
  unfold flushWaitNotice
  split
  · exact postNotice_cooling _ _ _ _ _
  · rfl

section
variable (s : State)

theorem fillGrants_modComp (c : CompId) (f : Compressor → Compressor) : FillGrants s (s.modComp c f) := rfl

theorem fillGrants_modPos (p : PosId) (f : Position → Position) : FillGrants s (s.modPos p f) := rfl

theorem fillGrants_queue (l : List QueueEntry) : FillGrants s { s with queue := l } := rfl

theorem fillGrants_evt (e : Scratch) : FillGrants s { s with evt := e } := rfl

theorem fillGrants_postDirective (n : PortId) (d : Directive) : FillGrants s (postDirective n d s) := rfl

theorem fillGrants_setGrant_comp (c : CompId) (g : Nat) : FillGrants s (setGrant (.comp c) g s) := rfl

theorem fillGrants_postCompState (c : CompId) (cause : CompCause) : FillGrants s (postCompState c cause s) :=
  fillGrants_of (postNotice_cooling _ _ _ _ _)

theorem fillGrants_moveBank (b : BankId) (st : BankState) (h : Option Holder) : FillGrants s (moveBank b st h s) :=
  fillGrants_of (moveBank_cooling b st h s)

theorem fillGrants_flushWaitNotice (c : CompId) : FillGrants s (flushWaitNotice c s) :=
  fillGrants_of (flushWaitNotice_cooling c s)

end

theorem fillGrants_startRefill (c : CompId) (s : State) : FillGrants s (startRefill c s).1 := by
  have stopped := fillGrants_modComp s c (fun x => { x with requestTime := none })
  unfold startRefill
  dsimp only
  split
  · exact (((((stopped.andThen (fillGrants_evt _ _)).andThen (fillGrants_moveBank _ _ _ _)).andThen
      (fillGrants_queue _ _)).andThen (fillGrants_modComp _ c _)).andThen (fillGrants_postDirective _ _ _)).andThen
      (fillGrants_postCompState _ _ _)
  · exact ((((stopped.andThen (fillGrants_flushWaitNotice _ c)).andThen (fillGrants_evt _ _)).andThen
      (fillGrants_setGrant_comp _ c 0)).andThen (fillGrants_modComp _ c _)).andThen (fillGrants_postCompState _ _ _)

theorem fillGrants_compressorAsks (c : CompId) (s : State) : FillGrants s (compressorAsks c s) := by
  unfold compressorAsks
  dsimp only
  split
  · exact ((fillGrants_evt s _).andThen (fillGrants_setGrant_comp _ c _)).andThen (fillGrants_startRefill c _)
  · rfl

theorem fillGrants_assignmentPass (s : State) : FillGrants s (assignmentPass s) := by
  unfold assignmentPass
  split
  · rfl
  · refine fillGrants_foldl _ _ (fun u c => ?_) s
    split
    · exact fillGrants_compressorAsks c u
    · rfl

theorem fillGrants_tellIdle (b : BankId) (s : State) : FillGrants s (tellIdle b s) := by
  unfold tellIdle
  split
  · exact fillGrants_assignmentPass s
  · split
    · split
      · exact fillGrants_assignmentPass _
      · rfl
    · rfl

theorem fillGrants_bankIdle (b : BankId) (s : State) : FillGrants s (bankIdle b s) := by
  unfold bankIdle
  dsimp only
  split
  · exact (fillGrants_of (offerPass_cooling [b] s)).andThen (fillGrants_tellIdle b _)
  · exact fillGrants_of (offerPass_cooling [b] s)

theorem fillGrants_releaseBank (p : PosId) (s : State) : FillGrants s (releaseBank p s) := by
  unfold releaseBank
  split
  · rfl
  · exact ((fillGrants_modPos s p _).andThen (fillGrants_moveBank _ _ _ _)).andThen (fillGrants_bankIdle _ _)

/-! ### A hold for the vehicle (R51, R53) -/

/-- A fill that stops flowing has its valve closed. -/
theorem enterHold_directed (h : (s.pos p).state = .ramp) (reason : HoldReason) :
    Directed (enterHold p reason s) (islandPort p) (.valve p .closed none) := by
  have sent (v : State) (hv : (v.pos p).state = .hold) :
      Directed (fillState p (sendValve p v)) (islandPort p) (.valve p .closed none) := by
    have picture : (v.pos p).picture = .closed := by simp [Position.picture, hv]
    have lane : (v.pos p).directiveLane = none := by simp [Position.directiveLane, picture]
    have := sendValve_directed p v
    rw [picture, lane] at this
    rwa [Directed, fillState_directives]
  unfold enterHold
  dsimp only
  rw [if_pos (by simp [h])]
  exact sent _ (by simp)

/-- R23: a fill in RAMP that waits for nothing leaves its bank and is held. -/
theorem holdFromRamp_leaves (hs : (s.pos p).state = .ramp) (hd : ¬ Draws s p) (reason : HoldReason) :
    (holdFromRamp p reason s).pos p = { s.pos p with
      bank := none, state := .hold, holdReason := some reason, phaseTimer := some 120000
      ramp := { (s.pos p).ramp with lowFlow := 0 } } ∧
    (holdFromRamp p reason s).grantOf (.pos p) = s.grantOf (.pos p) ∧
    Directed (holdFromRamp p reason s) (islandPort p) (.valve p .closed none) := by
  obtain ⟨w, ended⟩ := endSegment_eq p .hold s
  have released : Spares p ((endSegment p .hold s).modPos p (fun x => { x with bank := none }))
      (releaseBank p (endSegment p .hold s)) := spares_releaseBank (by rw [ended]; exact hd) p
  have pos : (releaseBank p (endSegment p .hold s)).pos p = { s.pos p with bank := none } := by
    rw [released.pos, State.modPos_pos, ended]
    rfl
  have ramp : ((releaseBank p (endSegment p .hold s)).pos p).state = .ramp := by rw [pos]; exact hs
  have fills : FillGrants s (releaseBank p (endSegment p .hold s)) := by
    refine FillGrants.andThen ?_ (fillGrants_releaseBank p _)
    rw [ended]
    rfl
  refine ⟨?_, ?_, enterHold_directed ramp reason⟩
  · change (enterHold p reason _).pos p = _
    rw [enterHold_pos, Position.heldFor, if_neg (by simp [ramp]), pos]
  · obtain ⟨x, v, g, e⟩ := enterHold_eq p reason (releaseBank p (endSegment p .hold s))
    change (enterHold p reason _).grantOf (.pos p) = _
    rw [e]
    generalize releaseBank p (endSegment p .hold s) = z at fills
    exact FillGrants.grantOf fills p

/-! ### The update of a fill that has a vehicle (R50 to R53) -/

/-- The last step of an update keeps what the steps before it leave of the position, the budget and the directives. -/
theorem last_kept (y : State) : (endEvent (setPrevious p y)).pos p = (y.pos p).measured (y.chan p).mass ∧
    (endEvent (setPrevious p y)).cooling = y.cooling ∧ (endEvent (setPrevious p y)).drawList = y.drawList ∧
    (∀ c, (endEvent (setPrevious p y)).bank c = y.bank c) ∧ (∀ c, (endEvent (setPrevious p y)).slot c = y.slot c) ∧
    ∀ n d, Directed (endEvent (setPrevious p y)) n d ↔ Directed y n d := by
  have trail := trails_endEvent (setPrevious p y)
  exact ⟨(trail.pos p).trans (State.modPos_pos ..), trail.cooling, trail.drawList, fun c => trail.bank c,
    fun c => endEvent_slot _ c, fun n d => trail.directed n d⟩

theorem Begins.draws {m : Nat} (h : Begins p i r m (s.timed p) u) : Draws (consumeAt p u) p ↔ Draws s p := by
  have : (consumeAt p u).drawList = s.drawList := by
    change u.drawList = _
    rw [h.rest]
    rfl
  rw [Draws, this]
  rfl

theorem Begins.consumed {m : Nat} (h : Begins p i r m (s.timed p) u) : (consumeAt p u).pos p =
    { s.pos p with periodTimer := some 1000, ramp := (s.pos p).ramp.consume } := by
  rw [consumeAt_pos, h.pos, timed_pos]

theorem Begins.cooling {m : Nat} (h : Begins p i r m (s.timed p) u) : (consumeAt p u).cooling = s.cooling := by
  change u.cooling = _
  rw [h.rest]
  rfl

theorem Begins.action {m : Nat} (h : Begins p i r m (s.timed p) u) :
    vehicleAction ((consumeAt p u).pos p) = vehicleAction { s.pos p with ramp := (s.pos p).ramp.consume } := by
  rw [h.consumed]
  rfl

/-- HALT holds a fill for its vehicle (R51, R53). -/
theorem Begins.halts {m : Nat} {k : ClassId} (h : Begins p i r m (s.timed p) u) (hw : ¬ Waits s p)
    (ha : vehicleAction { s.pos p with ramp := (s.pos p).ramp.consume } = .hold) :
    ((s.pos p).state = .ramp → ∀ t, t = endEvent (setPrevious p (rampStep p k b m u)) →
      (t.pos p).state = .hold ∧ (t.pos p).holdReason = some .vehicle ∧ (t.pos p).bank = none ∧
      t.grantOf (.pos p) = s.grantOf (.pos p) ∧ (t.pos p).phaseTimer = some 120000 ∧
      Directed t (islandPort p) (.valve p .closed none)) ∧
    ((s.pos p).state = .hold → (s.pos p).holdReason = some .vehicle → (s.pos p).bank = none →
      ∀ t, t = endEvent (setPrevious p (vehicleUpdate p u)) →
      (t.pos p).state = .hold ∧ (t.pos p).holdReason = some .vehicle ∧ (t.pos p).bank = none ∧
      t.grantOf (.pos p) = s.grantOf (.pos p) ∧ (t.pos p).phaseTimer = (s.pos p).phaseTimer) := by
  have consumed := h.consumed
  have action := h.action.trans ha
  have cooling := h.cooling
  have grant : (consumeAt p u).grantOf (.pos p) = s.grantOf (.pos p) := by rw [State.grantOf, cooling]; rfl
  refine ⟨fun hs t ht => ?_, fun hs hr hb t ht => ?_⟩
  · have step : rampStep p k b m u = holdFromRamp p .vehicle (consumeAt p u) := by
      unfold rampStep
      simp only [action]
    rw [step] at ht
    obtain ⟨pos, grants, directed⟩ := holdFromRamp_leaves (s := consumeAt p u) (p := p) (by rw [consumed]; exact hs)
      (mt h.draws.1 (not_draws_of_not_waits hw)) .vehicle
    obtain ⟨tpos, tcooling, -, -, -, tdirected⟩ := last_kept (p := p) (holdFromRamp p .vehicle (consumeAt p u))
    rw [pos] at tpos
    subst ht
    refine ⟨by rw [tpos]; rfl, by rw [tpos]; rfl, by rw [tpos]; rfl, ?_, by rw [tpos]; rfl, (tdirected _ _).2 directed⟩
    rw [State.grantOf, tcooling]
    exact grants.trans grant
  · have step : vehicleUpdate p u = consumeAt p u := by
      unfold vehicleUpdate
      simp only [action]
    rw [step] at ht
    obtain ⟨tpos, tcooling, -⟩ := last_kept (p := p) (consumeAt p u)
    rw [consumed] at tpos
    subst ht
    refine ⟨by rw [tpos]; exact hs, by rw [tpos]; exact hr, by rw [tpos]; exact hb, ?_, by rw [tpos]; rfl⟩
    rw [State.grantOf, tcooling]
    exact grant

theorem Position.measured_lane (x : Position) (m : Nat) : (x.measured m).directiveLane = x.directiveLane := by
  unfold Position.directiveLane Position.picture Position.measured
  rfl

/-- The checks (c) and (d) of a fill in HOLD without a bank. -/
theorem checksCD_resumes (hb : (s.pos p).bank = none) (hs : (s.pos p).state = .hold) :
    if warmHeld s p = true then (checksCD p s).pos p = (s.pos p).heldFor .laneWarm
    else match bestBank s p .ramp none with
      | some b => (checksCD p s).pos p = (s.pos p).flowing b ∧
        Directed (checksCD p s) (islandPort p) (.valve p (.flow b ((s.pos p).ramp.pSet.getD 0)) ((s.pos p).flowing b).directiveLane)
      | none => (checksCD p s).pos p = (s.pos p).heldFor .bank ∧ (checksCD p s).drawList = (s.drawing p).drawList := by
  have pulse : (s.pos p).state ≠ .pulse := by rw [hs]; decide
  rw [checksCD_eq hb pulse]
  by_cases hw : warmHeld s p = true
  · rw [if_pos hw, if_pos hw]
    exact enterHold_pos ..
  rw [if_neg hw, if_neg hw]
  cases bestBank s p .ramp none with
  | some b =>
    have flows := grantBank_flows (s := s) (p := p) pulse (by rw [hs]; decide) b
    have pos : (grantBank p b s).pos p = (s.pos p).flowing b := flows.position
    have sent := flows.flowSent
    rw [pos] at sent
    exact ⟨pos, sent⟩
  | none =>
    obtain ⟨x, w, g, e⟩ := enterHold_eq p .bank (s.drawing p)
    refine ⟨enterHold_pos p .bank (s.drawing p), ?_⟩
    dsimp only
    rw [e]
    rfl

/-- RUN resumes a fill held for its vehicle (R53). -/
theorem Begins.resumes {m : Nat} (h : Begins p i r m (s.timed p) u) (hs : (s.pos p).state = .hold)
    (hb : (s.pos p).bank = none) (ha : vehicleAction { s.pos p with ramp := (s.pos p).ramp.consume } = .resume)
    (ht : t = endEvent (setPrevious p (vehicleUpdate p u))) :
    if warmHeld s p = true then (t.pos p).state = .hold ∧ (t.pos p).holdReason = some .laneWarm
    else
      match bestBank s p .ramp none with
      | some b => (t.pos p).state = .ramp ∧ (t.pos p).bank = some b ∧ (t.pos p).phaseTimer = none ∧
        Directed t (islandPort p) (.valve p (.flow b ((s.pos p).ramp.pSet.getD 0)) (t.pos p).directiveLane)
      | none => (t.pos p).state = .hold ∧ (t.pos p).holdReason = some .bank ∧ ∃ w ∈ t.drawList, w.pos = p := by
  have consumed := h.consumed
  have step : vehicleUpdate p u = checksCD p (consumeAt p u) := by
    unfold vehicleUpdate
    simp only [h.action.trans ha]
  have state : ((consumeAt p u).pos p).state = .hold := by rw [consumed]; exact hs
  have checks := checksCD_resumes (s := consumeAt p u) (p := p) (by rw [consumed]; exact hb) state
  have warm : warmHeld (consumeAt p u) p = warmHeld s p := by
    have lanes : (consumeAt p u).lanes = s.lanes := by
      change u.lanes = _
      rw [h.rest]
      rfl
    have lane (l : LaneId) : (consumeAt p u).lane l = s.lane l := by rw [State.lane, lanes]; rfl
    unfold warmHeld
    simp only [consumed, lane]
  have best : bestBank (consumeAt p u) p .ramp none = bestBank s p .ramp none := by
    have none : ((s.timed p).pos p).bank = none := by rw [timed_pos]; exact hb
    have kept : u.windows = s.windows ∧ u.margin = s.margin ∧ u.evt = s.evt := by
      rw [h.rest]
      exact ⟨rfl, rfl, rfl⟩
    exact bestBank_congr p .ramp Option.none (h.banks none) kept.1 kept.2.1 (congrArg Scratch.plantLost kept.2.2) (by rw [consumed])
  have draws : (consumeAt p u).drawList = s.drawList := by
    change u.drawList = _
    rw [h.rest]
    rfl
  rw [warm, best, consumed] at checks
  obtain ⟨tpos, -, tdraw, -, -, tdirected⟩ := last_kept (p := p) (vehicleUpdate p u)
  subst ht
  rw [step] at tpos tdraw tdirected ⊢
  by_cases hw : warmHeld s p = true
  · rw [if_pos hw] at checks ⊢
    rw [tpos, checks]
    exact ⟨rfl, rfl⟩
  rw [if_neg hw] at checks ⊢
  cases hbest : bestBank s p .ramp none with
  | some b =>
    rw [hbest] at checks
    obtain ⟨pos, sent⟩ := checks
    obtain ⟨-, pSet, -⟩ := (s.pos p).ramp.consume_kept
    simp only [pSet] at sent
    rw [tpos, pos, Position.measured_lane]
    exact ⟨rfl, rfl, rfl, (tdirected _ _).2 sent⟩
  | none =>
    rw [hbest] at checks
    obtain ⟨pos, list⟩ := checks
    rw [tpos, pos, tdraw, list]
    exact ⟨rfl, rfl, _, List.mem_append_right _ (List.mem_singleton.2 rfl), rfl⟩

/-! ### The set-point (R45, R46) -/

/-- The set-point of a step. -/
def State.nextSet (s : State) (p : PosId) (k : ClassId) (b : BankId) : Nat :=
  nextSetPoint ((s.pos p).ramp.pSet.getD 0) ((s.pos p).ramp.pTarget.getD 0)
    (effectiveRate k (((s.pos p).ramp.inUse.map (·.aprr)).getD 0) (s.grantOf (.pos p)).grant (s.grantOf (.pos p)).demand)
    (s.bankPressure b) s.margin

/-- The position with a set-point (R46). -/
def Position.set (x : Position) (n : Nat) : Position := { x with ramp := { x.ramp with pSet := some n } }

theorem setPointStage_eq (p : PosId) (k : ClassId) (b : BankId) (s : State) :
    setPointStage p k b s = sendValve p (s.modPos p (fun x => x.set (s.nextSet p k b))) := rfl

theorem lane_of_flow {x : Position} (hs : x.state = .ramp) (hb : x.bank = some b) (hk : x.cls = some k) :
    x.picture = .flow b (x.ramp.pSet.getD 0) ∧ x.directiveLane = if k = 0 then none else x.lane := by
  have picture : x.picture = .flow b (x.ramp.pSet.getD 0) := by simp [Position.picture, hs, hb]
  refine ⟨picture, ?_⟩
  unfold Position.directiveLane
  rw [picture]
  by_cases h : k = 0 <;> simp [hk, cooled, h]

/-- The set-point moves and FLOW is sent. -/
theorem setPointStage_leaves (hs : (s.pos p).state = .ramp) (hb : (s.pos p).bank = some b) (hk : (s.pos p).cls = some k) :
    (setPointStage p k b s).pos p = (s.pos p).set (s.nextSet p k b) ∧
    (∀ q, q ≠ p → (setPointStage p k b s).pos q = s.pos q) ∧ (setPointStage p k b s).channels = s.channels ∧
    (setPointStage p k b s).queue = s.queue ∧ (setPointStage p k b s).drawList = s.drawList ∧
    Directed (setPointStage p k b s) (islandPort p) (.valve p (.flow b (s.nextSet p k b)) (if k = 0 then none else (s.pos p).lane)) := by
  have pos : (s.modPos p (fun x => x.set (s.nextSet p k b))).pos p = (s.pos p).set (s.nextSet p k b) := State.modPos_pos ..
  obtain ⟨picture, lane⟩ := lane_of_flow (x := (s.pos p).set (s.nextSet p k b)) hs hb hk
  rw [setPointStage_eq]
  refine ⟨pos, fun q hq => State.modPos_pos_ne s p q (fun x => x.set (s.nextSet p k b)) hq, rfl, rfl, rfl, ?_⟩
  have sent := sendValve_directed p (s.modPos p (fun x => x.set (s.nextSet p k b)))
  rw [pos, picture, lane] at sent
  exact sent

/-- The position with its count of slow steps (R43). -/
def Position.slowed (x : Position) (n : Nat) : Position := { x with ramp := { x.ramp with lowFlow := n } }

/-- A fill that is neither at its target nor on a bank too low nor slow moves its set-point. -/
theorem stages3to5_moves {m : Nat} (he : endTest (s.pos p) = false) (hb : heldPressure (s.pos p) + s.margin ≤ s.bankPressure b)
    (hl : (s.pos p).ramp.lowFlow = 0) :
    ∃ n, stages3to5 p k b m s = setPointStage p k b (s.modPos p (fun x => x.slowed n)) := by
  unfold stages3to5 switchStage
  dsimp only
  rw [if_neg (by simp [he]), if_neg (Nat.not_lt.2 hb), hl]
  refine ⟨if (decide (m - (s.pos p).ramp.previousMass < s.switchMass) &&
    decide ((s.pos p).ramp.pSet.getD 0 < (s.pos p).ramp.pTarget.getD 0)) = true then 0 + 1 else 0, ?_⟩
  rw [if_neg (by split <;> decide)]
  rfl

theorem endTest_eq_false {x : Position} {a T : Nat} (ha : x.ramp.pSet = some a) (hT : x.ramp.pTarget = some T)
    (h : a = T → heldPressure x + 20 < T)
    (hc : x.mode = some .comm → ∀ v, x.ramp.lastTaken = some v → v.pressure < T) : endTest x = false := by
  have apart : (x.ramp.pSet == x.ramp.pTarget && decide (x.ramp.pTarget.getD 0 ≤ heldPressure x + 20)) = false := by
    rw [ha, hT, Bool.and_eq_false_imp]
    intro e
    have := h (Option.some_inj.1 (beq_iff_eq.1 e))
    simpa using this
  unfold endTest
  dsimp only
  rw [apart, Bool.false_or, Bool.and_eq_false_imp]
  intro comm
  cases hv : x.ramp.lastTaken with
  | none => rfl
  | some v => simpa [hT] using hc (beq_iff_eq.1 comm) v hv

theorem endTest_eq_true {x : Position} {a T : Nat} {v : VehicleReport} (ha : x.ramp.pSet = some a) (hT : x.ramp.pTarget = some T)
    (hm : x.mode = some .comm) (hv : x.ramp.lastTaken = some v)
    (h : T ≤ v.pressure ∨ (a = T ∧ T ≤ heldPressure x + 20)) : endTest x = true := by
  unfold endTest
  rw [ha, hT, hm, hv]
  rcases h with h | ⟨rfl, h⟩
  · simp [h]
  · simp [h]

/-! ### The switch of the bank (R22, R42, R43) -/

theorem foldl_best_mem (s : State) (l : List BankId) (init : Option BankId) {a : BankId}
    (h : l.foldl (fun best b => match best with
      | none => some b
      | some a => if bankBefore s b a then some b else some a) init = some a) : init = some a ∨ a ∈ l := by
  induction l generalizing init with
  | nil => exact .inl h
  | cons c l ih =>
    rw [List.foldl_cons] at h
    rcases ih _ h with e | e
    · cases init with
      | none => exact .inr (List.mem_cons.2 (.inl (Option.some_inj.1 e).symm))
      | some d =>
        dsimp only at e
        split at e
        · exact .inr (List.mem_cons.2 (.inl (Option.some_inj.1 e).symm))
        · exact .inl e
    · exact .inr (List.mem_cons_of_mem c e)

theorem bestBank_eligible {kind : DrawKind} {x : Option BankId} {a : BankId} (h : bestBank s p kind x = some a) :
    eligible s p kind x a = true := by
  rcases foldl_best_mem s _ none h with e | e
  · cases e
  · exact (List.mem_filter.1 e).2

theorem eligible_idle {kind : DrawKind} {x : Option BankId} {a : BankId} (h : eligible s p kind x a = true) :
    (s.bank a).state = .idle ∧ (kind = .ramp → x ≠ some a) := by
  unfold eligible at h
  dsimp only at h
  split at h
  · simp only [Bool.and_eq_true, beq_iff_eq] at h
    refine ⟨h.1.1.1, fun ramp => ?_⟩
    rw [ramp] at h
    exact (by simpa using h.2 : _ ∧ x ≠ some a).2
  · cases h

/-- A fill in RAMP without a bank asks for one, and is held for one where it finds none (R22). -/
def asks (p : PosId) (x : Option BankId) (s : State) : State :=
  let t := drawRequest p .ramp x s
  if (t.pos p).bank.isSome then t else enterHold p .bank t

theorem switchBank_eq (hb : (s.pos p).bank = some b) (c : SegmentEnd) : switchBank p c s =
    asks p (if ((releaseBank p (endSegment p c s)).bank b).state == .idle then some b else none)
      (releaseBank p (endSegment p c s)) := by
  unfold switchBank
  simp only [hb]
  rfl

/-- What a fill in RAMP has when it has asked: a bank to flow on, or a hold and a place in the draw wait list. -/
theorem asks_leaves (hs : (s.pos p).state = .ramp) (hb : (s.pos p).bank = none) (x : Option BankId) :
    match bestBank s p .ramp x with
    | some a => asks p x s = grantBank p a s
    | none => asks p x s = enterHold p .bank
        { s with drawList := s.drawList.filter (fun w => w.pos != p) ++ [⟨p, .ramp, s.clock, x⟩] } := by
  unfold asks drawRequest
  cases bestBank s p .ramp x with
  | some a =>
    dsimp only
    obtain ⟨y, w, g, l, e, -⟩ := grantBank_eq (s := s) (p := p) (by rw [hs]; decide) a
    refine if_pos ?_
    rw [e]
    simp [State.pos, State.setPos, State.setChan, State.setBank, Position.flowing]
  | none =>
    refine if_neg ?_
    change ¬ ((s.pos p).bank.isSome = true)
    rw [hb]
    decide

/-- The grant of a bank to a fill in RAMP. -/
theorem grantBank_ramp (hs : (s.pos p).state = .ramp) (a : BankId) :
    (grantBank p a s).pos p = (s.pos p).flowing a ∧ ((grantBank p a s).bank a).holder = some (.pos p) ∧
    Directed (grantBank p a s) (islandPort p)
      (.valve p (.flow a ((s.pos p).ramp.pSet.getD 0)) ((s.pos p).flowing a).directiveLane) ∧
    ∀ r, s.openRecord p = some r → r.segments.length < 8 → ∃ r', (grantBank p a s).openRecord p = some r' ∧
      ∃ y, r'.segments = r.segments ++ [y] := by
  obtain ⟨y, w, g, l, e, -⟩ := grantBank_eq (s := s) (p := p) (by rw [hs]; decide) a
  have sent := enterRamp_directed p a (s.taking p a)
  have flows : grantBank p a s = enterRamp p a (s.taking p a) := by
    rw [grantBank_taking, taking_pos, if_neg (by simp [hs])]
  rw [← flows, taking_pos] at sent
  refine ⟨?_, ?_, sent, fun r hr hl => ?_⟩
  · rw [e]
    simp [State.pos, State.setPos, State.setChan, State.setBank]
  · rw [e]
    simp [State.bank, State.setPos, State.setChan, State.setBank, Bank.drawnBy]
  · obtain ⟨m, y, f, -, -⟩ := taking_eq p a s
    have opened : (s.taking p a).openRecord p = some r := by
      rw [f]
      exact hr
    obtain ⟨r', hr', segments⟩ := enterRamp_openRecord p a (s.taking p a) opened hl
    exact ⟨r', flows ▸ hr', _, segments⟩

theorem enterHold_openRecord (reason : HoldReason) (hr : s.openRecord p = some r) :
    ∃ r', (enterHold p reason s).openRecord p = some r' ∧ r'.segments = r.segments := by
  have told (v : State) (hv : v.openRecord p = some r) :
      ∃ r', (fillState p v).openRecord p = some r' ∧ r'.segments = r.segments := by
    rw [fillState_openRecord, hv]
    exact ⟨_, rfl, rfl⟩
  unfold enterHold
  dsimp only
  split
  · exact told _ hr
  · exact told _ hr

/-- What a switch begins with: the segment ended, the bank released (R22). -/
theorem switch_releases (hd : ¬ Draws s p) (c : SegmentEnd) :
    (releaseBank p (endSegment p c s)).pos p = { s.pos p with bank := none } ∧
    (releaseBank p (endSegment p c s)).openRecord p =
      (s.openRecord p).map (fun r => r.endSegment (s.chan p).mass ((s.pos p).pressure.map (·.value)) c) := by
  have draws : ¬ Draws (endSegment p c s) p := by
    obtain ⟨w, e⟩ := endSegment_eq p c s
    rw [e]
    exact hd
  have released : Spares p ((endSegment p c s).modPos p (fun x => { x with bank := none })) (releaseBank p (endSegment p c s)) :=
    spares_releaseBank draws p
  have kept (r : TxnRecord) := r.endSegment_eq (s.chan p).mass ((s.pos p).pressure.map (·.value)) c
  constructor
  · obtain ⟨w, e⟩ := endSegment_eq p c s
    rw [released.pos, State.modPos_pos, e]
    rfl
  · refine released.record.trans ((modRecord_openRecord p _ s (fun r => ?_) (fun r => ?_)).2) <;>
      (obtain ⟨l, e⟩ := kept r; rw [e])

/-- A fill in RAMP that leaves its bank takes another, or is held for one. -/
theorem switchBank_leaves (hs : (s.pos p).state = .ramp) (hb : (s.pos p).bank = some b) (hd : ¬ Draws s p) (c : SegmentEnd) :
    ((∃ a, a ≠ b ∧ (switchBank p c s).pos p = (s.pos p).flowing a ∧ ((switchBank p c s).bank a).holder = some (.pos p) ∧
      Directed (switchBank p c s) (islandPort p)
        (.valve p (.flow a ((s.pos p).ramp.pSet.getD 0)) ((s.pos p).flowing a).directiveLane)) ∨
    ((switchBank p c s).pos p = ({ s.pos p with bank := none } : Position).heldFor .bank ∧
      (∃ w ∈ (switchBank p c s).drawList, w.pos = p ∧ w.kind = .ramp) ∧
      Directed (switchBank p c s) (islandPort p) (.valve p .closed none))) ∧
    ∀ r y, s.openRecord p = some r → r.segments.getLast? = some y → y.cause = none → r.segments.length < 8 →
      ∃ r', (switchBank p c s).openRecord p = some r' ∧ { y with
        massEnd := some (s.chan p).mass, pressureEnd := (s.pos p).pressure.map (·.value), cause := some c } ∈ r'.segments := by
  obtain ⟨pos, record⟩ := switch_releases hd c
  rw [switchBank_eq hb c]
  generalize releaseBank p (endSegment p c s) = z at *
  have ramp : (z.pos p).state = .ramp := by rw [pos]; exact hs
  generalize hx : (if (z.bank b).state == .idle then some b else none : Option BankId) = x
  have leaves := asks_leaves ramp (by rw [pos]) x
  have ended (r : TxnRecord) (y : Segment) (hr : s.openRecord p = some r) (hy : r.segments.getLast? = some y)
      (hc : y.cause = none) (hl : r.segments.length < 8) : ∃ r', z.openRecord p = some r' ∧ r'.segments.length < 8 ∧
        { y with massEnd := some (s.chan p).mass, pressureEnd := (s.pos p).pressure.map (·.value), cause := some c } ∈
          r'.segments := by
    rw [hr] at record
    refine ⟨_, record, ?_, ?_⟩
    · simp only [TxnRecord.endSegment, hy, hc, Option.isNone_none, if_true, List.length_append, List.length_dropLast,
        List.length_singleton]
      omega
    · simp [TxnRecord.endSegment, hy, hc]
  cases hbest : bestBank z p .ramp x with
  | some a =>
    rw [hbest] at leaves
    rw [leaves]
    obtain ⟨idle, excluded⟩ := eligible_idle (bestBank_eligible hbest)
    have other : a ≠ b := by
      rintro rfl
      rw [if_pos (by simpa using idle)] at hx
      exact excluded rfl hx.symm
    obtain ⟨granted, holder, sent, segments⟩ := grantBank_ramp ramp a
    rw [pos] at sent granted
    refine ⟨.inl ⟨a, other, granted, holder, sent⟩, fun r y hr hy hc hl => ?_⟩
    obtain ⟨r', hr', short, mem⟩ := ended r y hr hy hc hl
    obtain ⟨r'', hr'', l, e⟩ := segments r' hr' short
    exact ⟨r'', hr'', by rw [e]; exact List.mem_append_left _ mem⟩
  | none =>
    rw [hbest] at leaves
    rw [leaves]
    refine ⟨.inr ⟨(enterHold_pos p .bank _).trans (congrArg (Position.heldFor .bank) pos), ?_, enterHold_directed (by exact ramp) _⟩,
      fun r y hr hy hc hl => ?_⟩
    · obtain ⟨y, w, g, e⟩ := enterHold_eq p .bank
        { z with drawList := z.drawList.filter (fun w => w.pos != p) ++ [⟨p, .ramp, z.clock, x⟩] }
      rw [e]
      exact ⟨_, List.mem_append_right _ (List.mem_singleton.2 rfl), rfl, rfl⟩
    · obtain ⟨r', hr', -, mem⟩ := ended r y hr hy hc hl
      obtain ⟨r'', hr'', e⟩ := enterHold_openRecord (s := { z with
        drawList := z.drawList.filter (fun w => w.pos != p) ++ [⟨p, .ramp, z.clock, x⟩] }) .bank hr'
      exact ⟨r'', hr'', by rw [e]; exact mem⟩

/-! ### The step as a whole -/

/-- What a ramp step begins with, beside the position itself. -/
theorem Begins.around {m : Nat} (h : Begins p i r m (s.timed p) u) :
    (consumeAt p u).queue = s.queue ∧ (consumeAt p u).drawList = s.drawList ∧ (consumeAt p u).margin = s.margin ∧
    (∀ c, (consumeAt p u).bankPressure c = s.bankPressure c) ∧
    (∀ q, q ≠ p → (consumeAt p u).pos q = s.pos q ∧ (consumeAt p u).chan q = s.chan q) ∧
    (consumeAt p u).switchMass = s.switchMass := by
  have kept : u.queue = s.queue ∧ u.drawList = s.drawList ∧ u.margin = s.margin ∧ u.switchMass = s.switchMass := by
    rw [h.rest]
    exact ⟨rfl, rfl, rfl, rfl⟩
  obtain ⟨queue, draws, margin, mass⟩ := kept
  refine ⟨queue, draws, margin, fun c => ?_, fun q hq => ⟨?_, h.chan q hq⟩, mass⟩
  · have := congrArg (fun x : Bank => (x.report.map (·.pressure)).getD 0) (h.bank c)
    exact this
  · have := State.modPos_pos_ne u p q (fun x => { x with ramp := x.ramp.consume }) hq
    exact this.trans ((h.pos q).trans (timed_pos_ne s hq))

theorem rampStep_goes {m : Nat} (ha : vehicleAction ((consumeAt p u).pos p) = .nothing ∨
    vehicleAction ((consumeAt p u).pos p) = .resume) : rampStep p k b m u = stages2to5 p k b m (consumeAt p u) := by
  unfold rampStep
  rcases ha with ha | ha <;> simp only [ha]

theorem stages2to5_noncomm {m : Nat} (hm : (s.pos p).mode = some .noncomm) :
    stages2to5 p k b m s = stages3to5 p k b m s := by
  unfold stages2to5
  simp only [hm]

theorem nextSet_eq {a T : Nat} {entry : RampEntry} (ha : (s.pos p).ramp.pSet = some a) (hT : (s.pos p).ramp.pTarget = some T)
    (he : (s.pos p).ramp.inUse = some entry) : s.nextSet p k b =
      max a (min (min (a + if k = 0 then entry.aprr else entry.aprr * (s.grantOf (.pos p)).grant / (s.grantOf (.pos p)).demand) T)
        (s.bankPressure b - s.margin)) := by
  unfold State.nextSet nextSetPoint effectiveRate
  rw [ha, hT, he]
  by_cases h : k = 0 <;> simp [cooled, h]

theorem Trails.queue (h : Trails s t) : t.queue = s.queue := by rw [h.rest]

/-- A ramp step that ends in a new set-point. -/
theorem stages_set {m : Nat} (hs : (s.pos p).state = .ramp) (hb : (s.pos p).bank = some b) (hk : (s.pos p).cls = some k)
    (he : endTest (s.pos p) = false) (hbank : heldPressure (s.pos p) + s.margin ≤ s.bankPressure b)
    (hl : (s.pos p).ramp.lowFlow = 0) : ∃ t, t = stages3to5 p k b m s ∧
      (∃ n, t.pos p = ((s.pos p).slowed n).set (s.nextSet p k b)) ∧
      (∀ q, q ≠ p → t.pos q = s.pos q ∧ t.chan q = s.chan q) ∧ t.queue = s.queue ∧ t.drawList = s.drawList ∧
      Directed t (islandPort p) (.valve p (.flow b (s.nextSet p k b)) (if k = 0 then none else (s.pos p).lane)) := by
  obtain ⟨n, moves⟩ := stages3to5_moves (k := k) (m := m) he hbank hl
  have pos : (s.modPos p (fun x => x.slowed n)).pos p = (s.pos p).slowed n := State.modPos_pos ..
  have next : (s.modPos p (fun x => x.slowed n)).nextSet p k b = s.nextSet p k b := by
    unfold State.nextSet
    rw [pos]
    rfl
  obtain ⟨set, others, channels, queue, draws, sent⟩ := setPointStage_leaves (s := s.modPos p (fun x => x.slowed n)) (b := b)
    (by rw [pos]; exact hs) (by rw [pos]; exact hb) (by rw [pos]; exact hk)
  rw [pos, next] at set sent
  refine ⟨_, rfl, ⟨n, moves ▸ set⟩, fun q hq => ⟨?_, ?_⟩, moves ▸ queue, moves ▸ draws, moves ▸ sent⟩
  · rw [moves, others q hq]
    exact State.modPos_pos_ne _ _ _ _ hq
  · rw [moves, State.chan, channels]
    rfl

/-- The first clause: a NONCOMM fill without a report moves its set-point. -/
theorem noncomm_moves {pSet target : Nat} {entry : RampEntry} (h : Endless s p i r) (hs : (s.pos p).state = .ramp)
    (hb : (s.pos p).bank = some b) (hk : (s.pos p).cls = some k) (hm : (s.pos p).mode = some .noncomm)
    (hl : (s.pos p).ramp.lastTaken = none) (hbuf : (s.pos p).ramp.buffer = []) (hu : (s.pos p).ramp.inUse = some entry)
    (hset : (s.pos p).ramp.pSet = some pSet) (ht' : (s.pos p).ramp.pTarget = some target)
    (hend : pSet = target → heldPressure (s.pos p) + 20 < target)
    (hbank : heldPressure (s.pos p) + s.margin ≤ s.bankPressure b) (hflow : (s.pos p).ramp.lowFlow = 0) :
    let next := max pSet (min (min (pSet + if k = 0 then entry.aprr
      else entry.aprr * (s.grantOf (.pos p)).grant / (s.grantOf (.pos p)).demand) target) (s.bankPressure b - s.margin))
    ∃ t, exec (.periodExpiry p) s = .next t ∧ (t.pos p).state = .ramp ∧ (t.pos p).bank = some b ∧
      (t.pos p).ramp.pSet = some next ∧
      (t.pos p).ramp.pTarget = some target ∧ (t.pos p).ramp.holds = min ((s.pos p).ramp.holds + 1) 65535 ∧
      Directed t (islandPort p) (.valve p (.flow b next) (if k = 0 then none else (s.pos p).lane)) ∧
      t.queue = s.queue ∧ t.drawList = s.drawList ∧ ∀ q, q ≠ p → t.pos q = s.pos q ∧ t.chan q = s.chan q := by
  intro next
  obtain ⟨u, begins, runs⟩ := h.ramp hs hb hk
  have consumed := begins.consumed
  obtain ⟨queue, draws, margin, pressure, others, -⟩ := begins.around
  obtain ⟨-, taken, empty, -⟩ := (s.pos p).ramp.consume_report
  obtain ⟨-, holds, -⟩ := empty hbuf
  obtain ⟨inUse, pSetKept, pTargetKept, lowFlow, -⟩ := (s.pos p).ramp.consume_kept
  have noReport : (s.pos p).ramp.taken = none := by simp [RampGenerator.taken, hbuf, hl]
  have nothing := begins.action.trans (action_none noReport hm)
  have goes := rampStep_goes (k := k) (b := b) (m := rne ((s.chan p).accumulate (s.cal p)).acc gramUnits) (.inl nothing)
  rw [stages2to5_noncomm (by rw [consumed]; exact hm)] at goes
  have unended : endTest ((consumeAt p u).pos p) = false := by
    rw [consumed]
    exact endTest_eq_false (a := pSet) (T := target) (pSetKept.trans hset) (pTargetKept.trans ht') hend
      (fun comm => by simp [hm] at comm)
  obtain ⟨t, ht, set, others', queue', draws', sent⟩ := stages_set (k := k) (b := b)
    (m := rne ((s.chan p).accumulate (s.cal p)).acc gramUnits) (s := consumeAt p u) (p := p) (by rw [consumed]; exact hs)
    (by rw [consumed]; exact hb) (by rw [consumed]; exact hk) unended (by rw [consumed, margin, pressure]; exact hbank)
    (by rw [consumed]; exact lowFlow.trans hflow)
  rw [goes, ← ht] at runs
  obtain ⟨tpos, -, tdraw, -, -, tdirected⟩ := last_kept (p := p) t
  have next_eq : (consumeAt p u).nextSet p k b = next := by
    rw [nextSet_eq (entry := entry) (a := pSet) (T := target) (by rw [consumed]; exact pSetKept.trans hset)
      (by rw [consumed]; exact pTargetKept.trans ht') (by rw [consumed]; exact inUse.trans hu), State.grantOf, begins.cooling,
      pressure, margin]
    rfl
  rw [next_eq] at set sent
  obtain ⟨n, set⟩ := set
  rw [set, consumed] at tpos
  have trail := trails_endEvent (setPrevious p t)
  refine ⟨_, runs, ?_, ?_, ?_, ?_, ?_, (tdirected _ _).2 ?_, ?_, tdraw.trans (draws'.trans draws), fun q hq => ⟨?_, ?_⟩⟩
  · rw [tpos]
    exact hs
  · rw [tpos]
    exact hb
  · rw [tpos]
    rfl
  · rw [tpos]
    exact pTargetKept.trans ht'
  · rw [tpos]
    exact holds
  · rw [consumed] at sent
    exact sent
  · exact trail.queue.trans (queue'.trans queue)
  · refine (trail.pos q).trans ((State.modPos_pos_ne _ _ _ _ hq).trans ?_)
    exact (others' q hq).1.trans (others q hq).1
  · exact (trail.chan q).trans ((others' q hq).2.trans (others q hq).2)

/-- The position with its target (R39). -/
def Position.targeted (x : Position) (n : Nat) : Position := { x with ramp := { x.ramp with pTarget := some n } }

/-- A position after a COMM step to a set-point. -/
theorem Position.stepped (x : Position) (T n a m : Nat) :
    ((((x.targeted T).slowed n).set a).measured m).state = x.state ∧
    ((((x.targeted T).slowed n).set a).measured m).bank = x.bank ∧
    ((((x.targeted T).slowed n).set a).measured m).ramp.pSet = some a := ⟨rfl, rfl, rfl⟩

theorem stages2to5_comm {m a : Nat} {v : VehicleReport} (hm : (s.pos p).mode = some .comm)
    (hv : (s.pos p).ramp.lastTaken = some v) (ha : (s.pos p).ramp.pSet = some a) :
    stages2to5 p k b m s = if commTarget k v.temperature < a then
        endFill p .socReached (s.modPos p (fun x => x.targeted (max (commTarget k v.temperature) a)))
      else stages3to5 p k b m (s.modPos p (fun x => x.targeted (max (commTarget k v.temperature) a))) := by
  unfold stages2to5
  simp only [hm, hv, ha, Option.getD_some]
  rfl

theorem Metered.endless (h : Metered s p k i r) : Endless s p i r :=
  ⟨h.quiet, h.due, h.opens, h.record, h.noPreset, h.inRange, h.noOverflow, h.noStall⟩

/-- The third clause: a COMM fill in RAMP whose vehicle says RUN (R39, R41, R45, R46). -/
theorem comm_moves {pSet : Nat} {entry : RampEntry} {v : VehicleReport} (h : Metered s p k i r) (hs : (s.pos p).state = .ramp)
    (hb : (s.pos p).bank = some b) (hm : (s.pos p).mode = some .comm) (hv : (s.pos p).ramp.taken = some v)
    (cold : v.temperature < 850) (run : v.command = .run) (h3 : ¬ (s.pos p).ramp.third)
    (hset : (s.pos p).ramp.pSet = some pSet) (hu : (s.pos p).ramp.inUse = some entry) :
    let target := commTarget k v.temperature
    let next := max pSet (min (min (pSet + if k = 0 then entry.aprr
      else entry.aprr * (s.grantOf (.pos p)).grant / (s.grantOf (.pos p)).demand) target) (s.bankPressure b - s.margin))
    ∃ t, exec (.periodExpiry p) s = .next t ∧
      (target < pSet → Over p .socReached t ∧ (t.pos p).ramp.pTarget = some pSet ∧ (t.pos p).ramp.pSet = some pSet) ∧
      (pSet ≤ target → (t.pos p).ramp.pTarget = some target ∧
        (target ≤ v.pressure ∨ (pSet = target ∧ target ≤ heldPressure (s.pos p) + 20) → Over p .socReached t) ∧
        (v.pressure < target → (pSet = target → heldPressure (s.pos p) + 20 < target) →
          heldPressure (s.pos p) + s.margin ≤ s.bankPressure b → (s.pos p).ramp.lowFlow = 0 →
          (t.pos p).state = .ramp ∧ (t.pos p).bank = some b ∧ (t.pos p).ramp.pSet = some next ∧
          Directed t (islandPort p) (.valve p (.flow b next) (if k = 0 then none else (s.pos p).lane)))) := by
  intro target next
  obtain ⟨u, begins, runs⟩ := h.endless.ramp hs hb h.cls
  generalize rne ((s.chan p).accumulate (s.cal p)).acc gramUnits = m at begins runs
  have consumed := begins.consumed
  obtain ⟨-, -, margin, pressure, -, -⟩ := begins.around
  obtain ⟨-, taken, -, -⟩ := (s.pos p).ramp.consume_report
  obtain ⟨inUse, pSetKept, -, lowFlow, -⟩ := (s.pos p).ramp.consume_kept
  have resumes := begins.action.trans (action_run hv cold run hm h3)
  have goes := rampStep_goes (k := k) (b := b) (m := m) (.inr resumes)
  rw [stages2to5_comm (v := v) (a := pSet) (by rw [consumed]; exact hm) (by rw [consumed]; exact taken.trans hv)
    (by rw [consumed]; exact pSetKept.trans hset)] at goes
  have pos : ((consumeAt p u).modPos p (fun x => x.targeted (max target pSet))).pos p =
      ((consumeAt p u).pos p).targeted (max target pSet) := State.modPos_pos ..
  rw [consumed] at pos
  have cooling : ((consumeAt p u).modPos p (fun x => x.targeted (max target pSet))).cooling = s.cooling := begins.cooling
  have around : ((consumeAt p u).modPos p (fun x => x.targeted (max target pSet))).margin = s.margin ∧
      ((consumeAt p u).modPos p (fun x => x.targeted (max target pSet))).bankPressure b = s.bankPressure b :=
    ⟨margin, pressure b⟩
  rw [goes] at runs
  change exec (.periodExpiry p) s = .next (endEvent (setPrevious p (if target < pSet then
    endFill p .socReached ((consumeAt p u).modPos p (fun x => x.targeted (max target pSet)))
    else stages3to5 p k b _ ((consumeAt p u).modPos p (fun x => x.targeted (max target pSet)))))) at runs
  generalize (consumeAt p u).modPos p (fun x => x.targeted (max target pSet)) = z at *
  have endable : endable (z.pos p).state = true := by
    rw [pos]
    simp [Position.targeted, endable, hs]
  refine ⟨_, runs, fun above => ?_, fun below => ?_⟩
  · rw [if_pos above]
    obtain ⟨tpos, -⟩ := last_kept (p := p) (endFill p .socReached z)
    have steady := (moves_endFill p .socReached .refl : Moves z _).posSteady p
    have ended := over_endFill endable .socReached
    rw [Over, tpos]
    refine ⟨ended, ?_, ?_⟩
    · refine ((congrArg (fun x : Position => x.ramp.pTarget) steady :) : _ = (z.pos p).ramp.pTarget).trans ?_
      rw [pos, Nat.max_eq_right (Nat.le_of_lt above)]
      rfl
    · refine ((congrArg (fun x : Position => x.ramp.pSet) steady :) : _ = (z.pos p).ramp.pSet).trans ?_
      rw [pos]
      exact pSetKept.trans hset
  · rw [if_neg (Nat.not_lt.2 below)]
    rw [Nat.max_eq_left below] at pos
    have fare : Fares p i z (endEvent (setPrevious p
        (stages3to5 p k b m z))) :=
      ((fares_stages3to5 k b _ z).trans (fares_setPrevious _)).trans (fares_endEvent _)
    refine ⟨?_, fun reached => ?_, fun short apart high flow => ?_⟩
    · refine ((congrArg (fun x : Position => x.ramp.pTarget) fare.pos :) : _ = (z.pos p).ramp.pTarget).trans ?_
      rw [pos]
      rfl
    · have test : endTest (z.pos p) = true := by
        rw [pos]
        exact endTest_eq_true (a := pSet) (T := target) (v := v) (pSetKept.trans hset) rfl hm (taken.trans hv) reached
      have reason : targetReason (z.pos p) = .socReached := by
        rw [pos]
        simp [targetReason, Position.targeted, hm]
      have stops : stages3to5 p k b m z = endFill p .socReached z := by
        rw [← reason]
        exact if_pos test
      rw [stops]
      obtain ⟨tpos, -⟩ := last_kept (p := p) (endFill p .socReached z)
      rw [Over, tpos]
      exact over_endFill endable .socReached
    · have unended : endTest (z.pos p) = false := by
        rw [pos]
        refine endTest_eq_false (a := pSet) (T := target) (pSetKept.trans hset) rfl apart fun _ w hw => ?_
        have same : w = v := Option.some_inj.1 (hw.symm.trans (taken.trans hv))
        rw [same]
        exact short
      obtain ⟨t, ht, ⟨n, set⟩, -, -, -, sent⟩ := stages_set (k := k) (b := b)
        (m := m) (s := z) (p := p) (by rw [pos]; exact hs)
        (by rw [pos]; exact hb) (by rw [pos]; exact h.cls) unended (by rw [pos, around.1, around.2]; exact high)
        (by rw [pos]; exact lowFlow.trans flow)
      rw [← ht]
      obtain ⟨tpos, -, -, -, -, tdirected⟩ := last_kept (p := p) t
      have next_eq : z.nextSet p k b = next := by
        rw [nextSet_eq (entry := entry) (a := pSet) (T := target) (by rw [pos]; exact pSetKept.trans hset) (by rw [pos]; rfl)
          (by rw [pos]; exact inUse.trans hu), State.grantOf, cooling, around.1, around.2]
        rfl
      rw [next_eq] at set sent
      clear_value next
      rw [set, pos] at tpos
      rw [pos] at sent
      refine ⟨?_, ?_, ?_, (tdirected _ _).2 sent⟩
      · rw [tpos, (Position.stepped ..).1]
        exact hs
      · rw [tpos, (Position.stepped ..).2.1]
        exact hb
      · rw [tpos, (Position.stepped ..).2.2]

/-- A bank too low, or slow for two steps, is left (R42, R43). -/
theorem switchStage_leaves {m a T : Nat} (ha : (s.pos p).ramp.pSet = some a) (hT : (s.pos p).ramp.pTarget = some T)
    (h : s.bankPressure b < heldPressure (s.pos p) + s.margin ∨
      m - (s.pos p).ramp.previousMass < s.switchMass ∧ a < T ∧ 1 ≤ (s.pos p).ramp.lowFlow) :
    switchStage p k b m s = switchBank p
      (if s.bankPressure b < heldPressure (s.pos p) + s.margin then .switchPressure else .switchFlow)
      (s.modPos p (fun x => x.slowed 0)) := by
  unfold switchStage
  dsimp only
  by_cases low : s.bankPressure b < heldPressure (s.pos p) + s.margin
  · rw [if_pos low, if_pos low]
    rfl
  · obtain ⟨slow, below, once⟩ := h.resolve_left low
    rw [if_neg low, if_neg low, ha, hT, Option.getD_some, Option.getD_some]
    have counted : (decide (m - (s.pos p).ramp.previousMass < s.switchMass) && decide (a < T)) = true := by simp [slow, below]
    rw [if_pos counted, if_pos (by omega)]
    rfl

theorem slot_of_openRecord (ho : s.openSlot p = some i) (hr : s.openRecord p = some r) : s.slot i = .txn r := by
  unfold State.openRecord at hr
  rw [ho] at hr
  dsimp only at hr
  split at hr
  next x hx => rw [hx, Option.some_inj.1 hr]
  · cases hr

theorem Position.measured_kept (x : Position) (m : Nat) : (x.measured m).state = x.state ∧ (x.measured m).bank = x.bank ∧
    (x.measured m).holdReason = x.holdReason ∧ (x.measured m).phaseTimer = x.phaseTimer ∧
    (x.measured m).ramp.pSet = x.ramp.pSet ∧ (x.measured m).ramp.pTarget = x.ramp.pTarget ∧
    (x.measured m).ramp.lowFlow = x.ramp.lowFlow := ⟨rfl, rfl, rfl, rfl, rfl, rfl, rfl⟩

theorem Position.flowing_kept (x : Position) (a : BankId) : (x.flowing a).state = .ramp ∧ (x.flowing a).bank = some a ∧
    (x.flowing a).ramp.pSet = x.ramp.pSet ∧ (x.flowing a).ramp.pTarget = x.ramp.pTarget ∧ (x.flowing a).ramp.lowFlow = 0 :=
  ⟨rfl, rfl, rfl, rfl, rfl⟩

theorem Position.parted_kept {x : Position} (hs : x.state = .ramp) (r : HoldReason) :
    (({ x with bank := none } : Position).heldFor r).state = .hold ∧ (({ x with bank := none } : Position).heldFor r).holdReason = some r ∧
    (({ x with bank := none } : Position).heldFor r).bank = none ∧
    (({ x with bank := none } : Position).heldFor r).phaseTimer = some 120000 ∧
    (({ x with bank := none } : Position).heldFor r).ramp.pSet = x.ramp.pSet ∧
    (({ x with bank := none } : Position).heldFor r).ramp.pTarget = x.ramp.pTarget ∧
    (({ x with bank := none } : Position).heldFor r).ramp.lowFlow = 0 :=
  ⟨rfl, rfl, rfl, if_neg (by simp [hs]), rfl, rfl, rfl⟩

/-- The fourth clause: a NONCOMM fill leaves a bank too low, or too slow for two steps (R22, R42, R43). -/
theorem noncomm_switches {pSet target : Nat} (h : Metered s p k i r) (hs : (s.pos p).state = .ramp)
    (hb : (s.pos p).bank = some b) (hm : (s.pos p).mode = some .noncomm) (hl : (s.pos p).ramp.lastTaken = none)
    (hbuf : (s.pos p).ramp.buffer = []) (hset : (s.pos p).ramp.pSet = some pSet) (ht : (s.pos p).ramp.pTarget = some target)
    (hend : pSet = target → heldPressure (s.pos p) + 20 < target) :
    let mass := rne ((s.chan p).accumulate (s.cal p)).acc gramUnits
    let spent := s.bankPressure b < heldPressure (s.pos p) + s.margin
    let slow := mass - (s.pos p).ramp.previousMass < s.switchMass ∧ pSet < target ∧ 1 ≤ (s.pos p).ramp.lowFlow
    spent ∨ slow →
    ∃ t, exec (.periodExpiry p) s = .next t ∧
      (t.pos p).ramp.pSet = some pSet ∧ (t.pos p).ramp.pTarget = some target ∧ (t.pos p).ramp.lowFlow = 0 ∧
      ((t.pos p).state = .ramp ∧ (∃ a, (t.pos p).bank = some a ∧ a ≠ b ∧ (t.bank a).holder = some (.pos p) ∧
          Directed t (islandPort p) (.valve p (.flow a pSet) (t.pos p).directiveLane)) ∨
        (t.pos p).state = .hold ∧ (t.pos p).holdReason = some .bank ∧ (t.pos p).bank = none ∧
          (t.pos p).phaseTimer = some 120000 ∧ (∃ w ∈ t.drawList, w.pos = p ∧ w.kind = .ramp) ∧
          Directed t (islandPort p) (.valve p .closed none)) ∧
      ∀ y, r.segments.getLast? = some y → y.cause = none → r.segments.length < 8 →
        ∃ r', t.slot i = .txn r' ∧ { y with
          massEnd := some mass, pressureEnd := (s.pos p).pressure.map (·.value)
          cause := some (if spent then .switchPressure else .switchFlow) } ∈ r'.segments := by
  intro mass spent slow hleaves
  obtain ⟨u, begins, runs⟩ := h.endless.ramp hs hb h.cls
  have consumed := begins.consumed
  obtain ⟨-, -, margin, pressure, -, switchMass⟩ := begins.around
  obtain ⟨inUse, pSetKept, pTargetKept, lowFlow, previous⟩ := (s.pos p).ramp.consume_kept
  have noReport : (s.pos p).ramp.taken = none := by simp [RampGenerator.taken, hbuf, hl]
  have nothing := begins.action.trans (action_none noReport hm)
  have goes := rampStep_goes (k := k) (b := b) (m := mass) (.inl nothing)
  have unended : endTest ((consumeAt p u).pos p) = false := by
    rw [consumed]
    exact endTest_eq_false (a := pSet) (T := target) (pSetKept.trans hset) (pTargetKept.trans ht) hend
      (fun comm => by simp [hm] at comm)
  have stage : stages3to5 p k b mass (consumeAt p u) = switchStage p k b mass (consumeAt p u) := if_neg (by simp [unended])
  have leaves := switchStage_leaves (k := k) (b := b) (m := mass) (s := consumeAt p u) (p := p) (a := pSet) (T := target)
    (by rw [consumed]; exact pSetKept.trans hset) (by rw [consumed]; exact pTargetKept.trans ht) (by
      rw [consumed, pressure, margin, switchMass]
      dsimp only
      rw [previous, lowFlow]
      exact hleaves)
  have cause : (if (consumeAt p u).bankPressure b < heldPressure ((consumeAt p u).pos p) + (consumeAt p u).margin then
      SegmentEnd.switchPressure else .switchFlow) = if spent then .switchPressure else .switchFlow := by
    rw [consumed, pressure, margin]
    rfl
  rw [stages2to5_noncomm (by rw [consumed]; exact hm), stage, leaves, cause] at goes
  generalize hz : (consumeAt p u).modPos p (fun x => x.slowed 0) = z at *
  generalize (if spent then SegmentEnd.switchPressure else .switchFlow) = c at *
  have zpos : z.pos p = ((consumeAt p u).pos p).slowed 0 := by rw [← hz]; exact State.modPos_pos ..
  rw [consumed] at zpos
  have zstate : (z.pos p).state = .ramp := by rw [zpos]; exact hs
  have zbank : (z.pos p).bank = some b := by rw [zpos]; exact hb
  have zset : (z.pos p).ramp.pSet = some pSet := by rw [zpos]; exact pSetKept.trans hset
  have ztarget : (z.pos p).ramp.pTarget = some target := by rw [zpos]; exact pTargetKept.trans ht
  have zpressure : (z.pos p).pressure = (s.pos p).pressure := by rw [zpos]; rfl
  have zdraws : ¬ Draws z p := by
    rw [← hz]
    exact mt begins.draws.1 (not_draws_of_not_waits h.notWaiting)
  have zmass : (z.chan p).mass = mass := by rw [← hz]; exact begins.mass
  obtain ⟨r', hr', traced⟩ := begins.record
  have zrecord : z.openRecord p = some r' := by rw [← hz]; exact openRecord_of begins.opens hr'
  have zopens : z.openSlot p = some i := by rw [← hz]; exact begins.opens
  have opens : (switchBank p c z).openSlot p = some i := ((moves_switchBank p c z).openSlot p).trans zopens
  obtain ⟨way, segments⟩ := switchBank_leaves zstate zbank zdraws c
  rw [goes] at runs
  obtain ⟨tpos, -, tdraw, tbank, tslot, tdirected⟩ := last_kept (p := p) (switchBank p c z)
  obtain ⟨mstate, mbank, mreason, mtimer, mset, mtarget, mflow⟩ :=
    Position.measured_kept ((switchBank p c z).pos p) ((switchBank p c z).chan p).mass
  rw [← tpos] at mstate mbank mreason mtimer mset mtarget mflow
  have lane : ((endEvent (setPrevious p (switchBank p c z))).pos p).directiveLane = ((switchBank p c z).pos p).directiveLane := by
    rw [tpos, Position.measured_lane]
  have record : ∀ y, r.segments.getLast? = some y → y.cause = none → r.segments.length < 8 →
      ∃ r', (endEvent (setPrevious p (switchBank p c z))).slot i = .txn r' ∧ { y with
        massEnd := some mass, pressureEnd := (s.pos p).pressure.map (·.value), cause := some c } ∈ r'.segments := by
    intro y hy hc hl
    have same : r'.segments = r.segments := congrArg Prod.fst traced
    obtain ⟨r'', hr'', mem⟩ := segments r' y zrecord (by rw [same]; exact hy) hc (by rw [same]; exact hl)
    rw [zmass, zpressure] at mem
    exact ⟨r'', (tslot i).trans (slot_of_openRecord opens hr''), mem⟩
  refine ⟨_, runs, ?_⟩
  rw [mstate, mbank, mreason, mtimer, mset, mtarget, mflow, lane]
  rcases way with ⟨a, other, pos, holder, sent⟩ | ⟨pos, ⟨w, hw, hp, hk⟩, sent⟩
  · obtain ⟨state, bank, set, target', flow⟩ := Position.flowing_kept (z.pos p) a
    rw [zset] at sent
    rw [pos, state, bank, set, target', flow]
    exact ⟨zset, ztarget, rfl, .inl ⟨rfl, a, rfl, other, (tbank a).symm ▸ holder, (tdirected _ _).2 sent⟩, record⟩
  · obtain ⟨state, reason, bank, timer, set, target', flow⟩ := Position.parted_kept zstate .bank
    rw [pos, state, reason, bank, timer, set, target', flow]
    exact ⟨zset, ztarget, rfl, .inr ⟨rfl, rfl, rfl, rfl, ⟨w, tdraw ▸ hw, hp, hk⟩, (tdirected _ _).2 sent⟩, record⟩

/-- The second clause: a fill with a vehicle, in RAMP or in HOLD for it (R50 to R53). -/
theorem vehicle_acts (h : Metered s p k i r) (hs : ((s.pos p).state = .ramp ∧ ∃ b, (s.pos p).bank = some b) ∨
      ((s.pos p).state = .hold ∧ (s.pos p).holdReason = some .vehicle ∧ (s.pos p).bank = none)) :
    ∃ t, exec (.periodExpiry p) s = .next t ∧ ActedOn p i s t ∧
      (vehicleAction { s.pos p with ramp := (s.pos p).ramp.consume } = .hold →
        (t.pos p).state = .hold ∧ (t.pos p).holdReason = some .vehicle ∧ (t.pos p).bank = none ∧
        t.grantOf (.pos p) = s.grantOf (.pos p) ∧
        ((s.pos p).state = .ramp →
          (t.pos p).phaseTimer = some 120000 ∧ Directed t (islandPort p) (.valve p .closed none)) ∧
        ((s.pos p).state = .hold → (t.pos p).phaseTimer = (s.pos p).phaseTimer)) ∧
      (vehicleAction { s.pos p with ramp := (s.pos p).ramp.consume } = .resume → (s.pos p).state = .hold →
        if warmHeld s p = true then (t.pos p).state = .hold ∧ (t.pos p).holdReason = some .laneWarm
        else
          match bestBank s p .ramp none with
          | some b => (t.pos p).state = .ramp ∧ (t.pos p).bank = some b ∧ (t.pos p).phaseTimer = none ∧
            Directed t (islandPort p) (.valve p (.flow b ((s.pos p).ramp.pSet.getD 0)) (t.pos p).directiveLane)
          | none => (t.pos p).state = .hold ∧ (t.pos p).holdReason = some .bank ∧ ∃ w ∈ t.drawList, w.pos = p) := by
  rcases hs with ⟨hs, b, hb⟩ | ⟨hs, hr, hb⟩
  · obtain ⟨u, begins, runs⟩ := h.endless.ramp hs hb h.cls
    refine ⟨_, runs, begins.actedOn (acts_rampStep k b _ u) (.inl hs), fun ha => ?_, fun _ hh => ?_⟩
    · obtain ⟨state, reason, bank, grant, timer, sent⟩ := (begins.halts (k := k) (b := b) h.notWaiting ha).1 hs _ rfl
      exact ⟨state, reason, bank, grant, fun _ => ⟨timer, sent⟩, fun hh => by simp [hs] at hh⟩
    · simp [hs] at hh
  · obtain ⟨u, begins, runs⟩ := h.endless.vehicle hs hr
    refine ⟨_, runs, begins.actedOn (acts_vehicleUpdate u) (.inr hs), fun ha => ?_, fun ha _ => begins.resumes hs hb ha rfl⟩
    obtain ⟨state, reason, bank, grant, timer⟩ := (begins.halts (k := k) (b := 0) h.notWaiting ha).2 hs hr hb _ rfl
    exact ⟨state, reason, bank, grant, fun hh => by simp [hs] at hh, fun _ => timer⟩

/-- Settles O24: the set-point, the report taken, the target of a COMM fill, and the switch of the bank. -/
theorem rampStepMovesTheSetPoint : Obligations.RampStepMovesTheSetPoint := by
  unfold Obligations.RampStepMovesTheSetPoint
  refine ⟨?noncomm, ?vehicle, ?comm, ?switch⟩
  case noncomm =>
    intro s p k b i r pSet target entry hq hp hs hb hk hm hl hbuf hu hset ht ho hr hpre hx hov hst hend hbank hflow
    exact noncomm_moves ⟨hq, hp, ho, hr, hpre, hx, hov, hst⟩ hs hb hk hm hl hbuf hu hset ht hend hbank hflow
  case vehicle =>
    intro s p k i r h hs g taken comm third
    obtain ⟨t, runs, acted, halts, resumes⟩ := vehicle_acts h hs
    obtain ⟨buffer, lastTaken, empty, full⟩ := (s.pos p).ramp.consume_report
    obtain ⟨tbuffer, ttaken, tdrops, tholds, tconsecutive⟩ := RampGenerator.report_inj acted.report
    refine ⟨t, runs, ⟨tbuffer.trans buffer, ttaken.trans lastTaken, fun he => ?_, fun hf => ?_⟩, fun v hv hot => ?_,
      fun v hv cold abort => ?_, fun calm hcomm h3 e pSet hu hset => ?_, fun v hv cold halt hcomm h3 => ?_,
      fun v hv cold run hcomm h3 hold => ?_⟩
    · obtain ⟨drops, holds, consecutive⟩ := empty he
      exact ⟨tdrops.trans drops, tholds.trans holds, tconsecutive.trans consecutive⟩
    · obtain ⟨drops, holds, consecutive⟩ := full hf
      exact ⟨tdrops.trans drops, tholds.trans holds, tconsecutive.trans consecutive⟩
    · exact acted.ends _ (action_temp hv hot)
    · exact acted.ends _ (action_abort hv cold abort)
    · exact acted.degrades (action_degrade calm hcomm h3) e pSet hu hset
    · exact halts (action_halt hv cold halt hcomm h3)
    · exact resumes (action_run hv cold run hcomm h3) hold
  case comm =>
    intro s p k i r b v pSet entry h hs hb hm hv cold run h3 hset hu
    obtain ⟨t, runs, above, below⟩ :=
      comm_moves h hs hb hm hv cold run (fun k => absurd (h3 k.1) (Nat.not_lt.2 k.2)) hset hu
    refine ⟨t, runs, fun ha => ?_, fun hl => ?_⟩
    · obtain ⟨⟨state, reason⟩, target, set⟩ := above ha
      exact ⟨state, reason, target, set⟩
    · exact below hl
  case switch =>
    intro s p k i r b pSet target h hs hb hm hl hbuf hset ht hend
    exact noncomm_switches h hs hb hm hl hbuf hset ht hend

end Sys2Proof.Machine
end

section
/-! SUPPORT. POSITION_REPORT: the report held, the waiter tested again, the overpressure trip (R7, R72, R162). -/

namespace Sys2Proof.Machine

variable {p q : PosId} {b : BankId} {n : PortId} {s t u : State}

/-! ### The waiter tested again (R72) -/

/-- A position with a report of its dispenser pressure (R7). -/
def State.pressed (s : State) (p : PosId) (raw : Nat) : State :=
  s.setPos p { s.pos p with
    pressure := some ⟨min raw 12000, s.clock⟩
    sensorRange := decide (12000 < raw)
    staleWatch := if endable (s.pos p).state = true then some 2000 else (s.pos p).staleWatch }

/-- The state in which the trip is tested. -/
def State.retested (s : State) (p : PosId) (raw : Nat) : State :=
  if (s.pos p).pressure.map (·.value) = some (min raw 12000) then s.pressed p raw else retestWaiter p (s.pressed p raw)

theorem reportPressure_eq (raw : Nat) (h : (s.pos p).state ≠ .unavailable) :
    reportPressure raw p s = (overpressureTrip p (s.retested p raw), .accepted [] none) := if_neg h

theorem retested_still {raw : Nat} (h : ¬ ((s.pos p).pressure.map (·.value) ≠ some (min raw 12000) ∧ ∃ w ∈ s.drawList, w.pos = p)) :
    s.retested p raw = s.pressed p raw := by
  unfold State.retested
  split
  · rfl
  next hv =>
    have none : (s.pressed p raw).drawList.find? (fun w => w.pos == p) = none := by
      rw [List.find?_eq_none]
      exact fun w hw e => h ⟨hv, w, hw, by simpa using e⟩
    unfold retestWaiter
    rw [none]

/-- A waiter whose pressure changed, with the request it waits with. -/
structure Retests (s : State) (p : PosId) (raw : Nat) (w : DrawWait) : Prop where
  changed : (s.pos p).pressure.map (·.value) ≠ some (min raw 12000)
  waits : s.drawList.find? (fun w => w.pos == p) = some w

theorem Retests.unserved {raw : Nat} {w : DrawWait} (h : Retests s p raw w)
    (hb : bestBank (s.pressed p raw) p w.kind w.excluded = none) : s.retested p raw = s.pressed p raw := by
  have found : (s.pressed p raw).drawList.find? (fun w => w.pos == p) = some w := h.waits
  unfold State.retested
  rw [if_neg h.changed]
  unfold retestWaiter
  simp only [found, hb]

theorem Retests.served {raw : Nat} {w : DrawWait} (h : Retests s p raw w)
    (hb : bestBank (s.pressed p raw) p w.kind w.excluded = some b) :
    s.retested p raw = grantBank p b (s.pressed p raw) := by
  have found : (s.pressed p raw).drawList.find? (fun w => w.pos == p) = some w := h.waits
  unfold State.retested
  rw [if_neg h.changed]
  unfold retestWaiter
  simp only [found, hb]

/-- A grant to a position that waits for a bank. -/
theorem grantBank_waiter (h : endable (s.pos p).state = true) (b : BankId) :
    ((grantBank p b s).pos p).bank = some b ∧ ((grantBank p b s).bank b).state = .drawing ∧
    ((grantBank p b s).bank b).holder = some (.pos p) ∧ (∀ w ∈ (grantBank p b s).drawList, w.pos ≠ p) ∧
    endable ((grantBank p b s).pos p).state = true := by
  by_cases hp : (s.pos p).state = .pulse
  · obtain ⟨x, l, e, hl⟩ := grantBank_pulse hp b
    rw [e]
    refine ⟨?_, ?_, ?_, hl, ?_⟩ <;>
      simp [State.pos, State.bank, State.setPos, State.setBank, Position.pulsing, Bank.drawnBy]
    exact h
  · obtain ⟨x, w, g, l, e, hl⟩ := grantBank_eq hp b
    rw [e]
    refine ⟨?_, ?_, ?_, hl, ?_⟩ <;>
      simp [State.pos, State.bank, State.setPos, State.setChan, State.setBank, Position.flowing, Bank.drawnBy, endable]

/-- The request of a waiter. -/
theorem retests_of {raw : Nat} (h : (s.pos p).pressure.map (·.value) ≠ some (min raw 12000) ∧ ∃ w ∈ s.drawList, w.pos = p) :
    ∃ w, Retests s p raw w ∧ w ∈ s.drawList ∧ w.pos = p := by
  obtain ⟨hv, w, hw, e⟩ := h
  cases hf : s.drawList.find? (fun w => w.pos == p) with
  | none => exact absurd (by simpa using e) (List.find?_eq_none.1 hf w hw)
  | some x => exact ⟨x, ⟨hv, hf⟩, List.mem_of_find?_eq_some hf, by simpa using List.find?_some hf⟩

/-- The test leaves a fill a fill, and what cascades leave. -/
theorem retested_kept {raw : Nat} (hd : ∀ w ∈ s.drawList, endable (s.pos w.pos).state = true) :
    Moves (s.pressed p raw) (s.retested p raw) ∧ (s.retested p raw).steady = (s.pressed p raw).steady ∧
    endable ((s.retested p raw).pos p).state = endable (s.pos p).state ∧
    (endable (s.pos p).state = false → s.retested p raw = s.pressed p raw) := by
  have same : ((s.pressed p raw).pos p).state = (s.pos p).state := by rw [State.pressed, State.setPos_pos]
  have still (e : s.retested p raw = s.pressed p raw) : Moves (s.pressed p raw) (s.retested p raw) ∧
      (s.retested p raw).steady = (s.pressed p raw).steady ∧
      endable ((s.retested p raw).pos p).state = endable (s.pos p).state ∧
      (endable (s.pos p).state = false → s.retested p raw = s.pressed p raw) := by
    rw [e]
    exact ⟨.refl, rfl, by rw [same], fun _ => rfl⟩
  by_cases h : (s.pos p).pressure.map (·.value) ≠ some (min raw 12000) ∧ ∃ w ∈ s.drawList, w.pos = p
  · obtain ⟨w, hr, hw, e⟩ := retests_of h
    have waits : endable (s.pos p).state = true := e ▸ hd w hw
    cases hb : bestBank (s.pressed p raw) p w.kind w.excluded with
    | none => exact still (hr.unserved hb)
    | some b =>
      rw [hr.served hb]
      refine ⟨moves_grantBank p b .refl, steady_grantBank .., ?_, fun e => by rw [waits] at e; cases e⟩
      rw [(grantBank_waiter (by rw [same]; exact waits) b).2.2.2.2, waits]
  · exact still (retested_still h)

/-! ### The trip (R162) -/

/-- The trip of a position noted. -/
def State.trippedAt (s : State) (p : PosId) : State := { s with tripped := s.tripped.set p true }

theorem trippedAt_self (h : s.tripped[p] = true) : s.trippedAt p = s := by
  have same : s.tripped.set p true = s.tripped := by
    rw [← h]
    exact Vector.set_getElem_self ..
  rw [State.trippedAt, same]

theorem Ended.trippedAt {why : EndReason} (h : Ended p why s t) : Ended p why s (t.trippedAt p) :=
  ⟨h.position, h.channel, h.noGrant, h.notWaiting, h.released, h.record, h.closedSent, h.others⟩

/-- The trip noted and noticed, once a fill. -/
def State.tripNoticed (s : State) (p : PosId) (k : ClassId) : State :=
  if s.tripped[p] then s else postOverpressure p k (s.trippedAt p)

theorem tripNoticed_sends (s : State) (p : PosId) (k : ClassId) : Sends (s.trippedAt p) (s.tripNoticed p k) := by
  unfold State.tripNoticed
  split
  next h =>
    rw [trippedAt_self h]
    exact .refl s
  · exact sends_postNotice ..

theorem tripNoticed_steady (s : State) (p : PosId) (k : ClassId) : (s.tripNoticed p k).steady = (s.trippedAt p).steady := by
  unfold State.tripNoticed
  split
  next h => rw [trippedAt_self h]
  · exact steady_postNotice ..

theorem tripNoticed_noticed (k : ClassId) (h : s.tripped[p] = false) (hn : n ∈ [islandPort p, plantPort]) :
    Noticed (s.tripNoticed p k) n .overpressure p.val := by
  rw [State.tripNoticed, if_neg (by simp [h])]
  exact postNotice_noticed hn rfl _ _

/-- A fuelling position above the trip pressure of its class. -/
def State.trips (s : State) (p : PosId) (v : Nat) : Prop :=
  fuelling (s.pos p).state = true ∧ ∃ k, (s.pos p).cls = some k ∧ (classRow k).pMax + 200 < v

theorem overpressureTrip_not (h : ¬ s.trips p (heldPressure (s.pos p))) : overpressureTrip p s = s := by
  unfold overpressureTrip
  cases hk : (s.pos p).cls with
  | none => rfl
  | some k =>
    dsimp only
    exact if_neg fun e => h (by simp only [Bool.and_eq_true, decide_eq_true_eq] at e; exact ⟨e.1, k, hk, e.2⟩)

theorem overpressureTrip_trips (h : s.trips p (heldPressure (s.pos p))) :
    ∃ k, overpressureTrip p s = (endFill p .overpressure s).tripNoticed p k := by
  obtain ⟨hf, k, hk, hv⟩ := h
  refine ⟨k, ?_⟩
  unfold overpressureTrip
  cases hc : (s.pos p).cls with
  | none => rw [hk] at hc; cases hc
  | some c =>
    obtain rfl : k = c := by rw [hk] at hc; exact Option.some.inj hc
    dsimp only
    exact if_pos (by simp [hf, hv])

/-! ### The request -/

theorem hears_answered (n : PortId) (kind : Byte) (args : List Byte) (a : Answer) (s : State) :
    Hears s (endEvent (pushReply n kind args a s)) :=
  (hears_modPort n (fun x => { x with replies := x.replies ++ [_] }) (fun _ m hm => ⟨m, hm, sameKey_refl m⟩) s).trans
    (hears_endEvent _)

theorem pressed_heldPressure (s : State) (p : PosId) (raw : Nat) : heldPressure ((s.pressed p raw).pos p) = min raw 12000 := by
  rw [State.pressed, State.setPos_pos]
  rfl

/-- The test leaves what the trip is judged by. -/
theorem retested_trips {raw v : Nat} (hd : ∀ w ∈ s.drawList, endable (s.pos w.pos).state = true) :
    heldPressure ((s.retested p raw).pos p) = min raw 12000 ∧ ((s.retested p raw).trips p v ↔ s.trips p v) := by
  obtain ⟨moves, -, fill, still⟩ := retested_kept (p := p) (raw := raw) hd
  have cls : ((s.retested p raw).pos p).cls = (s.pos p).cls := by
    rw [moves.cls p, State.pressed, State.setPos_pos]
  have pressure : ((s.retested p raw).pos p).pressure = ((s.pressed p raw).pos p).pressure :=
    (congrArg Position.pressure (moves.posSteady p) :)
  have flows : fuelling ((s.retested p raw).pos p).state = fuelling (s.pos p).state := by
    cases he : endable (s.pos p).state with
    | true =>
      rw [he] at fill
      rw [fuelling, fuelling, fill, he, Bool.true_or, Bool.true_or]
    | false => rw [still he, State.pressed, State.setPos_pos]
  refine ⟨?_, by rw [State.trips, State.trips, flows, cls]⟩
  rw [heldPressure, pressure]
  exact pressed_heldPressure s p raw

/-- The part after the report of a position is held. -/
def State.reported (s : State) (p : PosId) (raw : Nat) : State := overpressureTrip p (s.retested p raw)

theorem reported_untripped {raw : Nat} (hd : ∀ w ∈ s.drawList, endable (s.pos w.pos).state = true)
    (h : ¬ s.trips p (min raw 12000)) : s.reported p raw = s.retested p raw := by
  obtain ⟨held, same⟩ := retested_trips (p := p) (raw := raw) (v := min raw 12000) hd
  exact overpressureTrip_not (by rwa [held, same])

theorem reported_tripped {raw : Nat} (hd : ∀ w ∈ s.drawList, endable (s.pos w.pos).state = true)
    (h : s.trips p (min raw 12000)) :
    ∃ k, s.reported p raw = (endFill p .overpressure (s.retested p raw)).tripNoticed p k := by
  obtain ⟨held, same⟩ := retested_trips (p := p) (raw := raw) (v := min raw 12000) hd
  exact overpressureTrip_trips (by rwa [held, same])

/-- A tripped fill ends. -/
theorem reported_ends {raw : Nat} (hd : ∀ w ∈ s.drawList, endable (s.pos w.pos).state = true)
    (h : s.trips p (min raw 12000)) (he : endable (s.pos p).state = true) :
    (s.reported p raw).steady = ((s.pressed p raw).trippedAt p).steady ∧
    Ended p .overpressure (s.retested p raw) (s.reported p raw) ∧
    (s.tripped[p] = false → ∀ n ∈ [islandPort p, plantPort], Noticed (s.reported p raw) n .overpressure p.val) := by
  obtain ⟨k, eq⟩ := reported_tripped hd h
  obtain ⟨-, steady, fill, -⟩ := retested_kept (p := p) (raw := raw) hd
  have ended : Ended p .overpressure (s.retested p raw) (endFill p .overpressure (s.retested p raw)) :=
    endFill_ended _ (fill.trans he)
  have steady : (endFill p .overpressure (s.retested p raw)).steady = (s.pressed p raw).steady :=
    (steady_endFill ..).trans steady
  have tripped : (endFill p .overpressure (s.retested p raw)).tripped = s.tripped := (congrArg State.tripped steady :)
  rw [eq]
  refine ⟨?_, ended.trippedAt.sends (tripNoticed_sends ..), fun hn n hm => tripNoticed_noticed k (by rw [tripped, hn]) hm⟩
  rw [tripNoticed_steady]
  calc ((endFill p .overpressure (s.retested p raw)).trippedAt p).steady
    _ = (endFill p .overpressure (s.retested p raw)).steady.trippedAt p := rfl
    _ = (s.pressed p raw).steady.trippedAt p := by rw [steady]

/-- A tripped fill in ENDING is only noticed. -/
theorem reported_notices {raw : Nat} (hd : ∀ w ∈ s.drawList, endable (s.pos w.pos).state = true)
    (h : s.trips p (min raw 12000)) (he : endable (s.pos p).state = false) :
    ∃ k, s.reported p raw = (s.pressed p raw).tripNoticed p k := by
  obtain ⟨k, eq⟩ := reported_tripped hd h
  obtain ⟨-, -, fill, still⟩ := retested_kept (p := p) (raw := raw) hd
  exact ⟨k, by rw [eq, endFill_of_not_endable (fill.trans he), still he]⟩

theorem positionReport_runs {lo hi : Byte} (h : (s.pos p).state ≠ .unavailable) :
    forOwn (islandPort p) (byteOf p.val) (reportPressure (u16 lo hi)) (dropFrame (islandPort p) s) =
      ((dropFrame (islandPort p) s).reported p (u16 lo hi), .accepted [] none) :=
  (forOwn_byteOf ..).trans (reportPressure_eq _ h)

/-- The cascade of a report that the position takes. -/
theorem positionReport_completes {lo hi : Byte} {e : State} {post : List Field → State → Prop}
    (hq : Standing (.positionReport (islandPort p) [byteOf p.val, lo, hi]) s) (h : (s.pos p).state ≠ .unavailable)
    (he : ((dropFrame (islandPort p) s).reported p (u16 lo hi)).steady = (dropFrame (islandPort p) e).steady)
    (hp : ∀ kind args, post [] (endEvent (pushReply (islandPort p) kind args (.accepted [] none)
      ((dropFrame (islandPort p) s).reported p (u16 lo hi))))) :
    Completes (.positionReport (islandPort p) [byteOf p.val, lo, hi]) s none e post :=
  completes_intro rfl rfl (screen_passes rfl (by simp) rfl) hq (positionReport_runs h) he (hp ..)

theorem positionReport_accepts {lo hi : Byte}
    (hq : Standing (.positionReport (islandPort p) [byteOf p.val, lo, hi]) s) (h : (s.pos p).state ≠ .unavailable)
    (he : (dropFrame (islandPort p) s).reported p (u16 lo hi) = dropFrame (islandPort p) (s.pressed p (u16 lo hi))) :
    Accepts (.positionReport (islandPort p) [byteOf p.val, lo, hi]) s [] none (s.pressed p (u16 lo hi)) :=
  accepts_intro rfl rfl (screen_passes rfl (by simp) rfl) hq ((positionReport_runs h).trans (congrArg (·, _) he)) hq.evt

/-- A waiter that an IDLE bank serves now. -/
theorem grantBank_others (p : PosId) (b : BankId) (s : State) (h : q ≠ p) :
    (grantBank p b s).pos q = s.pos q ∧ (grantBank p b s).chan q = s.chan q := by
  by_cases hp : (s.pos p).state = .pulse
  · obtain ⟨x, l, e, -⟩ := grantBank_pulse hp b
    rw [e]
    exact ⟨State.setPos_pos_ne _ _ _ _ h, rfl⟩
  · obtain ⟨x, w, g, l, e, -⟩ := grantBank_eq hp b
    rw [e]
    exact ⟨State.setPos_pos_ne _ _ _ _ h, State.setChan_chan_ne _ _ _ _ h⟩

/-- Settles O25: the report held, the waiter tested again, and the trip over both. -/
theorem positionReportResult : Obligations.PositionReportResult := by
  rintro s e p lo hi v c rfl hq law rfl he
  obtain rfl : e = s.pressed p (u16 lo hi) := he
  dsimp only
  have hd : ∀ w ∈ (dropFrame (islandPort p) s).drawList, endable ((dropFrame (islandPort p) s).pos w.pos).state = true :=
    law.drawers
  split
  next hu =>
    exact refuses_intro rfl rfl (screen_passes rfl (by simp) rfl) hq
      ((forOwn_byteOf ..).trans (by simp [reportPressure, refuse, hu]))
  next hu =>
    refine ⟨fun ht hr => ?_, fun ht hr w hw => ?_, fun ht he => ?_, fun ht he => ?_⟩
    · exact positionReport_accepts hq hu ((reported_untripped hd ht).trans (retested_still hr))
    · have asks : Retests (dropFrame (islandPort p) s) p (u16 lo hi) w := ⟨hr.1, hw⟩
      have free := reported_untripped (p := p) (raw := u16 lo hi) hd ht
      cases hb : bestBank (s.pressed p (u16 lo hi)) p w.kind w.excluded with
      | none => exact positionReport_accepts hq hu (free.trans (asks.unserved hb))
      | some b =>
        have eq := free.trans (asks.served hb)
        have waits : endable (((dropFrame (islandPort p) s).pressed p (u16 lo hi)).pos p).state = true := by
          obtain ⟨w', hw', rfl⟩ := hr.2
          rw [State.pressed, State.setPos_pos]
          exact law.drawers w' hw'
        obtain ⟨bank, state, holder, list, -⟩ := grantBank_waiter waits b
        refine positionReport_completes hq hu (by rw [eq]; exact steady_grantBank ..) fun kind args => ?_
        rw [eq]
        obtain trails := trails_answered (islandPort p) kind args (.accepted [] none)
          (grantBank p b ((dropFrame (islandPort p) s).pressed p (u16 lo hi)))
        rw [trails.pos, trails.bank, trails.drawList]
        refine ⟨rfl, bank, state, holder, list, fun q hqp => ?_⟩
        rw [trails.pos, trails.chan]
        obtain ⟨pos, chan⟩ := grantBank_others p b ((dropFrame (islandPort p) s).pressed p (u16 lo hi)) hqp
        exact ⟨pos.trans (State.setPos_pos_ne _ _ _ _ hqp), chan⟩
    · obtain ⟨steady, ended, noticed⟩ := reported_ends (raw := u16 lo hi) hd ht he
      refine positionReport_completes hq hu steady fun kind args => ?_
      have ends := (ended.sends (sends_pushReply (islandPort p) kind args (.accepted [] none) _)).endEvent
      refine ⟨rfl, by rw [ends.position], by rw [ends.position], fun hr => ?_, fun hn => ?_⟩
      · rw [retested_still (s := dropFrame (islandPort p) s) hr] at ends
        exact ends.of_dropFrame
      · have heard := fun n hm => ((noticed hn n hm).hears (hears_answered (islandPort p) kind args (.accepted [] none) _) :)
        exact ⟨heard _ (by simp), heard _ (by simp)⟩
    · have off : endable (s.pos p).state = false := by rw [he]; rfl
      obtain ⟨k, eq⟩ := reported_notices (raw := u16 lo hi) hd ht off
      refine ⟨fun hp => positionReport_accepts hq hu ?_, fun hp => positionReport_completes hq hu ?_ fun kind args => ?_⟩
      · exact eq.trans (if_pos hp)
      · rw [eq, tripNoticed_steady]
        rfl
      · rw [eq]
        have trails := (tripNoticed_sends ((dropFrame (islandPort p) s).pressed p (u16 lo hi)) p k).trails.trans
          (trails_answered (islandPort p) kind args (.accepted [] none) _)
        have heard := fun n hm => (tripNoticed_noticed (n := n) (p := p) k
          (s := (dropFrame (islandPort p) s).pressed p (u16 lo hi)) hp hm).hears
          (hears_answered (islandPort p) kind args (.accepted [] none) _)
        exact ⟨rfl, fun q _ => ⟨trails.pos q, trails.chan q⟩, heard _ (by simp), heard _ (by simp)⟩

end Sys2Proof.Machine
end

section
/-! SUPPORT. The bank arbiter: which bank a request is granted, what a pass of offers leaves (R68 to R72). -/

namespace Sys2Proof.Machine

variable {p q : PosId} {b a c : BankId} {s t u : State}

/-! ### The bank of a request (R68) -/

/-- The tests of R68, in words. -/
theorem eligible_iff {kind : DrawKind} {x : Option BankId} (h : s.evt.plantLost = false) :
    eligible s p kind x b = true ↔ Serves s p kind x b := by
  unfold eligible Serves heldPressure
  dsimp only
  cases hr : (s.bank b).report with
  | none => simp
  | some r =>
    cases hg : (s.bank b).config with
    | none => simp
    | some g =>
      cases kind with
      | pulse => simp [h, and_assoc]
      | ramp =>
        cases hw : s.window g.tier with
        | none => simp [hw]
        | some w => simp [h, hw, and_assoc, and_comm, and_left_comm, bne_iff_ne]

theorem tierRank_some (t : Tier) : tierRank (some t) = t.code := by cases t <;> rfl

theorem Tier.code_inj {t u : Tier} : t.code = u.code ↔ t = u := by cases t <;> cases u <;> decide

/-- The order of R68 between two banks that serve a request. -/
theorem bankBefore_iff {ra rb : BankReport} {ga gb : BankConfig} (hra : (s.bank a).report = some ra)
    (hga : (s.bank a).config = some ga) (hrb : (s.bank b).report = some rb) (hgb : (s.bank b).config = some gb) :
    bankBefore s a b = true ↔ (ga.tier.code < gb.tier.code ∨ ga.tier = gb.tier ∧
      (ra.pressure < rb.pressure ∨ ra.pressure = rb.pressure ∧ a < b)) := by
  unfold bankBefore
  simp only [hra, hga, hrb, hgb, Option.map_some, Option.getD_some, tierRank_some]
  by_cases ht : ga.tier = gb.tier
  · by_cases hp : ra.pressure = rb.pressure
    · simp [ht, hp]
    · simp [ht, hp]
  · have apart : ga.tier.code ≠ gb.tier.code := mt Tier.code_inj.1 ht
    simp [ht, apart]

theorem eligible_read {kind : DrawKind} {x : Option BankId} (h : eligible s p kind x a = true) :
    ∃ r g, (s.bank a).report = some r ∧ (s.bank a).config = some g := by
  unfold eligible at h
  dsimp only at h
  split at h
  next r g hr hg => exact ⟨r, g, hr, hg⟩
  · cases h

/-- The order of R68 is total on the banks that serve a request. -/
theorem TakenBefore.total {kind : DrawKind} {x : Option BankId} (ha : eligible s p kind x a = true)
    (hb : eligible s p kind x b = true) (h : ¬ TakenBefore s a b) (hab : a ≠ b) : TakenBefore s b a := by
  obtain ⟨ra, ga, hra, hga⟩ := eligible_read ha
  obtain ⟨rb, gb, hrb, hgb⟩ := eligible_read hb
  refine ⟨rb, gb, ra, ga, hrb, hgb, hra, hga, ?_⟩
  have no : ¬ (ga.tier.code < gb.tier.code ∨ ga.tier = gb.tier ∧
      (ra.pressure < rb.pressure ∨ ra.pressure = rb.pressure ∧ a < b)) := fun k =>
    h ⟨ra, ga, rb, gb, hra, hga, hrb, hgb, k⟩
  have apart : a.val ≠ b.val := fun e => hab (Fin.ext e)
  rw [← Tier.code_inj, Fin.lt_def] at no ⊢
  omega

theorem TakenBefore.asymm (h : TakenBefore s a b) : ¬ TakenBefore s b a := by
  obtain ⟨ra, ga, rb, gb, hra, hga, hrb, hgb, h⟩ := h
  rintro ⟨rb', gb', ra', ga', hrb', hgb', hra', hga', k⟩
  obtain rfl : ra' = ra := Option.some.inj (hra'.symm.trans hra)
  obtain rfl : ga' = ga := Option.some.inj (hga'.symm.trans hga)
  obtain rfl : rb' = rb := Option.some.inj (hrb'.symm.trans hrb)
  obtain rfl : gb' = gb := Option.some.inj (hgb'.symm.trans hgb)
  rw [← Tier.code_inj, Fin.lt_def] at h k
  omega

theorem TakenBefore.trans (h : TakenBefore s a b) (k : TakenBefore s b c) : TakenBefore s a c := by
  obtain ⟨ra, ga, rb, gb, hra, hga, hrb, hgb, h⟩ := h
  obtain ⟨rb', gb', rc, gc, hrb', hgb', hrc, hgc, k⟩ := k
  obtain rfl : rb' = rb := Option.some.inj (hrb'.symm.trans hrb)
  obtain rfl : gb' = gb := Option.some.inj (hgb'.symm.trans hgb)
  refine ⟨ra, ga, rc, gc, hra, hga, hrc, hgc, ?_⟩
  rw [← Tier.code_inj, Fin.lt_def] at h k ⊢
  omega

theorem bankBefore_eligible {kind : DrawKind} {x : Option BankId} (ha : eligible s p kind x a = true)
    (hb : eligible s p kind x b = true) : bankBefore s a b = true ↔ TakenBefore s a b := by
  obtain ⟨ra, ga, hra, hga⟩ := eligible_read ha
  obtain ⟨rb, gb, hrb, hgb⟩ := eligible_read hb
  rw [bankBefore_iff hra hga hrb hgb]
  refine ⟨fun h => ⟨ra, ga, rb, gb, hra, hga, hrb, hgb, h⟩, ?_⟩
  rintro ⟨ra', ga', rb', gb', hra', hga', hrb', hgb', k⟩
  obtain rfl : ra' = ra := Option.some.inj (hra'.symm.trans hra)
  obtain rfl : ga' = ga := Option.some.inj (hga'.symm.trans hga)
  obtain rfl : rb' = rb := Option.some.inj (hrb'.symm.trans hrb)
  obtain rfl : gb' = gb := Option.some.inj (hgb'.symm.trans hgb)
  exact k

theorem mem_allBanks (b : BankId) : b ∈ allBanks := by revert b; decide

/-- The better of the bank found so far and another. -/
def better (s : State) (best : Option BankId) (b : BankId) : Option BankId :=
  match best with
  | none => some b
  | some a => if bankBefore s b a then some b else some a

theorem bestBank_better (p : PosId) (kind : DrawKind) (x : Option BankId) (s : State) :
    bestBank s p kind x = (allBanks.filter (eligible s p kind x)).foldl (better s) none := rfl

/-- The first of some banks that serve a request, in the order of R68. -/
def First (s : State) (ok : BankId → Prop) (b : BankId) : Prop := ok b ∧ ∀ a, a ≠ b → ok a → TakenBefore s b a

theorem First.unique {ok : BankId → Prop} (ha : First s ok a) (hb : First s ok b) : a = b :=
  Classical.byContradiction fun h => (ha.2 b (Ne.symm h) hb.1).asymm (hb.2 a h ha.1)

theorem foldl_better_first {kind : DrawKind} {x : Option BankId} (l : List BankId)
    (hl : ∀ b ∈ l, eligible s p kind x b = true) (a : BankId) (ha : eligible s p kind x a = true) :
    ∃ b, l.foldl (better s) (some a) = some b ∧ First s (fun c => c = a ∨ c ∈ l) b := by
  induction l generalizing a with
  | nil => exact ⟨a, rfl, .inl rfl, fun c hc h => absurd (h.resolve_right (by simp)) hc⟩
  | cons d l ih =>
    have hd := hl d (by simp)
    have rest : ∀ b ∈ l, eligible s p kind x b = true := fun b hb => hl b (by simp [hb])
    rw [List.foldl_cons]
    cases hda : bankBefore s d a with
    | true =>
      have before := (bankBefore_eligible hd ha).1 hda
      obtain ⟨b, e, hb, first⟩ := ih rest d hd
      refine ⟨b, by rw [better, hda]; exact e, hb.elim (fun h => .inr (by simp [h])) (fun h => .inr (by simp [h])), ?_⟩
      intro c hc hm
      rcases hm with rfl | hm
      · by_cases hbd : b = d
        · exact hbd ▸ before
        · exact (first d (Ne.symm hbd) (.inl rfl)).trans before
      · exact first c hc (List.mem_cons.1 hm)
    | false =>
      obtain ⟨b, e, hb, first⟩ := ih rest a ha
      refine ⟨b, by rw [better, hda]; exact e, hb.elim .inl (fun h => .inr (by simp [h])), ?_⟩
      intro c hc hm
      rcases hm with rfl | hm
      · exact first c hc (.inl rfl)
      · rcases List.mem_cons.1 hm with rfl | hm
        · by_cases hca : c = a
          · exact first c hc (.inl hca)
          · have before : TakenBefore s a c := TakenBefore.total hd ha
              (fun k => by rw [(bankBefore_eligible hd ha).2 k] at hda; cases hda) hca
            by_cases hba : b = a
            · exact hba ▸ before
            · exact (first a (Ne.symm hba) (.inl rfl)).trans before
        · exact first c hc (.inr hm)

/-- The bank of a request is the first of those that serve it (R68). -/
theorem bestBank_iff {kind : DrawKind} {x : Option BankId} :
    bestBank s p kind x = some b ↔ First s (fun a => eligible s p kind x a = true) b := by
  rw [bestBank_better]
  have mem (a : BankId) : a ∈ allBanks.filter (eligible s p kind x) ↔ eligible s p kind x a = true := by
    rw [List.mem_filter, and_iff_right (mem_allBanks a)]
  cases hl : allBanks.filter (eligible s p kind x) with
  | nil =>
    refine ⟨(nomatch ·), fun h => ?_⟩
    have := (mem b).2 h.1
    rw [hl] at this
    cases this
  | cons a l =>
    rw [hl] at mem
    obtain ⟨d, e, first⟩ := foldl_better_first (s := s) l (fun b hb => (mem b).1 (by simp [hb])) a ((mem a).1 (by simp))
    have same : (fun c => c = a ∨ c ∈ l) = fun c => eligible s p kind x c = true :=
      funext fun c => propext (by rw [← mem c, List.mem_cons])
    rw [same] at first
    rw [List.foldl_cons]
    change l.foldl (better s) (some a) = some b ↔ _
    rw [e]
    exact ⟨fun h => Option.some.inj h ▸ first, fun h => congrArg some (first.unique h)⟩

theorem bestBank_none {kind : DrawKind} {x : Option BankId} :
    bestBank s p kind x = none ↔ ∀ a, eligible s p kind x a = false := by
  rw [bestBank_better]
  have mem (a : BankId) : a ∈ allBanks.filter (eligible s p kind x) ↔ eligible s p kind x a = true := by
    rw [List.mem_filter, and_iff_right (mem_allBanks a)]
  cases hl : allBanks.filter (eligible s p kind x) with
  | nil =>
    refine ⟨fun _ a => ?_, fun _ => rfl⟩
    have := mem a
    rw [hl] at this
    simpa using this
  | cons a l =>
    rw [hl] at mem
    obtain ⟨d, e, -⟩ := foldl_better_first (s := s) l (fun b hb => (mem b).1 (by simp [hb])) a ((mem a).1 (by simp))
    refine ⟨fun h => ?_, fun h => ?_⟩
    · rw [List.foldl_cons] at h
      exact nomatch e.symm.trans h
    · have := (mem a).1 (by simp)
      rw [h a] at this
      cases this

/-! ### What a grant leaves of the draw wait list -/

theorem sends_postBankState (b : BankId) (s : State) : Sends s (postBankState b s) := sends_postNotice ..

/-- A bank that moves ends an exclusion of it, and no other. -/
theorem moveBank_waiter {st : BankState} {h : Option Holder} {w : DrawWait} (hw : w ∈ (moveBank b st h s).drawList) :
    ∃ v ∈ s.drawList, v.pos = w.pos ∧ v.kind = w.kind ∧
      (v.excluded = w.excluded ∨ st ≠ .idle ∧ v.excluded = some b ∧ w.excluded = none) := by
  unfold moveBank at hw
  dsimp only at hw
  rw [(sends_postBankState b _).rest] at hw
  by_cases hi : ((s.bank b).state == .idle && st != .idle) = true
  · rw [if_pos hi] at hw
    obtain ⟨v, hv, rfl⟩ := List.mem_map.1 hw
    refine ⟨v, hv, ?_⟩
    split
    next e => exact ⟨rfl, rfl, .inr ⟨by simpa using (Bool.and_eq_true_iff.1 hi).2, by simpa using e, rfl⟩⟩
    · exact ⟨rfl, rfl, .inl rfl⟩
  · rw [if_neg hi] at hw
    exact ⟨w, hw, rfl, rfl, .inl rfl⟩

/-- The bank and the position of a request that is granted are gone from the list; an exclusion of the bank ends. -/
theorem taking_waiter {w : DrawWait} (hw : w ∈ (s.taking p b).drawList) :
    w.pos ≠ p ∧ ∃ v ∈ s.drawList, v.pos = w.pos ∧ v.kind = w.kind ∧
      (v.excluded = w.excluded ∨ v.excluded = some b ∧ w.excluded = none) := by
  obtain ⟨v, hv, pos, kind, excluded⟩ := moveBank_waiter hw
  obtain ⟨hv, out⟩ := List.mem_filter.1 hv
  exact ⟨fun e => by simp [pos, e] at out, v, hv, pos, kind, excluded.imp_right (·.2)⟩

theorem grantBank_drawList (p : PosId) (b : BankId) (s : State) :
    (grantBank p b s).drawList = (s.taking p b).drawList := by
  rw [grantBank_taking]
  split
  · rfl
  · obtain ⟨x, w, g, e⟩ := enterRamp_eq p b (s.taking p b)
    rw [e]
    rfl

/-- What a grant leaves alone: other positions and banks, the tests of R68, the other blocks. -/
theorem grantBank_apart (p : PosId) (b : BankId) (s : State) :
    (∀ q, q ≠ p → (grantBank p b s).pos q = s.pos q ∧ (grantBank p b s).chan q = s.chan q) ∧
    (∀ a, a ≠ b → (grantBank p b s).bank a = s.bank a) ∧
    grantBank p b s = { s with
      positions := (grantBank p b s).positions, channels := (grantBank p b s).channels
      banks := (grantBank p b s).banks, ports := (grantBank p b s).ports, work := (grantBank p b s).work
      groups := (grantBank p b s).groups, drawList := (grantBank p b s).drawList } := by
  refine ⟨fun q hq => grantBank_others p b s hq, ?_⟩
  by_cases hp : (s.pos p).state = .pulse
  · obtain ⟨x, l, e, -⟩ := grantBank_pulse hp b
    rw [e]
    exact ⟨fun a ha => State.setBank_bank_ne _ _ _ _ ha, rfl⟩
  · obtain ⟨x, w, g, l, e, -⟩ := grantBank_eq hp b
    rw [e]
    exact ⟨fun a ha => State.setBank_bank_ne _ _ _ _ ha, rfl⟩

theorem grantBank_drawing (p : PosId) (b : BankId) (s : State) :
    (grantBank p b s).bank b = (s.bank b).drawnBy p (s.chan p).mass := by
  by_cases hp : (s.pos p).state = .pulse
  · obtain ⟨x, l, e, -⟩ := grantBank_pulse hp b
    rw [e]
    simp [State.bank, State.setBank]
  · obtain ⟨x, w, g, l, e, -⟩ := grantBank_eq hp b
    rw [e]
    simp [State.bank, State.setBank]

theorem grantBank_pressure (p q : PosId) (b : BankId) (s : State) :
    ((grantBank p b s).pos q).pressure = (s.pos q).pressure := by
  have := congrArg Position.pressure ((moves_grantBank (s := s) p b .refl).posSteady q)
  exact this

/-- A bank that serves a request is IDLE. -/
theorem not_eligible {kind : DrawKind} {x : Option BankId} (h : (s.bank a).state ≠ .idle) :
    eligible s p kind x a = false := by
  cases he : eligible s p kind x a with
  | false => rfl
  | true => exact absurd (eligible_idle he).1 h

/-- After a grant no bank serves a waiter that served none before. -/
def Shrinks (s t : State) : Prop :=
  ∀ c : BankId, ∀ w ∈ t.drawList, eligible t w.pos w.kind w.excluded c = true →
    ∃ v ∈ s.drawList, eligible s v.pos v.kind v.excluded c = true

theorem Shrinks.refl (s : State) : Shrinks s s := fun _ w hw h => ⟨w, hw, h⟩

theorem Shrinks.trans (h : Shrinks s t) (k : Shrinks t u) : Shrinks s u := by
  intro c w hw he
  obtain ⟨v, hv, he⟩ := k c w hw he
  exact h c v hv he

/-- The tests of R68 at a bank, the exclusion apart. -/
theorem eligible_at {kind : DrawKind} {x : Option BankId} (hb : t.bank c = s.bank c) (h2 : t.windows = s.windows)
    (h3 : t.margin = s.margin) (h4 : t.evt.plantLost = s.evt.plantLost)
    (h5 : (t.pos q).pressure = (s.pos q).pressure) : eligible t q kind x c = eligible s q kind x c := by
  have window (tier : Tier) : t.window tier = s.window tier := by cases tier <;> simp [State.window, h2]
  unfold eligible heldPressure
  simp only [hb, h3, h4, h5, window]

theorem eligible_excluded {kind : DrawKind} {x y : Option BankId} (hx : x ≠ some c) (hy : y ≠ some c) :
    eligible s q kind x c = eligible s q kind y c := by
  have hx : (x != some c) = true := bne_iff_ne.2 hx
  have hy : (y != some c) = true := bne_iff_ne.2 hy
  unfold eligible
  simp only [hx, hy]

/-- What a change of one bank, that is not IDLE after it, leaves of the waiters. -/
theorem shrinks_of (b : BankId) (hb : (t.bank b).state ≠ .idle) (banks : ∀ c, c ≠ b → t.bank c = s.bank c)
    (windows : t.windows = s.windows) (margin : t.margin = s.margin) (lost : t.evt.plantLost = s.evt.plantLost)
    (pressure : ∀ q, (t.pos q).pressure = (s.pos q).pressure)
    (waiters : ∀ w ∈ t.drawList, ∃ v ∈ s.drawList, v.pos = w.pos ∧ v.kind = w.kind ∧
      (v.excluded = w.excluded ∨ v.excluded = some b ∧ w.excluded = none)) : Shrinks s t := by
  intro c w hw he
  have hcb : c ≠ b := by
    rintro rfl
    exact hb (eligible_idle he).1
  obtain ⟨v, hv, pos, kind, excluded⟩ := waiters w hw
  refine ⟨v, hv, ?_⟩
  rw [eligible_at (banks c hcb) windows margin lost (pressure _)] at he
  rw [pos, kind]
  rcases excluded with e | ⟨e, e'⟩
  · rwa [e]
  · rw [e, eligible_excluded (y := w.excluded) (by simpa using fun h => hcb h.symm) (by simp [e'])]
    exact he

/-- What leaves the draw wait list and what R68 reads. -/
theorem shrinks_same (list : t.drawList = s.drawList) (banks : t.banks = s.banks)
    (windows : t.windows = s.windows) (margin : t.margin = s.margin) (lost : t.evt.plantLost = s.evt.plantLost)
    (pressure : ∀ q, (t.pos q).pressure = (s.pos q).pressure) : Shrinks s t := by
  intro c w hw he
  rw [eligible_congr _ _ _ _ banks windows margin lost (pressure _)] at he
  exact ⟨w, list ▸ hw, he⟩

theorem grantBank_shrinks (p : PosId) (b : BankId) (s : State) : Shrinks s (grantBank p b s) := by
  obtain ⟨-, banks, rest⟩ := grantBank_apart p b s
  refine shrinks_of b ?_ banks (by rw [rest]) (by rw [rest]) (by rw [rest]) (fun q => grantBank_pressure ..) fun w hw => ?_
  · rw [grantBank_drawing]
    exact BankState.noConfusion
  · rw [grantBank_drawList] at hw
    exact (taking_waiter hw).2

/-! ### A pass of offers (R71) -/

/-- What offers do: IDLE banks granted, one after another, to positions that wait. -/
inductive Offers : State → State → Prop
  | none (s : State) : Offers s s
  | grant {s t : State} (w : DrawWait) (b : BankId) (h : Offers s t) (hw : w ∈ t.drawList) (hb : (t.bank b).state = .idle) :
      Offers s (grantBank w.pos b t)

theorem Offers.trans (h : Offers s t) (k : Offers t u) : Offers s u := by
  induction k with
  | none => exact h
  | grant w b _ hw hb ih => exact ih.grant w b hw hb

theorem Offers.shrinks (h : Offers s t) : Shrinks s t := by
  induction h with
  | none => exact .refl s
  | grant w b _ hw hb ih => exact ih.trans (grantBank_shrinks w.pos b _)

theorem Offers.rest (h : Offers s t) : t = { s with
    positions := t.positions, channels := t.channels, banks := t.banks, ports := t.ports, work := t.work
    groups := t.groups, drawList := t.drawList } := by
  induction h with
  | none => rfl
  | @grant t w b _ hw hb ih =>
    have rest := (grantBank_apart w.pos b t).2.2
    generalize grantBank w.pos b t = u at rest
    rw [ih] at rest
    exact rest

/-- The waiters left are some of those there were. -/
theorem Offers.waiter (h : Offers s t) {w : DrawWait} (hw : w ∈ t.drawList) : ∃ v ∈ s.drawList, v.pos = w.pos := by
  induction h generalizing w with
  | none => exact ⟨w, hw, rfl⟩
  | grant v b _ hv hb ih =>
    rw [grantBank_drawList] at hw
    obtain ⟨-, x, hx, pos, -⟩ := taking_waiter hw
    obtain ⟨y, hy, e⟩ := ih hx
    exact ⟨y, hy, e.trans pos⟩

/-- A position that does not wait for a bank is as it was. -/
theorem Offers.still (h : Offers s t) (hq : ¬ Draws s q) : t.pos q = s.pos q ∧ t.chan q = s.chan q := by
  induction h with
  | none => exact ⟨rfl, rfl⟩
  | @grant t w b h hw hb ih =>
    have apart : q ≠ w.pos := by
      rintro rfl
      exact hq (h.waiter hw)
    obtain ⟨pos, chan⟩ := (grantBank_apart w.pos b t).1 q apart
    exact ⟨pos.trans ih.1, chan.trans ih.2⟩

theorem Offers.bank (h : Offers s t) (c : BankId) (hc : (s.bank c).state ≠ .idle) : t.bank c = s.bank c := by
  induction h with
  | none => rfl
  | grant w b h hw hb ih =>
    have apart : c ≠ b := by
      rintro rfl
      rw [ih] at hb
      exact hc hb
    exact ((grantBank_apart _ b _).2.1 c apart).trans ih

theorem Offers.moves (h : Offers s t) : Moves s t := by
  induction h with
  | none => exact .refl
  | grant w b h hw hb ih => exact moves_grantBank _ b ih

/-- A bank offered is IDLE still, or drawn from. -/
theorem Offers.offered (h : Offers s t) (c : BankId) :
    t.bank c = s.bank c ∨ ∃ w ∈ s.drawList, (t.bank c).state = .drawing ∧ (t.bank c).holder = some (.pos w.pos) := by
  induction h with
  | none => exact .inl rfl
  | @grant t w b h hw hb ih =>
    by_cases e : c = b
    · subst e
      obtain ⟨v, hv, e⟩ := h.waiter hw
      refine .inr ⟨v, hv, ?_⟩
      rw [grantBank_drawing, e]
      exact ⟨rfl, rfl⟩
    · rw [(grantBank_apart _ b _).2.1 c e]
      exact ih

theorem offers_offerBank (hb : (s.bank b).state = .idle) : Offers s (offerBank b s) := by
  unfold offerBank
  split
  next w hw => exact (Offers.none s).grant w b (List.mem_of_find?_eq_some hw) hb
  · exact .none s

theorem offerBank_serves (b : BankId) (s : State) :
    ∀ w ∈ (offerBank b s).drawList, eligible (offerBank b s) w.pos w.kind w.excluded b = false := by
  unfold offerBank
  split
  next w hw =>
    refine fun v _ => not_eligible ?_
    rw [grantBank_drawing]
    exact BankState.noConfusion
  next hn => exact fun w hw => by simpa using List.find?_eq_none.1 hn w hw

/-- One bank of a pass. -/
def offered (s : State) (b : BankId) : State := if (s.bank b).state == .idle then offerBank b s else s

theorem offers_offered (s : State) (b : BankId) : Offers s (offered s b) := by
  unfold offered
  split
  next h => exact offers_offerBank (by simpa using h)
  · exact .none s

theorem offered_serves (s : State) (b : BankId) :
    ∀ w ∈ (offered s b).drawList, eligible (offered s b) w.pos w.kind w.excluded b = false := by
  unfold offered
  split
  · exact offerBank_serves b s
  next h => exact fun w _ => not_eligible (by simpa using h)

theorem offers_foldl (l : List BankId) (s : State) : Offers s (l.foldl offered s) := by
  induction l generalizing s with
  | nil => exact .none s
  | cons b l ih => exact (offers_offered s b).trans (ih _)

theorem foldl_offered_serves (l : List BankId) (s : State) :
    ∀ b ∈ l, ∀ w ∈ (l.foldl offered s).drawList, eligible (l.foldl offered s) w.pos w.kind w.excluded b = false := by
  induction l generalizing s with
  | nil => exact fun b hb => nomatch hb
  | cons a l ih =>
    intro b hb w hw
    rcases List.mem_cons.1 hb with rfl | hb
    · cases he : eligible ((b :: l).foldl offered s) w.pos w.kind w.excluded b with
      | false => rfl
      | true =>
        obtain ⟨v, hv, hs⟩ := (offers_foldl l (offered s b)).shrinks b w hw he
        rw [offered_serves s b v hv] at hs
        cases hs
    · exact ih (offered s a) b hb w hw

theorem mem_insertBank (s : State) (a : BankId) (l : List BankId) : b ∈ insertBank s a l ↔ b = a ∨ b ∈ l := by
  induction l with
  | nil => simp [insertBank]
  | cons c l ih =>
    unfold insertBank
    split
    · simp
    · simp [ih, or_left_comm]

theorem mem_sorted (s : State) (l r : List BankId) : b ∈ l.foldl (fun l b => insertBank s b l) r ↔ b ∈ l ∨ b ∈ r := by
  induction l generalizing r with
  | nil => simp
  | cons a l ih => simp [ih, mem_insertBank, or_assoc, or_left_comm]

theorem offerPass_offered (l : List BankId) (h : s.esd.latched = false) :
    offerPass l s = (l.foldl (fun l b => insertBank s b l) []).foldl offered s := by
  unfold offerPass
  rw [if_neg (by simp [h])]
  rfl

theorem offerPass_latched (l : List BankId) (h : s.esd.latched = true) : offerPass l s = s := if_pos h

theorem offers_offerPass (l : List BankId) (s : State) : Offers s (offerPass l s) := by
  cases h : s.esd.latched with
  | true =>
    rw [offerPass_latched l h]
    exact .none s
  | false =>
    rw [offerPass_offered l h]
    exact offers_foldl ..

/-- R71: after a pass no bank of it serves a waiter. -/
theorem offerPass_serves (l : List BankId) (h : s.esd.latched = false) : NoneEligible (· ∈ l) (offerPass l s) := by
  rw [offerPass_offered l h]
  exact fun w hw b hb => foldl_offered_serves _ s b ((mem_sorted s l []).2 (.inl hb)) w hw

end Sys2Proof.Machine
end

section
/-! SUPPORT. STATION_CONFIG and TIER_WINDOW: the checks, the values and the pass of offers (R44, R57, R58, R71). -/

namespace Sys2Proof.Machine

variable {p q : PosId} {b : BankId} {n : PortId} {s t u : State}

theorem completes_mono {c : Instr} {held : Option RecId} {e : State} {post post' : List Field → State → Prop}
    (h : Completes c s held e post) (hp : ∀ d t, post d t → post' d t) : Completes c s held e post' := by
  unfold Completes at h ⊢
  split at h
  next port kind l _ =>
    obtain ⟨t, d, runs, steady, p⟩ := h
    exact ⟨t, d, runs, steady, hp d t p⟩
  · exact h.elim

/-! ### The end of a request that offered banks -/

theorem noneEligible_answered {ok : BankId → Prop} (kind : Byte) (args : List Byte) (a : Answer)
    (h : NoneEligible ok u) (he : u.evt.plantLost = false) : NoneEligible ok (endEvent (pushReply n kind args a u)) := by
  have trails := trails_answered n kind args a u
  intro w hw c hc
  rw [trails.drawList] at hw
  have none : (endEvent (pushReply n kind args a u)).evt.plantLost = false := rfl
  rw [eligible_at (trails.bank c) (by rw [trails.rest]) (by rw [trails.rest]) (none.trans he.symm) (by rw [trails.pos])]
  exact h w hw c hc

/-- A request that offers banks and does no more. -/
theorem offers_answered {c : Instr} {kind : Byte} {args : List Byte} {owner : State → State × Answer} {e : State}
    {l : List BankId} {data : List Field} (hx : exec c s = .next (takeRequest kind n args owner s))
    (hb : requestBody c = some (n, kind :: args)) (hs : screen n kind args = none) (h : Standing c s)
    (ho : owner (dropFrame n s) = (offerPass l (dropFrame n e), .accepted data none))
    (hl : e.esd.latched = false) (hd : e.drawList = s.drawList) (hp : e.positions = s.positions) (hc : e.channels = s.channels)
    (he : e.evt = s.evt) :
    Completes c s none e (fun d t => d = data ∧ NoneEligible (· ∈ l) t ∧ FillsKept s t ∧ t.cooling = e.cooling ∧
      t.queue = e.queue) := by
  refine completes_intro hx hb hs h ho (steady_offerPass ..) ⟨rfl, ?_⟩
  have offers := offers_offerPass l (dropFrame n e)
  have serves := offerPass_serves l (s := dropFrame n e) hl
  have rest := offers.rest
  have still : FillsKept s (offerPass l (dropFrame n e)) := by
    intro q hq
    obtain ⟨pos, chan⟩ := offers.still (q := q) fun hd' => hq (.inl (by
      obtain ⟨w, hw, e⟩ := hd'
      exact ⟨w, hd ▸ hw, e⟩))
    exact ⟨pos.trans (by rw [State.pos, State.pos, ← hp]; rfl), chan.trans (by rw [State.chan, State.chan, ← hc]; rfl)⟩
  have calm : (offerPass l (dropFrame n e)).evt.plantLost = false := by
    rw [rest]
    exact (congrArg (fun e : Scratch => e.plantLost) (he.trans h.evt) :)
  generalize offerPass l (dropFrame n e) = u at rest serves still calm
  have trails := trails_answered n kind args (.accepted data none) u
  refine ⟨noneEligible_answered _ _ _ serves calm, fun q hq => ?_, ?_, ?_⟩
  · rw [trails.pos, trails.chan]
    exact still q hq
  · rw [trails.cooling, rest]
    rfl
  · rw [trails.queue, rest]
    rfl

/-! ### STATION_CONFIG and TIER_WINDOW -/

theorem setStation_eq (margin flow creep : Nat) (s : State) : setStation margin flow creep s =
    if margin < 50 ∨ 1000 < margin ∨ flow < 1 ∨ 100 < flow ∨ creep < 1 ∨ 500 < creep then (s, .refused .range)
    else (if s.margin = margin then { s with margin := margin, switchMass := flow, creepLimit := creep }
      else offerPass allBanks { s with margin := margin, switchMass := flow, creepLimit := creep }, .accepted [] none) := by
  unfold setStation
  simp [refuse, accept, ite_not]

theorem setWindow_rest (tier : Tier) (w : Option TierWindow) (s : State) :
    s.setWindow tier w = { s with windows := (s.setWindow tier w).windows } := by cases tier <;> rfl

/-- The banks of a tier, whatever its window. -/
def State.banksOf (s : State) (tier : Tier) : List BankId :=
  allBanks.filter (fun b => (s.bank b).config.map (·.tier) == some tier)

theorem mem_banksOf (tier : Tier) : b ∈ s.banksOf tier ↔ (s.bank b).config.map (·.tier) = some tier := by
  rw [State.banksOf, List.mem_filter, and_iff_right (mem_allBanks b), beq_iff_eq]

/-- The window that two values spell. -/
def windowOf (base limit : Nat) : Option TierWindow := if base = 0xFFFF ∧ limit = 0xFFFF then none else some ⟨base, limit⟩

theorem setTierWindow_eq {code : Byte} {tier : Tier} (ht : tierOf code = some tier) (base limit : Nat) (s : State) :
    setTierWindow code base limit s =
      if windowOf base limit ≠ none ∧ (limit < base ∨ 12000 < limit) then (s, .refused .range)
      else (if s.window tier = windowOf base limit then s.setWindow tier (windowOf base limit)
        else offerPass (s.banksOf tier) (s.setWindow tier (windowOf base limit)), .accepted [] none) := by
  have banks (w : Option TierWindow) : (s.setWindow tier w).bank = s.bank := by rw [setWindow_rest]; rfl
  unfold setTierWindow windowOf State.banksOf
  rw [ht]
  by_cases h : base = 0xFFFF ∧ limit = 0xFFFF
  · simp [h, accept, ite_not, banks]
  · simp [h, refuse, accept, ite_not, banks]

/-- Settles O28: the values, and the pass where the margin or the window is new and the latch is clear. -/
theorem stationAndWindowResult : Obligations.StationAndWindowResult := by
  refine ⟨?_, ?_⟩
  · rintro s m0 m1 w0 w1 w2 w3 c0 c1 c2 c3 c rfl h
    dsimp only
    by_cases hr : u16 m0 m1 < 50 ∨ 1000 < u16 m0 m1 ∨ u32 w0 w1 w2 w3 < 1 ∨ 100 < u32 w0 w1 w2 w3 ∨
        u32 c0 c1 c2 c3 < 1 ∨ 500 < u32 c0 c1 c2 c3
    · rw [if_pos hr]
      exact refuses_intro rfl rfl (screen_passes rfl (by simp) rfl) h ((setStation_eq ..).trans (if_pos hr))
    · rw [if_neg hr]
      have owner := (setStation_eq (u16 m0 m1) (u32 w0 w1 w2 w3) (u32 c0 c1 c2 c3) (dropFrame plantPort s)).trans
        (if_neg hr)
      by_cases hm : s.margin = u16 m0 m1
      · rw [if_pos (.inl hm)]
        exact accepts_intro rfl rfl (screen_passes rfl (by simp) rfl) h
          (owner.trans (congrArg (·, _) (if_pos hm))) h.evt
      · have owner := owner.trans (congrArg (·, _) (if_neg hm))
        by_cases hl : s.esd.latched = true
        · rw [if_pos (.inr hl)]
          exact accepts_intro rfl rfl (screen_passes rfl (by simp) rfl) h
            (owner.trans (congrArg (·, _) (offerPass_latched _ hl))) h.evt
        · rw [if_neg (not_or.2 ⟨hm, hl⟩)]
          have := offers_answered (l := allBanks)
            (e := { s with margin := u16 m0 m1, switchMass := u32 w0 w1 w2 w3, creepLimit := u32 c0 c1 c2 c3 })
            rfl rfl (screen_passes rfl (by simp) rfl) h owner (by simpa using hl) rfl rfl rfl rfl
          refine completes_mono this fun d t ⟨data, serves, kept, cooling, queue⟩ =>
            ⟨data, fun w hw b _ => serves w hw b (mem_allBanks b), kept, cooling, queue⟩
  · rintro s code b0 b1 l0 l1 c rfl h
    intro base limit w
    have owner (tier : Tier) (ht : tierOf code = some tier) :
        setTierWindow code (u16 b0 b1) (u16 l0 l1) (dropFrame plantPort s) =
          if w ≠ none ∧ (limit < base ∨ 12000 < limit) then (dropFrame plantPort s, .refused .range)
          else (if s.window tier = w then dropFrame plantPort (s.setWindow tier w)
            else offerPass ((dropFrame plantPort s).banksOf tier) (dropFrame plantPort (s.setWindow tier w)),
            .accepted [] none) := by
      have drop : (dropFrame plantPort s).setWindow tier w = dropFrame plantPort (s.setWindow tier w) := by
        cases tier <;> rfl
      rw [← drop]
      exact setTierWindow_eq ht ..
    clear_value w
    cases ht : tierOf code with
    | none =>
      exact refuses_intro rfl rfl (screen_passes rfl (by simp) rfl) h (by simp [setTierWindow, ht, refuse])
    | some tier =>
      have owner := owner tier ht
      have rest := setWindow_rest tier w s
      have evt : (s.setWindow tier w).evt = s.evt := by rw [rest]
      dsimp only
      by_cases hr : w ≠ none ∧ (limit < base ∨ 12000 < limit)
      · rw [if_pos hr]
        exact refuses_intro rfl rfl (screen_passes rfl (by simp) rfl) h (owner.trans (if_pos hr))
      · rw [if_neg hr]
        have owner := owner.trans (if_neg hr)
        by_cases hm : s.window tier = w
        · rw [if_pos (.inl hm)]
          exact accepts_intro rfl rfl (screen_passes rfl (by simp) rfl) h (owner.trans (congrArg (·, _) (if_pos hm)))
            (evt.trans h.evt)
        · have owner := owner.trans (congrArg (·, _) (if_neg hm))
          by_cases hl : s.esd.latched = true
          · rw [if_pos (.inr hl)]
            exact accepts_intro rfl rfl (screen_passes rfl (by simp) rfl) h
              (owner.trans (congrArg (·, _) (offerPass_latched _ (by rw [rest]; exact hl)))) (evt.trans h.evt)
          · rw [if_neg (not_or.2 ⟨hm, hl⟩)]
            have := offers_answered rfl rfl (screen_passes rfl (by simp) rfl) h owner
              (by rw [rest]; simpa using hl) (by rw [rest]) (by rw [rest]) (by rw [rest]) (by rw [rest])
            refine completes_mono this fun d t ⟨data, serves, kept, cooling, queue⟩ =>
              ⟨data, fun w hw b hb => serves w hw b ((mem_banksOf tier).2 hb), kept, cooling.trans (by rw [rest]),
                queue.trans (by rw [rest])⟩

end Sys2Proof.Machine
end

section
/-! SUPPORT. What cascades that release no bank leave of the banks: those that are not IDLE stand (R59, R67, R82). -/

namespace Sys2Proof.Machine

variable {p q : PosId} {b c : BankId} {n : PortId} {s t u : State}

/-- From `s` to `t` only IDLE banks change, no position comes to another bank, and no entry to the refill queue. -/
structure Yields (s t : State) : Prop where
  bank : ∀ c, (s.bank c).state ≠ .idle → t.bank c = s.bank c
  taken : ∀ p c, (t.pos p).bank = some c → (s.pos p).bank = some c ∨ (s.bank c).state = .idle
  queue : ∀ e ∈ t.queue, e ∈ s.queue

theorem Yields.refl (s : State) : Yields s s := ⟨fun _ _ => rfl, fun _ _ h => .inl h, fun _ h => h⟩

theorem Yields.trans (h : Yields s t) (k : Yields t u) : Yields s u where
  bank c hc := by
    have same := h.bank c hc
    exact (k.bank c (by rwa [same])).trans same
  taken p c hp := by
    rcases k.taken p c hp with hp | idle
    · exact h.taken p c hp
    · by_cases hc : (s.bank c).state = .idle
      · exact .inr hc
      · rw [h.bank c hc] at idle
        exact absurd idle hc
  queue e he := h.queue e (k.queue e he)

theorem yields_foldl {α : Type} (l : List α) (f : State → α → State) (hf : ∀ s a, Yields s (f s a)) (s : State) :
    Yields s (l.foldl f s) := by
  induction l generalizing s with
  | nil => exact .refl s
  | cons a l ih => exact (hf s a).trans (ih _)

theorem yields_ite (h : Prop) [Decidable h] (ht : Yields s t) (hu : Yields s u) : Yields s (if h then t else u) := by
  split
  · exact ht
  · exact hu

/-- What leaves banks, queue and the banks of positions. -/
theorem yields_of (hb : t.banks = s.banks) (hp : ∀ p, (t.pos p).bank = (s.pos p).bank) (hq : t.queue = s.queue) :
    Yields s t where
  bank c _ := by rw [State.bank, hb]; rfl
  taken p c h := .inl (by rwa [← hp])
  queue e he := by rwa [← hq]

theorem Sends.yields (h : Sends s t) : Yields s t := by
  rw [h.rest]
  exact yields_of rfl (fun _ => rfl) rfl

theorem yields_modPos (p : PosId) (f : Position → Position) (hf : ∀ x, (f x).bank = x.bank) (s : State) :
    Yields s (s.modPos p f) := by
  refine yields_of rfl (fun q => ?_) rfl
  by_cases h : q = p
  · subst h
    rw [State.modPos_pos, hf]
  · rw [State.modPos_pos_ne _ _ _ _ h]

theorem yields_grantBank (p : PosId) (hb : (s.bank b).state = .idle) : Yields s (grantBank p b s) := by
  obtain ⟨others, banks, rest⟩ := grantBank_apart p b s
  refine ⟨fun c hc => banks c ?_, fun q c hq => ?_, fun e he => by rw [rest] at he; exact he⟩
  · rintro rfl
    exact hc hb
  · by_cases h : q = p
    · subst h
      have taken : ((grantBank q b s).pos q).bank = some b := by
        by_cases hp : (s.pos q).state = .pulse
        · obtain ⟨x, l, e, -⟩ := grantBank_pulse hp b
          rw [e]
          simp [State.pos, State.setPos, State.setBank, Position.pulsing]
        · obtain ⟨x, w, g, l, e, -⟩ := grantBank_eq hp b
          rw [e]
          simp [State.pos, State.setPos, State.setChan, State.setBank, Position.flowing]
      obtain rfl : b = c := Option.some.inj (taken.symm.trans hq)
      exact .inr hb
    · rw [(others q h).1] at hq
      exact .inl hq

theorem yields_drawRequest (p : PosId) (k : DrawKind) (x : Option BankId) (s : State) : Yields s (drawRequest p k x s) := by
  unfold drawRequest
  cases hb : bestBank s p k x with
  | some b => exact yields_grantBank p (eligible_idle (bestBank_eligible hb)).1
  | none => exact yields_of rfl (fun _ => rfl) rfl

theorem Offers.yields (h : Offers s t) : Yields s t := by
  induction h with
  | none => exact .refl s
  | grant w b _ hw hb ih => exact ih.trans (yields_grantBank w.pos hb)

theorem yields_setGrant (r : Requester) (g : Nat) (s : State) : Yields s (setGrant r g s) := by
  cases r <;> exact yields_of rfl (fun _ => rfl) rfl

theorem yields_modRecord (p : PosId) (f : TxnRecord → TxnRecord) (s : State) : Yields s (modRecord p f s) := by
  obtain ⟨w, e⟩ := modRecord_eq p f s
  rw [e]
  exact yields_of rfl (fun _ => rfl) rfl

theorem yields_moveBank (hb : (s.bank b).state = .idle) (st : BankState) (h : Option Holder) : Yields s (moveBank b st h s) := by
  obtain ⟨l, x, e, -⟩ := moveBank_eq b st h s
  rw [e]
  refine ⟨fun c hc => ?_, fun _ _ h => .inl h, fun _ h => h⟩
  have apart : c ≠ b := by
    rintro rfl
    exact hc hb
  exact State.setBank_bank_ne _ _ _ _ apart

section
variable (s : State)

theorem yields_modComp (c : CompId) (f : Compressor → Compressor) : Yields s (s.modComp c f) :=
  yields_of rfl (fun _ => rfl) rfl

theorem yields_evt (e : Scratch) : Yields s { s with evt := e } := yields_of rfl (fun _ => rfl) rfl

theorem yields_postDirective (n : PortId) (d : Directive) : Yields s (postDirective n d s) :=
  yields_of rfl (fun _ => rfl) rfl

theorem yields_postCompState (c : CompId) (cause : CompCause) : Yields s (postCompState c cause s) :=
  (sends_postNotice ..).yields

theorem yields_unqueued (ok : QueueEntry → Bool) : Yields s { s with queue := s.queue.filter ok } :=
  ⟨fun _ _ => rfl, fun _ _ h => .inl h, fun _ hx => (List.mem_filter.1 hx).1⟩

end

theorem yields_flushWaitNotice (c : CompId) (s : State) : Yields s (flushWaitNotice c s) := by
  unfold flushWaitNotice
  split
  · exact (yields_evt s _).trans (yields_postCompState _ c _)
  · exact .refl s

theorem yields_startRefill (c : CompId) (s : State) : Yields s (startRefill c s).1 := by
  have asked := yields_modComp s c (fun x => { x with requestTime := none })
  unfold startRefill
  dsimp only
  split
  next e he =>
    have idle : (s.bank e.bank).state = .idle := by simpa [assignable] using List.find?_some he
    exact (((((asked.trans (yields_evt _ _)).trans (yields_moveBank (s := dropWaitNotice c (s.modComp c fun x => { x with requestTime := none })) idle _ _)).trans
      (yields_unqueued _ _)).trans
      (yields_modComp _ c _)).trans (yields_postDirective _ _ _)).trans (yields_postCompState _ _ _)
  · exact ((((asked.trans (yields_flushWaitNotice c _)).trans (yields_evt _ _)).trans
      (yields_setGrant _ 0 _)).trans (yields_modComp _ c _)).trans (yields_postCompState _ _ _)

theorem yields_compressorAsks (c : CompId) (s : State) : Yields s (compressorAsks c s) := by
  unfold compressorAsks
  dsimp only
  split
  · exact (yields_of rfl (fun _ => rfl) rfl : Yields s (budgetChanged .served s)).trans
      ((yields_setGrant _ _ _).trans (yields_startRefill c _))
  · exact yields_of rfl (fun _ => rfl) rfl

theorem yields_assignmentPass (s : State) : Yields s (assignmentPass s) := by
  unfold assignmentPass
  split
  · exact .refl s
  · exact yields_foldl _ _ (fun u c => yields_ite _ (yields_compressorAsks c u) (.refl u)) s

theorem yields_enterHold (p : PosId) (r : HoldReason) (s : State) : Yields s (enterHold p r s) := by
  obtain ⟨x, w, g, e⟩ := enterHold_eq p r s
  rw [e]
  refine (yields_modPos p (Position.heldFor r) (fun _ => rfl) s).trans (yields_of rfl (fun _ => rfl) rfl)

theorem yields_checksCD (p : PosId) (s : State) : Yields s (checksCD p s) := by
  unfold checksCD
  dsimp only
  exact yields_ite _ (yields_enterHold p _ s) (yields_ite _ (yields_drawRequest p _ _ s)
    ((yields_drawRequest p _ _ s).trans (yields_enterHold p _ _)))

theorem yields_raiseDerated (s : State) : Yields s (raiseDerated s) := by
  refine yields_foldl _ _ (fun u r => ?_) s
  cases r with
  | pos p => exact yields_ite _ ((yields_of rfl (fun _ => rfl) rfl : Yields u (budgetChanged .served u)).trans
      (yields_setGrant _ _ _)) (.refl u)
  | comp c => exact .refl u

theorem yields_grantFill (p : PosId) (g : Nat) (s : State) : Yields s (grantFill p g s) :=
  yields_ite _ ((yields_setGrant _ _ s).trans (yields_modRecord _ _ _)) (yields_setGrant _ _ s)

theorem yields_serveFills (l : List CoolWait) (s : State) : Yields s (serveFills l s).1 := by
  induction l generalizing s with
  | nil => exact .refl s
  | cons w l ih =>
    unfold serveFills
    split
    · exact .refl s
    next p _ =>
      dsimp only
      split
      · exact ((yields_of rfl (fun _ => rfl) rfl : Yields s (dropWait (.pos p) (budgetChanged .served s))).trans
          (yields_grantFill _ _ _)).trans (ih _)
      · exact .refl s

theorem yields_serveComps (l : List CoolWait) (s : State) : Yields s (serveComps l s).1 := by
  induction l generalizing s with
  | nil => exact .refl s
  | cons w l ih =>
    unfold serveComps
    split
    · exact .refl s
    next c _ =>
      dsimp only
      split
      · exact ((yields_of rfl (fun _ => rfl) rfl : Yields s (dropWait (.comp c) (budgetChanged .served s))).trans
          (yields_setGrant _ _ _)).trans (ih _)
      · exact .refl s

theorem yields_redistributePasses (s : State) : Yields s (redistributePasses s).1 := by
  unfold redistributePasses
  split
  · exact .refl s
  · exact (yields_raiseDerated s).trans ((yields_serveFills _ _).trans (yields_serveComps _ _))

theorem yields_tellServed (fills : List PosId) (comps : List CompId) (s : State) : Yields s (tellServed fills comps s).1 := by
  have told := yields_foldl fills _ (fun u p => yields_checksCD p u) s
  unfold tellServed
  dsimp only
  refine told.trans ?_
  generalize fills.foldl (fun s p => checksCD p s) s = u
  generalize false = back
  induction comps generalizing u back with
  | nil => exact .refl u
  | cons c l ih => exact (yields_startRefill c u).trans (ih _ _)

theorem yields_redistributeN (n : Nat) (s : State) : Yields s (redistributeN n s) := by
  induction n generalizing s with
  | zero => exact .refl s
  | succ n ih =>
    have round := (yields_redistributePasses s).trans
      (yields_tellServed (redistributePasses s).2.1 (redistributePasses s).2.2 _)
    unfold redistributeN
    exact yields_ite _ (round.trans (ih _)) round

theorem yields_releaseGrant (r : Requester) (s : State) : Yields s (releaseGrant r s) :=
  yields_ite _ (.refl s) (((yields_of rfl (fun _ => rfl) rfl : Yields s (budgetChanged .release s)).trans
    (yields_setGrant _ _ _)).trans (yields_redistributeN 3 _))

theorem yields_departWait (r : Requester) (s : State) : Yields s (departWait r s) :=
  yields_ite _ ((yields_of rfl (fun _ => rfl) rfl : Yields s (dropWait r (budgetChanged .departed s))).trans
    (yields_redistributeN 3 _)) (.refl s)

theorem yields_matchQueue (k : Nat) (s : State) : Yields s (matchQueue k s) := by
  induction k generalizing s with
  | zero => exact .refl s
  | succ k ih =>
    unfold matchQueue
    refine yields_ite _ ?_ (.refl s)
    split
    next c _ =>
      refine Yields.trans ?_ (ih _)
      exact (((yields_flushWaitNotice c s).trans (yields_modComp _ c _)).trans (yields_postCompState _ c _)).trans
        (yields_departWait _ _)
    · exact .refl s

theorem yields_dequeue (b : BankId) (s : State) : Yields s (dequeue b s) :=
  yields_ite _ ((yields_unqueued s _).trans (yields_matchQueue 2 _)) (.refl s)

theorem yields_endSegment (p : PosId) (c : SegmentEnd) (s : State) : Yields s (endSegment p c s) := by
  obtain ⟨w, e⟩ := endSegment_eq p c s
  rw [e]
  exact yields_of rfl (fun _ => rfl) rfl

theorem yields_stopRunning (c : CompId) (st : CompState) (s : State) : Yields s (stopRunning c st s) :=
  yields_of rfl (fun _ => rfl) rfl

theorem yields_loseBank (c : CompId) (s : State) : Yields s (loseBank c s) :=
  ((yields_stopRunning c .ready s).trans (yields_releaseGrant _ _)).trans
    ((yields_assignmentPass _).trans (sends_postNotice ..).yields)

end Sys2Proof.Machine
end

section
/-! SUPPORT. A bank leaves service: no holder, no place in the refill queue, its fill asks again (R19, R22, R61, R64 to R67, R82). -/

namespace Sys2Proof.Machine

variable {p q : PosId} {b c : BankId} {n : PortId} {s t u : State}

/-! ### The bank left -/

/-- A bank that was not IDLE moves: the draw wait list stands. -/
theorem moveBank_busy (hb : (s.bank b).state ≠ .idle) (st : BankState) (h : Option Holder) : ∃ x,
    moveBank b st h s = { s.modBank b (fun y => { y with state := st, holder := h }) with ports := x } ∧ s.Noticing x := by
  unfold moveBank
  dsimp only
  rw [if_neg (by simp [hb])]
  obtain ⟨x, e, hx⟩ := postNotice_eq_ports .bankState b.val _ [plantPort] _
  exact ⟨x, e, rfl, hx.directives⟩

theorem moveBank_bank (b : BankId) (st : BankState) (h : Option Holder) (s : State) :
    (moveBank b st h s).bank b = { s.bank b with state := st, holder := h } := by
  obtain ⟨l, x, e, -⟩ := moveBank_eq b st h s
  rw [e]
  exact s.modBank_bank b (fun y => { y with state := st, holder := h })

theorem vacateBank_bank (b : BankId) (st : BankState) (s : State) :
    (vacateBank b st s).bank b = { s.bank b with state := st, holder := none } := by
  unfold vacateBank
  dsimp only
  split
  · exact moveBank_bank b st none s
  · exact moveBank_bank b st none s

theorem yields_unbanked (p : PosId) (s : State) : Yields s (s.modPos p (fun x => { x with bank := none })) where
  bank _ _ := rfl
  taken q c h := by
    by_cases e : q = p
    · subst e
      rw [State.modPos_pos] at h
      cases h
    · rw [State.modPos_pos_ne _ _ _ _ e] at h
      exact .inl h
  queue _ h := h

theorem yields_sendValve (p : PosId) (s : State) : Yields s (sendValve p s) := yields_postDirective s _ _

theorem yields_withdrawPosition (p : PosId) (s : State) : Yields s (withdrawPosition p s) := by
  have left := yields_unbanked p s
  unfold withdrawPosition
  dsimp only
  cases (s.pos p).state
  case pulse =>
    exact ((left.trans (yields_modPos p (fun x => { x with pulseState := some .waiting, phaseTimer := none }) (fun _ => rfl) _)).trans (yields_sendValve p _)).trans (yields_drawRequest ..)
  case ramp =>
    have asked := (left.trans (yields_endSegment p .bankWithdrawn _)).trans (yields_drawRequest p .ramp none _)
    exact yields_ite _ asked (asked.trans (yields_enterHold p .bank _))
  all_goals exact left

theorem yields_tellBankLeft (b : BankId) (old : Bank) (s : State) : Yields s (tellBankLeft b old s) := by
  unfold tellBankLeft
  split
  · exact (yields_withdrawPosition _ s).trans (yields_dequeue b _)
  · exact ((yields_postDirective s _ _).trans (yields_loseBank _ _)).trans (yields_dequeue b _)
  · exact yields_dequeue b s

theorem queued_iff : s.queued b = true ↔ ∃ e ∈ s.queue, e.bank = b := by
  simp [State.queued]

theorem queued_false : s.queued b = false ↔ ∀ e ∈ s.queue, e.bank ≠ b := by
  simp [State.queued]

theorem dequeue_queued (b : BankId) (s : State) : (dequeue b s).queued b = false := by
  unfold dequeue
  split
  · refine queued_false.2 fun e he => ?_
    have left := (yields_matchQueue 2 _).queue e he
    simpa using (List.mem_filter.1 left).2
  next h => simpa using h

theorem tellBankLeft_queued (b : BankId) (old : Bank) (s : State) : (tellBankLeft b old s).queued b = false := by
  unfold tellBankLeft
  split <;> exact dequeue_queued b _

/-- R67: what a bank that leaves service leaves. -/
theorem bankLeaves_leaves {st : BankState} (hst : st ≠ .idle) (b : BankId) (s : State) :
    OutOfService b st (bankLeaves b st s) ∧
    ∀ p, (s.bank b).state = .drawing → (s.bank b).holder = some (.pos p) → ((bankLeaves b st s).pos p).bank ≠ some b := by
  have bank := vacateBank_bank b st s
  have busy : ((vacateBank b st s).bank b).state ≠ .idle := by rw [bank]; exact hst
  have told := yields_tellBankLeft b (s.bank b) (vacateBank b st s)
  have kept := (told.bank b busy).trans bank
  refine ⟨⟨?_, ?_, tellBankLeft_queued b _ _⟩, fun p hd hp h => ?_⟩
  · exact congrArg Bank.state kept
  · exact congrArg Bank.holder kept
  · rcases told.taken p b h with h | h
    · unfold vacateBank at h
      dsimp only at h
      simp only [hd, hp, State.modPos_pos] at h
      cases h
    · exact busy h

theorem outOfService_trails {st : BankState} (h : OutOfService b st s) (k : Trails s t) : OutOfService b st t :=
  ⟨by rw [k.bank]; exact h.state, by rw [k.bank]; exact h.holder, by rw [State.queued, k.queue]; exact h.queue⟩

/-! ### The three ways out of service -/

theorem forBank_byteOf (b : BankId) (f : BankId → State → State × Answer) (s : State) :
    forBank (byteOf b.val) f s = f b s := by
  unfold forBank
  rw [idOf_byteOf (by decide)]

@[simp] theorem dropFrame_bank (n : PortId) (b : BankId) (s : State) : (dropFrame n s).bank b = s.bank b := rfl

/-- The causes of a bank grow: it leaves service, or is told of where it is out of it. -/
theorem causesGrown_out (h : (s.bank b).state = .offline ∨ (s.bank b).state = .locked) :
    causesGrown b s = postBankState b s := by
  unfold causesGrown
  rcases h with h | h <;> rw [h]

theorem causesGrown_in (h : ¬ ((s.bank b).state = .offline ∨ (s.bank b).state = .locked)) :
    causesGrown b s = bankLeaves b .locked s := by
  unfold causesGrown
  cases hs : (s.bank b).state with
  | offline => exact absurd (.inl hs) h
  | locked => exact absurd (.inr hs) h
  | idle => rfl
  | drawing => rfl
  | refilling => rfl

theorem postBankState_dropFrame (b : BankId) (n : PortId) (s : State) :
    postBankState b (dropFrame n s) = dropFrame n (postBankState b s) := postNotice_dropFrame ..

theorem postBankState_evt (b : BankId) (s : State) : (postBankState b s).evt = s.evt := postNotice_evt ..

/-- A request by which a bank leaves service. -/
theorem completes_bankLeaves {i : Instr} {kind : Byte} {args : List Byte} {st : BankState} {e : State}
    {owner : State → State × Answer} (hst : st ≠ .idle) (hx : exec i s = .next (takeRequest kind n args owner s))
    (hb : requestBody i = some (n, kind :: args)) (hs : screen n kind args = none) (h : Standing i s)
    (ho : owner (dropFrame n s) = (bankLeaves b st (dropFrame n e), .accepted [] none))
    (hstate : (e.bank b).state = (s.bank b).state) (hholder : (e.bank b).holder = (s.bank b).holder) :
    Completes i s none e (fun data t => data = [] ∧ OutOfService b st t ∧
      ∀ p, (s.bank b).state = .drawing → (s.bank b).holder = some (.pos p) → (t.pos p).bank ≠ some b) := by
  obtain ⟨out, left⟩ := bankLeaves_leaves hst b (dropFrame n e)
  have trails := trails_answered n kind args (.accepted [] none) (bankLeaves b st (dropFrame n e))
  refine completes_intro hx hb hs h ho (steady_bankLeaves ..) ⟨rfl, outOfService_trails out trails, fun p hd hp => ?_⟩
  rw [trails.pos]
  exact left p (hstate.trans hd) (hholder.trans hp)

/-- Settles O30: each of the three takes the bank out of service where it is in it. -/
theorem bankLeavesServiceResult : Obligations.BankLeavesServiceResult := by
  refine ⟨?_, ?_, fun s b hq => ?_⟩
  · rintro s b c rfl h
    dsimp only
    by_cases ho : (s.bank b).state = .offline
    · rw [if_pos ho]
      exact accepts_intro rfl rfl (screen_passes rfl (by simp) rfl) h ((forBank_byteOf ..).trans (if_pos ho)) h.evt
    · rw [if_neg ho]
      exact completes_bankLeaves BankState.noConfusion rfl rfl (screen_passes rfl (by simp) rfl) h
        ((forBank_byteOf ..).trans (if_neg ho)) (by simp) (by simp)
  · rintro s b c rfl h
    dsimp only
    by_cases hl : (s.bank b).causes.plantLock = true
    · rw [if_pos hl]
      exact accepts_intro rfl rfl (screen_passes rfl (by simp) rfl) h ((forBank_byteOf ..).trans (if_pos hl)) h.evt
    · rw [if_neg hl]
      have owner : forBank (byteOf b.val) lockBank (dropFrame plantPort s) = (causesGrown b (dropFrame plantPort
          (s.setBank b { s.bank b with causes := { (s.bank b).causes with plantLock := true } })), .accepted [] none) :=
        (forBank_byteOf ..).trans (if_neg hl)
      by_cases hout : (s.bank b).state = .offline ∨ (s.bank b).state = .locked
      · rw [if_pos hout]
        rw [causesGrown_out (by simpa using hout), postBankState_dropFrame] at owner
        exact accepts_intro rfl rfl (screen_passes rfl (by simp) rfl) h owner ((postBankState_evt ..).trans h.evt)
      · rw [if_neg hout]
        rw [causesGrown_in (by simpa using hout)] at owner
        exact completes_bankLeaves BankState.noConfusion rfl rfl (screen_passes rfl (by simp) rfl) h owner (by simp) (by simp)
  · dsimp only
    by_cases hd : (s.bank b).staleWatch = some 0
    · rw [if_neg (not_not.2 hd)]
      have due : due (s.bank b).staleWatch = true := (due_iff _).2 hd
      obtain ⟨f, effect, hf⟩ : ∃ f, effectOf (.bankStaleWatchExpiry b) = some f ∧ f s = bankStale b s :=
        ⟨_, rfl, if_pos due⟩
      have runs : bankStale b s = if (s.bank b).causes.stale = true then
            s.setBank b { s.bank b with staleWatch := none, causes := { (s.bank b).causes with stale := true } }
          else causesGrown b
            (s.setBank b { s.bank b with staleWatch := none, causes := { (s.bank b).causes with stale := true } }) := rfl
      rw [runs] at hf
      by_cases hs : (s.bank b).causes.stale = true
      · rw [if_pos hs] at hf ⊢
        exact takes_intro (exec_effect effect s) hq hf hq.between
      · rw [if_neg hs] at hf ⊢
        by_cases hout : (s.bank b).state = .offline ∨ (s.bank b).state = .locked
        · rw [if_pos hout]
          rw [causesGrown_out (by simpa using hout)] at hf
          exact takes_intro (exec_effect effect s) hq hf ((postBankState_evt ..).trans hq.between)
        · rw [if_neg hout]
          rw [causesGrown_in (by simpa using hout)] at hf
          obtain ⟨out, left⟩ := bankLeaves_leaves (st := .locked) BankState.noConfusion b
            (s.setBank b { s.bank b with staleWatch := none, causes := { (s.bank b).causes with stale := true } })
          refine brings_intro (exec_effect effect s) hq.serving ?_ ?_ <;> rw [hf]
          · exact steady_bankLeaves ..
          · refine ⟨outOfService_trails out (trails_endEvent _), fun p hd hp => ?_⟩
            rw [(trails_endEvent _).pos]
            exact left p (by simpa using hd) (by simpa using hp)
    · rw [if_pos hd]
      exact takes_nothing rfl hq (if_neg (by rw [due_iff]; exact hd))

end Sys2Proof.Machine
end

section
/-! SUPPORT. A fill whose bank leaves service asks for another (R19, R22, R67, R68, R70). -/

namespace Sys2Proof.Machine

variable {p q : PosId} {b c : BankId} {n : PortId} {s t u : State}

/-! ### The tests of R68 read state, report and configuration -/

/-- Two states whose banks, windows and margin look alike to a request. -/
structure Alike (s t : State) : Prop where
  state : ∀ c, (t.bank c).state = (s.bank c).state
  report : ∀ c, (t.bank c).report = (s.bank c).report
  config : ∀ c, (t.bank c).config = (s.bank c).config
  windows : t.windows = s.windows
  margin : t.margin = s.margin
  plantLost : t.evt.plantLost = s.evt.plantLost

theorem Alike.eligible (h : Alike s t) (hp : (t.pos p).pressure = (s.pos p).pressure) (k : DrawKind) (x : Option BankId) :
    eligible t p k x = eligible s p k x := by
  have window (tier : Tier) : t.window tier = s.window tier := by cases tier <;> simp [State.window, h.windows]
  funext c
  unfold Machine.eligible heldPressure
  simp only [h.state, h.report, h.config, h.margin, h.plantLost, hp, window]

theorem Alike.bestBank (h : Alike s t) (hp : (t.pos p).pressure = (s.pos p).pressure) (k : DrawKind) (x : Option BankId) :
    bestBank t p k x = bestBank s p k x := by
  have before : bankBefore t = bankBefore s := by
    funext a c
    unfold bankBefore
    simp only [h.report, h.config]
  unfold Machine.bestBank
  simp only [h.eligible hp, before]

/-! ### The withdrawal of a fill -/

/-- A position whose bank is gone. -/
def Position.unbanked (x : Position) : Position := { x with bank := none }

/-- A position whose pulse lost its bank. -/
def Position.unpulsed (x : Position) : Position := { x with bank := none, pulseState := some .waiting, phaseTimer := none }

theorem spares_withdrawPosition (h : q ≠ p) : Spares q s (withdrawPosition p s) := by
  have left : Spares q s (s.modPos p (fun x => { x with bank := none })) := spares_modPos h _
  unfold withdrawPosition
  dsimp only
  cases (s.pos p).state
  case pulse =>
    exact ((left.trans (spares_modPos h (fun x => { x with pulseState := some .waiting, phaseTimer := none }))).trans
      (spares_sendValve p)).trans (spares_drawRequest h _ _)
  case ramp =>
    have asked := (left.trans (spares_endSegment h .bankWithdrawn)).trans (spares_drawRequest h .ramp none)
    dsimp only
    split
    · exact asked
    · exact asked.trans (spares_enterHold h .bank)
  all_goals exact left

/-- The bank of a fill that leaves service. -/
theorem vacateBank_drawn {st : BankState} (hd : (s.bank b).state = .drawing) (hp : (s.bank b).holder = some (.pos p)) :
    ∃ x, vacateBank b st s = ({ s.setBank b { s.bank b with state := st, holder := none } with ports := x } : State).modPos p
      (fun x => { x with bank := none }) := by
  obtain ⟨x, e, -⟩ := moveBank_busy (s := s) (b := b) (by rw [hd]; decide) st none
  refine ⟨x, ?_⟩
  unfold vacateBank
  dsimp only
  simp only [hd, hp, e]
  rfl

theorem bankLeaves_drawn {st : BankState} (hd : (s.bank b).state = .drawing) (hp : (s.bank b).holder = some (.pos p))
    (hq : ∀ e ∈ s.queue, e.bank ≠ b) : bankLeaves b st s = withdrawPosition p (vacateBank b st s) := by
  have told : bankLeaves b st s = dequeue b (withdrawPosition p (vacateBank b st s)) := by
    unfold bankLeaves tellBankLeft
    simp only [hd, hp]
  have vacated : (vacateBank b st s).queue = s.queue := by
    obtain ⟨x, e⟩ := vacateBank_drawn (st := st) hd hp
    rw [e]
    rfl
  have free : (withdrawPosition p (vacateBank b st s)).queued b = false :=
    queued_false.2 fun e he => hq e (vacated ▸ (yields_withdrawPosition p _).queue e he)
  rw [told]
  exact if_neg (by simp [free])

theorem withdrawPosition_ramp (h : (s.pos p).state = .ramp) :
    withdrawPosition p s = asks p none (endSegment p .bankWithdrawn (s.modPos p Position.unbanked)) := by
  unfold withdrawPosition
  simp only [h]
  rfl

theorem withdrawPosition_pulse (h : (s.pos p).state = .pulse) : withdrawPosition p s =
    drawRequest p .pulse none (sendValve p (s.modPos p Position.unpulsed)) := by
  have twice : (s.modPos p Position.unbanked).modPos p (fun x => { x with pulseState := some .waiting, phaseTimer := none }) =
      s.modPos p Position.unpulsed := by
    rw [State.modPos, State.modPos_pos, State.modPos, State.setPos_setPos]
    rfl
  unfold withdrawPosition
  simp only [h]
  exact congrArg (fun u => drawRequest p .pulse none (sendValve p u)) twice

/-- What a fill that lost its bank asks with: no bank, and the tests of R68 as they were at the loss. -/
structure Lost (p : PosId) (b : BankId) (st : BankState) (s z : State) : Prop where
  pos : z.pos p = { s.pos p with bank := none }
  chan : z.chan p = s.chan p
  drawList : z.drawList = s.drawList
  clock : z.clock = s.clock
  best : ∀ k, bestBank z p k none = bestBank (s.setBank b { s.bank b with state := st, holder := none }) p k none

theorem lost_vacated {st : BankState} (hd : (s.bank b).state = .drawing) (hp : (s.bank b).holder = some (.pos p)) :
    Lost p b st s (vacateBank b st s) := by
  obtain ⟨x, e⟩ := vacateBank_drawn (st := st) hd hp
  rw [e]
  refine ⟨State.modPos_pos .., rfl, rfl, rfl, fun k => ?_⟩
  refine bestBank_congr p k none rfl rfl rfl rfl ?_
  rw [State.modPos_pos]
  rfl

/-- What leaves the position, the banks and the lists leaves what it asks with. -/
theorem Lost.later {st : BankState} {z' : State} (h : Lost p b st s z) (hp : z'.pos p = z.pos p) (hc : z'.chan p = z.chan p)
    (hr : z' = { z with positions := z'.positions, channels := z'.channels, ports := z'.ports, work := z'.work, groups := z'.groups }) :
    Lost p b st s z' := by
  refine ⟨hp.trans h.pos, hc.trans h.chan, ?_, ?_, fun k => ?_⟩
  · rw [hr]; exact h.drawList
  · rw [hr]; exact h.clock
  · refine Eq.trans (bestBank_congr p k none ?_ ?_ ?_ ?_ (by rw [hp])) (h.best k) <;> rw [hr]

/-- What a request for a bank to flow on leaves, by the bank it finds. -/
def RampAsked (p : PosId) (found : Option BankId) (s t : State) : Prop :=
  match found with
  | some a => t.pos p = (s.pos p).flowing a ∧ (t.bank a).holder = some (.pos p) ∧
      Directed t (islandPort p) (.valve p (.flow a ((s.pos p).ramp.pSet.getD 0)) ((s.pos p).flowing a).directiveLane)
  | none => t.pos p = (s.pos p).unbanked.heldFor .bank ∧ t.chan p = (s.chan p).held ∧
      t.drawList = s.drawList.filter (fun w => w.pos != p) ++ [⟨p, .ramp, s.clock, none⟩] ∧
      Directed t (islandPort p) (.valve p .closed none)

/-- What a request for a bank to pulse on leaves, by the bank it finds. -/
def PulseAsked (p : PosId) (found : Option BankId) (s t : State) : Prop :=
  match found with
  | some a => t.pos p = (s.pos p).pulsing a ∧ (t.bank a).holder = some (.pos p)
  | none => t.pos p = (s.pos p).unpulsed ∧
      t.drawList = s.drawList.filter (fun w => w.pos != p) ++ [⟨p, .pulse, s.clock, none⟩] ∧
      Directed t (islandPort p) (.valve p .closed none)

theorem RampAsked.trails {found : Option BankId} (h : RampAsked p found s t) (k : Trails t u) : RampAsked p found s u := by
  unfold RampAsked at h ⊢
  cases found with
  | some a =>
    obtain ⟨pos, holder, sent⟩ := h
    exact ⟨(k.pos p).trans pos, by rw [k.bank]; exact holder, (k.directed _ _).2 sent⟩
  | none =>
    obtain ⟨pos, chan, list, sent⟩ := h
    exact ⟨(k.pos p).trans pos, (k.chan p).trans chan, k.drawList.trans list, (k.directed _ _).2 sent⟩

theorem PulseAsked.trails {found : Option BankId} (h : PulseAsked p found s t) (k : Trails t u) : PulseAsked p found s u := by
  unfold PulseAsked at h ⊢
  cases found with
  | some a =>
    obtain ⟨pos, holder⟩ := h
    exact ⟨(k.pos p).trans pos, by rw [k.bank]; exact holder⟩
  | none =>
    obtain ⟨pos, list, sent⟩ := h
    exact ⟨(k.pos p).trans pos, k.drawList.trans list, (k.directed _ _).2 sent⟩

/-- A fill in RAMP that lost its bank flows on another, or is held for one. -/
theorem lost_ramp {st : BankState} {z : State} (h : Lost p b st s z) (hr : (s.pos p).state = .ramp) :
    RampAsked p (bestBank (s.setBank b { s.bank b with state := st, holder := none }) p .ramp none) s (asks p none z) := by
  have ramp : (z.pos p).state = .ramp := by rw [h.pos]; exact hr
  have leaves := asks_leaves ramp (by rw [h.pos]) none
  rw [h.best] at leaves
  cases hbest : bestBank (s.setBank b { s.bank b with state := st, holder := none }) p .ramp none with
  | some a =>
    rw [hbest] at leaves
    dsimp only at leaves
    rw [leaves]
    obtain ⟨pos, holder, sent, -⟩ := grantBank_ramp ramp a
    rw [h.pos] at pos sent
    exact ⟨pos, holder, sent⟩
  | none =>
    rw [hbest] at leaves
    dsimp only at leaves
    rw [leaves]
    refine ⟨(enterHold_pos p .bank _).trans (congrArg (Position.heldFor .bank) h.pos), ?_, ?_, enterHold_directed (by exact ramp) _⟩
    · exact (enterHold_chan p .bank _).trans (congrArg Channel.held h.chan)
    · obtain ⟨y, w, g, e⟩ := enterHold_eq p .bank
        { z with drawList := z.drawList.filter (fun w => w.pos != p) ++ [⟨p, .ramp, z.clock, none⟩] }
      rw [e, ← h.drawList, ← h.clock]
      rfl

/-- A pulse that lost its bank pulses on another, or waits. -/
theorem lost_pulse {st : BankState} {v : State} (h : Lost p b st s v) (hp : (s.pos p).state = .pulse) :
    PulseAsked p (bestBank (s.setBank b { s.bank b with state := st, holder := none }) p .pulse none) s
      (withdrawPosition p v) := by
  rw [withdrawPosition_pulse (by rw [h.pos]; exact hp)]
  have here : (v.modPos p Position.unpulsed).pos p = (s.pos p).unpulsed := by
    rw [State.modPos_pos, h.pos]
    rfl
  have picture : (s.pos p).unpulsed.picture = .closed := by simp [Position.picture, Position.unpulsed, hp]
  have sent := sendValve_directed p (v.modPos p Position.unpulsed)
  rw [here, picture, Position.directiveLane, picture] at sent
  generalize hw : sendValve p (v.modPos p Position.unpulsed) = w at *
  have pos : w.pos p = (s.pos p).unpulsed := by rw [← here, ← hw]; rfl
  have rest : w = { v with positions := w.positions, ports := w.ports } := by rw [← hw]; rfl
  have best : bestBank w p .pulse none =
      bestBank (s.setBank b { s.bank b with state := st, holder := none }) p .pulse none := by
    refine Eq.trans (bestBank_congr p .pulse none ?_ ?_ ?_ ?_ (by rw [pos, h.pos]; rfl)) (h.best .pulse) <;> rw [rest]
  have asks := drawRequest_pulse (s := w) (p := p) (by rw [pos]; exact hp)
  rw [best] at asks
  cases hb : bestBank (s.setBank b { s.bank b with state := st, holder := none }) p .pulse none with
  | some a =>
    rw [hb] at asks
    obtain ⟨here, -, holder, -⟩ := asks
    exact ⟨here.trans (by rw [pos]; rfl), holder⟩
  | none =>
    rw [hb] at asks
    obtain ⟨here, list⟩ := asks
    refine ⟨here.trans pos, list.trans ?_, ?_⟩
    · rw [← h.drawList, ← h.clock, rest]
    · unfold drawRequest
      rw [best, hb]
      exact sent

/-- A wait list that does not name a position. -/
theorem filter_away {l : List DrawWait} (h : ∀ w ∈ l, w.pos ≠ p) : l.filter (fun w => w.pos != p) = l :=
  List.filter_eq_self.2 fun w hw => by simpa using h w hw

theorem asked_ramp {st : BankState} (hd : (s.bank b).state = .drawing) (hp : (s.bank b).holder = some (.pos p))
    (hr : (s.pos p).state = .ramp) : ∃ z, Lost p b st s z ∧ withdrawPosition p (vacateBank b st s) = asks p none z := by
  have lost := lost_vacated (st := st) hd hp
  have left : Lost p b st s ((vacateBank b st s).modPos p Position.unbanked) := by
    refine lost.later ?_ rfl rfl
    rw [State.modPos_pos, lost.pos]
    rfl
  refine ⟨_, ?_, withdrawPosition_ramp (by rw [lost.pos]; exact hr)⟩
  generalize (vacateBank b st s).modPos p Position.unbanked = v at *
  obtain ⟨w, e⟩ := endSegment_eq p .bankWithdrawn v
  rw [e]
  exact left.later rfl rfl rfl

/-- What becomes of a fill whose bank leaves service. -/
theorem bankLeaves_asks {st : BankState} (hd : (s.bank b).state = .drawing) (hp : (s.bank b).holder = some (.pos p))
    (hq : ∀ e ∈ s.queue, e.bank ≠ b) :
    (∀ q, q ≠ p → (bankLeaves b st s).pos q = s.pos q ∧ (bankLeaves b st s).chan q = s.chan q) ∧
    ((s.pos p).state = .ramp → RampAsked p
      (bestBank (s.setBank b { s.bank b with state := st, holder := none }) p .ramp none) s (bankLeaves b st s)) ∧
    ((s.pos p).state = .pulse → PulseAsked p
      (bestBank (s.setBank b { s.bank b with state := st, holder := none }) p .pulse none) s (bankLeaves b st s)) := by
  rw [bankLeaves_drawn hd hp hq]
  refine ⟨fun q hqp => ?_, fun hr => ?_, fun hr => lost_pulse (lost_vacated hd hp) hr⟩
  · have spared := spares_withdrawPosition (s := vacateBank b st s) hqp
    obtain ⟨x, v⟩ := vacateBank_drawn (st := st) hd hp
    rw [spared.pos, spared.chan, v, State.modPos_pos_ne _ _ _ _ hqp]
    exact ⟨rfl, rfl⟩
  · obtain ⟨z, lost, eq⟩ := asked_ramp (st := st) hd hp hr
    rw [eq]
    exact lost_ramp lost hr

/-- The banks of a request whose bank goes OFFLINE, the frame of the request and the stale watch apart. -/
theorem alike_offline {e : State} (h : e = { s with banks := e.banks }) {x : Bank} (hx : e = s.setBank b x)
    (hr : x.report = (s.bank b).report) (hc : x.config = (s.bank b).config) (n : PortId) :
    Alike (s.setBank b { s.bank b with state := .offline, holder := none })
      ((dropFrame n e).setBank b { (dropFrame n e).bank b with state := .offline, holder := none }) := by
  have here : (dropFrame n e).bank b = x := by rw [dropFrame_bank, hx, State.setBank_bank]
  have there (c : BankId) (hc : c ≠ b) : (dropFrame n e).bank c = s.bank c := by
    rw [dropFrame_bank, hx, State.setBank_bank_ne _ _ _ _ hc]
  refine ⟨fun c => ?_, fun c => ?_, fun c => ?_, by rw [h]; rfl, by rw [h]; rfl, by rw [h]; rfl⟩
  all_goals
    by_cases e' : c = b
    · subst e'
      simp only [State.setBank_bank, here, hr, hc]
    · rw [State.setBank_bank_ne _ _ _ _ e', State.setBank_bank_ne _ _ _ _ e', there c e']

/-- Settles O31: the order of R68, and the request of a fill or a pulse whose bank goes OFFLINE. -/
theorem withdrawnFillAsksAgain : Obligations.WithdrawnFillAsksAgain := by
  refine ⟨fun s p kind x h => ?_, ?_⟩
  · have calm : s.evt.plantLost = false := by rw [h]; rfl
    refine ⟨fun b => eligible_iff calm, fun b => ?_⟩
    rw [bestBank_iff]
    simp only [First, eligible_iff calm]
  · rintro s b p c rfl h hd hp hb hw hq
    dsimp only
    generalize he : s.setBank b { s.bank b with
      staleWatch := none, causes := { (s.bank b).causes with stale := false } } = e
    have bank : e.bank b = { s.bank b with
      staleWatch := none, causes := { (s.bank b).causes with stale := false } } := by rw [← he, State.setBank_bank]
    have rest : e = { s with banks := e.banks } := by rw [← he]; rfl
    have best (k : DrawKind) := (alike_offline rest he.symm rfl rfl plantPort).bestBank (p := p) (by rw [rest]; rfl) k none
    have pos : (dropFrame plantPort e).pos = s.pos := by rw [rest]; rfl
    obtain ⟨others, ramp, pulse⟩ := bankLeaves_asks (s := dropFrame plantPort e) (st := .offline) (b := b) (p := p)
      (by rw [dropFrame_bank, bank]; exact hd) (by rw [dropFrame_bank, bank]; exact hp) (by rw [rest]; exact hq)
    have owner : forBank (byteOf b.val) takeOffline (dropFrame plantPort s) =
        (bankLeaves b .offline (dropFrame plantPort e), .accepted [] none) := by
      rw [forBank_byteOf, ← he]
      exact if_neg (by rw [dropFrame_bank, hd]; decide)
    refine completes_intro rfl rfl (screen_passes rfl (by simp) rfl) h owner (steady_bankLeaves ..) ?_
    have trails := trails_answered plantPort 0x24#8 [byteOf b.val] (.accepted [] none) (bankLeaves b .offline (dropFrame plantPort e))
    rw [pos, best] at ramp pulse
    have same (q : PosId) : (dropFrame plantPort e).pos q = s.pos q := by rw [pos]
    have chan (q : PosId) : (dropFrame plantPort e).chan q = s.chan q := by rw [rest]; rfl
    have clock : (dropFrame plantPort e).clock = s.clock := by rw [rest]; rfl
    have list : (dropFrame plantPort e).drawList.filter (fun w => w.pos != p) = s.drawList := by
      rw [rest]
      exact filter_away hw
    refine ⟨fun q hqp => ?_, fun hr => ?_, fun hr => ?_⟩
    · obtain ⟨pos', chan'⟩ := others q hqp
      rw [trails.pos, trails.chan, pos', chan', same, chan]
      exact ⟨rfl, rfl⟩
    · have asked := (ramp hr).trails trails
      unfold RampAsked at asked
      rw [same, chan, list, clock] at asked
      cases hb : bestBank (s.setBank b { s.bank b with state := .offline, holder := none }) p .ramp none with
      | some a =>
        rw [hb] at asked
        obtain ⟨here, holder, sent⟩ := asked
        dsimp only
        rw [here]
        refine ⟨?_, holder, sent⟩
        rw [Position.flowing, ← hr]
      | none =>
        rw [hb] at asked
        obtain ⟨here, chan', list', sent⟩ := asked
        refine ⟨⟨here.trans ?_, chan'⟩, list', sent⟩
        rw [State.setPos_pos, Position.heldFor, if_neg (by simp [Position.unbanked, hr])]
        rfl
    · have asked := (pulse hr).trails trails
      unfold PulseAsked at asked
      rw [same, list, clock] at asked
      cases hb : bestBank (s.setBank b { s.bank b with state := .offline, holder := none }) p .pulse none with
      | some a =>
        rw [hb] at asked
        exact asked
      | none =>
        rw [hb] at asked
        exact asked

end Sys2Proof.Machine
end

section
/-! SUPPORT. What a refill assignment pass leaves (R80, R82, R84, R85). -/

namespace Sys2Proof.Machine

variable {p q : PosId} {b : BankId} {c n : CompId} {s t u : State}

/-- From `s` to `t` READY compressors take banks and entries of the refill queue, or wait: positions and channels
stand, IDLE banks at most begin to be refilled, entries leave at most for a running compressor. -/
structure Assigns (s t : State) : Prop where
  positions : t.positions = s.positions
  channels : t.channels = s.channels
  windows : t.windows = s.windows
  margin : t.margin = s.margin
  esd : t.esd = s.esd
  plantLost : t.evt.plantLost = s.evt.plantLost
  stands : ∀ c, (s.bank c).state ≠ .idle → t.bank c = s.bank c
  idle : ∀ c, (s.bank c).state = .idle → t.bank c = s.bank c ∨ (t.bank c).state = .refilling
  queue : t.queue.Sublist s.queue
  comps : ∀ n, (s.comp n).state ≠ .ready → t.comp n = s.comp n
  entries : ∀ e ∈ s.queue, (∀ x ∈ s.queue, x.bank = e.bank → x = e) → e ∈ t.queue ∨
    (t.bank e.bank).state = .refilling ∧ ∃ n, (t.comp n).entryHeld = some e ∧ (t.comp n).state = .running
  waiters : ∀ w ∈ t.drawList, ∃ v ∈ s.drawList, v.pos = w.pos ∧ v.kind = w.kind
  shrinks : Shrinks s t

theorem Assigns.refl (s : State) : Assigns s s where
  positions := rfl
  channels := rfl
  windows := rfl
  margin := rfl
  esd := rfl
  plantLost := rfl
  stands _ _ := rfl
  idle _ _ := .inl rfl
  queue := .refl _
  comps _ _ := rfl
  entries _ he _ := .inl he
  waiters w hw := ⟨w, hw, rfl, rfl⟩
  shrinks := .refl s

theorem Assigns.trans (h : Assigns s t) (k : Assigns t u) : Assigns s u where
  positions := k.positions.trans h.positions
  channels := k.channels.trans h.channels
  windows := k.windows.trans h.windows
  margin := k.margin.trans h.margin
  esd := k.esd.trans h.esd
  plantLost := k.plantLost.trans h.plantLost
  stands c hc := by
    have same := h.stands c hc
    exact (k.stands c (by rwa [same])).trans same
  idle c hc := by
    rcases h.idle c hc with same | refilling
    · rcases k.idle c (by rwa [same]) with again | refilling
      · exact .inl (again.trans same)
      · exact .inr refilling
    · rw [k.stands c (by rw [refilling]; decide)]
      exact .inr refilling
  queue := k.queue.trans h.queue
  comps n hn := by
    have same := h.comps n hn
    exact (k.comps n (by rwa [same])).trans same
  entries e he once := by
    rcases h.entries e he once with stays | ⟨refilling, n, held, runs⟩
    · exact k.entries e stays fun x hx => once x (h.queue.subset hx)
    · refine .inr ⟨?_, n, ?_⟩
      · rw [k.stands _ (by rw [refilling]; decide)]
        exact refilling
      · rw [k.comps n (by rw [runs]; decide)]
        exact ⟨held, runs⟩
  waiters w hw := by
    obtain ⟨v, hv, pos, kind⟩ := k.waiters w hw
    obtain ⟨x, hx, pos', kind'⟩ := h.waiters v hv
    exact ⟨x, hx, pos'.trans pos, kind'.trans kind⟩
  shrinks := h.shrinks.trans k.shrinks

theorem assigns_foldl {α : Type} (l : List α) (f : State → α → State) (hf : ∀ s a, Assigns s (f s a)) (s : State) :
    Assigns s (l.foldl f s) := by
  induction l generalizing s with
  | nil => exact .refl s
  | cons a l ih => exact (hf s a).trans (ih _)

/-- What leaves positions, channels, banks, lists and compressors. -/
structure Idles (s t : State) : Prop where
  positions : t.positions = s.positions
  channels : t.channels = s.channels
  windows : t.windows = s.windows
  margin : t.margin = s.margin
  esd : t.esd = s.esd
  plantLost : t.evt.plantLost = s.evt.plantLost
  banks : t.banks = s.banks
  queue : t.queue = s.queue
  drawList : t.drawList = s.drawList

theorem Idles.trans (h : Idles s t) (k : Idles t u) : Idles s u :=
  ⟨k.positions.trans h.positions, k.channels.trans h.channels, k.windows.trans h.windows, k.margin.trans h.margin,
    k.esd.trans h.esd, k.plantLost.trans h.plantLost, k.banks.trans h.banks, k.queue.trans h.queue,
    k.drawList.trans h.drawList⟩

theorem Idles.assigns (h : Idles s t) (hc : ∀ n, (s.comp n).state ≠ .ready → t.comp n = s.comp n) : Assigns s t where
  positions := h.positions
  channels := h.channels
  windows := h.windows
  margin := h.margin
  esd := h.esd
  plantLost := h.plantLost
  stands c _ := by rw [State.bank, h.banks]; rfl
  idle c _ := .inl (by rw [State.bank, h.banks]; rfl)
  queue := h.queue ▸ .refl _
  comps := hc
  entries e he _ := .inl (h.queue ▸ he)
  waiters w hw := ⟨w, h.drawList ▸ hw, rfl, rfl⟩
  shrinks := shrinks_same h.drawList h.banks h.windows h.margin h.plantLost fun q => by rw [State.pos, h.positions]; rfl

section
variable (s : State)

theorem Idles.refl : Idles s s := ⟨rfl, rfl, rfl, rfl, rfl, rfl, rfl, rfl, rfl⟩

theorem idles_budgetChanged (k : CoolingCause) : Idles s (budgetChanged k s) :=
  ⟨rfl, rfl, rfl, rfl, rfl, rfl, rfl, rfl, rfl⟩

theorem idles_setGrant (r : Requester) (g : Nat) : Idles s (setGrant r g s) := by
  cases r <;> exact ⟨rfl, rfl, rfl, rfl, rfl, rfl, rfl, rfl, rfl⟩

end

/-! ### A compressor served (R85) -/

/-- A compressor that fills a bank. -/
def Compressor.filling (e : QueueEntry) (now : Clock) (x : Compressor) : Compressor :=
  { x with requestTime := none, state := .running, bank := some e.bank, entryHeld := some e, refillStart := some now }

/-- A bank that a compressor fills. -/
def Bank.filledBy (c : CompId) (x : Bank) : Bank := { x with state := .refilling, holder := some (.comp c) }

/-- The notices that wait without that of a compressor. -/
def Scratch.told (c : CompId) (x : Scratch) : Scratch := { x with waitNotices := x.waitNotices.filter (fun d => d != c) }

theorem flushWaitNotice_eq (c : CompId) (s : State) : ∃ x v, flushWaitNotice c s = { s with ports := x, evt := v } ∧
    (v = s.evt ∨ v = s.evt.told c) := by
  unfold flushWaitNotice
  split
  · obtain ⟨x, e, -⟩ := postNotice_eq_ports .compressorState c.val (compData c .coolingWait (dropWaitNotice c s))
      [plantPort] (dropWaitNotice c s)
    exact ⟨x, _, e, .inr rfl⟩
  · exact ⟨s.ports, s.evt, rfl, .inl rfl⟩

/-- A compressor served with a bank to fill. -/
theorem startRefill_takes {e : QueueEntry} (hf : s.queue.find? (assignable s) = some e) : ∃ l x,
    startRefill c s = ({ (s.setBank e.bank ((s.bank e.bank).filledBy c)).setComp c ((s.comp c).filling e s.clock) with
      queue := s.queue.filter (fun q => q.bank != e.bank), drawList := l, ports := x, evt := s.evt.told c }, false) ∧
    ∀ w ∈ l, ∃ v ∈ s.drawList, v.pos = w.pos ∧ v.kind = w.kind ∧
      (v.excluded = w.excluded ∨ v.excluded = some e.bank ∧ w.excluded = none) := by
  have found : (s.modComp c (fun x => { x with requestTime := none })).queue.find?
      (assignable (s.modComp c (fun x => { x with requestTime := none }))) = some e := hf
  obtain ⟨l, x, moved, -, -⟩ := moveBank_eq e.bank .refilling (some (.comp c))
    (dropWaitNotice c (s.modComp c (fun x => { x with requestTime := none })))
  have waiters (w : DrawWait) (hw : w ∈ l) : ∃ v ∈ s.drawList, v.pos = w.pos ∧ v.kind = w.kind ∧
      (v.excluded = w.excluded ∨ v.excluded = some e.bank ∧ w.excluded = none) := by
    obtain ⟨v, hv, pos, kind, excluded⟩ := moveBank_waiter (w := w) (s := dropWaitNotice c (s.modComp c _))
      (b := e.bank) (st := .refilling) (h := some (.comp c)) (by rw [moved]; exact hw)
    exact ⟨v, hv, pos, kind, excluded.imp_right (·.2)⟩
  unfold startRefill
  dsimp only
  rw [found]
  dsimp only
  rw [moved]
  obtain ⟨y, posted, -⟩ := postNotice_eq_ports .compressorState c.val (compData c .started _) [plantPort] _
  refine ⟨l, y, Prod.ext (posted.trans ?_) rfl, waiters⟩
  simp [State.modComp, State.modBank, State.setComp, State.setBank, State.comp, State.bank, postDirective, State.modPort,
    State.setPort, dropWaitNotice, Compressor.filling, Bank.filledBy, Scratch.told]

/-- A compressor served with no bank to fill. -/
theorem startRefill_returns (hf : s.queue.find? (assignable s) = none) : ∃ x v,
    startRefill c s = ({ (setGrant (.comp c) 0 s).setComp c { s.comp c with requestTime := none, state := .ready } with
      ports := x, evt := v }, true) ∧ v.plantLost = s.evt.plantLost := by
  have found : (s.modComp c (fun x => { x with requestTime := none })).queue.find?
      (assignable (s.modComp c (fun x => { x with requestTime := none }))) = none := hf
  obtain ⟨x, v, flushed, hv⟩ := flushWaitNotice_eq c (s.modComp c (fun x => { x with requestTime := none }))
  have lost : v.plantLost = s.evt.plantLost := by
    rcases hv with rfl | rfl <;> rfl
  unfold startRefill
  dsimp only
  rw [found]
  dsimp only
  rw [flushed]
  obtain ⟨y, posted, -⟩ := postNotice_eq_ports .compressorState c.val (compData c .coolingWait _) [plantPort] _
  refine ⟨y, (budgetChanged .release { s with evt := v }).evt, Prod.ext (posted.trans ?_) rfl, lost⟩
  simp [State.modComp, State.setComp, State.comp, setGrant, State.setGrantOf, State.grantOf, budgetChanged]

theorem assignable_idle {e : QueueEntry} : assignable s e = true ↔ (s.bank e.bank).state = .idle := by simp [assignable]

theorem assigns_takes {e : QueueEntry} {l : List DrawWait} {x : Vector Port 6} {v : Scratch}
    (hf : s.queue.find? (assignable s) = some e) (hc : (s.comp c).state = .ready) (hv : v.plantLost = s.evt.plantLost)
    (hl : ∀ w ∈ l, ∃ v ∈ s.drawList, v.pos = w.pos ∧ v.kind = w.kind ∧
      (v.excluded = w.excluded ∨ v.excluded = some e.bank ∧ w.excluded = none)) :
    Assigns s { (s.setBank e.bank ((s.bank e.bank).filledBy c)).setComp c ((s.comp c).filling e s.clock) with
      queue := s.queue.filter (fun q => q.bank != e.bank), drawList := l, ports := x, evt := v } := by
  have idle := assignable_idle.1 (List.find?_some hf)
  have mem := List.mem_of_find?_eq_some hf
  have filled : (({ (s.setBank e.bank ((s.bank e.bank).filledBy c)).setComp c ((s.comp c).filling e s.clock) with
      queue := s.queue.filter (fun q => q.bank != e.bank), drawList := l, ports := x, evt := v } : State).bank e.bank).state =
      .refilling := by
    simp [State.bank, State.setComp, State.setBank, Bank.filledBy]
  have banks (a : BankId) (ha : a ≠ e.bank) :
      ({ (s.setBank e.bank ((s.bank e.bank).filledBy c)).setComp c ((s.comp c).filling e s.clock) with
        queue := s.queue.filter (fun q => q.bank != e.bank), drawList := l, ports := x, evt := v } : State).bank a = s.bank a :=
    State.setBank_bank_ne _ _ _ _ ha
  refine ⟨rfl, rfl, rfl, rfl, rfl, hv, fun a ha => banks a ?_, fun a ha => ?_, List.filter_sublist, fun n hn => ?_,
    fun q hq once => ?_, fun w hw => ?_, ?_⟩
  · rintro rfl
    exact ha idle
  · by_cases h : a = e.bank
    · subst h
      exact .inr filled
    · exact .inl (banks a h)
  · refine State.setComp_comp_ne _ _ _ _ ?_
    rintro rfl
    exact hn hc
  · by_cases h : q.bank = e.bank
    · obtain rfl : e = q := once e mem h.symm
      exact .inr ⟨filled, c, by simp [State.comp, State.setComp, State.setBank, Compressor.filling]⟩
    · exact .inl (List.mem_filter.2 ⟨hq, by simpa using h⟩)
  · obtain ⟨v, hv, pos, kind, -⟩ := hl w hw
    exact ⟨v, hv, pos, kind⟩
  · exact shrinks_of e.bank (by rw [filled]; decide) banks rfl rfl hv (fun q => rfl) hl

/-- A compressor with its full demand, before it has a bank (R113). -/
def State.serving (s : State) (c : CompId) : State :=
  setGrant (.comp c) (s.grantOf (.comp c)).demand (budgetChanged .served s)

/-- A compressor at the tail of the cooling wait list (R84, R113). -/
def State.queueing (s : State) (c : CompId) : State :=
  let t := budgetChanged .request s
  let t := { t with cooling := { t.cooling with wait := t.cooling.wait ++ [(⟨.comp c, t.clock⟩ : CoolWait)] } }
  let t := t.modComp c (fun x => { x with state := .coolingWait, requestTime := some t.clock })
  { t with evt := { t.evt with waitNotices := t.evt.waitNotices ++ [c] } }

/-- The compressor may have its demand at once (R113). -/
def State.fits (s : State) (c : CompId) : Bool :=
  s.cooling.wait.isEmpty && decide ((s.grantOf (.comp c)).demand ≤ s.freeCapacity)

theorem compressorAsks_eq (c : CompId) (s : State) :
    compressorAsks c s = if s.fits c then (startRefill c (s.serving c)).1 else s.queueing c := rfl

theorem serving_idles (s : State) (c : CompId) : Idles s (s.serving c) :=
  (idles_budgetChanged s _).trans (idles_setGrant _ _ _)

theorem serving_comps (s : State) (c : CompId) : (s.serving c).comps = s.comps := rfl

theorem queueing_idles (s : State) (c : CompId) : Idles s (s.queueing c) := ⟨rfl, rfl, rfl, rfl, rfl, rfl, rfl, rfl, rfl⟩

theorem queueing_comp (s : State) (c : CompId) :
    (s.queueing c).comp c = { s.comp c with state := .coolingWait, requestTime := some s.clock } :=
  State.modComp_comp s c (fun x => { x with state := .coolingWait, requestTime := some s.clock })

theorem queueing_comp_ne (s : State) (h : n ≠ c) : (s.queueing c).comp n = s.comp n :=
  State.modComp_comp_ne s c n (fun x => { x with state := .coolingWait, requestTime := some s.clock }) h

/-- A compressor that asks while an entry can be assigned takes one where its demand fits. -/
theorem compressorAsks_takes (hq : ∃ e ∈ s.queue, assignable s e = true) (h : s.fits c = true) :
    ∃ e l x, (s.serving c).queue.find? (assignable (s.serving c)) = some e ∧
    compressorAsks c s = { ((s.serving c).setBank e.bank (((s.serving c).bank e.bank).filledBy c)).setComp c
        (((s.serving c).comp c).filling e (s.serving c).clock) with
      queue := (s.serving c).queue.filter (fun q => q.bank != e.bank), drawList := l, ports := x
      evt := (s.serving c).evt.told c } ∧
    ∀ w ∈ l, ∃ v ∈ (s.serving c).drawList, v.pos = w.pos ∧ v.kind = w.kind ∧
      (v.excluded = w.excluded ∨ v.excluded = some e.bank ∧ w.excluded = none) := by
  rw [compressorAsks_eq, if_pos h]
  have asked : ∃ e ∈ (s.serving c).queue, assignable (s.serving c) e = true := hq
  generalize s.serving c = u at asked
  cases hf : u.queue.find? (assignable u) with
  | none =>
    obtain ⟨e, he, ha⟩ := asked
    exact absurd ha (by simpa using List.find?_eq_none.1 hf e he)
  | some e =>
    obtain ⟨l, x, eq, waiters⟩ := startRefill_takes (c := c) hf
    exact ⟨e, l, x, rfl, by rw [eq], waiters⟩

/-- R113, R84: a READY compressor that asks while an entry can be assigned. -/
theorem assigns_compressorAsks (hc : (s.comp c).state = .ready) (hq : ∃ e ∈ s.queue, assignable s e = true) :
    Assigns s (compressorAsks c s) := by
  cases h : s.fits c with
  | true =>
    obtain ⟨e, l, x, hf, eq, waiters⟩ := compressorAsks_takes hq h
    rw [eq]
    refine ((serving_idles s c).assigns fun n _ => by rw [State.comp, serving_comps]; rfl).trans
      (assigns_takes hf ?_ rfl waiters)
    rw [State.comp, serving_comps]
    exact hc
  | false =>
    rw [compressorAsks_eq, h]
    refine (queueing_idles s c).assigns fun n hn => queueing_comp_ne s ?_
    rintro rfl
    exact hn hc

/-- It is READY no longer. -/
theorem compressorAsks_busy (hq : ∃ e ∈ s.queue, assignable s e = true) : ((compressorAsks c s).comp c).state ≠ .ready := by
  cases h : s.fits c with
  | true =>
    obtain ⟨e, l, x, hf, eq, waiters⟩ := compressorAsks_takes hq h
    rw [eq]
    simp [State.comp, State.setComp, Compressor.filling]
  | false =>
    rw [compressorAsks_eq, h]
    have waits : (if false = true then (startRefill c (s.serving c)).1 else s.queueing c) = s.queueing c := rfl
    rw [waits, queueing_comp]
    exact CompState.noConfusion

/-- The entries that could be assigned beyond those that waiting compressors will take (R84). -/
def State.backlog (s : State) : Bool := decide (s.coolingWaiters < (s.queue.filter (assignable s)).length)

/-- One compressor of a pass. -/
def asksInTurn (s : State) (c : CompId) : State :=
  if (s.comp c).state == .ready && s.backlog then compressorAsks c s else s

theorem backlog_assignable (h : s.backlog = true) : ∃ e ∈ s.queue, assignable s e = true := by
  have more := of_decide_eq_true h
  obtain ⟨e, he⟩ := List.exists_mem_of_length_pos (Nat.lt_of_le_of_lt (Nat.zero_le _) more)
  exact ⟨e, (List.mem_filter.1 he).1, (List.mem_filter.1 he).2⟩

theorem assigns_asksInTurn (c : CompId) (s : State) : Assigns s (asksInTurn s c) := by
  unfold asksInTurn
  split
  next h =>
    obtain ⟨ready, more⟩ := Bool.and_eq_true_iff.1 h
    exact assigns_compressorAsks (by simpa using ready) (backlog_assignable more)
  · exact .refl s

theorem asksInTurn_rests (s : State) (c : CompId) (hc : ((asksInTurn s c).comp c).state = .ready) :
    (asksInTurn s c).backlog = false := by
  unfold asksInTurn at hc ⊢
  cases h : (s.comp c).state == .ready && s.backlog with
  | true =>
    obtain ⟨ready, more⟩ := Bool.and_eq_true_iff.1 h
    rw [h] at hc
    exact absurd hc (compressorAsks_busy (backlog_assignable more))
  | false =>
    rw [h] at hc
    have ready : ((s.comp c).state == .ready) = true := by simpa using hc
    rw [ready] at h
    exact h

theorem assignmentPass_unlatched (h : s.esd.latched = false) : assignmentPass s = allComps.foldl asksInTurn s := by
  unfold assignmentPass
  rw [if_neg (by simp [h])]
  rfl

theorem assignmentPass_latched (h : s.esd.latched = true) : assignmentPass s = s := if_pos h

theorem assigns_assignmentPass (s : State) : Assigns s (assignmentPass s) := by
  cases h : s.esd.latched with
  | true =>
    rw [assignmentPass_latched h]
    exact .refl s
  | false =>
    rw [assignmentPass_unlatched h]
    exact assigns_foldl _ _ (fun u c => assigns_asksInTurn c u) s

/-! ### What a pass leaves to assign (R84) -/

theorem Assigns.coolingWaiters (h : Assigns s t) : s.coolingWaiters ≤ t.coolingWaiters := by
  refine (List.monotone_filter_right allComps fun c hc => ?_).length_le
  have waits : (s.comp c).state = .coolingWait := by simpa using hc
  rw [h.comps c (by rw [waits]; decide)]
  exact hc

theorem Assigns.assignable (h : Assigns s t) : (t.queue.filter (assignable t)).length ≤ (s.queue.filter (assignable s)).length := by
  have fewer : (s.queue.filter (Machine.assignable t)).length ≤ (s.queue.filter (Machine.assignable s)).length := by
    refine (List.monotone_filter_right s.queue fun e he => ?_).length_le
    have idle := assignable_idle.1 he
    refine assignable_idle.2 (Classical.byContradiction fun busy => ?_)
    rw [h.stands _ busy] at idle
    exact busy idle
  exact ((h.queue.filter _).length_le).trans fewer

theorem Assigns.backlog (h : Assigns s t) (hs : s.backlog = false) : t.backlog = false := by
  have le := of_decide_eq_false hs
  have := h.coolingWaiters
  have := h.assignable
  exact decide_eq_false (by omega)

/-- After a pass a compressor is READY only where nothing is left to assign. -/
theorem assignmentPass_rests (h : s.esd.latched = false) (n : CompId) (hn : ((assignmentPass s).comp n).state = .ready) :
    (assignmentPass s).backlog = false := by
  rw [assignmentPass_unlatched h] at hn ⊢
  have pass (l : List CompId) (u : State) (hmem : n ∈ l) (hr : ((l.foldl asksInTurn u).comp n).state = .ready) :
      (l.foldl asksInTurn u).backlog = false := by
    induction l generalizing u with
    | nil => cases hmem
    | cons c l ih =>
      rcases List.mem_cons.1 hmem with rfl | hmem
      · have later := assigns_foldl l asksInTurn (fun u c => assigns_asksInTurn c u) (asksInTurn u n)
        by_cases ready : ((asksInTurn u n).comp n).state = .ready
        · exact later.backlog (asksInTurn_rests u n ready)
        · rw [List.foldl_cons, later.comps n ready] at hr
          exact absurd hr ready
      · exact ih (asksInTurn u c) hmem hr
  exact pass allComps s (mem_allComps n) hn

end Sys2Proof.Machine
end

section
/-! SUPPORT. What a bank that comes to IDLE leaves, and BANK_UNLOCK, REFILL_REQUEST, COMPRESSOR_READY (R66, R71, R80, R81,
R83, R84). -/

namespace Sys2Proof.Machine

variable {p q : PosId} {b c : BankId} {n : PortId} {s t u : State}

/-! ### The refill queue -/

theorem mem_insertQueue (now : Clock) (e x : QueueEntry) (l : List QueueEntry) : x ∈ insertQueue now e l ↔ x = e ∨ x ∈ l := by
  rw [(insertQueue_perm now e l).mem_iff, List.mem_cons]

/-! ### A bank that comes to IDLE (R71, R80) -/

/-- Banks in service stay so, waiters gain nothing, and positions stand. -/
structure Tells (s t : State) : Prop where
  positions : t.positions = s.positions
  channels : t.channels = s.channels
  esd : t.esd = s.esd
  plantLost : t.evt.plantLost = s.evt.plantLost
  stands : ∀ c, (s.bank c).state ≠ .idle → t.bank c = s.bank c
  idle : ∀ c, (s.bank c).state = .idle → t.bank c = s.bank c ∨ (t.bank c).state = .refilling
  shrinks : Shrinks s t

theorem Tells.refl (s : State) : Tells s s := ⟨rfl, rfl, rfl, rfl, fun _ _ => rfl, fun _ _ => .inl rfl, .refl s⟩

theorem Assigns.tells (h : Assigns s t) : Tells s t :=
  ⟨h.positions, h.channels, h.esd, h.plantLost, h.stands, h.idle, h.shrinks⟩

theorem Tells.trans (h : Tells s t) (k : Tells t u) : Tells s u where
  positions := k.positions.trans h.positions
  channels := k.channels.trans h.channels
  esd := k.esd.trans h.esd
  plantLost := k.plantLost.trans h.plantLost
  stands c hc := by
    have same := h.stands c hc
    exact (k.stands c (by rwa [same])).trans same
  idle c hc := by
    rcases h.idle c hc with same | refilling
    · rcases k.idle c (by rwa [same]) with again | refilling
      · exact .inl (again.trans same)
      · exact .inr refilling
    · rw [k.stands c (by rw [refilling]; decide)]
      exact .inr refilling
  shrinks := h.shrinks.trans k.shrinks

theorem tells_queue (l : List QueueEntry) (s : State) : Tells s { s with queue := l } :=
  ⟨rfl, rfl, rfl, rfl, fun _ _ => rfl, fun _ _ => .inl rfl, shrinks_same rfl rfl rfl rfl rfl fun _ => rfl⟩

theorem tells_tellIdle (b : BankId) (s : State) : Tells s (tellIdle b s) := by
  unfold tellIdle
  split
  · exact (assigns_assignmentPass s).tells
  · split
    · split
      · exact (tells_queue _ s).trans (assigns_assignmentPass _).tells
      · exact .refl s
    · exact .refl s

theorem NoneEligible.shrinks {ok : BankId → Prop} (h : NoneEligible ok s) (k : Shrinks s t) : NoneEligible ok t := by
  intro w hw c hc
  cases he : eligible t w.pos w.kind w.excluded c with
  | false => rfl
  | true =>
    obtain ⟨v, hv, hs⟩ := k c w hw he
    rw [h v hv c hc] at hs
    cases hs

/-- A bank in service. -/
def Serving (x : Bank) : Prop := x.state ≠ .offline ∧ x.state ≠ .locked

theorem Serving.of_idle {x : Bank} (h : x.state = .idle) : Serving x := by
  rw [Serving, h]
  exact ⟨BankState.noConfusion, BankState.noConfusion⟩

theorem Tells.serving (h : Tells s t) (hb : Serving (s.bank b)) : Serving (t.bank b) := by
  by_cases idle : (s.bank b).state = .idle
  · rcases h.idle b idle with same | refilling
    · rwa [same]
    · rw [Serving, refilling]
      exact ⟨BankState.noConfusion, BankState.noConfusion⟩
  · rwa [h.stands b idle]

theorem Offers.serving (h : Offers s t) (hb : Serving (s.bank b)) : Serving (t.bank b) := by
  rcases h.offered b with same | ⟨w, -, drawing, -⟩
  · rwa [same]
  · rw [Serving, drawing]
    exact ⟨BankState.noConfusion, BankState.noConfusion⟩

/-- What a bank that came to IDLE leaves: it is in service, and where it is IDLE still it serves no waiter. -/
theorem bankIdle_leaves (b : BankId) (hb : Serving (s.bank b)) :
    Serving ((bankIdle b s).bank b) ∧ (s.esd.latched = false → NoneEligible (fun a => a = b) (bankIdle b s)) ∧
    (bankIdle b s).evt.plantLost = s.evt.plantLost := by
  have offers := offers_offerPass [b] s
  have lost : (offerPass [b] s).evt.plantLost = s.evt.plantLost := by rw [offers.rest]
  have serves (h : s.esd.latched = false) : NoneEligible (fun a => a = b) (offerPass [b] s) :=
    fun w hw a ha => offerPass_serves [b] h w hw a (by simp [ha])
  have service := offers.serving hb
  unfold bankIdle
  dsimp only
  generalize offerPass [b] s = v at *
  split
  · have told := tells_tellIdle b v
    exact ⟨told.serving service, fun h => (serves h).shrinks told.shrinks, told.plantLost.trans lost⟩
  · exact ⟨service, serves, lost⟩

theorem spares_toIdle (h : ¬ Draws s q) (b : BankId) : Spares q s (bankIdle b (moveBank b .idle none s)) :=
  Spares.trans (spares_moveBank b .idle (by simp)) (spares_bankIdle (fun d => h ((spares_moveBank b .idle (by simp)).draws d)) b)

/-- A bank comes to IDLE, whatever it was. -/
def toIdle (b : BankId) (s : State) : State := bankIdle b (moveBank b .idle none s)

theorem toIdle_steady (b : BankId) (s : State) : (toIdle b s).steady = s.steady :=
  (steady_bankIdle ..).trans (steady_moveBank ..)

theorem toIdle_leaves (b : BankId) (s : State) :
    Serving ((toIdle b s).bank b) ∧ (s.esd.latched = false → NoneEligible (fun a => a = b) (toIdle b s)) ∧
    (toIdle b s).evt.plantLost = s.evt.plantLost := by
  have moved := moveBank_bank b .idle none s
  have idle : ((moveBank b .idle none s).bank b).state = .idle := by rw [moved]
  have calm : (moveBank b .idle none s).evt = s.evt ∧ (moveBank b .idle none s).esd = s.esd := by
    obtain ⟨l, x, eq, -⟩ := moveBank_eq b .idle none s
    rw [eq]
    exact ⟨rfl, rfl⟩
  obtain ⟨serves, none, lost⟩ := bankIdle_leaves b (Serving.of_idle idle)
  rw [calm.1] at lost
  rw [calm.2] at none
  exact ⟨serves, none, lost⟩

theorem toIdle_fillsKept (b : BankId) (s : State) : FillsKept s (toIdle b s) := by
  intro q hq
  have spared := spares_toIdle (fun d => hq (.inl d)) b
  exact ⟨spared.pos, spared.chan⟩

/-- What leaves positions, channels and wait lists before a cascade. -/
theorem FillsKept.before {v : State} (h : FillsKept v t) (hp : v.positions = s.positions) (hc : v.channels = s.channels)
    (hd : v.drawList = s.drawList) (hw : v.cooling.wait = s.cooling.wait) : FillsKept s t := by
  intro q hq
  have pos : v.pos q = s.pos q := by rw [State.pos, hp]; rfl
  have chan : v.chan q = s.chan q := by rw [State.chan, hc]; rfl
  rw [← pos, ← chan]
  refine h q ?_
  rw [Waits, hd, hw]
  exact hq

/-- A request of the plant after which a bank may be IDLE. -/
theorem fillsKept_answered {kind : Byte} {args : List Byte} {a : Answer} (hf : FillsKept s u) :
    FillsKept s (endEvent (pushReply n kind args a u)) := by
  intro q hq
  have trails := trails_answered n kind args a u
  rw [trails.pos, trails.chan]
  exact hf q hq

/-! ### BANK_UNLOCK (R66) -/

theorem isEmpty_iff (c : LockCauses) : c.isEmpty = true ↔ c = ⟨false, false, false, false⟩ := by
  obtain ⟨a, b, c, d⟩ := c
  cases a <;> cases b <;> cases c <;> cases d <;> decide

/-- A bank with causes removed, its watch restarted where STALE went. -/
def Bank.unlocked (x : Bank) (named : LockCauses) : Bank :=
  { x with
    causes := x.causes.without named
    staleWatch := if x.causes.stale && named.stale && x.state != .offline then some 5000 else x.staleWatch }

theorem unlockBank_eq {code : Byte} {named : LockCauses} (hc : causesOf code = some named) (b : BankId) (s : State) :
    unlockBank code b s =
      let t := s.setBank b ((s.bank b).unlocked named)
      let u := if (s.bank b).causes.without named = (s.bank b).causes then t else causesShrunk b t
      (u, .accepted [.byte (some b.val), .byte (some (u.bank b).state.code), .bits (u.bank b).causes.bits] none) := by
  unfold unlockBank
  rw [hc]
  rfl

/-- Cascades leave report, configuration, causes and watch of a bank. -/
theorem bank_of_steady (h : t.steady = s.steady) (b : BankId) :
    (t.bank b).report = (s.bank b).report ∧ (t.bank b).config = (s.bank b).config ∧
    (t.bank b).causes = (s.bank b).causes := by
  have banks := congrArg (fun u : State => u.banks[b]) h
  have same : (t.bank b).steady = (s.bank b).steady := by simpa [State.steady, State.bank] using banks
  exact ⟨(congrArg Bank.report same :), (congrArg Bank.config same :), (congrArg Bank.causes same :)⟩

/-- Settles O32: the causes named go, and a LOCKED bank with none left comes to IDLE. -/
theorem bankUnlockResult : Obligations.BankUnlockResult := by
  rintro s b code c rfl h
  intro old left e reply
  by_cases hr : 16 ≤ code.toNat
  · rw [if_pos hr]
    exact refuses_intro rfl rfl (screen_passes rfl (by simp) rfl) h
      ((forBank_byteOf ..).trans (by simp [unlockBank, causesOf, Nat.not_lt.2 hr, refuse]))
  rw [if_neg hr]
  have named : causesOf code = some ⟨code.getLsbD 0, code.getLsbD 1, code.getLsbD 2, code.getLsbD 3⟩ :=
    if_pos (Nat.lt_of_not_le hr)
  have restarts : (old.stale && code.getLsbD 2 && (s.bank b).state != .offline) = true ↔
      old.stale = true ∧ code.getLsbD 2 = true ∧ (s.bank b).state ≠ .offline := by
    simp [and_assoc]
  have he : e = s.setBank b ((s.bank b).unlocked ⟨code.getLsbD 0, code.getLsbD 1, code.getLsbD 2, code.getLsbD 3⟩) := by
    have watch : (if old.stale = true ∧ code.getLsbD 2 = true ∧ (s.bank b).state ≠ .offline then some 5000
        else (s.bank b).staleWatch) = if (old.stale && code.getLsbD 2 && (s.bank b).state != .offline) = true then some 5000
        else (s.bank b).staleWatch := by simp only [restarts]
    change s.setBank b { s.bank b with causes := left, staleWatch := _ } = _
    rw [watch]
    rfl
  have owner := (forBank_byteOf b (unlockBank code) (dropFrame plantPort s)).trans (unlockBank_eq named b _)
  have bank : e.bank b = { s.bank b with causes := left, staleWatch := (e.bank b).staleWatch } := by
    rw [he, State.setBank_bank]
    rfl
  have evt : e.evt = s.evt := rfl
  have start : (dropFrame plantPort s).setBank b (((dropFrame plantPort s).bank b).unlocked
      ⟨code.getLsbD 0, code.getLsbD 1, code.getLsbD 2, code.getLsbD 3⟩) = dropFrame plantPort e := by rw [he]; rfl
  have same : ((dropFrame plantPort s).bank b).causes.without
      ⟨code.getLsbD 0, code.getLsbD 1, code.getLsbD 2, code.getLsbD 3⟩ = left := rfl
  dsimp only at owner
  rw [start, same] at owner
  have state : (e.bank b).state = (s.bank b).state := by rw [bank]
  have causes : (e.bank b).causes = left := by rw [bank]
  have positions : e.positions = s.positions := by rw [he]; rfl
  have channels : e.channels = s.channels := by rw [he]; rfl
  have lists : e.drawList = s.drawList ∧ e.cooling = s.cooling ∧ e.esd = s.esd := by rw [he]; exact ⟨rfl, rfl, rfl⟩
  clear_value e left
  by_cases hl : left = old
  · rw [if_pos hl]
    rw [if_pos (by exact hl), dropFrame_bank, state, causes] at owner
    exact accepts_intro rfl rfl (screen_passes rfl (by simp) rfl) h owner (evt.trans h.evt)
  rw [if_neg hl]
  rw [if_neg (by exact hl)] at owner
  have posted (hs : causesShrunk b (dropFrame plantPort e) = dropFrame plantPort (postBankState b e)) :
      Accepts (.bankUnlock plantPort [byteOf b.val, code]) s (reply (s.bank b).state) none (postBankState b e) := by
    rw [hs, dropFrame_bank, (sends_postBankState b e).trails.bank, state, causes] at owner
    exact accepts_intro rfl rfl (screen_passes rfl (by simp) rfl) h owner ((postBankState_evt ..).trans (evt.trans h.evt))
  have shrunk : causesShrunk b (dropFrame plantPort e) =
      match (s.bank b).state with
      | .locked => if left.isEmpty then toIdle b (dropFrame plantPort e)
        else dropFrame plantPort (postBankState b e)
      | .offline => dropFrame plantPort (postBankState b e)
      | .idle | .drawing | .refilling => dropFrame plantPort e := by
    unfold causesShrunk
    rw [dropFrame_bank, state, causes, postBankState_dropFrame]
    rfl
  cases hs : (s.bank b).state with
  | offline =>
    rw [hs] at shrunk posted
    exact posted shrunk
  | locked =>
    rw [hs] at shrunk posted
    by_cases empty : left = ⟨false, false, false, false⟩
    · rw [if_pos empty]
      dsimp only at shrunk
      rw [if_pos ((isEmpty_iff left).2 empty)] at shrunk
      rw [shrunk] at owner
      obtain ⟨serves, served, lost⟩ := toIdle_leaves b (dropFrame plantPort e)
      have steady := toIdle_steady b (dropFrame plantPort e)
      have kept := (toIdle_fillsKept b (dropFrame plantPort e)).before (s := s) positions channels lists.1
        (by rw [← lists.2.1]; rfl)
      have calm : (dropFrame plantPort e).evt.plantLost = false :=
        (congrArg (fun x : Scratch => x.plantLost) (evt.trans h.evt) :)
      have latch : (dropFrame plantPort e).esd = s.esd := lists.2.2
      rw [calm] at lost
      rw [latch] at served
      have held := (bank_of_steady steady b).2.2
      generalize toIdle b (dropFrame plantPort e) = u at *
      have trails := trails_answered plantPort 0x26#8 [byteOf b.val, code]
        (.accepted [.byte (some b.val), .byte (some (u.bank b).state.code), .bits (u.bank b).causes.bits] none) u
      refine completes_intro rfl rfl (screen_passes rfl (by simp) rfl) h owner steady
        ⟨?_, fillsKept_answered kept, ?_, ?_, fun hidle hlatch => ?_⟩
      · rw [trails.bank, held, dropFrame_bank, causes]
      · rw [trails.bank]
        exact serves.1
      · rw [trails.bank]
        exact serves.2
      · exact fun w hw => noneEligible_answered _ _ _ (served hlatch) lost w hw b rfl
    · rw [if_neg empty]
      exact posted (shrunk.trans (if_neg (mt (isEmpty_iff left).1 empty)))
  | idle =>
    rw [hs] at shrunk state
    rw [shrunk, dropFrame_bank, state, causes] at owner
    exact accepts_intro rfl rfl (screen_passes rfl (by simp) rfl) h owner (evt.trans h.evt)
  | drawing =>
    rw [hs] at shrunk state
    rw [shrunk, dropFrame_bank, state, causes] at owner
    exact accepts_intro rfl rfl (screen_passes rfl (by simp) rfl) h owner (evt.trans h.evt)
  | refilling =>
    rw [hs] at shrunk state
    rw [shrunk, dropFrame_bank, state, causes] at owner
    exact accepts_intro rfl rfl (screen_passes rfl (by simp) rfl) h owner (evt.trans h.evt)

/-! ### REFILL_REQUEST (R81) -/

/-- The entry of a bank the plant asks for. -/
def State.requested (s : State) (b : BankId) : QueueEntry :=
  ⟨b, ((s.bank b).config.map (·.tier)).getD .low, s.clock, .plantRequest⟩

/-- The bank is at its target already. -/
def Bank.full (x : Bank) : Bool := x.report.any fun r => x.config.any fun g => decide (g.target ≤ r.pressure)

theorem requestRefill_eq (b : BankId) (s : State) : requestRefill b s =
    let reply := fun (d : Nat) (t : State) =>
      (t, Answer.accepted [.byte (some b.val), .byte (some d), .byte (some t.queue.length), .byte (t.queuePlace b)] none)
    if (s.bank b).state = .offline ∨ (s.bank b).state = .locked then (s, .refused .badState)
    else if (s.bank b).state = .refilling then reply 0 s
    else if s.queued b then reply 1 s
    else if (s.bank b).full then reply 2 s
    else reply 3 (if (s.bank b).state = .idle then assignmentPass (enqueueEntry (s.requested b) s)
      else enqueueEntry (s.requested b) s) := by
  have full : (match (s.bank b).report, (s.bank b).config with
      | some r, some g => decide (g.target ≤ r.pressure)
      | _, _ => false) = (s.bank b).full := by
    unfold Bank.full
    cases (s.bank b).report with
    | none => rfl
    | some r => cases (s.bank b).config <;> rfl
  unfold requestRefill
  dsimp only
  rw [← full]
  rfl

@[simp] theorem dropFrame_queued (n : PortId) (b : BankId) (s : State) : (dropFrame n s).queued b = s.queued b := rfl

/-- What the pass after a new entry leaves. -/
theorem requested_assigns {v : State} (h : Assigns (enqueueEntry e s) v) (hq : ∀ x ∈ s.queue, x.bank ≠ e.bank) :
    e ∈ v.queue ∨ (v.bank e.bank).state = .refilling ∧ ∃ n, (v.comp n).entryHeld = some e := by
  have mem : e ∈ (enqueueEntry e s).queue := (mem_insertQueue ..).2 (.inl rfl)
  have once : ∀ x ∈ (enqueueEntry e s).queue, x.bank = e.bank → x = e := fun x hx hb =>
    ((mem_insertQueue ..).1 hx).resolve_right fun hx => hq x hx hb
  rcases h.entries e mem once with stays | ⟨refilling, n, held, -⟩
  · exact .inl stays
  · exact .inr ⟨refilling, n, held⟩

theorem queuePlace_of_queue (h : t.queue = s.queue) (b : BankId) : t.queuePlace b = s.queuePlace b := by
  rw [State.queuePlace, h]
  rfl

/-- Settles O34: the dispositions in their order, and the entry queued or taken. -/
theorem refillRequestResult : Obligations.RefillRequestResult := by
  rintro s b c rfl h
  dsimp only
  have owner := (forBank_byteOf b requestRefill (dropFrame plantPort s)).trans (requestRefill_eq b _)
  dsimp only at owner
  rw [dropFrame_bank, dropFrame_queued] at owner
  by_cases hout : (s.bank b).state = .offline ∨ (s.bank b).state = .locked
  · rw [if_pos hout] at owner ⊢
    exact refuses_intro rfl rfl (screen_passes rfl (by simp) rfl) h owner
  rw [if_neg hout] at owner ⊢
  by_cases hre : (s.bank b).state = .refilling
  · rw [if_pos hre] at owner ⊢
    exact accepts_intro rfl rfl (screen_passes rfl (by simp) rfl) h owner h.evt
  rw [if_neg hre] at owner ⊢
  by_cases hq : ∃ q ∈ s.queue, q.bank = b
  · rw [if_pos hq]
    rw [if_pos (queued_iff.2 hq)] at owner
    exact accepts_intro rfl rfl (screen_passes rfl (by simp) rfl) h owner h.evt
  rw [if_neg hq]
  rw [if_neg (mt queued_iff.1 hq)] at owner
  by_cases hfull : (s.bank b).full = true
  · rw [if_pos hfull] at owner
    rw [if_pos (by exact hfull)]
    exact accepts_intro rfl rfl (screen_passes rfl (by simp) rfl) h owner h.evt
  rw [if_neg hfull] at owner
  rw [if_neg (by exact hfull)]
  have apart : ∀ x ∈ (dropFrame plantPort s).queue, x.bank ≠ b := fun x hx e => hq ⟨x, hx, e⟩
  generalize hu : enqueueEntry ((dropFrame plantPort s).requested b) (dropFrame plantPort s) = u at owner
  have passed : Assigns u (if (s.bank b).state = .idle then assignmentPass u else u) := by
    split
    · exact assigns_assignmentPass u
    · exact .refl u
  have steady : (if (s.bank b).state = .idle then assignmentPass u else u).steady = (dropFrame plantPort s).steady := by
    have start : u.steady = (dropFrame plantPort s).steady := by rw [← hu]; rfl
    split
    · exact (steady_assignmentPass u).trans start
    · exact start
  have still : (s.bank b).state = .drawing ∨ s.esd.latched = true →
      (if (s.bank b).state = .idle then assignmentPass u else u) = u := by
    rintro (hd | hl)
    · exact if_neg (by rw [hd]; decide)
    · rw [assignmentPass_latched (by rw [← hu]; exact hl), ite_self]
  generalize (if (s.bank b).state = .idle then assignmentPass u else u) = v at owner passed steady still
  have entry := requested_assigns (e := (dropFrame plantPort s).requested b) (s := dropFrame plantPort s) (hu ▸ passed) apart
  have trails := trails_answered plantPort 0x28#8 [byteOf b.val] (.accepted [.byte (some b.val), .byte (some 3),
    .byte (some v.queue.length), .byte (v.queuePlace b)] none) v
  refine completes_intro rfl rfl (screen_passes rfl (by simp) rfl) h owner steady ⟨?_, fun q => ?_, ?_, fun hs => ?_⟩
  · rw [queuePlace_of_queue trails.queue, trails.queue]
  · rw [trails.pos, trails.chan, State.pos, State.chan, passed.positions, passed.channels, ← hu]
    exact ⟨rfl, rfl⟩
  · rw [trails.queue, trails.bank]
    refine entry.imp_right fun ⟨refilling, n, held⟩ => ⟨refilling, n, ?_⟩
    rw [trails.rest]
    exact held
  · rw [trails.rest, still hs, ← hu]
    exact ⟨insertQueue_perm .., rfl, rfl⟩

end Sys2Proof.Machine
end

section
/-! SUPPORT. What cascades leave of a compressor that they do not serve (R84, R85, R110, R111). -/

namespace Sys2Proof.Machine

variable {p q : PosId} {b : BankId} {c n : CompId} {s t u : State}

/-- A compressor stands in the cooling wait list (section 6.4). -/
def CompWaits (s : State) (n : CompId) : Prop := ∃ w ∈ s.cooling.wait, w.who = .comp n

/-- From `s` to `t` a compressor keeps its record and its grant, and comes into no wait list. -/
structure Rests (n : CompId) (s t : State) : Prop where
  comp : t.comp n = s.comp n
  grant : t.grantOf (.comp n) = s.grantOf (.comp n)
  waits : CompWaits t n → CompWaits s n

theorem Rests.refl (n : CompId) (s : State) : Rests n s s := ⟨rfl, rfl, id⟩

theorem Rests.trans (h : Rests n s t) (k : Rests n t u) : Rests n s u :=
  ⟨k.comp.trans h.comp, k.grant.trans h.grant, h.waits ∘ k.waits⟩

theorem rests_of (hc : t.comps = s.comps) (hk : t.cooling = s.cooling) : Rests n s t :=
  ⟨by rw [State.comp, hc]; rfl, by rw [State.grantOf, State.grantOf, hk], by rw [CompWaits, hk]; exact id⟩

theorem rests_ite (h : Prop) [Decidable h] (ht : Rests n s t) (hu : Rests n s u) : Rests n s (if h then t else u) := by
  split
  · exact ht
  · exact hu

/-- A fold each of whose steps lets a compressor rest while a condition holds, which the steps keep. -/
theorem rests_foldl {α : Type} (P : State → Prop) (hP : ∀ s t, Rests n s t → P s → P t) (l : List α) (f : State → α → State)
    (hf : ∀ s, ∀ a ∈ l, P s → Rests n s (f s a)) (s : State) (hs : P s) : Rests n s (l.foldl f s) := by
  induction l generalizing s with
  | nil => exact .refl n s
  | cons a l ih =>
    have first := hf s a (by simp) hs
    exact first.trans (ih (fun s a ha => hf s a (by simp [ha])) _ (hP _ _ first hs))

/-- A grant leaves what others hold (R110). -/
theorem setGrant_grantOf_ne {r o : Requester} (h : o ≠ r) (g : Nat) (s : State) : (setGrant r g s).grantOf o = s.grantOf o := by
  refine Eq.trans ?_ (State.setGrantOf_grantOf_ne s r o { s.grantOf r with
    grant := g
    time := if g == 0 then none else if (s.grantOf r).grant == 0 && g != 0 then some s.clock else (s.grantOf r).time } h)
  cases o <;> rfl

section
variable (s : State)

theorem rests_modComp (h : n ≠ c) (f : Compressor → Compressor) : Rests n s (s.modComp c f) :=
  ⟨State.modComp_comp_ne _ _ _ _ h, rfl, id⟩

theorem rests_modPos (p : PosId) (f : Position → Position) : Rests n s (s.modPos p f) := rests_of rfl rfl

theorem rests_evt (e : Scratch) : Rests n s { s with evt := e } := rests_of rfl rfl

theorem rests_queue (l : List QueueEntry) : Rests n s { s with queue := l } := rests_of rfl rfl

theorem rests_postNotice (k : NoticeKind) (m : Nat) (data : List Field) (ports : List PortId) :
    Rests n s (postNotice k m data ports s) := by
  rw [(sends_postNotice k m data ports s).rest]
  exact rests_of rfl rfl

theorem rests_postCompState (c : CompId) (cause : CompCause) : Rests n s (postCompState c cause s) := rests_postNotice ..

theorem rests_postDirective (m : PortId) (d : Directive) : Rests n s (postDirective m d s) := rests_of rfl rfl

theorem rests_moveBank (b : BankId) (st : BankState) (h : Option Holder) : Rests n s (moveBank b st h s) := by
  obtain ⟨l, x, e, -⟩ := moveBank_eq b st h s
  rw [e]
  exact rests_of rfl rfl

theorem rests_modRecord (p : PosId) (f : TxnRecord → TxnRecord) : Rests n s (modRecord p f s) := by
  obtain ⟨w, e⟩ := modRecord_eq p f s
  rw [e]
  exact rests_of rfl rfl

theorem rests_grantBank (p : PosId) (b : BankId) : Rests n s (grantBank p b s) := by
  rw [(grantBank_apart p b s).2.2]
  exact rests_of rfl rfl

theorem rests_offerPass (l : List BankId) : Rests n s (offerPass l s) := by
  rw [(offers_offerPass l s).rest]
  exact rests_of rfl rfl

theorem rests_drawRequest (p : PosId) (k : DrawKind) (x : Option BankId) : Rests n s (drawRequest p k x s) := by
  unfold drawRequest
  split
  · exact rests_grantBank s p _
  · exact rests_of rfl rfl

theorem rests_enterHold (p : PosId) (r : HoldReason) : Rests n s (enterHold p r s) := by
  obtain ⟨x, w, g, e⟩ := enterHold_eq p r s
  rw [e]
  exact rests_of rfl rfl

theorem rests_flushWaitNotice (c : CompId) : Rests n s (flushWaitNotice c s) := by
  obtain ⟨x, v, e, -⟩ := flushWaitNotice_eq c s
  rw [e]
  exact rests_of rfl rfl

theorem rests_checksCD (p : PosId) : Rests n s (checksCD p s) := by
  unfold checksCD
  dsimp only
  exact rests_ite _ (rests_enterHold s p _) (rests_ite _ (rests_drawRequest s p _ _)
    ((rests_drawRequest s p _ _).trans (rests_enterHold _ p _)))

theorem rests_setGrant {r : Requester} (h : r ≠ .comp n) (g : Nat) : Rests n s (setGrant r g s) := by
  refine ⟨?_, ?_, ?_⟩
  · cases r <;> rfl
  · exact setGrant_grantOf_ne (Ne.symm h) g s
  · cases r <;> exact id

theorem rests_dropWait (r : Requester) : Rests n s (dropWait r s) :=
  ⟨rfl, rfl, fun ⟨w, hw, e⟩ => ⟨w, (List.mem_filter.1 hw).1, e⟩⟩

end

theorem rests_grantFill (p : PosId) (g : Nat) (s : State) : Rests n s (grantFill p g s) :=
  rests_ite _ ((rests_setGrant s (by simp) g).trans (rests_modRecord _ _ _)) (rests_setGrant s (by simp) g)

theorem rests_startRefill (h : n ≠ c) (s : State) : Rests n s (startRefill c s).1 := by
  cases hf : s.queue.find? (assignable s) with
  | some e =>
    obtain ⟨l, x, eq, -⟩ := startRefill_takes (c := c) hf
    rw [eq]
    exact ⟨State.setComp_comp_ne _ _ _ _ h, rfl, id⟩
  | none =>
    obtain ⟨x, v, eq, -⟩ := startRefill_returns (c := c) hf
    rw [eq]
    have back : Rests n s (setGrant (.comp c) 0 s) := rests_setGrant s (fun e => h (Requester.comp.inj e).symm) 0
    exact ⟨(State.setComp_comp_ne _ _ _ _ h).trans back.comp, back.grant, back.waits⟩

theorem rests_compressorAsks (h : n ≠ c) (s : State) : Rests n s (compressorAsks c s) := by
  rw [compressorAsks_eq]
  refine rests_ite _ ?_ ?_
  · have served : Rests n s (s.serving c) :=
      (rests_evt s _).trans (rests_setGrant _ (fun e => h (Requester.comp.inj e).symm) _)
    exact served.trans (rests_startRefill h _)
  · refine ⟨queueing_comp_ne s h, rfl, fun ⟨w, hw, e⟩ => ?_⟩
    rcases List.mem_append.1 hw with hw | hw
    · exact ⟨w, hw, e⟩
    · rw [List.mem_singleton.1 hw] at e
      exact absurd (Requester.comp.inj e).symm h

/-- A compressor that is not READY rests in a pass (R84). -/
theorem rests_assignmentPass (h : (s.comp n).state ≠ .ready) : Rests n s (assignmentPass s) := by
  cases hl : s.esd.latched with
  | true =>
    rw [assignmentPass_latched hl]
    exact .refl n s
  | false =>
    rw [assignmentPass_unlatched hl]
    refine rests_foldl (fun u => (u.comp n).state ≠ .ready) (fun u v k hu => by rwa [k.comp]) _ _ (fun u c _ hu => ?_) s h
    unfold asksInTurn
    split
    next hc =>
      refine rests_compressorAsks ?_ u
      rintro rfl
      exact hu (by simpa using (Bool.and_eq_true_iff.1 hc).1)
    · exact .refl n u

theorem rests_tellIdle (h : (s.comp n).state ≠ .ready) (b : BankId) : Rests n s (tellIdle b s) := by
  unfold tellIdle
  split
  · exact rests_assignmentPass h
  · split
    · split
      · exact (rests_queue s _).trans (rests_assignmentPass (by exact h))
      · exact .refl n s
    · exact .refl n s

theorem rests_bankIdle (h : (s.comp n).state ≠ .ready) (b : BankId) : Rests n s (bankIdle b s) := by
  have offered : Rests n s (offerPass [b] s) := rests_offerPass s [b]
  unfold bankIdle
  dsimp only
  exact rests_ite _ (offered.trans (rests_tellIdle (by rw [offered.comp]; exact h) b)) offered

theorem rests_toIdle (h : (s.comp n).state ≠ .ready) (b : BankId) : Rests n s (toIdle b s) := by
  have moved : Rests n s (moveBank b .idle none s) := rests_moveBank s b _ _
  exact moved.trans (rests_bankIdle (by rw [moved.comp]; exact h) b)

/-! ### Redistribution (R114 to R116) -/

theorem rests_raiseDerated (s : State) : Rests n s (raiseDerated s) := by
  refine rests_foldl (fun _ => True) (fun _ _ _ _ => trivial) _ _ (fun u r _ _ => ?_) s trivial
  cases r with
  | pos p => exact rests_ite _ ((rests_evt u _).trans (rests_setGrant _ (by simp) _)) (.refl n u)
  | comp c => exact .refl n u

theorem rests_serveFills (l : List CoolWait) (s : State) : Rests n s (serveFills l s).1 := by
  induction l generalizing s with
  | nil => exact .refl n s
  | cons w l ih =>
    unfold serveFills
    split
    · exact .refl n s
    next p _ =>
      dsimp only
      split
      · exact (((rests_evt s _).trans (rests_dropWait _ (.pos p))).trans (rests_grantFill p _ _)).trans (ih _)
      · exact .refl n s

theorem rests_serveComps (l : List CoolWait) (hl : ∀ w ∈ l, w.who ≠ .comp n) (s : State) : Rests n s (serveComps l s).1 ∧
    n ∉ (serveComps l s).2 := by
  induction l generalizing s with
  | nil => exact ⟨.refl n s, by simp [serveComps]⟩
  | cons w l ih =>
    unfold serveComps
    split
    · exact ⟨.refl n s, by simp⟩
    next c hc =>
      dsimp only
      split
      · have apart : (Requester.comp c) ≠ .comp n := hc ▸ hl w (by simp)
        obtain ⟨rests, out⟩ := ih (fun w hw => hl w (by simp [hw])) (setGrant (.comp c) (s.grantOf (.comp c)).demand
          (dropWait (.comp c) (budgetChanged .served s)))
        refine ⟨(((rests_evt s _).trans (rests_dropWait _ (.comp c))).trans (rests_setGrant _ apart _)).trans rests, ?_⟩
        rw [List.mem_cons, not_or]
        exact ⟨fun e => apart (by rw [e]), out⟩
      · exact ⟨.refl n s, by simp⟩

theorem rests_redistributePasses (h : ¬ CompWaits s n) :
    Rests n s (redistributePasses s).1 ∧ n ∉ (redistributePasses s).2.2 := by
  unfold redistributePasses
  split
  · exact ⟨.refl n s, by simp⟩
  · have first := (rests_raiseDerated (n := n) s).trans (rests_serveFills (raiseDerated s).cooling.wait _)
    have out : ∀ w ∈ (serveFills (raiseDerated s).cooling.wait (raiseDerated s)).1.cooling.wait, w.who ≠ .comp n :=
      fun w hw e => h (first.waits ⟨w, hw, e⟩)
    obtain ⟨rests, served⟩ := rests_serveComps (n := n) _ out (serveFills (raiseDerated s).cooling.wait (raiseDerated s)).1
    exact ⟨first.trans rests, served⟩

theorem rests_tellServed {comps : List CompId} (h : n ∉ comps) (fills : List PosId) (s : State) :
    Rests n s (tellServed fills comps s).1 := by
  have told : Rests n s (fills.foldl (fun s p => checksCD p s) s) :=
    rests_foldl (fun _ => True) (fun _ _ _ _ => trivial) _ _ (fun u p _ _ => rests_checksCD u p) s trivial
  unfold tellServed
  dsimp only
  refine told.trans ?_
  generalize fills.foldl (fun s p => checksCD p s) s = u
  generalize false = back
  induction comps generalizing u back with
  | nil => exact .refl n u
  | cons c l ih =>
    rw [List.mem_cons, not_or] at h
    exact (rests_startRefill h.1 u).trans (ih h.2 _ _)

theorem rests_redistributeN (k : Nat) (h : ¬ CompWaits s n) : Rests n s (redistributeN k s) := by
  induction k generalizing s with
  | zero => exact .refl n s
  | succ k ih =>
    obtain ⟨passes, served⟩ := rests_redistributePasses h
    have round := passes.trans (rests_tellServed served (redistributePasses s).2.1 _)
    unfold redistributeN
    exact rests_ite _ (round.trans (ih (mt round.waits h))) round

theorem rests_redistribute (h : ¬ CompWaits s n) : Rests n s (redistribute s) := rests_redistributeN 3 h

theorem setGrant_waits (r : Requester) (g : Nat) (s : State) : CompWaits (setGrant r g s) n ↔ CompWaits s n := by
  cases r <;> exact Iff.rfl

theorem rests_releaseGrant {r : Requester} (h : ¬ CompWaits s n) (hr : r ≠ .comp n) : Rests n s (releaseGrant r s) := by
  refine rests_ite _ (.refl n s) ?_
  have released : Rests n s (setGrant r 0 (budgetChanged .release s)) := (rests_evt s _).trans (rests_setGrant _ hr 0)
  exact released.trans (rests_redistribute (mt released.waits h))

theorem rests_departWait {r : Requester} (h : ¬ CompWaits (dropWait r s) n) : Rests n s (departWait r s) := by
  refine rests_ite _ ?_ (.refl n s)
  have dropped : Rests n s (dropWait r (budgetChanged .departed s)) := (rests_evt s _).trans (rests_dropWait _ r)
  exact dropped.trans (rests_redistribute h)

/-- A compressor that gives up its grant has none, whoever is served from it. -/
theorem releaseGrant_own (h : ¬ CompWaits s n) : (releaseGrant (.comp n) s).comp n = s.comp n ∧
    ((releaseGrant (.comp n) s).grantOf (.comp n)).grant = 0 ∧ ¬ CompWaits (releaseGrant (.comp n) s) n := by
  unfold releaseGrant
  split
  next h0 => exact ⟨rfl, h0, h⟩
  · have out : ¬ CompWaits (setGrant (.comp n) 0 (budgetChanged .release s)) n := mt (setGrant_waits ..).1 h
    have rests := rests_redistribute out
    refine ⟨rests.comp, ?_, mt rests.waits out⟩
    rw [rests.grant, setGrant_grantOf, if_pos rfl]

/-- A compressor that leaves the wait list is in it no longer, whoever is served then. -/
theorem departWait_own (s : State) (n : CompId) : (departWait (.comp n) s).comp n = s.comp n ∧
    ¬ CompWaits (departWait (.comp n) s) n ∧ (departWait (.comp n) s).grantOf (.comp n) = s.grantOf (.comp n) := by
  have out : ¬ CompWaits (dropWait (.comp n) s) n := by
    rintro ⟨w, hw, e⟩
    have kept := (List.mem_filter.1 hw).2
    simp [e] at kept
  have rests := rests_departWait out
  refine ⟨rests.comp, ?_, rests.grant⟩
  unfold departWait
  split
  · exact mt (rests_redistribute (s := dropWait (.comp n) (budgetChanged .departed s)) out).waits out
  next h =>
    rintro ⟨w, hw, e⟩
    exact h (List.any_eq_true.2 ⟨w, hw, by simp [e]⟩)

end Sys2Proof.Machine
end

section
/-! SUPPORT. The notice of a kind and subject that stands last at a port (R91, R172, R174, R175). -/

namespace Sys2Proof.Machine

variable {p q : PosId} {b : BankId} {c n : CompId} {a : PortId} {s t u : State} {k : NoticeKind} {j : Nat} {P : Notice → Prop}

/-! ### The last notice of a kind and subject -/

/-- A notice of the key that is as `P` says is pending or on the line, and every pending one of the key is so. -/
structure Port.Latest (k : NoticeKind) (j : Nat) (P : Notice → Prop) (x : Port) : Prop where
  out : ∃ m ∈ x.outNotices, m.kind = k ∧ m.subject = j ∧ P m
  pending : ∀ m ∈ x.pending, m.kind = k → m.subject = j → P m

theorem Port.Latest.of_same {x y : Port} (h : x.Latest k j P) (hp : y.pending = x.pending) (hl : y.line = x.line) :
    y.Latest k j P := by
  refine ⟨?_, hp ▸ h.pending⟩
  rw [Port.outNotices, hl, hp]
  exact h.out

/-- Another key leaves it. -/
theorem Port.Latest.post {x : Port} (h : x.Latest k j P) (now : Clock) {k' : NoticeKind} {j' : Nat}
    (hk : k' ≠ k ∨ j' ≠ j) (data : List Field) : (x.post now k' j' data).Latest k j P := by
  have kept (m : Notice) (hm : m.kind = k ∧ m.subject = j) : (m.kind == k' && m.subject == j') = false := by
    rcases hk with e | e
    · simp [hm.1, Ne.symm e]
    · simp [hm.2, Ne.symm e]
  unfold Port.post
  split
  · split
    · refine ⟨?_, fun m hm => ?_⟩
      · obtain ⟨m, hm, hk', hj', hP⟩ := h.out
        refine ⟨m, ?_, hk', hj', hP⟩
        rcases List.mem_append.1 hm with hm | hm
        · exact List.mem_append_left _ hm
        · refine List.mem_append_right _ (List.mem_map.2 ⟨m, hm, ?_⟩)
          rw [kept m ⟨hk', hj'⟩]
          rfl
      · obtain ⟨x', hx, e⟩ := List.mem_map.1 hm
        intro hk' hj'
        by_cases same : (x'.kind == k' && x'.subject == j') = true
        · rw [if_pos same] at e
          rw [← e] at hk' hj'
          exact absurd (kept x' ⟨hk', hj'⟩) (by rw [same]; decide)
        · rw [if_neg same] at e
          subst e
          exact h.pending _ hx hk' hj'
    · refine ⟨?_, fun m hm hk' hj' => ?_⟩
      · obtain ⟨m, hm, rest⟩ := h.out
        refine ⟨m, ?_, rest⟩
        rcases List.mem_append.1 hm with hm | hm
        · exact List.mem_append_left _ hm
        · exact List.mem_append_right _ (List.mem_append_left _ hm)
      · rcases List.mem_append.1 hm with hm | hm
        · exact h.pending m hm hk' hj'
        · rw [List.mem_singleton.1 hm] at hk' hj'
          rcases hk with e | e
          · exact absurd hk' e
          · exact absurd hj' e
  · exact h.of_same rfl rfl

/-- A notice posted where it passes the mask is the last of its key (R174). -/
theorem Port.post_latest {x : Port} (hp : x.passes k = true) (now : Clock) (data : List Field) :
    (x.post now k j data).Latest k j (fun m => m.data = data) := by
  unfold Port.post
  rw [if_pos hp]
  split
  next pending =>
    obtain ⟨m, hm, e⟩ := List.any_eq_true.1 pending
    refine ⟨⟨m.coalesce data, List.mem_append_right _ (List.mem_map.2 ⟨m, hm, if_pos e⟩), ?_⟩, fun y hy hk hj => ?_⟩
    · simp only [Bool.and_eq_true, beq_iff_eq] at e
      exact ⟨e.1, e.2, rfl⟩
    · obtain ⟨x', hx, e'⟩ := List.mem_map.1 hy
      by_cases same : (x'.kind == k && x'.subject == j) = true
      · rw [if_pos same] at e'
        rw [← e']
        rfl
      · rw [if_neg same] at e'
        rw [e'] at same
        exact absurd (by simp [hk, hj]) same
  next pending =>
    refine ⟨⟨_, List.mem_append_right _ (List.mem_append_right _ (List.mem_singleton.2 rfl)), rfl, rfl, rfl⟩,
      fun y hy hk hj => ?_⟩
    rcases List.mem_append.1 hy with hy | hy
    · exact absurd (List.any_eq_true.2 ⟨y, hy, by simp [hk, hj]⟩) pending
    · rw [List.mem_singleton.1 hy]

/-- A transmitter sends it or leaves it. -/
theorem Port.Latest.transmit {x : Port} (h : x.Latest k j P) (now : Clock) : (x.transmit now).Latest k j P := by
  have queued (hl : x.line = none) : ∃ m ∈ x.pending, m.kind = k ∧ m.subject = j ∧ P m := by
    have out := h.out
    rw [Port.outNotices, hl] at out
    exact out
  have moved {y : Port} (hl : x.line = none) (hp : y.pending = x.pending) : y.Latest k j P := by
    obtain ⟨m, hm, rest⟩ := queued hl
    exact ⟨⟨m, List.mem_append_right _ (hp ▸ hm), rest⟩, hp ▸ h.pending⟩
  unfold Port.transmit
  split
  next free =>
    have hl : x.line = none := by simpa using (Bool.and_eq_true_iff.1 free).1
    split
    · split
      · exact h
      · exact moved hl rfl
    · split
      · exact moved hl rfl
      · split
        next m hm =>
          have mem := Port.nextNotice_mem hm
          refine ⟨?_, fun y hy => h.pending y (List.mem_filter.1 hy).1⟩
          obtain ⟨y, hy, hk, hj, hP⟩ := queued hl
          by_cases same : m.kind = k ∧ m.subject = j
          · exact ⟨m, List.mem_append_left _ (List.mem_singleton.2 rfl), same.1, same.2, h.pending m mem same.1 same.2⟩
          · refine ⟨y, List.mem_append_right _ (List.mem_filter.2 ⟨hy, ?_⟩), hk, hj, hP⟩
            rw [hk, hj]
            rcases not_and_or.1 same with e | e
            · simp [Ne.symm e]
            · simp [Ne.symm e]
        · exact h
  · exact h

/-! ### At the end of an event -/

theorem latest_modPort {f : Port → Port} (hf : ∀ x : Port, x.Latest k j P → (f x).Latest k j P) (d : PortId)
    (h : (s.port a).Latest k j P) : ((s.modPort d f).port a).Latest k j P := by
  by_cases e : a = d
  · subst e
    rw [State.modPort_port]
    exact hf _ h
  · rw [State.modPort_port_ne _ _ _ _ e]
    exact h

theorem latest_foldl {α : Type} (l : List α) (f : State → α → State)
    (hf : ∀ s, ∀ x ∈ l, (s.port a).Latest k j P → ((f s x).port a).Latest k j P) (s : State)
    (h : (s.port a).Latest k j P) : ((l.foldl f s).port a).Latest k j P := by
  induction l generalizing s with
  | nil => exact h
  | cons x l ih => exact ih (fun s y hy => hf s y (by simp [hy])) _ (hf s x (by simp) h)

theorem latest_postNotice {k' : NoticeKind} {j' : Nat} (hk : k' ≠ k ∨ j' ≠ j) (data : List Field) (ports : List PortId)
    (h : (s.port a).Latest k j P) : ((postNotice k' j' data ports s).port a).Latest k j P :=
  latest_foldl _ _ (fun u d _ hu => latest_modPort (fun x hx => hx.post u.clock hk data) d hu) s h

/-- The notices that wait for the end of an event leave those of a compressor that is not then in COOLING_WAIT. -/
theorem latest_postWaitNotices (hc : (s.comp n).state ≠ .coolingWait) (h : (s.port a).Latest .compressorState n.val P) :
    ((postWaitNotices s).port a).Latest .compressorState n.val P := by
  have told (l : List CompId) (u : State) (hu : u.comps = s.comps) (h : (u.port a).Latest .compressorState n.val P) :
      ((l.foldl (fun s c => if (s.comp c).state == .coolingWait then postCompState c .coolingWait s else s) u).port a).Latest
        .compressorState n.val P := by
    induction l generalizing u with
    | nil => exact h
    | cons c l ih =>
      refine ih _ ?_ ?_ <;> dsimp only
      · split
        · exact (congrArg State.comps (sends_postNotice .compressorState c.val _ [plantPort] u).rest).trans hu
        · exact hu
      · split
        next waits =>
          refine latest_postNotice (.inr fun e => ?_) _ _ h
          obtain rfl : c = n := Fin.ext e
          have same : u.comp c = s.comp c := by rw [State.comp, hu]; rfl
          rw [same] at waits
          exact hc (by simpa using waits)
        · exact h
  exact told s.evt.waitNotices s rfl h

theorem latest_transmitAll (h : (s.port a).Latest k j P) : ((transmitAll s).port a).Latest k j P := by
  unfold transmitAll
  split
  · exact latest_foldl _ _ (fun u d _ hu => latest_modPort (fun x hx => hx.transmit u.clock) d hu) s h
  · exact h

/-- The end of an event leaves what stands last of a compressor that is not then in COOLING_WAIT. -/
theorem latest_endEvent (hc : (s.comp n).state ≠ .coolingWait) (h : (s.port a).Latest .compressorState n.val P) :
    ((endEvent s).port a).Latest .compressorState n.val P := by
  have waited := latest_postWaitNotices hc h
  have cooled : ((postCoolingState (postWaitNotices s)).port a).Latest .compressorState n.val P := by
    generalize postWaitNotices s = u at waited
    unfold postCoolingState
    split
    · exact latest_postNotice (.inl (by decide)) _ _ waited
    · exact waited
  unfold endEvent
  dsimp only
  generalize postCoolingState (postWaitNotices s) = u at cooled
  by_cases e : u.evt.edgeNext = true
  · rw [if_pos e]
    exact cooled
  · rw [if_neg e]
    exact latest_transmitAll cooled

theorem latest_pushReply (kind : Byte) (args : List Byte) (r : Answer) (d : PortId) (h : (s.port a).Latest k j P) :
    ((pushReply d kind args r s).port a).Latest k j P :=
  latest_modPort (f := fun x => { x with replies := x.replies ++ [_] }) (fun _ hx => hx.of_same rfl rfl) d h

end Sys2Proof.Machine
end

section
/-! SUPPORT. What a bank grant makes of its position (R69, R75). -/

namespace Sys2Proof.Machine

variable {p q : PosId} {b : BankId} {s t u : State}

/-- What a grant makes of the position. -/
theorem grantBank_own (p : PosId) (b : BankId) (s : State) :
    ((s.pos p).state = .pulse ∧ ((grantBank p b s).pos p).state = .pulse ∨
      (s.pos p).state ≠ .pulse ∧ ((grantBank p b s).pos p).state = .ramp) ∧
    ((grantBank p b s).pos p).bank = some b ∧ ¬ Draws (grantBank p b s) p := by
  by_cases hp : (s.pos p).state = .pulse
  · obtain ⟨y, l, e, hl⟩ := grantBank_pulse hp b
    rw [e]
    refine ⟨.inl ⟨hp, ?_⟩, ?_, fun ⟨w, hw, e⟩ => hl w hw e⟩
    · exact (congrArg Position.state (s.setPos_pos p _)).trans hp
    · exact congrArg Position.bank (s.setPos_pos p ((s.pos p).pulsing b))
  · obtain ⟨y, w, g, l, e, hl⟩ := grantBank_eq hp b
    rw [e]
    refine ⟨.inr ⟨hp, ?_⟩, ?_, fun ⟨w, hw, e⟩ => hl w hw e⟩
    · exact congrArg Position.state (s.setPos_pos p ((s.pos p).flowing b))
    · exact congrArg Position.bank (s.setPos_pos p ((s.pos p).flowing b))

end Sys2Proof.Machine
end

section
/-! SUPPORT. BANK_CONFIG and BANK_ONLINE (R56, R60, R63, R71, R81). -/

namespace Sys2Proof.Machine

variable {p q : PosId} {b c : BankId} {n : PortId} {s t u : State}

/-! ### What leaves the fills that wait for nothing -/

theorem not_cools (h : ¬ Waits s q) : ¬ Cools s q := fun c => h (.inr c)

theorem not_draws (h : ¬ Waits s q) : ¬ Draws s q := fun d => h (.inl d)

theorem Spares.waits (h : Spares q s t) (hw : ¬ Waits s q) : ¬ Waits t q := by
  rintro (d | c)
  · exact not_draws hw (h.draws d)
  · exact not_cools hw (h.cools c)

theorem fillsKept_of (h : ∀ q, ¬ Waits s q → Spares q s t) : FillsKept s t :=
  fun q hq => ⟨(h q hq).pos, (h q hq).chan⟩

theorem spares_matchQueue (k : Nat) (h : ¬ Cools s q) : Spares q s (matchQueue k s) := by
  induction k generalizing s with
  | zero => exact .refl q s
  | succ k ih =>
    unfold matchQueue
    split
    · split
      next c _ =>
        have back : Spares q s (postCompState c .queueShort
            ((flushWaitNotice c s).modComp c (fun x => { x with state := .ready, requestTime := none }))) :=
          ((spares_flushWaitNotice c).trans (spares_modComp c _)).trans (spares_postCompState ..)
        have gone := back.trans (spares_departWait (r := .comp c)
          (mt (spares_dropWait (.comp c)).cools (mt back.cools h)))
        exact gone.trans (ih (mt gone.cools h))
      · exact .refl q s
    · exact .refl q s

theorem spares_dequeue (h : ¬ Cools s q) (b : BankId) : Spares q s (dequeue b s) := by
  unfold dequeue
  split
  · exact (spares_queue _).trans (spares_matchQueue 2 h)
  · exact .refl q s

/-! ### BANK_CONFIG (R56, R81) -/

/-- The entry of a bank, where it has one, moves to a tier. -/
def State.retiered (s : State) (b : BankId) (tier : Tier) : State :=
  match s.queue.find? (fun e => e.bank == b) with
  | some e => enqueueEntry { e with tier := tier } { s with queue := s.queue.filter (fun q => q.bank != b) }
  | none => s

/-- The queue by the pressure a bank had: its entry leaves at the target and a new one joins at the threshold. -/
def requeue (b : BankId) (g : BankConfig) (pressure : Option Nat) (s : State) : State :=
  match pressure with
  | some v => if s.queued b then (if g.target ≤ v then dequeue b s else s)
    else if v ≤ g.threshold then enqueue b .lowPressure s else s
  | none => s

theorem reconfigureQueue_eq (b : BankId) (g : BankConfig) (s : State) : reconfigureQueue b g s =
    let t := requeue b g ((s.bank b).report.map (·.pressure)) (s.retiered b g.tier)
    if t.queue == s.queue then t else assignmentPass t := rfl

/-- Every entry of a bank in the refill queue is of a tier. -/
def Tiered (b : BankId) (tier : Tier) (s : State) : Prop := ∀ q ∈ s.queue, q.bank = b → q.tier = tier

theorem Tiered.yields {tier : Tier} (h : Tiered b tier s) (k : Yields s t) : Tiered b tier t :=
  fun q hq => h q (k.queue q hq)

theorem retiered_rest (b : BankId) (tier : Tier) (s : State) :
    s.retiered b tier = { s with queue := (s.retiered b tier).queue } := by
  unfold State.retiered
  split <;> rfl

theorem tiered_retiered (b : BankId) (tier : Tier) (s : State) : Tiered b tier (s.retiered b tier) := by
  intro q hq hb
  unfold State.retiered at hq
  split at hq
  next e _ =>
    rcases (mem_insertQueue ..).1 hq with rfl | old
    · rfl
    · have := (List.mem_filter.1 old).2
      simp [hb] at this
  next none =>
    have := List.find?_eq_none.1 none q hq
    simp [hb] at this

theorem spares_retiered (b : BankId) (tier : Tier) (s : State) : Spares q s (s.retiered b tier) := by
  rw [retiered_rest]
  exact spares_queue _

theorem steady_retiered (b : BankId) (tier : Tier) (s : State) : (s.retiered b tier).steady = s.steady := by
  rw [retiered_rest]
  rfl

theorem spares_requeue (h : ¬ Cools s q) (b : BankId) (g : BankConfig) (v : Option Nat) : Spares q s (requeue b g v s) := by
  unfold requeue
  split
  · split
    · split
      · exact spares_dequeue h b
      · exact .refl q s
    · split
      · exact spares_queue _
      · exact .refl q s
  · exact .refl q s

theorem steady_requeue (b : BankId) (g : BankConfig) (v : Option Nat) (s : State) : (requeue b g v s).steady = s.steady := by
  unfold requeue
  split
  · split
    · split
      · exact steady_dequeue b s
      · rfl
    · split <;> rfl
  · rfl

theorem tiered_requeue {g : BankConfig} (hg : (s.bank b).config = some g) (h : Tiered b g.tier s) (v : Option Nat) :
    Tiered b g.tier (requeue b g v s) := by
  unfold requeue
  split
  · split
    · split
      · exact h.yields (yields_dequeue b s)
      · exact h
    · split
      · intro q hq hb
        rcases (mem_insertQueue ..).1 hq with rfl | old
        · simp [hg]
        · exact h q old hb
      · exact h
  · exact h

theorem spares_reconfigureQueue (h : ¬ Cools s q) (b : BankId) (g : BankConfig) : Spares q s (reconfigureQueue b g s) := by
  have moved : Spares q s (s.retiered b g.tier) := spares_retiered b g.tier s
  have queued := moved.trans (spares_requeue (mt moved.cools h) b g ((s.bank b).report.map (·.pressure)))
  rw [reconfigureQueue_eq]
  dsimp only
  split
  · exact queued
  · exact queued.trans spares_assignmentPass

theorem steady_reconfigureQueue (b : BankId) (g : BankConfig) (s : State) : (reconfigureQueue b g s).steady = s.steady := by
  have queued := (steady_requeue b g ((s.bank b).report.map (·.pressure)) (s.retiered b g.tier)).trans
    (steady_retiered b g.tier s)
  rw [reconfigureQueue_eq]
  dsimp only
  split
  · exact queued
  · exact (steady_assignmentPass _).trans queued

theorem tiered_reconfigureQueue {g : BankConfig} (hg : (s.bank b).config = some g) : Tiered b g.tier (reconfigureQueue b g s) := by
  have config : ((s.retiered b g.tier).bank b).config = some g := by
    rw [retiered_rest]
    exact hg
  have queued := tiered_requeue config (tiered_retiered b g.tier s) ((s.bank b).report.map (·.pressure))
  rw [reconfigureQueue_eq]
  dsimp only
  split
  · exact queued
  · exact queued.yields (yields_assignmentPass _)

/-- BANK_CONFIG at a bank in OFFLINE or IDLE. -/
def reconfigured (b : BankId) (g : BankConfig) (s : State) : State :=
  let t := s.setBank b { s.bank b with config := some g }
  if (s.bank b).state = .idle then reconfigureQueue b g (offerPass [b] t) else t

theorem configureBank_eq {code : Byte} {tier : Tier} (ht : tierOf code = some tier) (high low target : Nat) (b : BankId)
    (s : State) : configureBank code high low target b s =
      if high < 100 ∨ 12000 < high ∨ target ≤ low ∨ high < target then (s, .refused .range)
      else if (s.bank b).state ≠ .offline ∧ (s.bank b).state ≠ .idle then (s, .refused .busy)
      else (reconfigured b ⟨tier, high, low, target⟩ s, .accepted [.byte (some b.val),
        .byte (some ((reconfigured b ⟨tier, high, low, target⟩ s).bank b).state.code)] none) := by
  unfold configureBank
  rw [ht]
  rfl

theorem bankConfigResult (s : State) (b : BankId) (t m0 m1 h0 h1 g0 g1 : Byte)
    (h : Standing (.bankConfig plantPort [byteOf b.val, t, m0, m1, h0, h1, g0, g1]) s) :
    let c : Instr := .bankConfig plantPort [byteOf b.val, t, m0, m1, h0, h1, g0, g1]
    let high := u16 m0 m1
    let low := u16 h0 h1
    let target := u16 g0 g1
    match tierOf t with
    | none => Refuses c s .range
    | some tier =>
      let e := s.setBank b { s.bank b with config := some ⟨tier, high, low, target⟩ }
      if high < 100 ∨ 12000 < high ∨ target ≤ low ∨ high < target then Refuses c s .range
      else
        match (s.bank b).state with
        | .offline => Accepts c s [.byte (some b.val), .byte (some BankState.offline.code)] none e
        | .idle => Completes c s none e (fun data t =>
            data = [.byte (some b.val), .byte (some (t.bank b).state.code)] ∧
            (∀ q ∈ t.queue, q.bank = b → q.tier = tier) ∧ FillsKept s t)
        | _ => Refuses c s .busy := by
  intro c high low target
  cases ht : tierOf t with
  | none =>
    exact refuses_intro rfl rfl (screen_passes rfl (by simp) rfl) h
      ((forBank_byteOf b (configureBank t high low target) _).trans (by simp [configureBank, ht, refuse]))
  | some tier =>
    have owner := (forBank_byteOf b (configureBank t high low target) (dropFrame plantPort s)).trans
      (configureBank_eq ht high low target b _)
    dsimp only
    by_cases hr : high < 100 ∨ 12000 < high ∨ target ≤ low ∨ high < target
    · rw [if_pos hr] at owner ⊢
      exact refuses_intro rfl rfl (screen_passes rfl (by simp) rfl) h owner
    rw [if_neg hr] at owner ⊢
    rw [dropFrame_bank] at owner
    have busy (hs : (s.bank b).state ≠ .offline ∧ (s.bank b).state ≠ .idle) : Refuses c s .busy :=
      refuses_intro rfl rfl (screen_passes rfl (by simp) rfl) h (owner.trans (if_pos hs))
    have result : reconfigured b ⟨tier, high, low, target⟩ (dropFrame plantPort s) = if (s.bank b).state = .idle then
        reconfigureQueue b ⟨tier, high, low, target⟩ (offerPass [b] (dropFrame plantPort
          (s.setBank b { s.bank b with config := some ⟨tier, high, low, target⟩ })))
        else dropFrame plantPort (s.setBank b { s.bank b with config := some ⟨tier, high, low, target⟩ }) := rfl
    have config : ((s.setBank b { s.bank b with config := some ⟨tier, high, low, target⟩ }).bank b) =
      { s.bank b with config := some ⟨tier, high, low, target⟩ } := State.setBank_bank ..
    have state : ((s.setBank b { s.bank b with config := some ⟨tier, high, low, target⟩ }).bank b).state =
      (s.bank b).state := by rw [config]
    generalize he : s.setBank b { s.bank b with config := some ⟨tier, high, low, target⟩ } = e at result config state
    cases hs : (s.bank b).state with
    | offline =>
      rw [hs] at owner result state
      rw [if_neg (by decide), result, if_neg (by decide), dropFrame_bank, state] at owner
      subst he
      exact accepts_intro rfl rfl (screen_passes rfl (by simp) rfl) h owner h.evt
    | idle =>
      rw [hs] at owner result
      rw [if_neg (by decide), result, if_pos rfl] at owner
      have steady := steady_offerPass [b] (dropFrame plantPort e)
      have configured : ((offerPass [b] (dropFrame plantPort e)).bank b).config = some ⟨tier, high, low, target⟩ :=
        (bank_of_steady steady b).2.1.trans (by rw [dropFrame_bank, config])
      have kept : FillsKept s (reconfigureQueue b ⟨tier, high, low, target⟩ (offerPass [b] (dropFrame plantPort e))) := by
        refine FillsKept.before (v := dropFrame plantPort e) (fillsKept_of fun q hq => ?_) (he ▸ rfl) (he ▸ rfl) (he ▸ rfl)
          (he ▸ rfl)
        have offered : Spares q (dropFrame plantPort e) (offerPass [b] (dropFrame plantPort e)) :=
          spares_offerPass (not_draws hq) [b]
        exact offered.trans (spares_reconfigureQueue (mt offered.cools (not_cools hq)) b _)
      have tiered := tiered_reconfigureQueue configured
      have steady := (steady_reconfigureQueue b ⟨tier, high, low, target⟩ _).trans steady
      generalize reconfigureQueue b ⟨tier, high, low, target⟩ (offerPass [b] (dropFrame plantPort e)) = u at *
      have trails := trails_answered plantPort 0x21#8 [byteOf b.val, t, m0, m1, h0, h1, g0, g1] (.accepted
        [.byte (some b.val), .byte (some (u.bank b).state.code)] none) u
      refine completes_intro rfl rfl (screen_passes rfl (by simp) rfl) h owner steady
        ⟨by rw [trails.bank], ?_, fillsKept_answered kept⟩
      rw [trails.queue]
      exact tiered
    | drawing => exact busy (by rw [hs]; decide)
    | refilling => exact busy (by rw [hs]; decide)
    | locked => exact busy (by rw [hs]; decide)

/-! ### BANK_ONLINE (R60) -/

/-- A bank whose watch runs, its lock causes tested (R60, R63). -/
def Bank.tested (x : Bank) : Bank := { x with staleWatch := some 5000, causes := testedCauses x }

/-- A bank brought into service: IDLE, or LOCKED while a cause holds. -/
def broughtOnline (b : BankId) (s : State) : State :=
  let t := s.setBank b (s.bank b).tested
  if (testedCauses (s.bank b)).isEmpty then toIdle b t else moveBank b .locked none t

theorem bringOnline_eq (b : BankId) (s : State) : bringOnline b s =
    if s.esd.latched then (s, .refused .esdActive)
    else if (s.bank b).state ≠ .offline then (s, .refused .badState)
    else if (s.bank b).config.isNone then (s, .refused .notConfigured)
    else (broughtOnline b s, .accepted [.byte (some b.val), .byte (some ((broughtOnline b s).bank b).state.code),
      .bits ((broughtOnline b s).bank b).causes.bits] none) := rfl

theorem testedCauses_eq {x : Bank} {g : BankConfig} (hg : x.config = some g) : testedCauses x =
    match x.report with
    | none => x.causes
    | some r =>
      { overpressure := x.causes.overpressure || decide (g.maxPressure + 100 < r.pressure)
        overtemp := x.causes.overtemp || decide (850 < r.temperature)
        stale := x.causes.stale && x.sensorRange
        plantLock := x.causes.plantLock } := by
  unfold testedCauses
  rw [hg]
  cases x.report <;> rfl

theorem bankOnlineResult (s : State) (b : BankId) (h : Standing (.bankOnline plantPort [byteOf b.val]) s) :
    let c : Instr := .bankOnline plantPort [byteOf b.val]
    let x := s.bank b
    if s.esd.latched = true then Refuses c s .esdActive
    else if x.state ≠ .offline then Refuses c s .badState
    else
      match x.config with
      | none => Refuses c s .notConfigured
      | some g =>
        let causes : LockCauses :=
          match x.report with
          | none => x.causes
          | some r =>
            { overpressure := x.causes.overpressure || decide (g.maxPressure + 100 < r.pressure)
              overtemp := x.causes.overtemp || decide (850 < r.temperature)
              stale := x.causes.stale && x.sensorRange
              plantLock := x.causes.plantLock }
        let e := s.setBank b { x with staleWatch := some 5000, causes := causes }
        Completes c s none e (fun data t =>
          data = [.byte (some b.val), .byte (some (t.bank b).state.code), .bits causes.bits] ∧ FillsKept s t ∧
          if causes = ⟨false, false, false, false⟩ then
            (t.bank b).state ≠ .offline ∧ (t.bank b).state ≠ .locked ∧
            ((t.bank b).state = .idle →
              ∀ w ∈ t.drawList, eligible t w.pos w.kind w.excluded b = false)
          else
            (t.bank b).state = .locked ∧ (t.bank b).holder = none ∧ t.drawList = s.drawList ∧
              t.queue = s.queue) := by
  intro c x
  have owner := (forBank_byteOf b bringOnline (dropFrame plantPort s)).trans (bringOnline_eq b _)
  rw [dropFrame_bank] at owner
  by_cases hl : s.esd.latched = true
  · rw [if_pos hl]
    exact refuses_intro rfl rfl (screen_passes rfl (by simp) rfl) h (owner.trans (if_pos hl))
  rw [if_neg hl]
  have owner := owner.trans (if_neg hl)
  by_cases ho : x.state ≠ .offline
  · rw [if_pos ho]
    exact refuses_intro rfl rfl (screen_passes rfl (by simp) rfl) h (owner.trans (if_pos ho))
  rw [if_neg ho]
  have owner := owner.trans (if_neg ho)
  cases hg : x.config with
  | none => exact refuses_intro rfl rfl (screen_passes rfl (by simp) rfl) h (owner.trans (if_pos (by rw [hg]; rfl)))
  | some g =>
    have owner := owner.trans (if_neg (by rw [hg]; exact Bool.false_ne_true))
    dsimp only
    rw [← testedCauses_eq hg]
    have brought : broughtOnline b (dropFrame plantPort s) = if (testedCauses x).isEmpty = true
        then toIdle b (dropFrame plantPort (s.setBank b x.tested))
        else moveBank b .locked none (dropFrame plantPort (s.setBank b x.tested)) := rfl
    have shape : { x with config := some g, staleWatch := some 5000, causes := testedCauses x } = x.tested := by
      rw [← hg]
      rfl
    rw [shape]
    have causes : (s.setBank b x.tested).bank b = x.tested := State.setBank_bank ..
    have state : ((s.setBank b x.tested).bank b).state = .offline := by
      rw [causes]
      exact Decidable.not_not.1 ho
    have esd : (dropFrame plantPort (s.setBank b x.tested)).esd.latched = false := Bool.eq_false_iff.2 hl
    have calm : (dropFrame plantPort (s.setBank b x.tested)).evt.plantLost = false :=
      (congrArg (fun e : Scratch => e.plantLost) h.evt :)
    have steady : (broughtOnline b (dropFrame plantPort s)).steady = (dropFrame plantPort (s.setBank b x.tested)).steady := by
      rw [brought]
      split
      · exact toIdle_steady ..
      · exact steady_moveBank ..
    have held : ((broughtOnline b (dropFrame plantPort s)).bank b).causes = testedCauses x :=
      (bank_of_steady steady b).2.2.trans (by rw [dropFrame_bank, causes]; rfl)
    have result : FillsKept s (broughtOnline b (dropFrame plantPort s)) ∧ if (testedCauses x) = ⟨false, false, false, false⟩ then
          Serving ((broughtOnline b (dropFrame plantPort s)).bank b) ∧
          NoneEligible (fun a => a = b) (broughtOnline b (dropFrame plantPort s)) ∧
          (broughtOnline b (dropFrame plantPort s)).evt.plantLost = false
        else (broughtOnline b (dropFrame plantPort s)).bank b = { x.tested with state := .locked, holder := none } ∧
          (broughtOnline b (dropFrame plantPort s)).drawList = s.drawList ∧
          (broughtOnline b (dropFrame plantPort s)).queue = s.queue := by
      rw [brought]
      by_cases empty : testedCauses x = ⟨false, false, false, false⟩
      · rw [if_pos ((isEmpty_iff _).2 empty), if_pos empty]
        obtain ⟨serves, served, lost⟩ := toIdle_leaves b (dropFrame plantPort (s.setBank b x.tested))
        exact ⟨(toIdle_fillsKept b _).before rfl rfl rfl rfl, serves, served esd, lost.trans calm⟩
      · rw [if_neg (mt (isEmpty_iff _).1 empty), if_neg empty]
        have bank := moveBank_bank b .locked none (dropFrame plantPort (s.setBank b x.tested))
        rw [dropFrame_bank, causes] at bank
        obtain ⟨ports, eq, -⟩ := moveBank_busy (s := dropFrame plantPort (s.setBank b x.tested)) (b := b)
          (by rw [dropFrame_bank, state]; decide) .locked none
        exact ⟨by rw [eq]; exact fun q _ => ⟨rfl, rfl⟩, bank, by rw [eq]; rfl, by rw [eq]; rfl⟩
    clear brought
    generalize broughtOnline b (dropFrame plantPort s) = u at *
    rw [held] at owner
    obtain ⟨kept, branches⟩ := result
    have trails := trails_answered plantPort 0x23#8 [byteOf b.val] (.accepted [.byte (some b.val),
      .byte (some (u.bank b).state.code), .bits (testedCauses x).bits] none) u
    refine completes_intro rfl rfl (screen_passes rfl (by simp) rfl) h owner steady
      ⟨by rw [trails.bank], fillsKept_answered kept, ?_⟩
    by_cases empty : testedCauses x = ⟨false, false, false, false⟩
    · rw [if_pos empty] at branches ⊢
      obtain ⟨serves, served, lost⟩ := branches
      rw [trails.bank]
      exact ⟨serves.1, serves.2, fun _ w hw => noneEligible_answered _ _ _ served lost w hw b rfl⟩
    · rw [if_neg empty] at branches ⊢
      obtain ⟨bank, draw, queue⟩ := branches
      rw [trails.bank, trails.drawList, trails.queue, bank]
      exact ⟨rfl, rfl, draw, queue⟩

/-- Settles O29: the configured bank in its place of the queue, and the bank brought IDLE or LOCKED. -/
theorem bankConfigAndOnlineResult : Obligations.BankConfigAndOnlineResult := by
  refine ⟨?_, ?_⟩
  · rintro s b t m0 m1 h0 h1 g0 g1 c rfl h
    exact bankConfigResult s b t m0 m1 h0 h1 g0 g1 h
  · rintro s b c rfl h
    exact bankOnlineResult s b h

end Sys2Proof.Machine
end

section
/-! SUPPORT. A compressor leaves COOLING_WAIT or RUNNING by a request; COMPRESSOR_CONFIG, COMPRESSOR_READY and
COMPRESSOR_UNAVAILABLE (R83, R84, R87, R89, R109). -/

namespace Sys2Proof.Machine

variable {p q : PosId} {b : BankId} {c n : CompId} {s t u : State}

theorem forComp_byteOf (n : CompId) (f : CompId → State → State × Answer) (s : State) :
    forComp (byteOf n.val) f s = f n s := by
  unfold forComp
  rw [idOf_byteOf (by decide)]

@[simp] theorem dropFrame_comp (n : PortId) (c : CompId) (s : State) : (dropFrame n s).comp c = s.comp c := rfl

/-! ### What an assignment pass makes of a compressor that serves -/

theorem startRefill_available (c : CompId) (s : State) : ((startRefill c s).1.comp c).state ≠ .unavailable := by
  cases hf : s.queue.find? (assignable s) with
  | some e =>
    obtain ⟨l, x, eq, -⟩ := startRefill_takes (c := c) hf
    rw [eq]
    simp [State.comp, State.setComp, Compressor.filling]
  | none =>
    obtain ⟨x, v, eq, -⟩ := startRefill_returns (c := c) hf
    rw [eq]
    simp [State.comp, State.setComp]

theorem compressorAsks_available (c : CompId) (s : State) : ((compressorAsks c s).comp c).state ≠ .unavailable := by
  rw [compressorAsks_eq]
  split
  · exact startRefill_available c _
  · rw [queueing_comp]
    exact CompState.noConfusion

theorem asksInTurn_available (c : CompId) (h : (s.comp n).state ≠ .unavailable) :
    ((asksInTurn s c).comp n).state ≠ .unavailable := by
  unfold asksInTurn
  split
  · by_cases e : n = c
    · subst e
      exact compressorAsks_available n s
    · rwa [(rests_compressorAsks e s).comp]
  · exact h

theorem assignmentPass_available (h : (s.comp n).state ≠ .unavailable) : ((assignmentPass s).comp n).state ≠ .unavailable := by
  have pass (l : List CompId) (u : State) (hu : (u.comp n).state ≠ .unavailable) :
      ((l.foldl asksInTurn u).comp n).state ≠ .unavailable := by
    induction l generalizing u with
    | nil => exact hu
    | cons c l ih => exact ih _ (asksInTurn_available c hu)
  cases hl : s.esd.latched with
  | true => rwa [assignmentPass_latched hl]
  | false =>
    rw [assignmentPass_unlatched hl]
    exact pass allComps s h

/-! ### A refill withdrawn (R87) -/

/-- The bank of a withdrawn refill comes to IDLE, its entry to the queue again. -/
def backToQueue (b : BankId) (e : QueueEntry) (s : State) : State :=
  if (s.bank b).state == .refilling then enqueueEntry e (offerPass [b] (moveBank b .idle none s)) else s

/-- A compressor stops and gives its grant back. -/
def stopAndRelease (c : CompId) (next : CompState) (s : State) : State := releaseGrant (.comp c) (stopRunning c next s)

theorem withdrawRefill_eq {e : QueueEntry} (hb : (s.comp c).bank = some b) (he : (s.comp c).entryHeld = some e)
    (stop : StopCause) (cause : CompCause) (next : CompState) : withdrawRefill c stop cause next s =
      let t := stopAndRelease c next (backToQueue b e (postDirective plantPort (.refillStop c b stop) s))
      postCompData c (compData c cause t) (if next == .ready then assignmentPass t else t) := by
  unfold withdrawRefill
  rw [hb, he]
  rfl

theorem rests_enqueueEntry (e : QueueEntry) (s : State) : Rests n s (enqueueEntry e s) := rests_queue s _

theorem rests_backToQueue (b : BankId) (e : QueueEntry) (s : State) : Rests n s (backToQueue b e s) :=
  rests_ite _ (((rests_moveBank s b .idle none).trans (rests_offerPass _ [b])).trans (rests_enqueueEntry e _)) (.refl n s)

theorem spares_backToQueue (h : ¬ Draws s q) (b : BankId) (e : QueueEntry) : Spares q s (backToQueue b e s) := by
  have moved : Spares q s (moveBank b .idle none s) := spares_moveBank b .idle (by simp)
  unfold backToQueue
  split
  · exact (moved.trans (spares_offerPass (mt moved.draws h) [b])).trans (spares_queue _)
  · exact .refl q s

theorem stopRunning_comp (c : CompId) (next : CompState) (s : State) : (stopRunning c next s).comp c =
    { s.comp c with state := next, bank := none, entryHeld := none, refillStart := none } :=
  State.modComp_comp s c _

theorem spares_stopAndRelease (h : ¬ Cools s q) (c : CompId) (next : CompState) : Spares q s (stopAndRelease c next s) := by
  have stopped : Spares q s (stopRunning c next s) := spares_modComp c _
  exact stopped.trans (spares_releaseGrant (mt stopped.cools h) _)

/-- A compressor that stops, not in the wait list, holds nothing. -/
theorem stopAndRelease_own (h : ¬ CompWaits s n) (next : CompState) :
    (stopAndRelease n next s).comp n = { s.comp n with state := next, bank := none, entryHeld := none, refillStart := none } ∧
    ((stopAndRelease n next s).grantOf (.comp n)).grant = 0 ∧ ¬ CompWaits (stopAndRelease n next s) n := by
  obtain ⟨comp, grant, waits⟩ := releaseGrant_own (s := stopRunning n next s) (n := n) h
  exact ⟨comp.trans (stopRunning_comp n next s), grant, waits⟩

theorem CompLaw.not_waits (h : CompLaw s) (hn : (s.comp n).state ≠ .coolingWait) : ¬ CompWaits s n := fun w => hn (h.waiting n w)

theorem fillsKept_withdrawRefill (stop : StopCause) (cause : CompCause) (next : CompState) (c : CompId) (s : State) :
    FillsKept s (withdrawRefill c stop cause next s) := by
  refine fillsKept_of fun q hq => ?_
  cases hb : (s.comp c).bank with
  | none =>
    have same : withdrawRefill c stop cause next s = s := by
      unfold withdrawRefill
      rw [hb]
    rw [same]
    exact .refl q s
  | some b =>
    cases he : (s.comp c).entryHeld with
    | none =>
      have same : withdrawRefill c stop cause next s = s := by
        unfold withdrawRefill
        rw [hb, he]
      rw [same]
      exact .refl q s
    | some e =>
      rw [withdrawRefill_eq hb he]
      have directed : Spares q s (postDirective plantPort (.refillStop c b stop) s) := spares_postDirective _ _
      have queued := directed.trans (spares_backToQueue (not_draws (directed.waits hq)) b e)
      have released := queued.trans (spares_stopAndRelease (not_cools (queued.waits hq)) c next)
      refine Spares.trans ?_ (spares_postNotice _ _ _ _)
      split
      · exact released.trans spares_assignmentPass
      · exact released

/-! ### COMPRESSOR_CONFIG, COMPRESSOR_READY and COMPRESSOR_UNAVAILABLE (R83) -/

theorem compressorConfigResult (s : State) (n : CompId) (d0 d1 : Byte)
    (h : Standing (.compressorConfig plantPort [byteOf n.val, d0, d1]) s) :
    let c : Instr := .compressorConfig plantPort [byteOf n.val, d0, d1]
    if u16 d0 d1 < 1 ∨ 5000 < u16 d0 d1 then Refuses c s .range
    else if (s.comp n).state = .coolingWait ∨ (s.comp n).state = .running then Refuses c s .busy
    else Accepts c s [.byte (some (s.comp n).state.code)] none
      ((s.setComp n { s.comp n with configured := true }).setGrantOf (.comp n)
        { s.grantOf (.comp n) with demand := u16 d0 d1, floor := u16 d0 d1 }) := by
  intro c
  have owner := forComp_byteOf n (configureComp (u16 d0 d1)) (dropFrame plantPort s)
  by_cases hr : u16 d0 d1 < 1 ∨ 5000 < u16 d0 d1
  · rw [if_pos hr]
    exact refuses_intro rfl rfl (screen_passes rfl (by simp) rfl) h (owner.trans (if_pos hr))
  rw [if_neg hr]
  have owner := owner.trans (if_neg hr)
  by_cases hb : (s.comp n).state = .coolingWait ∨ (s.comp n).state = .running
  · rw [if_pos hb]
    exact refuses_intro rfl rfl (screen_passes rfl (by simp) rfl) h (owner.trans (if_pos hb))
  rw [if_neg hb]
  refine accepts_intro rfl rfl (screen_passes rfl (by simp) rfl) h ((owner.trans (if_neg hb)).trans ?_) h.evt
  refine congrArg₂ Prod.mk rfl ?_
  simp only [State.modComp_comp]
  rfl

theorem compressorReadyResult (s : State) (n : CompId) (h : Standing (.compressorReady plantPort [byteOf n.val]) s) :
    let c : Instr := .compressorReady plantPort [byteOf n.val]
    if s.esd.latched = true then Refuses c s .esdActive
    else if (s.comp n).configured = false then Refuses c s .notConfigured
    else if (s.comp n).state ≠ .unavailable then Accepts c s [.byte (some (s.comp n).state.code)] none s
    else
      Completes c s none s (fun data t => data = [.byte (some (t.comp n).state.code)] ∧
        (t.comp n).state ≠ .unavailable ∧
        ((t.comp n).state = .ready → (t.queue.filter (assignable t)).length ≤ t.coolingWaiters) ∧
        ∀ q, t.pos q = s.pos q ∧ t.chan q = s.chan q) := by
  intro c
  have owner := forComp_byteOf n readyComp (dropFrame plantPort s)
  by_cases hl : s.esd.latched = true
  · rw [if_pos hl]
    exact refuses_intro rfl rfl (screen_passes rfl (by simp) rfl) h (owner.trans (if_pos hl))
  rw [if_neg hl]
  have owner := owner.trans (if_neg hl)
  by_cases hc : (s.comp n).configured = false
  · rw [if_pos hc]
    exact refuses_intro rfl rfl (screen_passes rfl (by simp) rfl) h (owner.trans (if_pos (by simpa using hc)))
  rw [if_neg hc]
  have owner := owner.trans (if_neg (by simpa using hc))
  by_cases hu : (s.comp n).state ≠ .unavailable
  · rw [if_pos hu]
    exact accepts_intro rfl rfl (screen_passes rfl (by simp) rfl) h (owner.trans (if_neg hu)) h.evt
  rw [if_neg hu]
  obtain ⟨v, hv⟩ : ∃ v, v = postCompState n .readyReceived
    ((dropFrame plantPort s).modComp n (fun x => { x with state := .ready })) := ⟨_, rfl⟩
  have owner : forComp (byteOf n.val) readyComp (dropFrame plantPort s) =
      (assignmentPass v, .accepted [.byte (some ((assignmentPass v).comp n).state.code)] none) :=
    hv ▸ owner.trans (if_pos (Decidable.not_not.1 hu))
  have rest := (sends_postNotice .compressorState n.val
    (compData n .readyReceived ((dropFrame plantPort s).modComp n (fun x => { x with state := .ready }))) [plantPort]
    ((dropFrame plantPort s).modComp n (fun x => { x with state := .ready }))).rest
  have posted : v = { (dropFrame plantPort s).modComp n (fun x => { x with state := .ready }) with ports := v.ports } :=
    by rw [hv]; exact rest
  have ready : (v.comp n).state = .ready := by
    rw [posted]
    exact congrArg Compressor.state (State.modComp_comp (dropFrame plantPort s) n (fun x => { x with state := .ready }))
  have steady : (assignmentPass v).steady = (dropFrame plantPort s).steady := by
    rw [steady_assignmentPass, hv]
    exact (steady_postNotice ..).trans (steady_modComp _ _ _ (fun _ => rfl))
  have available : ((assignmentPass v).comp n).state ≠ .unavailable :=
    assignmentPass_available (by rw [ready]; exact CompState.noConfusion)
  have rests := assignmentPass_rests (s := v) (by rw [posted]; exact Bool.eq_false_iff.2 hl) n
  have assigns := assigns_assignmentPass v
  have positions : v.positions = s.positions ∧ v.channels = s.channels := by
    rw [posted]
    exact ⟨rfl, rfl⟩
  generalize assignmentPass v = u at *
  have trails := trails_answered plantPort 0x2B#8 [byteOf n.val] (.accepted [.byte (some (u.comp n).state.code)] none) u
  have comps (c : CompId) : (endEvent (pushReply plantPort 0x2B#8 [byteOf n.val]
      (.accepted [.byte (some (u.comp n).state.code)] none) u)).comp c = u.comp c := by rw [trails.rest]; rfl
  refine completes_intro rfl rfl (screen_passes rfl (by simp) rfl) h owner steady
    ⟨by rw [comps], by rwa [comps], fun hr => ?_, fun q => ?_⟩
  · rw [comps] at hr
    have le := of_decide_eq_false (rests hr)
    have banks : assignable (endEvent (pushReply plantPort 0x2B#8 [byteOf n.val]
      (.accepted [.byte (some (u.comp n).state.code)] none) u)) = assignable u := funext fun e => by
        unfold assignable
        rw [trails.bank]
    rw [trails.queue, banks]
    unfold State.coolingWaiters at le ⊢
    simp only [comps]
    exact Nat.le_of_not_lt le
  · rw [trails.pos, trails.chan, State.pos, State.chan, assigns.positions, assigns.channels, positions.1, positions.2]
    exact ⟨rfl, rfl⟩

theorem leaveCoolingWait_own (s : State) (n : CompId) (next : CompState) (cause : CompCause) :
    (leaveCoolingWait n next cause s).comp n = { s.comp n with state := next, requestTime := none } ∧
    ¬ CompWaits (leaveCoolingWait n next cause s) n := by
  have before : (postCompState n cause ((flushWaitNotice n s).modComp n
      (fun x => { x with state := next, requestTime := none }))).comp n = { s.comp n with state := next, requestTime := none } := by
    rw [(rests_postCompState (n := n) _ n cause).comp, State.modComp_comp, (rests_flushWaitNotice (n := n) s n).comp]
  obtain ⟨comp, waits, -⟩ := departWait_own (postCompState n cause ((flushWaitNotice n s).modComp n
      (fun x => { x with state := next, requestTime := none }))) n
  exact ⟨comp.trans before, waits⟩

theorem spares_leaveCoolingWait (h : ¬ Cools s q) (n : CompId) (next : CompState) (cause : CompCause) :
    Spares q s (leaveCoolingWait n next cause s) := by
  have posted : Spares q s (postCompState n cause ((flushWaitNotice n s).modComp n
      (fun x => { x with state := next, requestTime := none }))) :=
    ((spares_flushWaitNotice n).trans (spares_modComp n _)).trans (spares_postCompState ..)
  exact posted.trans (spares_departWait (r := .comp n) (mt (spares_dropWait (.comp n)).cools (mt posted.cools h)))

theorem compressorUnavailableResult (s : State) (n : CompId) (h : Standing (.compressorUnavailable plantPort [byteOf n.val]) s)
    (hc : CompLaw s) :
    let c : Instr := .compressorUnavailable plantPort [byteOf n.val]
    match (s.comp n).state with
    | .unavailable => Accepts c s [.byte (some CompState.unavailable.code)] none s
    | .ready =>
      Accepts c s [.byte (some CompState.unavailable.code)] none
        (postCompState n .unavailableReceived (s.setComp n { s.comp n with state := .unavailable }))
    | .coolingWait =>
      Completes c s none s (fun data t => data = [.byte (some CompState.unavailable.code)] ∧
        t.comp n = { s.comp n with state := .unavailable, requestTime := none } ∧
        (∀ w ∈ t.cooling.wait, w.who ≠ .comp n) ∧ FillsKept s t)
    | .running =>
      Completes c s none s (fun data t => data = [.byte (some CompState.unavailable.code)] ∧
        t.comp n = { s.comp n with
          state := .unavailable, bank := none, entryHeld := none, refillStart := none } ∧
        (t.grantOf (.comp n)).grant = 0 ∧ FillsKept s t) := by
  intro c
  have owner := (forComp_byteOf n unavailableComp (dropFrame plantPort s))
  have law : CompLaw (dropFrame plantPort s) := ⟨hc.running, hc.resting, hc.waiting⟩
  have kept {u : State} (hf : FillsKept (dropFrame plantPort s) u) (a : Answer) :
      FillsKept s (endEvent (pushReply plantPort 0x2C#8 [byteOf n.val] a u)) :=
    fillsKept_answered (hf.before (s := s) rfl rfl rfl rfl)
  have branch {u : State} (state : (s.comp n).state = (s.comp n).state) (hu : (u.comp n).state = .unavailable)
      (eq : unavailableComp n (dropFrame plantPort s) = compReply n u) :
      forComp (byteOf n.val) unavailableComp (dropFrame plantPort s) =
        (u, .accepted [.byte (some CompState.unavailable.code)] none) := by
    rw [owner, eq, compReply, hu]
    rfl
  cases hs : (s.comp n).state with
  | unavailable =>
    refine accepts_intro rfl rfl (screen_passes rfl (by simp) rfl) h (branch rfl hs ?_) h.evt
    unfold unavailableComp
    rw [dropFrame_comp, hs]
  | ready =>
    have eq : unavailableComp n (dropFrame plantPort s) = compReply n (dropFrame plantPort
        (postCompState n .unavailableReceived (s.setComp n { s.comp n with state := .unavailable }))) := by
      unfold unavailableComp
      rw [dropFrame_comp, hs]
      exact congrArg (compReply n) (postNotice_dropFrame .compressorState n.val (compData n .unavailableReceived
        (s.setComp n { s.comp n with state := .unavailable })) [plantPort] plantPort
        (s.setComp n { s.comp n with state := .unavailable }))
    refine accepts_intro rfl rfl (screen_passes rfl (by simp) rfl) h (branch rfl ?_ eq) ((postNotice_evt ..).trans h.evt)
    rw [dropFrame_comp, (rests_postCompState (n := n) _ n .unavailableReceived).comp, State.setComp_comp]
  | coolingWait =>
    have eq : unavailableComp n (dropFrame plantPort s) =
        compReply n (leaveCoolingWait n .unavailable .unavailableReceived (dropFrame plantPort s)) := by
      unfold unavailableComp
      rw [dropFrame_comp, hs]
    obtain ⟨comp, waits⟩ := leaveCoolingWait_own (dropFrame plantPort s) n .unavailable .unavailableReceived
    have steady := steady_leaveCoolingWait n .unavailable .unavailableReceived (dropFrame plantPort s)
    have fills : FillsKept (dropFrame plantPort s) (leaveCoolingWait n .unavailable .unavailableReceived (dropFrame plantPort s)) :=
      fillsKept_of fun q hq => spares_leaveCoolingWait (not_cools hq) n _ _
    generalize leaveCoolingWait n .unavailable .unavailableReceived (dropFrame plantPort s) = u at *
    have trails := trails_answered plantPort 0x2C#8 [byteOf n.val]
      (.accepted [.byte (some CompState.unavailable.code)] none) u
    refine completes_intro rfl rfl (screen_passes rfl (by simp) rfl) h (branch rfl (by rw [comp]) eq) steady
      ⟨rfl, ?_, ?_, kept fills _⟩
    · rw [trails.rest]
      exact comp
    · rw [trails.cooling]
      exact fun w hw e => waits ⟨w, hw, e⟩
  | running =>
    have eq : unavailableComp n (dropFrame plantPort s) =
        compReply n (withdrawRefill n .unavailable .unavailable .unavailable (dropFrame plantPort s)) := by
      unfold unavailableComp
      rw [dropFrame_comp, hs]
    have fills := fillsKept_withdrawRefill .unavailable .unavailable .unavailable n (dropFrame plantPort s)
    have steady := steady_withdrawRefill n .unavailable .unavailable .unavailable (dropFrame plantPort s)
    obtain ⟨hb, he⟩ := law.running n hs
    obtain ⟨b, hb⟩ := Option.isSome_iff_exists.1 hb
    obtain ⟨e, he⟩ := Option.isSome_iff_exists.1 he
    have result := withdrawRefill_eq hb he .unavailable .unavailable .unavailable
    dsimp only at result
    rw [if_neg (by decide)] at result
    generalize hv : backToQueue b e (postDirective plantPort (.refillStop n b .unavailable) (dropFrame plantPort s)) = v at result
    have rests : Rests n (dropFrame plantPort s) v := hv ▸ (rests_postDirective _ _ _).trans (rests_backToQueue b e _)
    obtain ⟨comp, grant, -⟩ := stopAndRelease_own (mt rests.waits (law.not_waits (by rw [dropFrame_comp, hs]; decide))) .unavailable
    have posted := rests_postNotice (n := n) (stopAndRelease n .unavailable v) .compressorState n.val
      (compData n .unavailable (stopAndRelease n .unavailable v)) [plantPort]
    rw [rests.comp, dropFrame_comp] at comp
    have comp := posted.comp.trans comp
    have grant := (congrArg (fun x => x.grant) posted.grant).trans grant
    change withdrawRefill n .unavailable .unavailable .unavailable (dropFrame plantPort s) = postNotice .compressorState n.val
      (compData n .unavailable (stopAndRelease n .unavailable v)) [plantPort] (stopAndRelease n .unavailable v) at result
    rw [← result] at comp grant
    generalize withdrawRefill n .unavailable .unavailable .unavailable (dropFrame plantPort s) = u at *
    have trails := trails_answered plantPort 0x2C#8 [byteOf n.val]
      (.accepted [.byte (some CompState.unavailable.code)] none) u
    refine completes_intro rfl rfl (screen_passes rfl (by simp) rfl) h (branch rfl (by rw [comp]) eq) steady
      ⟨rfl, ?_, ?_, kept fills _⟩
    · rw [trails.rest]
      exact comp
    · rw [trails.grantOf]
      exact grant

/-- Settles O35: the settings, the work asked for, and what UNAVAILABLE gives up. -/
theorem compressorResult : Obligations.CompressorResult := by
  refine ⟨?_, ?_, ?_⟩
  · rintro s n d0 d1 c rfl h
    exact compressorConfigResult s n d0 d1 h
  · rintro s n c rfl h
    exact compressorReadyResult s n h
  · rintro s n c rfl h hc
    exact compressorUnavailableResult s n h hc

end Sys2Proof.Machine
end

section
/-! SUPPORT. The ESD latch suspends offers, assignments and redistribution; its falling edge stops every fill and refill
(R29, R71, R84, R89, R115, R119, R120, R158, R159). -/

namespace Sys2Proof.Machine

variable {p q : PosId} {b : BankId} {c n : CompId} {s t u : State}

/-! ### What the latch suspends -/

theorem redistribute_latched (h : s.esd.latched = true) : redistribute s = s := by
  have passes : redistributePasses s = (s, [], []) := if_pos h
  unfold redistribute redistributeN
  rw [passes]
  rfl

theorem tellIdle_latched (h : s.esd.latched = true) (b : BankId) : ∃ l, tellIdle b s = { s with queue := l } := by
  unfold tellIdle
  split
  · exact ⟨s.queue, assignmentPass_latched h⟩
  · split
    · split
      · exact ⟨_, assignmentPass_latched (s := enqueue b .lowPressure s) h⟩
      · exact ⟨s.queue, rfl⟩
    · exact ⟨s.queue, rfl⟩

theorem bankIdle_latched (h : s.esd.latched = true) (b : BankId) : ∃ l, bankIdle b s = { s with queue := l } := by
  unfold bankIdle
  dsimp only
  rw [offerPass_latched [b] h]
  split
  · exact tellIdle_latched h b
  · exact ⟨s.queue, rfl⟩

theorem releaseBank_latched (h : s.esd.latched = true) (p : PosId) : releaseBank p s = s ∨
    ∃ b l, releaseBank p s = { moveBank b .idle none (s.modPos p (fun x => { x with bank := none })) with queue := l } := by
  unfold releaseBank
  split
  · exact .inl rfl
  next b _ =>
    refine .inr ⟨b, ?_⟩
    refine bankIdle_latched ?_ b
    obtain ⟨l, x, e, -⟩ := moveBank_eq b .idle none (s.modPos p (fun x => { x with bank := none }))
    rw [e]
    exact h

theorem releaseGrant_latched (h : s.esd.latched = true) (r : Requester) : releaseGrant r s = s ∨
    releaseGrant r s = setGrant r 0 (budgetChanged .release s) := by
  unfold releaseGrant
  split
  · exact .inl rfl
  · refine .inr (redistribute_latched ?_)
    cases r <;> exact h

theorem departWait_latched (h : s.esd.latched = true) (r : Requester) : departWait r s = s ∨
    departWait r s = dropWait r (budgetChanged .departed s) := by
  unfold departWait
  split
  · exact .inr (redistribute_latched h)
  · exact .inl rfl

/-! ### A fill that ends while the latch is set -/

theorem esd_of_steady (h : t.steady = s.steady) : t.esd = s.esd := (congrArg State.esd h :)

theorem endReleases_latched (h : s.esd.latched = true) (p : PosId) : Rests n s (endReleases p s) ∧
    (q ≠ p → Spares q s (endReleases p s)) := by
  have banked : (Rests n s (releaseBank p s) ∧ (q ≠ p → Spares q s (releaseBank p s))) ∧
      (releaseBank p s).esd.latched = true := by
    refine ⟨?_, by rw [esd_of_steady (steady_releaseBank p s)]; exact h⟩
    rcases releaseBank_latched h p with e | ⟨b, l, e⟩
    · rw [e]
      exact ⟨.refl n s, fun _ => .refl q s⟩
    · rw [e]
      have left : Spares q (s.modPos p (fun x => { x with bank := none }))
        (moveBank b .idle none (s.modPos p (fun x => { x with bank := none }))) := spares_moveBank b .idle (by simp)
      exact ⟨((rests_modPos s p _).trans (rests_moveBank _ b .idle none)).trans (rests_queue _ l),
        fun hq => ((spares_modPos hq _).trans left).trans (spares_queue l)⟩
  unfold endReleases
  generalize releaseBank p s = v at banked
  obtain ⟨⟨restsB, sparesB⟩, latched⟩ := banked
  have waited : (Rests n v (departWait (.pos p) v) ∧ Spares q v (departWait (.pos p) v)) ∧
      (departWait (.pos p) v).esd.latched = true := by
    refine ⟨?_, by rw [esd_of_steady (steady_departWait (.pos p) v)]; exact latched⟩
    rcases departWait_latched latched (.pos p) with e | e
    · rw [e]
      exact ⟨.refl n v, .refl q v⟩
    · rw [e]
      exact ⟨(rests_evt v _).trans (rests_dropWait _ _), (spares_budgetChanged _).trans (spares_dropWait _)⟩
  generalize departWait (.pos p) v = w at waited
  obtain ⟨⟨restsW, sparesW⟩, latched⟩ := waited
  rcases releaseGrant_latched latched (.pos p) with e | e
  · rw [e]
    exact ⟨restsB.trans restsW, fun hq => (sparesB hq).trans sparesW⟩
  · rw [e]
    have back : Spares q w (setGrant (.pos p) 0 (budgetChanged .release w)) :=
      (spares_budgetChanged _).trans (spares_setGrant fun _ _ => rfl)
    exact ⟨(restsB.trans restsW).trans ((rests_evt w _).trans (rests_setGrant _ (by simp) 0)),
      fun hq => ((sparesB hq).trans sparesW).trans back⟩

theorem rests_endMarks (p : PosId) (reason : EndReason) (s : State) : Rests n s (endMarks p reason s) := by
  obtain ⟨w, e⟩ := endMarks_eq p reason s
  rw [e]
  exact rests_of rfl rfl

theorem rests_endTells (p : PosId) (old : Position) (s : State) : Rests n s (endTells p old s) := by
  obtain ⟨x, w, g, l, e⟩ := endTells_eq p old s
  rw [e]
  exact rests_of rfl rfl

theorem endFill_latched (h : s.esd.latched = true) (p : PosId) (reason : EndReason) : Rests n s (endFill p reason s) ∧
    (q ≠ p → Spares q s (endFill p reason s)) := by
  cases hp : endable (s.pos p).state with
  | false =>
    rw [endFill_of_not_endable hp]
    exact ⟨.refl n s, fun _ => .refl q s⟩
  | true =>
    rw [endFill_eq hp]
    have latched : (endMarks p reason s).esd.latched = true := by
      obtain ⟨w, e⟩ := endMarks_eq p reason s
      rw [e]
      exact h
    obtain ⟨rests, spares⟩ := endReleases_latched (n := n) (q := q) latched p
    exact ⟨((rests_endMarks p reason s).trans rests).trans (rests_endTells p _ _),
      fun hq => ((spares_endMarks hq reason s).trans (spares hq)).trans (spares_endTells hq)⟩

/-! ### The edge at a position (R29) -/

/-- What the latch makes of a position. -/
def Position.quelled (x : Position) : Position :=
  match x.state with
  | .waitNozzle => { x with state := .idle, authorization := none, phaseTimer := none }
  | .ready => { x with state := .waitAuth, authorization := none, phaseTimer := none }
  | .pulse | .leakCheck | .ramp | .hold => { x with
    state := .ending, endReason := some .esd, holdReason := none, pulseState := none, bank := none, phaseTimer := some 3000
    staleWatch := none }
  | .unavailable | .idle | .waitAuth | .ending | .finished => x

theorem Position.quelled_of_endable {x : Position} (h : endable x.state = true) : x.quelled = { x with
    state := .ending, endReason := some .esd, holdReason := none, pulseState := none, bank := none, phaseTimer := some 3000
    staleWatch := none } := by
  unfold Position.quelled
  cases hs : x.state with
  | pulse | leakCheck | ramp | hold => rfl
  | unavailable | idle | waitAuth | waitNozzle | ready | ending | finished => rw [hs] at h; cases h

/-- What a position that ends waits for and holds: nothing. -/
structure Quelled (s : State) (p : PosId) : Prop where
  grant : (s.grantOf (.pos p)).grant = 0
  waits : ¬ Waits s p

theorem Quelled.spares (h : Quelled s p) (k : Spares p s t) : Quelled t p := ⟨k.grant h.grant, k.waits h.waits⟩

theorem spares_authorizationLost (h : q ≠ p) (why : AuthEnd) (next : PosState) : Spares q s (s.authorizationLost p why next) :=
  (spares_setPos h _).trans (spares_postNotice ..)

theorem rests_authorizationLost (p : PosId) (why : AuthEnd) (next : PosState) : Rests n s (s.authorizationLost p why next) :=
  (rests_of rfl rfl : Rests n s (s.setPos p _)).trans (rests_postNotice ..)

theorem esdAt_waitNozzle (h : (s.pos p).state = .waitNozzle) : esdAt p s = s.authorizationLost p .esd .idle := by
  rw [← loseAuthorization_waitNozzle _ h]
  unfold esdAt
  rw [h]

theorem esdAt_ready (h : (s.pos p).state = .ready) : esdAt p s = s.authorizationLost p .esd .waitAuth := by
  rw [← loseAuthorization_ready _ h]
  unfold esdAt
  rw [h]

theorem esdAt_other (hw : (s.pos p).state ≠ .waitNozzle) (hr : (s.pos p).state ≠ .ready) : esdAt p s = endFill p .esd s := by
  unfold esdAt
  split
  · contradiction
  · contradiction
  · rfl

theorem authorizationLost_pos (p : PosId) (why : AuthEnd) (next : PosState) (s : State) :
    (s.authorizationLost p why next).pos p = { s.pos p with state := next, authorization := none, phaseTimer := none } := by
  unfold State.authorizationLost
  rw [postNotice_pos, State.setPos_pos]

theorem Position.quelled_of_other {x : Position} (he : endable x.state = false) (hw : x.state ≠ .waitNozzle)
    (hr : x.state ≠ .ready) : x.quelled = x := by
  unfold Position.quelled
  cases h : x.state with
  | waitNozzle => exact absurd h hw
  | ready => exact absurd h hr
  | pulse | leakCheck | ramp | hold => rw [h] at he; cases he
  | unavailable | idle | waitAuth | ending | finished => rfl

theorem esdAt_own (p : PosId) (s : State) : (esdAt p s).pos p = (s.pos p).quelled ∧
    (endable (s.pos p).state = true → Quelled (esdAt p s) p) := by
  by_cases hw : (s.pos p).state = .waitNozzle
  · rw [esdAt_waitNozzle hw, authorizationLost_pos, Position.quelled, hw]
    exact ⟨rfl, (nomatch ·)⟩
  by_cases hr : (s.pos p).state = .ready
  · rw [esdAt_ready hr, authorizationLost_pos, Position.quelled, hr]
    exact ⟨rfl, (nomatch ·)⟩
  rw [esdAt_other hw hr]
  cases he : endable (s.pos p).state with
  | false =>
    rw [endFill_of_not_endable he, Position.quelled_of_other he hw hr]
    exact ⟨rfl, (nomatch ·)⟩
  | true =>
    have ended := endFill_ended .esd he
    rw [Position.quelled_of_endable he]
    exact ⟨ended.position, fun _ => ⟨ended.noGrant, ended.notWaiting⟩⟩

theorem esdAt_latched (h : s.esd.latched = true) (p : PosId) : Rests n s (esdAt p s) ∧ (q ≠ p → Spares q s (esdAt p s)) := by
  by_cases hw : (s.pos p).state = .waitNozzle
  · rw [esdAt_waitNozzle hw]
    exact ⟨rests_authorizationLost p _ _, fun hq => spares_authorizationLost hq _ _⟩
  by_cases hr : (s.pos p).state = .ready
  · rw [esdAt_ready hr]
    exact ⟨rests_authorizationLost p _ _, fun hq => spares_authorizationLost hq _ _⟩
  rw [esdAt_other hw hr]
  exact endFill_latched h p .esd

/-! ### The edge at a compressor (R89, R120) -/

/-- From `s` to `t` one compressor changes, no other and no fill, and no compressor comes to a grant. -/
structure Stills (c : CompId) (s t : State) : Prop where
  spares : ∀ q, Spares q s t
  rests : ∀ n, n ≠ c → Rests n s t
  grant : ∀ n, (s.grantOf (.comp n)).grant = 0 → (t.grantOf (.comp n)).grant = 0

theorem Stills.refl (c : CompId) (s : State) : Stills c s s := ⟨fun q => .refl q s, fun n _ => .refl n s, fun _ => id⟩

theorem Stills.trans (h : Stills c s t) (k : Stills c t u) : Stills c s u :=
  ⟨fun q => (h.spares q).trans (k.spares q), fun n hn => (h.rests n hn).trans (k.rests n hn), fun n => k.grant n ∘ h.grant n⟩

theorem stills_of (hs : ∀ q, Spares q s t) (hr : ∀ n, Rests n s t) : Stills c s t :=
  ⟨hs, fun n _ => hr n, fun n h => by rw [(hr n).grant]; exact h⟩

theorem stills_modComp (c : CompId) (f : Compressor → Compressor) (s : State) : Stills c s (s.modComp c f) :=
  ⟨fun _ => spares_modComp c f, fun _ hn => rests_modComp s hn f, fun _ => id⟩

theorem stills_postCompState (d c : CompId) (cause : CompCause) (s : State) : Stills d s (postCompState c cause s) :=
  stills_of (fun _ => spares_postCompState c cause) (fun _ => rests_postCompState s c cause)

theorem stills_setGrant_zero (c : CompId) (k : CoolingCause) (s : State) : Stills c s (setGrant (.comp c) 0 (budgetChanged k s)) where
  spares _ := (spares_budgetChanged k).trans (spares_setGrant fun _ _ => rfl)
  rests n hn := (rests_evt s _).trans (rests_setGrant _ (fun e => hn (Requester.comp.inj e).symm) 0)
  grant n hg := by
    rw [setGrant_grantOf]
    split
    · rfl
    · exact hg

theorem steady_backToQueue (b : BankId) (e : QueueEntry) (s : State) : (backToQueue b e s).steady = s.steady := by
  unfold backToQueue
  split
  · exact (steady_offerPass [b] _).trans (steady_moveBank b .idle none s)
  · rfl

theorem steady_stopAndRelease (c : CompId) (next : CompState) (s : State) : (stopAndRelease c next s).steady = s.steady :=
  (steady_releaseGrant ..).trans (steady_modComp _ _ _ fun _ => rfl)

theorem stopAndRelease_latched (h : s.esd.latched = true) (c : CompId) (next : CompState) :
    Stills c s (stopAndRelease c next s) ∧ ((stopAndRelease c next s).comp c).state = next := by
  have stopped : Stills c s (stopRunning c next s) := stills_modComp c _ s
  have state : ((stopRunning c next s).comp c).state = next := by rw [stopRunning_comp]
  have released : stopAndRelease c next s = stopRunning c next s ∨
      stopAndRelease c next s = setGrant (.comp c) 0 (budgetChanged .release (stopRunning c next s)) :=
    releaseGrant_latched (s := stopRunning c next s) h _
  rcases released with e | e
  · rw [e]
    exact ⟨stopped, state⟩
  · rw [e]
    exact ⟨stopped.trans (stills_setGrant_zero c .release _), state⟩

theorem backToQueue_latched (h : s.esd.latched = true) (b : BankId) (e : QueueEntry) : Stills c s (backToQueue b e s) := by
  have moved : (moveBank b .idle none s).esd.latched = true := by
    rw [esd_of_steady (steady_moveBank b .idle none s)]
    exact h
  refine stills_of (fun q => ?_) (fun n => rests_backToQueue b e s)
  unfold backToQueue
  rw [offerPass_latched [b] moved]
  split
  · exact (spares_moveBank b .idle (by simp)).trans (spares_queue _)
  · exact .refl q s

theorem withdrawRefill_latched (h : s.esd.latched = true) (stop : StopCause) (cause : CompCause) (next : CompState) (c : CompId) :
    Stills c s (withdrawRefill c stop cause next s) ∧ ((s.comp c).bank.isSome = true → (s.comp c).entryHeld.isSome = true →
      ((withdrawRefill c stop cause next s).comp c).state = next) := by
  have nothing (same : withdrawRefill c stop cause next s = s)
      (out : ¬ ((s.comp c).bank.isSome = true ∧ (s.comp c).entryHeld.isSome = true)) :
      Stills c s (withdrawRefill c stop cause next s) ∧ ((s.comp c).bank.isSome = true → (s.comp c).entryHeld.isSome = true →
        ((withdrawRefill c stop cause next s).comp c).state = next) := by
    rw [same]
    exact ⟨.refl c s, fun hb he => absurd ⟨hb, he⟩ out⟩
  rcases hb : (s.comp c).bank with _ | b
  · rw [← hb]
    refine nothing ?_ (by simp [hb])
    unfold withdrawRefill
    rw [hb]
  rcases he : (s.comp c).entryHeld with _ | e
  · rw [← hb, ← he]
    refine nothing ?_ (by simp [he])
    unfold withdrawRefill
    rw [hb, he]
  rw [withdrawRefill_eq hb he]
  generalize hv : postDirective plantPort (.refillStop c b stop) s = v
  have directed : Stills c s v := hv ▸ stills_of (fun _ => spares_postDirective _ _) (fun _ => rests_postDirective _ _ _)
  have latched : v.esd.latched = true := hv ▸ h
  have queued := backToQueue_latched (c := c) latched b e
  have latched : (backToQueue b e v).esd.latched = true := by
    rw [← latched]
    exact congrArg EsdLatch.latched (esd_of_steady (steady_backToQueue b e v))
  obtain ⟨stopped, state⟩ := stopAndRelease_latched latched c next
  have latched : (stopAndRelease c next (backToQueue b e v)).esd.latched = true := by
    rw [← latched]
    exact congrArg EsdLatch.latched (esd_of_steady (steady_stopAndRelease c next _))
  dsimp only
  rw [assignmentPass_latched latched, ite_self]
  generalize stopAndRelease c next (backToQueue b e v) = w at stopped state
  have posted : Stills c w (postCompData c (compData c cause w) w) := stills_postCompState c c cause w
  refine ⟨((directed.trans queued).trans stopped).trans posted, fun _ _ => ?_⟩
  have same : Rests c w (postCompData c (compData c cause w) w) := rests_postNotice ..
  rw [same.comp]
  exact state

theorem leaveCoolingWait_latched (h : s.esd.latched = true) (c : CompId) (next : CompState) (cause : CompCause) :
    Stills c s (leaveCoolingWait c next cause s) := by
  have flushed : Stills c s (flushWaitNotice c s) :=
    stills_of (fun _ => spares_flushWaitNotice c) (fun _ => rests_flushWaitNotice s c)
  have left := (flushed.trans (stills_modComp c (fun x => { x with state := next, requestTime := none }) _)).trans
    (stills_postCompState c c cause _)
  unfold leaveCoolingWait
  dsimp only
  have latched : (postCompState c cause ((flushWaitNotice c s).modComp c
      (fun x => { x with state := next, requestTime := none }))).esd.latched = true := by
    obtain ⟨x, v, e, -⟩ := flushWaitNotice_eq c s
    rw [postCompState, postCompData, (sends_postNotice ..).rest, e]
    exact h
  generalize postCompState c cause ((flushWaitNotice c s).modComp c
    (fun x => { x with state := next, requestTime := none })) = v at left latched
  rcases departWait_latched latched (.comp c) with e | e
  · rw [e]
    exact left
  · rw [e]
    exact left.trans (stills_of (fun _ => (spares_budgetChanged _).trans (spares_dropWait _))
      (fun _ => (rests_evt v _).trans (rests_dropWait _ _)))

end Sys2Proof.Machine
end

section
/-! SUPPORT. The falling edge of ESD_N: each block is told once, in any order (R29, R89, R120, R158, R159, R161). -/

namespace Sys2Proof.Machine

variable {p q : PosId} {b : BankId} {c n : CompId} {s t u : State}

/-! ### Actions taken once each -/

/-- What one element of a fold brings about stays, where no other element touches it. -/
theorem foldl_once {α : Type} {f : State → α → State} {a : α} {keep before after : State → Prop} {l : List α}
    (once : l.Nodup) (mem : a ∈ l) (hk : ∀ s, ∀ x ∈ l, keep s → keep (f s x))
    (hb : ∀ s, ∀ x ∈ l, x ≠ a → keep s → before s → before (f s x)) (ha : ∀ s, keep s → before s → after (f s a))
    (hl : ∀ s, ∀ x ∈ l, x ≠ a → keep s → after s → after (f s x)) (h : keep s) (hs : before s) : after (l.foldl f s) := by
  induction l generalizing s with
  | nil => cases mem
  | cons x l ih =>
    obtain ⟨out, once⟩ := List.nodup_cons.1 once
    by_cases e : x = a
    · subst e
      have rest (m : List α) (hm : ∀ y ∈ m, y ∈ x :: l) (hn : x ∉ m) (u : State) (hu : keep u) (hf : after u) :
          after (m.foldl f u) := by
        induction m generalizing u with
        | nil => exact hf
        | cons y m ih =>
          have apart : y ≠ x := fun e => hn (e ▸ List.mem_cons_self)
          exact ih (fun z hz => hm z (List.mem_cons_of_mem _ hz)) (fun h => hn (List.mem_cons_of_mem _ h)) _
            (hk u y (hm y List.mem_cons_self) hu) (hl u y (hm y List.mem_cons_self) apart hu hf)
      exact rest l (fun y hy => List.mem_cons_of_mem _ hy) out _ (hk s x List.mem_cons_self h) (ha s h hs)
    · refine ih once ((List.mem_cons.1 mem).resolve_left (Ne.symm e))
        (fun s y hy => hk s y (List.mem_cons_of_mem _ hy)) (fun s y hy => hb s y (List.mem_cons_of_mem _ hy))
        (fun s y hy => hl s y (List.mem_cons_of_mem _ hy)) (hk s x List.mem_cons_self h) ?_
      exact hb s x List.mem_cons_self e h hs

theorem foldl_keep {α : Type} {f : State → α → State} {keep : State → Prop} {l : List α}
    (hk : ∀ s, ∀ x ∈ l, keep s → keep (f s x)) (h : keep s) : keep (l.foldl f s) := by
  induction l generalizing s with
  | nil => exact h
  | cons x l ih => exact ih (fun s y hy => hk s y (List.mem_cons_of_mem _ hy)) (hk s x List.mem_cons_self h)

/-! ### What the edge changes nowhere -/

/-- What cascades leave alone, but for the positions. -/
def State.elsewhere (s : State) : State := { s.steady with positions := Vector.replicate 8 .initial }

theorem steady_of_elsewhere (h : t.elsewhere = s.elsewhere) (hp : ∀ p, (t.pos p).steady = (s.pos p).steady) :
    t.steady = s.steady := by
  have positions : t.positions.map Position.steady = s.positions.map Position.steady := by
    refine Vector.ext fun i hi => ?_
    simpa [State.pos] using hp ⟨i, hi⟩
  have split (u : State) : u.steady = { u.elsewhere with positions := u.positions.map Position.steady } := rfl
  rw [split t, split s, h, positions]

theorem elsewhere_of_steady (h : t.steady = s.steady) : t.elsewhere = s.elsewhere := by
  rw [State.elsewhere, h]
  rfl

theorem elsewhere_authorizationLost (p : PosId) (why : AuthEnd) (next : PosState) (s : State) :
    (s.authorizationLost p why next).elsewhere = s.elsewhere :=
  (elsewhere_of_steady (steady_postNotice ..)).trans rfl

theorem elsewhere_esdAt (p : PosId) (s : State) : (esdAt p s).elsewhere = s.elsewhere := by
  by_cases hw : (s.pos p).state = .waitNozzle
  · rw [esdAt_waitNozzle hw, elsewhere_authorizationLost]
  by_cases hr : (s.pos p).state = .ready
  · rw [esdAt_ready hr, elsewhere_authorizationLost]
  rw [esdAt_other hw hr]
  exact elsewhere_of_steady (steady_endFill ..)

theorem compressorEsd_latched (h : s.esd.latched = true) (c : CompId) : Stills c s (compressorEsd s c) := by
  unfold compressorEsd
  split
  · exact (withdrawRefill_latched h .esd .esd .ready c).1
  · exact leaveCoolingWait_latched h c .ready .esd
  · exact .refl c s
  · exact .refl c s

/-- A compressor that the latch has stopped. -/
def Compressor.stopped (x : Compressor) : CompState := if x.state = .unavailable then .unavailable else .ready

theorem compressorEsd_own (h : s.esd.latched = true)
    (hc : (s.comp c).state = .running → (s.comp c).bank.isSome = true ∧ (s.comp c).entryHeld.isSome = true) :
    ((compressorEsd s c).comp c).state = (s.comp c).stopped := by
  unfold compressorEsd Compressor.stopped
  cases hs : (s.comp c).state with
  | running =>
    obtain ⟨hb, he⟩ := hc hs
    exact (withdrawRefill_latched h .esd .esd .ready c).2 hb he
  | coolingWait => exact congrArg Compressor.state (leaveCoolingWait_own s c .ready .esd).1
  | ready => exact hs
  | unavailable => exact hs

theorem steady_compressorEsd (s : State) (c : CompId) : (compressorEsd s c).steady = s.steady := by
  unfold compressorEsd
  split
  · exact steady_withdrawRefill ..
  · exact steady_leaveCoolingWait ..
  · rfl
  · rfl

/-- A compressor gives up its grant at the latch (R120). -/
def grantGone (s : State) (c : CompId) : State :=
  if (s.grantOf (.comp c)).grant = 0 then s else setGrant (.comp c) 0 (budgetChanged .esd s)

theorem grantGone_latched (s : State) (c : CompId) : Stills c s (grantGone s c) ∧
    ((grantGone s c).grantOf (.comp c)).grant = 0 ∧ (grantGone s c).comps = s.comps := by
  unfold grantGone
  split
  next h => exact ⟨.refl c s, h, rfl⟩
  · exact ⟨stills_setGrant_zero c .esd s, by rw [setGrant_grantOf, if_pos rfl], rfl⟩

theorem steady_grantGone (s : State) (c : CompId) : (grantGone s c).steady = s.steady := by
  unfold grantGone
  split
  · rfl
  · exact steady_setGrant ..

/-! ### One action of the edge -/

theorem esdAction_elsewhere (s : State) (a : LossAction) : (esdAction s a).elsewhere = s.elsewhere := by
  cases a with
  | position p => exact elsewhere_esdAt p s
  | refill => exact elsewhere_of_steady (steady_foldl _ _ steady_compressorEsd s)
  | cooling => exact elsewhere_of_steady (steady_foldl _ _ steady_grantGone s)
  | lanes => rfl
  | banks => rfl

theorem esdAction_esd (s : State) (a : LossAction) : (esdAction s a).esd = s.esd :=
  (congrArg State.esd (esdAction_elsewhere s a) :)

theorem esdAction_latched (a : LossAction) (h : s.esd.latched = true) : (esdAction s a).esd.latched = true := by
  rw [esdAction_esd]
  exact h

/-- A fold over compressors, each of whose steps touches one alone while the latch is set. -/
structure StillsEach (f : State → CompId → State) : Prop where
  stills : ∀ s c, s.esd.latched = true → Stills c s (f s c)
  steady : ∀ s c, (f s c).steady = s.steady

theorem StillsEach.latched {f : State → CompId → State} (hf : StillsEach f) (c : CompId) (h : s.esd.latched = true) :
    (f s c).esd.latched = true := by
  rw [esd_of_steady (hf.steady s c)]
  exact h

theorem StillsEach.spares {f : State → CompId → State} (hf : StillsEach f) (h : s.esd.latched = true) (l : List CompId) :
    Spares q s (l.foldl f s) := by
  refine (foldl_keep (keep := fun u => Spares q s u ∧ u.esd.latched = true) (fun u c _ hu => ?_) ⟨.refl q s, h⟩).1
  exact ⟨hu.1.trans ((hf.stills u c hu.2).spares q), hf.latched c hu.2⟩

theorem StillsEach.noGrant {f : State → CompId → State} (hf : StillsEach f) (h : s.esd.latched = true) (l : List CompId)
    (hg : (s.grantOf (.comp n)).grant = 0) : ((l.foldl f s).grantOf (.comp n)).grant = 0 := by
  refine (foldl_keep (keep := fun u => (u.grantOf (.comp n)).grant = 0 ∧ u.esd.latched = true) (fun u c _ hu => ?_) ⟨hg, h⟩).1
  exact ⟨(hf.stills u c hu.2).grant n hu.1, hf.latched c hu.2⟩

theorem stillsEach_compressorEsd : StillsEach compressorEsd := ⟨fun _ c h => compressorEsd_latched h c, steady_compressorEsd⟩

theorem stillsEach_grantGone : StillsEach grantGone := ⟨fun s c _ => (grantGone_latched s c).1, steady_grantGone⟩

theorem mem_allComps_nodup : allComps.Nodup ∧ ∀ n, n ∈ allComps := by decide

/-- Actions other than its own leave a position. -/
theorem esdAction_spares (h : s.esd.latched = true) {a : LossAction} (ha : a ≠ .position q) : Spares q s (esdAction s a) := by
  cases a with
  | position p => exact (esdAt_latched (n := 0) h p).2 fun e => ha (e ▸ rfl)
  | refill => exact stillsEach_compressorEsd.spares h allComps
  | cooling => exact stillsEach_grantGone.spares h allComps
  | lanes => exact .refl q s
  | banks => exact .refl q s

/-- Actions other than those of refill and cooling leave a compressor. -/
theorem esdAction_rests (h : s.esd.latched = true) {a : LossAction} (hr : a ≠ .refill) (hc : a ≠ .cooling) :
    Rests n s (esdAction s a) := by
  cases a with
  | position p => exact (esdAt_latched (q := p) h p).1
  | refill => exact absurd rfl hr
  | cooling => exact absurd rfl hc
  | lanes => exact .refl n s
  | banks => exact .refl n s

theorem grantsGone_comps (s : State) (l : List CompId) : (l.foldl grantGone s).comps = s.comps :=
  foldl_keep (keep := fun u => u.comps = s.comps) (fun u c _ hu => ((grantGone_latched u c).2.2).trans hu) rfl

/-- Actions other than that of refill leave the records of the compressors. -/
theorem esdAction_comp (h : s.esd.latched = true) {a : LossAction} (ha : a ≠ .refill) :
    (esdAction s a).comp n = s.comp n := by
  by_cases hc : a = .cooling
  · subst hc
    have same := grantsGone_comps s allComps
    exact congrArg (fun v : Vector Compressor 2 => v[n]) same
  · exact (esdAction_rests h ha hc).comp

/-- After its action no compressor holds a grant. -/
theorem grantsGone_none (h : s.esd.latched = true) (n : CompId) : ((compressorGrantsGone s).grantOf (.comp n)).grant = 0 := by
  refine foldl_once (f := grantGone) (a := n) (keep := fun u => u.esd.latched = true) (before := fun _ => True)
    (after := fun u => (u.grantOf (.comp n)).grant = 0) mem_allComps_nodup.1 (mem_allComps_nodup.2 n)
    (fun u c _ hu => stillsEach_grantGone.latched c hu) (fun _ _ _ _ _ _ => trivial) (fun u _ _ => (grantGone_latched u n).2.1)
    (fun u c _ _ hu hg => ((grantGone_latched u c).1).grant n hg) h trivial

theorem esdAction_noGrant (h : s.esd.latched = true) (a : LossAction) (hg : (s.grantOf (.comp n)).grant = 0) :
    ((esdAction s a).grantOf (.comp n)).grant = 0 := by
  cases a with
  | position p => exact ((esdAction_rests (n := n) h (a := .position p) (by simp) (by simp)).grant ▸ hg)
  | refill => exact stillsEach_compressorEsd.noGrant h allComps hg
  | cooling => exact grantsGone_none h n
  | lanes => exact hg
  | banks => exact hg

/-- After its action a compressor has stopped. -/
theorem esdRefill_stopped (h : s.esd.latched = true) (n : CompId)
    (hn : (s.comp n).state = .running → (s.comp n).bank.isSome = true ∧ (s.comp n).entryHeld.isSome = true) :
    ((esdAction s .refill).comp n).state = (s.comp n).stopped := by
  refine foldl_once (f := compressorEsd) (a := n) (keep := fun u => u.esd.latched = true) (before := fun u => u.comp n = s.comp n)
    (after := fun u => (u.comp n).state = (s.comp n).stopped) mem_allComps_nodup.1 (mem_allComps_nodup.2 n)
    (fun u c _ hu => stillsEach_compressorEsd.latched c hu) (fun u c _ hc hu hs => ?_) (fun u hu hs => ?_)
    (fun u c _ hc hu hs => ?_) h rfl
  · rw [((compressorEsd_latched hu c).rests n (Ne.symm hc)).comp]
    exact hs
  · rw [← hs] at hn ⊢
    exact compressorEsd_own hu hn
  · rw [((compressorEsd_latched hu c).rests n (Ne.symm hc)).comp]
    exact hs

/-! ### The edge -/

/-- The blocks the edge tells. -/
def esdActions : List LossAction := allPositions.map .position ++ [.refill, .cooling]

theorem esdActions_nodup : esdActions.Nodup := by decide

theorem mem_esdActions : (∀ p, .position p ∈ esdActions) ∧ .refill ∈ esdActions ∧ .cooling ∈ esdActions := by decide

/-- The latch set and noticed, its cause named, the order of the blocks chosen. -/
def State.edgeTaken (s : State) : State :=
  ((budgetCause .esd (postEsd (setLatch true .edge s))).permute esdActions).1

theorem setEsd_eq (s : State) : ∃ l : List LossAction, setEsd s = l.foldl esdAction s.edgeTaken ∧ l.Nodup ∧ ∀ a, a ∈ l ↔ a ∈ esdActions := by
  obtain ⟨-, perm⟩ := (budgetCause .esd (postEsd (setLatch true .edge s))).permute_spec esdActions
  exact ⟨_, rfl, perm.nodup_iff.2 esdActions_nodup, fun a => perm.mem_iff⟩

theorem edgeTaken_rest (s : State) : s.edgeTaken = { s with
    esd := ⟨true, some ⟨.edge, ⟨s.clock, s.tod⟩⟩⟩, ports := s.edgeTaken.ports, evt := s.edgeTaken.evt
    freeCtr := s.freeCtr + 10 } := by
  have posted : postEsd (setLatch true .edge s) = { setLatch true .edge s with ports := (postEsd (setLatch true .edge s)).ports } :=
    (sends_postNotice ..).rest
  unfold State.edgeTaken
  rw [(State.permute_spec _ _).1]
  generalize postEsd (setLatch true .edge s) = v at posted
  rw [posted]
  rfl

/-- What the edge leaves: each block told. -/
structure Edged (s t : State) : Prop where
  pos : ∀ p, t.pos p = (s.pos p).quelled
  quelled : ∀ p, endable (s.pos p).state = true → Quelled t p
  comp : ∀ n, ((s.comp n).state = .running → (s.comp n).bank.isSome = true ∧ (s.comp n).entryHeld.isSome = true) →
    (t.comp n).state = (s.comp n).stopped
  grant : ∀ n, (t.grantOf (.comp n)).grant = 0
  elsewhere : t.elsewhere = s.edgeTaken.elsewhere

theorem setEsd_edged (s : State) : Edged s (setEsd s) := by
  obtain ⟨l, eq, once, mem⟩ := setEsd_eq s
  have rest := edgeTaken_rest s
  have start : s.edgeTaken.esd.latched = true := by rw [rest]
  have positions (p : PosId) : s.edgeTaken.pos p = s.pos p := by rw [rest]; rfl
  have comps (n : CompId) : s.edgeTaken.comp n = s.comp n := by rw [rest]; rfl
  have keeps (u : State) (a : LossAction) (_ : a ∈ l) (h : u.esd.latched = true) : (esdAction u a).esd.latched = true :=
    esdAction_latched a h
  rw [eq]
  refine ⟨fun p => ?_, fun p hp => ?_, fun n hn => ?_, fun n => ?_, ?_⟩
  · rw [← positions]
    exact foldl_once (f := esdAction) (a := .position p) (keep := fun u => u.esd.latched = true)
      (before := fun u => u.pos p = s.edgeTaken.pos p) (after := fun u => u.pos p = (s.edgeTaken.pos p).quelled) once
      ((mem _).2 (mem_esdActions.1 p)) keeps (fun u a _ ha hu hs => ((esdAction_spares hu ha).pos).trans hs)
      (fun u _ hs => by rw [← hs]; exact (esdAt_own p u).1) (fun u a _ ha hu hs => ((esdAction_spares hu ha).pos).trans hs)
      start rfl
  · refine foldl_once (f := esdAction) (a := .position p) (keep := fun u => u.esd.latched = true)
      (before := fun u => u.pos p = s.edgeTaken.pos p) (after := fun u => Quelled u p) once
      ((mem _).2 (mem_esdActions.1 p)) keeps (fun u a _ ha hu hs => ((esdAction_spares hu ha).pos).trans hs)
      (fun u _ hs => (esdAt_own p u).2 (by rw [hs, positions]; exact hp))
      (fun u a _ ha hu hs => hs.spares (esdAction_spares hu ha)) start rfl
  · rw [← comps] at hn ⊢
    refine foldl_once (f := esdAction) (a := .refill) (keep := fun u => u.esd.latched = true)
      (before := fun u => u.comp n = s.edgeTaken.comp n) (after := fun u => (u.comp n).state = (s.edgeTaken.comp n).stopped) once
      ((mem _).2 mem_esdActions.2.1) keeps (fun u a _ ha hu hs => ?_)
      (fun u hu hs => by rw [← hs] at hn ⊢; exact esdRefill_stopped hu n hn) (fun u a _ ha hu hs => ?_) start rfl
    · exact (esdAction_comp hu ha).trans hs
    · rw [esdAction_comp hu ha]
      exact hs
  · exact foldl_once (f := esdAction) (a := .cooling) (keep := fun u => u.esd.latched = true) (before := fun _ => True)
      (after := fun u => (u.grantOf (.comp n)).grant = 0) once ((mem _).2 mem_esdActions.2.2) keeps
      (fun _ _ _ _ _ _ => trivial) (fun u hu _ => grantsGone_none hu n)
      (fun u a _ _ hu hg => esdAction_noGrant hu a hg) start trivial
  · exact foldl_keep (keep := fun u => u.elsewhere = s.edgeTaken.elsewhere)
      (fun u a _ hu => (esdAction_elsewhere u a).trans hu) rfl

end Sys2Proof.Machine
end

section
/-! SUPPORT. ESD_N_FALLING_EDGE (R29, R89, R119, R120, R158, R159, R161). -/

namespace Sys2Proof.Machine

variable {p q : PosId} {b : BankId} {c n : CompId} {s t u : State}

/-! ### Notices through the edge -/

theorem hears_loseAuthorization (p : PosId) (why : AuthEnd) (s : State) : Hears s (loseAuthorization p why s) := by
  have lost (next : PosState) : Hears s (s.authorizationLost p why next) :=
    (hears_of_ports rfl : Hears s (s.setPos p _)).trans (hears_postNotice _ _ _ _ _)
  by_cases hw : (s.pos p).state = .waitNozzle
  · rw [loseAuthorization_waitNozzle _ hw]
    exact lost _
  by_cases hr : (s.pos p).state = .ready
  · rw [loseAuthorization_ready _ hr]
    exact lost _
  rw [loseAuthorization_other _ hw hr]
  exact .refl s

theorem hears_esdAction (s : State) (a : LossAction) : Hears s (esdAction s a) := by
  cases a with
  | position p =>
    change Hears s (esdAt p s)
    unfold esdAt
    split
    · exact hears_loseAuthorization p _ s
    · exact hears_loseAuthorization p _ s
    · exact (moves_endFill p _ .refl).hears
  | refill => exact (moves_foldl _ _ moves_compressorEsd s).hears
  | cooling => exact (moves_compressorGrantsGone s).hears
  | lanes => exact .refl s
  | banks => exact .refl s

theorem edgeTaken_noticed (s : State) (n : PortId) : Noticed s.edgeTaken n .esd 255 := by
  have posted : Noticed (postEsd (setLatch true .edge s)) n .esd 255 :=
    postNotice_noticed (by revert n; decide) (by rw [Port.passes]; rfl) 255 _
  exact posted.hears (hears_of_ports rfl)

theorem setEsd_noticed (s : State) (n : PortId) : Noticed (setEsd s) n .esd 255 := by
  obtain ⟨l, eq, -⟩ := setEsd_eq s
  rw [eq]
  exact (edgeTaken_noticed s n).hears (hears_foldl _ _ hears_esdAction _)

/-! ### What the edge changes outside the cascades -/

/-- A position without the authorization it had before START. -/
def Position.unauthorized (x : Position) : Position :=
  if x.state = .waitNozzle ∨ x.state = .ready then { x with authorization := none } else x

theorem Position.quelled_steady (x : Position) : x.quelled.steady = x.unauthorized.steady := by
  unfold Position.quelled Position.unauthorized
  cases h : x.state <;> rfl

/-- The edge takes the authorizations back, and sets the latch. -/
def State.edged (s : State) : State := { s with
  esd := ⟨true, some ⟨.edge, ⟨s.clock, s.tod⟩⟩⟩, positions := s.positions.map Position.unauthorized
  freeCtr := s.freeCtr + 10 }

theorem elsewhere_postEsd (s : State) : (postEsd s).elsewhere = s.elsewhere ∧ (postEsd s).freeCtr = s.freeCtr := by
  refine ⟨elsewhere_of_steady (steady_postNotice ..), ?_⟩
  rw [postEsd, (sends_postNotice ..).rest]

theorem elsewhere_permuted (s : State) : ((budgetCause .esd s).permute esdActions).1.elsewhere =
    { s.elsewhere with freeCtr := s.freeCtr + 10 } := rfl

theorem edgeTaken_elsewhere (s : State) : s.edgeTaken.elsewhere = { (setLatch true .edge s).elsewhere with
    freeCtr := s.freeCtr + 10 } := by
  obtain ⟨rest, count⟩ := elsewhere_postEsd (setLatch true .edge s)
  rw [State.edgeTaken, elsewhere_permuted, rest, count]
  rfl

theorem setEsd_steady (s : State) : (setEsd s).steady = s.edged.steady := by
  have edged := setEsd_edged s
  refine steady_of_elsewhere ?_ fun p => ?_
  · rw [edged.elsewhere, edgeTaken_elsewhere]
    rfl
  · rw [edged.pos]
    refine (Position.quelled_steady _).trans (congrArg Position.steady ?_)
    simp [State.edged, State.pos]

/-- Settles O45: with the latch set every block stops what it drives and nobody is served from what is released. -/
theorem esdEdgeStopsTheStation : Obligations.EsdEdgeStopsTheStation := by
  intro s low e
  refine ⟨fun h => ?_, fun h hl => ?_, fun h hl hc => ?_⟩
  · have idle : (low.phase == Phase.serving) = false := by simpa using h
    exact congrArg Host.Outcome.next (if_neg (by rw [idle]; decide))
  · have serving : (low.phase == Phase.serving) = true := by simpa using h.serving
    have taken : exec .esdNFallingEdge s = .next (endEvent low) :=
      congrArg Host.Outcome.next ((if_pos serving).trans (congrArg endEvent (if_pos hl)))
    exact ⟨_, taken, delivers_endEvent low (by rw [show low.evt = .empty from h.between]; rfl)
      (by rw [show low.evt = .empty from h.between]; rfl)⟩
  · have taken : exec .esdNFallingEdge s = .next (endEvent (setEsd low)) := by
      have serving : (low.phase == Phase.serving) = true := by simpa using h.serving
      exact congrArg Host.Outcome.next ((if_pos serving).trans (congrArg endEvent (if_neg (Bool.eq_false_iff.1 hl))))
    have edged := setEsd_edged low
    have trails := trails_endEvent (setEsd low)
    refine ⟨_, taken, ?_, fun p hp => ?_, fun p hp => ?_, fun p hp => ?_, fun p he hw hr => ?_, fun n => ⟨?_, ?_⟩, fun n => ?_⟩
    · rw [steady_endEvent, setEsd_steady]
      rfl
    · have quelled := edged.quelled p hp
      rw [trails.pos, edged.pos, trails.grantOf, Position.quelled_of_endable (x := low.pos p) hp, Waits, trails.drawList, trails.cooling]
      exact ⟨rfl, rfl, rfl, quelled.grant, quelled.waits⟩
    · rw [trails.pos, edged.pos, Position.quelled, show (low.pos p).state = .waitNozzle from hp]
      rfl
    · rw [trails.pos, edged.pos, Position.quelled, show (low.pos p).state = .ready from hp]
      rfl
    · rw [trails.pos, edged.pos]
      exact Position.quelled_of_other he hw hr
    · rw [trails.grantOf]
      exact edged.grant n
    · have comp : (endEvent (setEsd low)).comp n = (setEsd low).comp n := by rw [trails.rest]; rfl
      rw [comp]
      exact edged.comp n (hc.running n)
    · exact (setEsd_noticed low n).hears (hears_endEvent _)

end Sys2Proof.Machine
end

section
/-! SUPPORT. ESD_CLEAR, and a falling edge of ESD_N that comes together with it (R84, R158 to R161, R174, R175). -/

namespace Sys2Proof.Machine

variable {p q : PosId} {b : BankId} {c : CompId} {n : PortId} {s t u : State} {m : Notice}

/-! ### The ESD notices that are pending -/

theorem postNotice_port {ports : List PortId} (once : ports.Nodup) (k : NoticeKind) (j : Nat) (data : List Field) (s : State)
    (n : PortId) : (postNotice k j data ports s).port n =
      if n ∈ ports then (s.port n).post s.clock k j data else s.port n := by
  induction ports generalizing s with
  | nil => rfl
  | cons a l ih =>
    obtain ⟨out, once⟩ := List.nodup_cons.1 once
    rw [postNotice, List.foldl_cons]
    change (postNotice k j data l (s.modPort a fun x => x.post s.clock k j data)).port n = _
    rw [ih once]
    by_cases e : n = a
    · subst e
      rw [if_neg out, if_pos List.mem_cons_self, State.modPort_port]
    · rw [State.modPort_port_ne _ _ _ _ e]
      simp only [List.mem_cons, e, false_or]
      rfl

theorem Port.passes_esd (x : Port) : x.passes .esd = true := rfl

/-- The first ESD notice of a port (R174). -/
theorem Port.esdPending_post (x : Port) (h : x.esdPending = []) (now : Clock) (data : List Field) :
    (x.post now .esd 255 data).esdPending = [⟨.esd, 255, data, 0, now⟩] := by
  have none : x.pending.any (fun n => n.kind == .esd && n.subject == 255) = false := by
    rw [List.any_eq_false]
    intro m hm
    have apart := List.filter_eq_nil_iff.1 h m hm
    simp only [Bool.and_eq_true, not_and]
    exact fun e => absurd e apart
  unfold Port.post
  rw [if_pos x.passes_esd, if_neg (by rw [none]; decide), Port.esdPending, List.filter_append]
  rw [Port.esdPending] at h
  rw [h]
  rfl

/-- The second one takes its place (R174). -/
theorem Port.esdPending_coalesce (x : Port) (h : x.esdPending = [m]) (hm : m.subject = 255) (now : Clock) (data : List Field) :
    (x.post now .esd 255 data).esdPending = [m.coalesce data] := by
  have mem : m ∈ x.pending ∧ (m.kind == .esd) = true := List.mem_filter.1 (by
    rw [← Port.esdPending, h]
    exact List.mem_singleton.2 rfl)
  have pending : x.pending.any (fun n => n.kind == .esd && n.subject == 255) = true :=
    List.any_eq_true.2 ⟨m, mem.1, by rw [mem.2, hm]; rfl⟩
  have kinds (y : Notice) : ((if y.kind == .esd && y.subject == 255 then y.coalesce data else y).kind == NoticeKind.esd) =
      (y.kind == NoticeKind.esd) := by
    split <;> rfl
  unfold Port.post
  rw [if_pos x.passes_esd, if_pos pending, Port.esdPending, List.filter_map]
  have filtered : x.pending.filter ((fun n => n.kind == NoticeKind.esd) ∘
      fun n => if n.kind == .esd && n.subject == 255 then n.coalesce data else n) = [m] := by
    rw [← h, Port.esdPending]
    exact congrArg (fun f => x.pending.filter f) (funext kinds)
  rw [filtered, List.map_singleton, mem.2, hm]
  rfl

theorem Port.latest_of_esdPending {x : Port} (h : x.esdPending = [m]) (hm : m.subject = 255) :
    x.Latest .esd 255 (fun y => y = m) := by
  have mem : m ∈ x.pending ∧ (m.kind == .esd) = true := List.mem_filter.1 (by
    rw [← Port.esdPending, h]
    exact List.mem_singleton.2 rfl)
  refine ⟨⟨m, List.mem_append_right _ mem.1, by simpa using mem.2, hm, rfl⟩, fun y hy hk _ => ?_⟩
  have : y ∈ x.esdPending := List.mem_filter.2 ⟨hy, by rw [hk]; rfl⟩
  rw [h] at this
  exact List.mem_singleton.1 this

/-- What posts no ESD notice and sends none leaves those of every port. -/
def SameEsd (s t : State) : Prop := ∀ n, (t.port n).esdPending = (s.port n).esdPending

theorem SameEsd.trans (h : SameEsd s t) (k : SameEsd t u) : SameEsd s u := fun n => (k n).trans (h n)

theorem Moves.sameEsd (h : Moves s t) : SameEsd s t := fun n => (h.told n).esd

theorem sameEsd_of_ports (h : t.ports = s.ports) : SameEsd s t := fun n => by rw [State.port, h]; rfl

theorem sameEsd_foldl {α : Type} (l : List α) (f : State → α → State) (hf : ∀ s a, SameEsd s (f s a)) (s : State) :
    SameEsd s (l.foldl f s) := by
  induction l generalizing s with
  | nil => exact fun _ => rfl
  | cons a l ih => exact (hf s a).trans (ih _)

theorem sameEsd_postNotice {k : NoticeKind} (hk : k ≠ .esd) (j : Nat) (data : List Field) (ports : List PortId) (s : State) :
    SameEsd s (postNotice k j data ports s) := (moves_postNotice j data ports hk .refl).sameEsd

theorem sameEsd_modPort {f : Port → Port} (hf : ∀ x : Port, (f x).esdPending = x.esdPending) (d : PortId) (s : State) :
    SameEsd s (s.modPort d f) := by
  intro n
  by_cases e : n = d
  · subst e
    rw [State.modPort_port]
    exact hf _
  · rw [State.modPort_port_ne _ _ _ _ e]

theorem sameEsd_pushReply (n : PortId) (kind : Byte) (args : List Byte) (a : Answer) (s : State) :
    SameEsd s (pushReply n kind args a s) :=
  sameEsd_modPort (f := fun x => { x with replies := x.replies ++ [_] }) (fun _ => rfl) n s

theorem sameEsd_postWaitNotices (s : State) : SameEsd s (postWaitNotices s) := by
  refine sameEsd_foldl _ _ (fun u c => ?_) s
  split
  · exact sameEsd_postNotice (by decide) _ _ _ _
  · exact fun _ => rfl

theorem sameEsd_postCoolingState (s : State) : SameEsd s (postCoolingState s) := by
  unfold postCoolingState
  split
  · exact sameEsd_postNotice (by decide) _ _ _ _
  · exact fun _ => rfl

theorem posted_edgeNext (s : State) : (postCoolingState (postWaitNotices s)).evt.edgeNext = s.evt.edgeNext := by
  have waited : (postWaitNotices s).evt = s.evt := by
    refine foldl_keep (keep := fun u => u.evt = s.evt) (fun u c _ hu => ?_) rfl
    split
    · exact (postNotice_evt ..).trans hu
    · exact hu
  unfold postCoolingState
  split
  · rw [postNotice_evt, waited]
  · rw [waited]

/-- Where an edge comes next, no line begins a frame (R160). -/
theorem sameEsd_endEvent (h : s.evt.edgeNext = true) : SameEsd s (endEvent s) := by
  have told := (sameEsd_postWaitNotices s).trans (sameEsd_postCoolingState _)
  have edge := (posted_edgeNext s).trans h
  unfold endEvent
  dsimp only
  rw [if_pos edge]
  exact told.trans (sameEsd_of_ports rfl)

/-- The end of an event leaves the ESD notice of a port, pending or on the line. -/
theorem latest_endEvent_esd {P : Notice → Prop} (h : (s.port n).Latest .esd 255 P) : ((endEvent s).port n).Latest .esd 255 P := by
  have waited : ((postWaitNotices s).port n).Latest .esd 255 P := by
    refine latest_foldl _ _ (fun u c _ hu => ?_) s h
    split
    · exact latest_postNotice (.inl (by decide)) _ _ hu
    · exact hu
  have cooled : ((postCoolingState (postWaitNotices s)).port n).Latest .esd 255 P := by
    generalize postWaitNotices s = u at waited
    unfold postCoolingState
    split
    · exact latest_postNotice (.inl (by decide)) _ _ waited
    · exact waited
  unfold endEvent
  dsimp only
  generalize postCoolingState (postWaitNotices s) = u at cooled
  cases u.evt.edgeNext with
  | true => exact cooled
  | false => exact latest_transmitAll cooled

theorem sameEsd_loseAuthorization (p : PosId) (why : AuthEnd) (s : State) : SameEsd s (loseAuthorization p why s) := by
  have lost (next : PosState) : SameEsd s (s.authorizationLost p why next) :=
    (sameEsd_of_ports rfl : SameEsd s (s.setPos p _)).trans (sameEsd_postNotice (by decide) _ _ _ _)
  by_cases hw : (s.pos p).state = .waitNozzle
  · rw [loseAuthorization_waitNozzle _ hw]
    exact lost _
  by_cases hr : (s.pos p).state = .ready
  · rw [loseAuthorization_ready _ hr]
    exact lost _
  rw [loseAuthorization_other _ hw hr]
  exact fun _ => rfl

theorem sameEsd_esdAction (s : State) (a : LossAction) : SameEsd s (esdAction s a) := by
  cases a with
  | position p =>
    change SameEsd s (esdAt p s)
    unfold esdAt
    split
    · exact sameEsd_loseAuthorization p _ s
    · exact sameEsd_loseAuthorization p _ s
    · exact (moves_endFill p _ .refl).sameEsd
  | refill => exact (moves_foldl _ _ moves_compressorEsd s).sameEsd
  | cooling => exact (moves_compressorGrantsGone s).sameEsd
  | lanes => exact fun _ => rfl
  | banks => exact fun _ => rfl

/-! ### The notice of the latch -/

/-- What the ESD notice says (R161). -/
def State.esdData (s : State) : List Field :=
  [.flag s.esd.latched, .byte (s.esd.change.map (·.cause.code))] ++ stampFields (s.esd.change.map (·.time)) ++ [.flag s.pins.esdN]

theorem postEsd_port (s : State) (n : PortId) : (postEsd s).port n = (s.port n).post s.clock .esd 255 s.esdData := by
  refine (postNotice_port (by decide) .esd 255 s.esdData s n).trans (if_pos ?_)
  revert n
  decide

theorem setEsd_sameEsd (s : State) : SameEsd (postEsd (setLatch true .edge s)) (setEsd s) := by
  obtain ⟨l, eq, -⟩ := setEsd_eq s
  rw [eq]
  have start : SameEsd (postEsd (setLatch true .edge s)) s.edgeTaken := by
    unfold State.edgeTaken
    rw [(State.permute_spec _ _).1]
    generalize postEsd (setLatch true .edge s) = v
    exact sameEsd_of_ports rfl
  exact start.trans (sameEsd_foldl l _ sameEsd_esdAction _)

/-! ### The clear (R160) -/

/-- The latch cleared, the refills assigned again. -/
def State.cleared (s : State) : State := awaitEdge (postEsd (assignmentPass (setLatch false .cleared s)))

theorem clearEsd_eq (s : State) : clearEsd s = if !s.pins.esdN then (s, .refused .badState)
    else if s.esd.latched then (s.cleared, .accepted [.flag s.cleared.esd.latched, .flag s.cleared.pins.esdN] none)
    else (s, .accepted [.flag s.esd.latched, .flag s.pins.esdN] none) := by
  unfold clearEsd
  split
  · rfl
  · split <;> rfl

theorem cleared_steady (s : State) : s.cleared.steady = (setLatch false .cleared s).steady :=
  (steady_awaitEdge _).trans ((steady_postNotice ..).trans (steady_assignmentPass _))

theorem pending_of_steady (h : t.steady = s.steady) : t.pending = s.pending := (congrArg State.pending h :)

theorem phase_of_steady (h : t.steady = s.steady) : t.phase = s.phase := (congrArg State.phase h :)

theorem clock_of_steady (h : t.steady = s.steady) : t.clock = s.clock := (congrArg State.clock h :)

theorem tod_of_steady (h : t.steady = s.steady) : t.tod = s.tod := (congrArg State.tod h :)

theorem pins_of_steady (h : t.steady = s.steady) : t.pins = s.pins := (congrArg State.pins h :)

theorem cleared_answer (s : State) : s.cleared.esd = ⟨false, some ⟨.cleared, ⟨s.clock, s.tod⟩⟩⟩ ∧ s.cleared.pins = s.pins := by
  have steady := cleared_steady s
  rw [esd_of_steady steady, pins_of_steady steady]
  exact ⟨rfl, rfl⟩

/-- What the clear leaves, outside the port and the scratch of the event. -/
structure Reassigned (s t : State) : Prop where
  rests : ∀ n, (t.comp n).state = .ready → (t.queue.filter (assignable t)).length ≤ t.coolingWaiters
  fills : ∀ q, t.pos q = s.pos q ∧ t.chan q = s.chan q

theorem Reassigned.trails (h : Reassigned s t) (k : Trails t u) : Reassigned s u := by
  have comps (n : CompId) : u.comp n = t.comp n := by rw [k.rest]; rfl
  have banks : assignable u = assignable t := funext fun e => by rw [assignable, k.bank]; rfl
  refine ⟨fun n hn => ?_, fun q => ?_⟩
  · rw [comps] at hn
    rw [k.queue, banks]
    unfold State.coolingWaiters
    simp only [comps]
    exact h.rests n hn
  · rw [k.pos, k.chan]
    exact h.fills q

theorem reassigned_assignmentPass (h : s.esd.latched = false) : Reassigned s (assignmentPass s) := by
  have assigns := assigns_assignmentPass s
  refine ⟨fun n hn => Nat.le_of_not_lt (of_decide_eq_false (assignmentPass_rests h n hn)), fun q => ?_⟩
  rw [State.pos, State.chan, assigns.positions, assigns.channels]
  exact ⟨rfl, rfl⟩

theorem trails_postEsd (s : State) : Trails s (postEsd s) := (sends_postNotice ..).trails

theorem trails_awaitEdge (s : State) : Trails s (awaitEdge s) := ⟨rfl, fun _ => rfl⟩

theorem postEsd_noticed (s : State) (n : PortId) : Noticed (postEsd s) n .esd 255 :=
  postNotice_noticed (by revert n; decide) (Port.passes_esd _) 255 _

theorem hears_awaitEdge (s : State) : Hears s (awaitEdge s) := hears_of_ports rfl

theorem cleared_leaves (s : State) : Reassigned (setLatch false .cleared s) s.cleared ∧ ∀ n, Noticed s.cleared n .esd 255 := by
  have passed := reassigned_assignmentPass (s := setLatch false .cleared s) rfl
  unfold State.cleared
  generalize assignmentPass (setLatch false .cleared s) = v at passed
  exact ⟨passed.trails ((trails_postEsd v).trans (trails_awaitEdge _)),
    fun n => (postEsd_noticed v n).hears (hears_awaitEdge _)⟩

theorem clearResult (s : State) (b : Byte) (h : Standing (.esdClear plantPort [b]) s) :
    let c : Instr := .esdClear plantPort [b]
    if s.pins.esdN = false then Refuses c s .badState
    else if s.esd.latched = false then Accepts c s [.flag false, .flag true] none s
    else
      Completes c s none { s with esd := ⟨false, some ⟨.cleared, ⟨s.clock, s.tod⟩⟩⟩ } (fun data t =>
        data = [.flag false, .flag true] ∧ (∀ n, Noticed t n .esd 255) ∧
        (∀ n, (t.comp n).state = .ready → (t.queue.filter (assignable t)).length ≤ t.coolingWaiters) ∧
        ∀ q, t.pos q = s.pos q ∧ t.chan q = s.chan q) := by
  intro c
  have owner := clearEsd_eq (dropFrame plantPort s)
  by_cases hp : s.pins.esdN = false
  · rw [if_pos hp]
    exact refuses_intro rfl rfl (screen_passes rfl (by simp) rfl) h (owner.trans (if_pos (by simpa using hp)))
  rw [if_neg hp]
  have owner := owner.trans (if_neg (by simpa using hp))
  have high : s.pins.esdN = true := by simpa using hp
  by_cases hl : s.esd.latched = false
  · rw [if_pos hl]
    refine accepts_intro rfl rfl (screen_passes rfl (by simp) rfl) h ((owner.trans (if_neg (by simpa using hl))).trans ?_) h.evt
    change (dropFrame plantPort s, Answer.accepted [.flag s.esd.latched, .flag s.pins.esdN] none) = _
    rw [hl, high]
  rw [if_neg hl]
  have owner := owner.trans (if_pos (by simpa using hl))
  obtain ⟨esd, pins⟩ := cleared_answer (dropFrame plantPort s)
  rw [esd, pins, show (dropFrame plantPort s).pins.esdN = true from high] at owner
  have leaves := cleared_leaves (dropFrame plantPort s)
  have steady := cleared_steady (dropFrame plantPort s)
  generalize (dropFrame plantPort s).cleared = u at *
  have answered := leaves.1.trails (trails_answered plantPort 0x36#8 [b] (.accepted [.flag false, .flag true] none) u)
  exact completes_intro rfl rfl (screen_passes rfl (by simp) rfl) h owner steady
    ⟨rfl, fun n => (leaves.2 n).hears (hears_answered _ _ _ _ _), answered.rests, answered.fills⟩

/-! ### An edge together with the clear (R160) -/

/-- The clear posts one ESD notice where there was none. -/
theorem cleared_esdPending (h : (s.port n).esdPending = []) : ∃ data now, (s.cleared.port n).esdPending =
    [⟨.esd, 255, data, 0, now⟩] := by
  have passed : SameEsd (setLatch false .cleared s) (assignmentPass (setLatch false .cleared s)) :=
    (moves_assignmentPass .refl).sameEsd
  have none : ((assignmentPass (setLatch false .cleared s)).port n).esdPending = [] := (passed n).trans h
  unfold State.cleared
  generalize assignmentPass (setLatch false .cleared s) = v at none
  refine ⟨v.esdData, v.clock, ?_⟩
  rw [← Port.esdPending_post _ none, ← postEsd_port]
  exact sameEsd_of_ports (t := awaitEdge (postEsd v)) rfl n

theorem cleared_edgeNext (h : s.pending.head? = some .esdNFallingEdge) : s.cleared.evt.edgeNext = true := by
  have steady : (postEsd (assignmentPass (setLatch false .cleared s))).steady = (setLatch false .cleared s).steady :=
    (steady_postNotice ..).trans (steady_assignmentPass _)
  have pending : (postEsd (assignmentPass (setLatch false .cleared s))).pending = s.pending :=
    (pending_of_steady steady).trans rfl
  unfold State.cleared
  generalize postEsd (assignmentPass (setLatch false .cleared s)) = v at pending
  exact beq_iff_eq.2 ((congrArg List.head? pending).trans h)

/-- What a clear leaves for the edge that comes next. -/
structure Awaits (s t : State) : Prop where
  pending : t.pending = s.pending
  quiet : Quiet t
  esd : t.esd.latched = false
  clock : t.clock = s.clock
  tod : t.tod = s.tod
  notice : ∀ n, (s.port n).esdPending = [] → ∃ data now, (t.port n).esdPending = [⟨.esd, 255, data, 0, now⟩]

theorem clear_awaits {b : Byte} (h : Standing (.esdClear plantPort [b]) s) (hp : s.pins.esdN = true) (hl : s.esd.latched = true)
    (hn : s.pending.head? = some .esdNFallingEdge) :
    ∃ t, exec (.esdClear plantPort [b]) s = .next t ∧ Awaits s t := by
  have owner : clearEsd (dropFrame plantPort s) = ((dropFrame plantPort s).cleared, .accepted
      [.flag (dropFrame plantPort s).cleared.esd.latched, .flag (dropFrame plantPort s).cleared.pins.esdN] none) :=
    (clearEsd_eq _).trans ((if_neg (by simpa using hp)).trans (if_pos (by simpa using hl)))
  have taken := takeRequest_owner (port := plantPort) (kind := 0x36#8) (args := [b]) clearEsd h
    (screen_passes rfl (by simp) rfl)
  rw [owner] at taken
  refine ⟨_, congrArg Host.Outcome.next taken, ?_⟩
  generalize Answer.accepted [.flag (dropFrame plantPort s).cleared.esd.latched,
    .flag (dropFrame plantPort s).cleared.pins.esdN] none = a
  have steady := cleared_steady (dropFrame plantPort s)
  have edge := cleared_edgeNext (s := dropFrame plantPort s) hn
  have notice (n : PortId) (hn : (s.port n).esdPending = []) := cleared_esdPending (n := n) (s := dropFrame plantPort s)
    ((sameEsd_modPort (f := fun x => { x with rxBuffer := x.rxBuffer.drop 1 }) (fun _ => rfl) plantPort s n).trans hn)
  generalize (dropFrame plantPort s).cleared = u at *
  have trails := (trails_answered plantPort 0x36#8 [b] a u).rest
  have told : SameEsd u (endEvent (pushReply plantPort 0x36#8 [b] a u)) :=
    (sameEsd_pushReply plantPort 0x36#8 [b] a u).trans (sameEsd_endEvent edge)
  have ended : (endEvent (pushReply plantPort 0x36#8 [b] a u)).evt = .empty := rfl
  generalize endEvent (pushReply plantPort 0x36#8 [b] a u) = t at *
  refine ⟨?_, ⟨?_, ended⟩, ?_, ?_, ?_, fun n hn => ?_⟩
  · rw [trails]
    exact (pending_of_steady steady).trans rfl
  · rw [trails]
    exact (phase_of_steady steady).trans h.serving
  · rw [trails]
    exact congrArg EsdLatch.latched (esd_of_steady steady)
  · rw [trails]
    exact (clock_of_steady steady).trans rfl
  · rw [trails]
    exact (tod_of_steady steady).trans rfl
  · obtain ⟨data, now, e⟩ := notice n hn
    exact ⟨data, now, (told n).trans e⟩

/-- The edge sets the latch again, and its notice takes the place of the pending one. -/
theorem edge_coalesces (h : Quiet s) (hl : s.esd.latched = false) : ∃ u, exec .esdNFallingEdge s = .next u ∧
    u.pending = s.pending ∧ u.esd = ⟨true, some ⟨.edge, ⟨s.clock, s.tod⟩⟩⟩ ∧
    ∀ n data now, (s.port n).esdPending = [⟨.esd, 255, data, 0, now⟩] →
      ∃ m ∈ (u.port n).outNotices, m.kind = .esd ∧ m.subject = 255 ∧ m.coalesced = 1 ∧
        m.data = [.flag true, .byte (some EsdCause.edge.code), .raw s.clock, .tod (some s.tod), .flag false] := by
  obtain ⟨low, hlow⟩ : ∃ low : State, low = { s with pins := { s.pins with esdN := false } } := ⟨_, rfl⟩
  have taken : exec .esdNFallingEdge s = .next (endEvent (setEsd low)) := by
    have serving : (low.phase == Phase.serving) = true := by
      rw [hlow]
      simpa using h.serving
    have clear : low.esd.latched = false := by rw [hlow]; exact hl
    have runs : exec .esdNFallingEdge s = .next (takeEvent (fun s => if s.esd.latched then s else setEsd s) low) := by
      rw [hlow]
      rfl
    exact runs.trans (congrArg Host.Outcome.next ((if_pos serving).trans
      (congrArg endEvent (if_neg (Bool.eq_false_iff.1 clear)))))
  have steady := setEsd_steady low
  have trails := (trails_endEvent (setEsd low)).rest
  refine ⟨_, taken, ?_, ?_, fun n data now hn => ?_⟩
  · rw [trails]
    exact (pending_of_steady steady).trans (by rw [hlow]; rfl)
  · rw [trails]
    exact (esd_of_steady steady).trans (by rw [hlow]; rfl)
  · have before : ((setLatch true .edge low).port n).esdPending = [⟨.esd, 255, data, 0, now⟩] := by
      rw [hlow]
      exact hn
    have posted := Port.esdPending_coalesce _ before rfl (setLatch true .edge low).clock (setLatch true .edge low).esdData
    rw [← postEsd_port, ← setEsd_sameEsd low n] at posted
    obtain ⟨⟨m, hm, kind, subject, rfl⟩, -⟩ := latest_endEvent_esd (Port.latest_of_esdPending posted rfl)
    exact ⟨_, hm, kind, subject, rfl, by rw [hlow]; rfl⟩

theorem ready_pending {port : PortId} {body : List Byte} {l : List Instr} (h : Ready port body s) :
    Ready port body { s with pending := l } := ⟨h.serving, h.room, h.head, h.between⟩

/-- Settles O46: the clear lets the pass assign, and an edge that is next coalesces its notice before any line sends it. -/
theorem esdClearResult : Obligations.EsdClearResult := by
  refine ⟨?_, ?_⟩
  · rintro s b c rfl h
    exact clearResult s b h
  · rintro s b c rest rfl h hp hl hq
    have stands : Standing (.esdClear plantPort [b]) { s with pending := .esdNFallingEdge :: rest } :=
      ready_pending (port := plantPort) (body := [0x36#8, b]) h
    obtain ⟨t, clears, awaits⟩ := clear_awaits stands hp hl rfl
    have quiet : Quiet { t with pending := rest } := ⟨awaits.quiet.serving, awaits.quiet.between⟩
    obtain ⟨u, edges, pending, esd, notices⟩ := edge_coalesces quiet awaits.esd
    refine ⟨t, u, (stepRunsFrontCommand _ _ _ hq).trans clears, (stepRunsFrontCommand _ _ _ awaits.pending).trans edges,
      awaits.esd, pending, ?_, fun n hn => ?_⟩
    · rw [esd]
      exact congrArg₂ (fun c d => (⟨true, some ⟨.edge, ⟨c, d⟩⟩⟩ : EsdLatch)) awaits.clock awaits.tod
    · obtain ⟨data, now, before⟩ := awaits.notice n (List.filter_eq_nil_iff.2 fun m hm => by simpa using hn m hm)
      obtain ⟨m, hm, kind, subject, coalesced, data⟩ := notices n data now before
      exact ⟨m, hm, kind, subject, coalesced, data.trans (congrArg₂ (fun c d => [Field.flag true,
        .byte (some EsdCause.edge.code), .raw c, .tod (some d), .flag false]) awaits.clock awaits.tod)⟩

end Sys2Proof.Machine
end

section
/-! SUPPORT. What goes on below a fill that ends: fills under way stay under way (R27, R71, R115); the fills that a lane
loses (R101). -/

namespace Sys2Proof.Machine

variable {p q : PosId} {b : BankId} {c n : CompId} {s t u : State}

/-! ### Fills under way -/

/-- No fill under way ends between `s` and `t`. -/
def Lives (s t : State) : Prop := ∀ q, endable (s.pos q).state = true → endable (t.pos q).state = true

theorem Lives.refl (s : State) : Lives s s := fun _ => id

theorem Lives.trans (h : Lives s t) (k : Lives t u) : Lives s u := fun q => k q ∘ h q

theorem lives_of (h : t.positions = s.positions) : Lives s t := fun q => by rw [State.pos, State.pos, h]; exact id

theorem lives_ite (h : Prop) [Decidable h] (ht : Lives s t) (hu : Lives s u) : Lives s (if h then t else u) := by
  split
  · exact ht
  · exact hu

theorem lives_foldl {α : Type} (l : List α) (f : State → α → State) (hf : ∀ s a, Lives s (f s a)) (s : State) :
    Lives s (l.foldl f s) := by
  induction l generalizing s with
  | nil => exact .refl s
  | cons a l ih => exact (hf s a).trans (ih _)

/-- One position changes, to a fill under way or as it was. -/
theorem lives_at (p : PosId) (others : ∀ q, q ≠ p → t.pos q = s.pos q)
    (own : endable (s.pos p).state = true → endable (t.pos p).state = true) : Lives s t := by
  intro q hq
  by_cases e : q = p
  · subst e
    exact own hq
  · rwa [others q e]

section
variable (s : State)

theorem lives_postNotice (k : NoticeKind) (j : Nat) (data : List Field) (ports : List PortId) :
    Lives s (postNotice k j data ports s) := by
  rw [(sends_postNotice k j data ports s).rest]
  exact lives_of rfl

theorem lives_moveBank (b : BankId) (st : BankState) (h : Option Holder) : Lives s (moveBank b st h s) := by
  obtain ⟨l, x, e, -⟩ := moveBank_eq b st h s
  rw [e]
  exact lives_of rfl

theorem lives_modRecord (p : PosId) (f : TxnRecord → TxnRecord) : Lives s (modRecord p f s) := by
  obtain ⟨w, e⟩ := modRecord_eq p f s
  rw [e]
  exact lives_of rfl

theorem lives_setGrant (r : Requester) (g : Nat) : Lives s (setGrant r g s) := by
  cases r <;> exact lives_of rfl

theorem lives_modPos (p : PosId) (f : Position → Position)
    (hf : endable (s.pos p).state = true → endable (f (s.pos p)).state = true) : Lives s (s.modPos p f) :=
  lives_at p (fun q hq => State.modPos_pos_ne _ _ _ _ hq) (by rw [State.modPos_pos]; exact hf)

theorem lives_grantBank (p : PosId) (b : BankId) : Lives s (grantBank p b s) := by
  refine lives_at p (fun q hq => ((grantBank_apart p b s).1 q hq).1) fun _ => ?_
  rcases (grantBank_own p b s).1 with ⟨-, e⟩ | ⟨-, e⟩ <;> rw [e] <;> rfl

theorem lives_drawRequest (p : PosId) (k : DrawKind) (x : Option BankId) : Lives s (drawRequest p k x s) := by
  unfold drawRequest
  split
  · exact lives_grantBank s p _
  · exact lives_of rfl

theorem lives_enterHold (p : PosId) (r : HoldReason) : Lives s (enterHold p r s) := by
  obtain ⟨x, w, g, e⟩ := enterHold_eq p r s
  refine lives_at p (fun q hq => ?_) fun _ => ?_
  · rw [e]
    exact State.setPos_pos_ne _ _ _ _ hq
  · rw [enterHold_pos]
    rfl

theorem lives_checksCD (p : PosId) : Lives s (checksCD p s) := by
  unfold checksCD
  dsimp only
  exact lives_ite _ (lives_enterHold s p _) (lives_ite _ (lives_drawRequest s p _ _)
    ((lives_drawRequest s p _ _).trans (lives_enterHold _ p _)))

theorem lives_startRefill (c : CompId) : Lives s (startRefill c s).1 := by
  cases hf : s.queue.find? (assignable s) with
  | some e =>
    obtain ⟨l, x, eq, -⟩ := startRefill_takes (c := c) hf
    rw [eq]
    exact lives_of rfl
  | none =>
    obtain ⟨x, v, eq, -⟩ := startRefill_returns (c := c) hf
    rw [eq]
    exact lives_of rfl

theorem lives_assignmentPass : Lives s (assignmentPass s) := lives_of (assigns_assignmentPass s).positions

theorem lives_tellIdle (b : BankId) : Lives s (tellIdle b s) := lives_of (tells_tellIdle b s).positions

theorem lives_raiseDerated : Lives s (raiseDerated s) := by
  refine lives_foldl _ _ (fun u r => ?_) s
  cases r with
  | pos p => exact lives_ite _ (lives_setGrant _ _ _ : Lives (budgetChanged _ u) _) (.refl u)
  | comp c => exact .refl u

end

theorem Offers.lives (h : Offers s t) : Lives s t := by
  induction h with
  | none => exact .refl s
  | grant w b _ _ _ ih => exact ih.trans (lives_grantBank _ w.pos b)

theorem lives_bankIdle (b : BankId) (s : State) : Lives s (bankIdle b s) := by
  have offered := (offers_offerPass [b] s).lives
  unfold bankIdle
  dsimp only
  exact lives_ite _ (offered.trans (lives_tellIdle _ b)) offered

theorem lives_serveFills (l : List CoolWait) (s : State) : Lives s (serveFills l s).1 := by
  induction l generalizing s with
  | nil => exact .refl s
  | cons w l ih =>
    unfold serveFills
    split
    · exact .refl s
    next p _ =>
      dsimp only
      split
      · refine Lives.trans ?_ (ih _)
        have granted : Lives s (setGrant (.pos p) (min (s.grantOf (.pos p)).demand s.freeCapacity)
            (dropWait (.pos p) (budgetChanged .served s))) := lives_setGrant (dropWait (.pos p) (budgetChanged .served s)) _ _
        exact lives_ite _ (granted.trans (lives_modRecord _ p _)) granted
      · exact .refl s

theorem lives_serveComps (l : List CoolWait) (s : State) : Lives s (serveComps l s).1 := by
  induction l generalizing s with
  | nil => exact .refl s
  | cons w l ih =>
    unfold serveComps
    split
    · exact .refl s
    next c _ =>
      dsimp only
      split
      · exact (lives_setGrant _ _ _ : Lives (dropWait (.comp c) (budgetChanged .served s)) _).trans (ih _)
      · exact .refl s

theorem lives_redistributePasses (s : State) : Lives s (redistributePasses s).1 := by
  unfold redistributePasses
  split
  · exact .refl s
  · exact ((lives_raiseDerated s).trans (lives_serveFills _ _)).trans (lives_serveComps _ _)

theorem lives_tellServed (fills : List PosId) (comps : List CompId) (s : State) : Lives s (tellServed fills comps s).1 := by
  have told : Lives s (fills.foldl (fun s p => checksCD p s) s) := lives_foldl _ _ (fun u p => lives_checksCD u p) s
  unfold tellServed
  dsimp only
  refine told.trans ?_
  generalize fills.foldl (fun s p => checksCD p s) s = u
  generalize false = back
  induction comps generalizing u back with
  | nil => exact .refl u
  | cons c l ih => exact (lives_startRefill u c).trans (ih _ _)

theorem lives_redistributeN (k : Nat) (s : State) : Lives s (redistributeN k s) := by
  induction k generalizing s with
  | zero => exact .refl s
  | succ k ih =>
    have round := (lives_redistributePasses s).trans (lives_tellServed (redistributePasses s).2.1 (redistributePasses s).2.2 _)
    unfold redistributeN
    exact lives_ite _ (round.trans (ih _)) round

theorem lives_releaseBank (p : PosId) (s : State) : Lives s (releaseBank p s) := by
  unfold releaseBank
  split
  · exact .refl s
  · exact ((lives_modPos s p _ id).trans (lives_moveBank _ _ _ _)).trans (lives_bankIdle _ _)

theorem lives_departWait (r : Requester) (s : State) : Lives s (departWait r s) :=
  lives_ite _ (lives_redistributeN 3 (dropWait r (budgetChanged .departed s))) (.refl s)

theorem lives_releaseGrant (r : Requester) (s : State) : Lives s (releaseGrant r s) :=
  lives_ite _ (.refl s) ((lives_setGrant (budgetChanged .release s) r 0).trans (lives_redistributeN 3 _))

/-- A fill that ends ends no other. -/
theorem endFill_lives (h : q ≠ p) (reason : EndReason) (hq : endable (s.pos q).state = true) :
    endable ((endFill p reason s).pos q).state = true := by
  cases hp : endable (s.pos p).state with
  | false => rwa [endFill_of_not_endable hp]
  | true =>
    rw [endFill_eq hp, (spares_endTells h).pos]
    have marked : (endMarks p reason s).pos q = s.pos q := (spares_endMarks h reason s).pos
    exact ((lives_releaseBank p _).trans ((lives_departWait _ _).trans (lives_releaseGrant _ _))) q (by rwa [marked])

/-! ### The fills of a lane (R101) -/

/-- The counted fills of a lane end, in position order. -/
def loseFills (l : LaneId) (s : State) : State :=
  allPositions.foldl (fun s p => if counted s l p then endFill p .laneLost s else s) s

/-- One position of the fills a lane loses. -/
def loseFill (l : LaneId) (s : State) (p : PosId) : State := if counted s l p then endFill p .laneLost s else s

theorem counted_congr (h : t.pos p = s.pos p) (l : LaneId) : counted t l p = counted s l p := by rw [counted, h]; rfl

/-- Lane and class of a position are no part of a cascade. -/
theorem counted_iff (l : LaneId) : counted s l p = true ↔ endable (s.pos p).state = true ∧
    (s.pos p).steady.lane = some l ∧ ((s.pos p).steady.cls.map cooled).getD false = true := by
  unfold counted
  simp only [Bool.and_eq_true, beq_iff_eq]
  exact ⟨fun ⟨⟨a, b⟩, c⟩ => ⟨b, a, c⟩, fun ⟨b, a, c⟩ => ⟨⟨a, b⟩, c⟩⟩

theorem loseFill_counted (l : LaneId) (h : q ≠ p) (hq : counted s l q = true) : counted (loseFill l s p) l q = true := by
  unfold loseFill
  split
  · obtain ⟨under, rest⟩ := (counted_iff l).1 hq
    refine (counted_iff l).2 ⟨endFill_lives h _ under, ?_⟩
    rw [pos_steady_of (steady_endFill ..)]
    exact rest
  · exact hq

/-- What a position that has left the wait lists keeps from the ends of others. -/
theorem spares_endFill (h : q ≠ p) (hw : ¬ Waits s q) (reason : EndReason) : Spares q s (endFill p reason s) := by
  cases hp : endable (s.pos p).state with
  | false =>
    rw [endFill_of_not_endable hp]
    exact .refl q s
  | true =>
    rw [endFill_eq hp]
    have marked := spares_endMarks h reason s
    have out := marked.waits hw
    exact (marked.trans (spares_endReleases (not_draws out) (not_cools out) h)).trans (spares_endTells h)

theorem spares_loseFill (l : LaneId) (h : q ≠ p) (hw : ¬ Waits s q) : Spares q s (loseFill l s p) := by
  unfold loseFill
  split
  · exact spares_endFill h hw _
  · exact .refl q s

/-- A fill that ended, and waits for nothing. -/
structure Gone (reason : EndReason) (s : State) (p : PosId) : Prop where
  state : (s.pos p).state = .ending
  endReason : (s.pos p).endReason = some reason
  waits : ¬ Waits s p

theorem Gone.spares {reason : EndReason} (h : Gone reason s p) (k : Spares p s t) : Gone reason t p :=
  ⟨by rw [k.pos]; exact h.state, by rw [k.pos]; exact h.endReason, k.waits h.waits⟩

theorem endFill_gone {reason : EndReason} (h : endable (s.pos p).state = true) : Gone reason (endFill p reason s) p := by
  have ended := endFill_ended reason h
  exact ⟨congrArg Position.state ended.position, congrArg Position.endReason ended.position, ended.notWaiting⟩

theorem allPositions_nodup : allPositions.Nodup := by decide

/-- A counted fill ends, a position that is not counted and waits for nothing stays. -/
theorem loseFills_lost (l : LaneId) (s : State) (p : PosId) :
    (counted s l p = true → Gone .laneLost (loseFills l s) p) ∧
    (counted s l p = false → ¬ Waits s p → Spares p s (loseFills l s)) := by
  refine ⟨fun h => ?_, fun h hw => ?_⟩
  · exact foldl_once (f := loseFill l) (a := p) (keep := fun _ => True) (before := fun u => counted u l p = true)
      (after := fun u => Gone .laneLost u p) allPositions_nodup (mem_allPositions p) (fun _ _ _ _ => trivial)
      (fun u x _ hx _ hu => loseFill_counted l (Ne.symm hx) hu)
      (fun u _ hu => by
        have ended := endFill_gone (reason := .laneLost) ((counted_iff l).1 hu).1
        rw [loseFill, if_pos hu]
        exact ended)
      (fun u x _ hx _ hu => hu.spares (spares_loseFill l (Ne.symm hx) hu.waits)) trivial h
  · refine foldl_keep (f := loseFill l) (keep := fun u => Spares p s u) (fun u x _ hu => ?_) (.refl p s)
    by_cases e : x = p
    · subst e
      rw [loseFill, if_neg (by rw [counted_congr hu.pos, h]; decide)]
      exact hu
    · exact hu.trans (spares_loseFill l (Ne.symm e) (hu.waits hw))

theorem steady_loseFills (l : LaneId) (s : State) : (loseFills l s).steady = s.steady := by
  refine steady_foldl _ _ (fun u p => ?_) s
  split
  · exact steady_endFill ..
  · rfl

/-- Where no fill is counted none ends. -/
theorem loseFills_none (l : LaneId) (h : ∀ p, counted s l p = false) : loseFills l s = s := by
  refine foldl_keep (f := loseFill l) (keep := fun u => u = s) (fun u p _ hu => ?_) rfl
  subst hu
  rw [loseFill, if_neg (by rw [h p]; decide)]

end Sys2Proof.Machine
end

section
/-! SUPPORT. LANE_CONFIG and LANE_ENABLE: the lane afterwards, the fills it loses (R93 to R95, R97, R100, R101). -/

namespace Sys2Proof.Machine

variable {p q : PosId} {l j : LaneId} {n : PortId} {s t u : State}

/-! ### A lane and the rest of the state -/

theorem steady_setLane (s : State) (l : LaneId) (x : Lane) :
    (s.setLane l x).steady = { s.steady with lanes := s.steady.lanes.set l x.steady } := by
  have lanes : (s.lanes.set l x).map Lane.steady = (s.lanes.map Lane.steady).set l x.steady := by
    refine Vector.ext fun i hi => ?_
    by_cases e : l.val = i <;> simp [Vector.getElem_set, e]
  exact congrArg (fun v => { s.steady with lanes := v }) lanes

theorem steady_setLane_congr (h : t.steady = s.steady) (l : LaneId) {x y : Lane} (hx : x.steady = y.steady) :
    (t.setLane l x).steady = (s.setLane l y).steady := by rw [steady_setLane, steady_setLane, h, hx]

theorem lane_steady_of (h : t.steady = s.steady) (l : LaneId) : (t.lane l).steady = (s.lane l).steady := by
  have lanes := congrArg (fun u : State => u.lanes[l]) h
  simpa [State.steady, State.lane] using lanes

theorem setLane_self (s : State) (l : LaneId) : s.setLane l (s.lane l) = s := by simp [State.setLane, State.lane]

theorem setLane_setLane (s : State) (l : LaneId) (x y : Lane) : (s.setLane l x).setLane l y = s.setLane l y := by
  simp [State.setLane]

/-- From `s` to `t` a lane is left as `y`, and of the rest at most what cascades change. -/
structure Lit (l : LaneId) (y : Lane) (s t : State) : Prop where
  lane : t.lane l = y
  steady : t.steady = (s.setLane l y).steady

/-- The fills of a lane left alone. -/
def FillsStand (s t : State) : Prop := t.positions = s.positions ∧ t.channels = s.channels

theorem lit_setLane (l : LaneId) (y : Lane) (s : State) : Lit l y s (s.setLane l y) := ⟨s.setLane_lane l y, rfl⟩

theorem Lit.change {x : Lane} (h : Lit l x s t) (y : Lane) : Lit l y s (t.setLane l y) := by
  refine ⟨t.setLane_lane l y, ?_⟩
  rw [steady_setLane_congr h.steady l rfl, setLane_setLane]

theorem Lit.post {y : Lane} (h : Lit l y s t) (k : NoticeKind) (m : Nat) (data : List Field) (ports : List PortId) :
    Lit l y s (postNotice k m data ports t) := by
  refine ⟨?_, (steady_postNotice ..).trans h.steady⟩
  rw [(sends_postNotice k m data ports t).rest]
  exact h.lane

theorem FillsStand.refl (s : State) : FillsStand s s := ⟨rfl, rfl⟩

theorem FillsStand.post (h : FillsStand s t) (k : NoticeKind) (m : Nat) (data : List Field) (ports : List PortId) :
    FillsStand s (postNotice k m data ports t) := by
  rw [(sends_postNotice k m data ports t).rest]
  exact h

theorem FillsStand.kept (h : FillsStand s t) (q : PosId) : t.pos q = s.pos q ∧ t.chan q = s.chan q := by
  rw [State.pos, State.chan, h.1, h.2]
  exact ⟨rfl, rfl⟩

theorem lit_lane (s : State) (l : LaneId) (y : Lane) (cause : LaneCause) :
    Lit l y s (postLaneState l cause (s.setLane l y)) ∧ FillsStand s (postLaneState l cause (s.setLane l y)) :=
  ⟨(lit_setLane l y s).post _ _ _ _, FillsStand.post (t := s.setLane l y) ⟨rfl, rfl⟩ _ _ _ _⟩

/-! ### A lane leaves READY (R101) -/

/-- The lane record after READY. -/
def Lane.left (x : Lane) (next : LaneState) : Lane :=
  { x with state := next, staleWatch := none, warmTimer := none, warmHold := 0#6 }

theorem laneLeavesReady_eq (l : LaneId) (next : LaneState) (cause : LaneCause) (s : State) : laneLeavesReady l next cause s =
    postLaneState l cause ((loseFills l (s.setLane l { s.lane l with staleWatch := none, warmTimer := none })).modLane l
      (fun x => { x with state := next, warmHold := 0#6, warmTimer := none })) := rfl

theorem lit_laneLeavesReady (l : LaneId) (next : LaneState) (cause : LaneCause) (s : State) :
    Lit l ((s.lane l).left next) s (laneLeavesReady l next cause s) := by
  rw [laneLeavesReady_eq]
  have start : Lit l { s.lane l with staleWatch := none, warmTimer := none } s
    (s.setLane l { s.lane l with staleWatch := none, warmTimer := none }) := lit_setLane ..
  generalize hv : s.setLane l { s.lane l with staleWatch := none, warmTimer := none } = v at start
  have steady := steady_loseFills l v
  have lane := lane_steady_of steady l
  rw [start.lane] at lane
  generalize loseFills l v = w at steady lane
  have eq : { w.lane l with state := next, warmHold := 0#6, warmTimer := none } = (s.lane l).left next := by
    have fields (x y : Lane) (h : x.steady = y.steady) : { x with state := next, warmHold := 0#6, warmTimer := none } =
        ({ y with state := next, warmHold := 0#6, warmTimer := none } : Lane) := by
      obtain ⟨⟩ := x
      obtain ⟨⟩ := y
      simp only [Lane.steady, Lane.mk.injEq] at h
      simp [h]
    exact fields _ _ lane
  refine Lit.post ?_ _ _ _ _
  rw [State.modLane, eq]
  refine ⟨w.setLane_lane l _, ?_⟩
  rw [steady_setLane_congr (steady.trans start.steady) l rfl, setLane_setLane]

theorem laneLeavesReady_lost (l : LaneId) (next : LaneState) (cause : LaneCause) (s : State) (p : PosId) :
    (counted s l p = true → Gone .laneLost (laneLeavesReady l next cause s) p) ∧
    (counted s l p = false → ¬ Waits s p → Spares p s (laneLeavesReady l next cause s)) := by
  rw [laneLeavesReady_eq]
  have start : Spares p s (s.setLane l { s.lane l with staleWatch := none, warmTimer := none }) :=
    spares_modLane l (fun x => { x with staleWatch := none, warmTimer := none })
  obtain ⟨lost, kept⟩ := loseFills_lost l (s.setLane l { s.lane l with staleWatch := none, warmTimer := none }) p
  rw [counted_congr start.pos] at lost kept
  generalize loseFills l (s.setLane l { s.lane l with staleWatch := none, warmTimer := none }) = w at *
  have after : Spares p w (postLaneState l cause (w.modLane l (fun x =>
    { x with state := next, warmHold := 0#6, warmTimer := none }))) := (spares_modLane l _).trans (spares_postNotice ..)
  exact ⟨fun h => (lost h).spares after, fun h hw => (start.trans (kept h (start.waits hw))).trans after⟩

/-- Where no fill is counted all fills stand. -/
theorem laneLeavesReady_stand (next : LaneState) (cause : LaneCause) (h : ∀ p, counted s l p = false) :
    FillsStand s (laneLeavesReady l next cause s) := by
  have none := loseFills_none (s := s.setLane l { s.lane l with staleWatch := none, warmTimer := none }) l
    fun p => (counted_congr rfl l).trans (h p)
  rw [laneLeavesReady_eq, none]
  exact FillsStand.post (t := (s.setLane l _).modLane l _) ⟨rfl, rfl⟩ _ _ _ _

/-! ### The enables (R94, R95, R97, R101) -/

/-- A lane both of whose enables are present now (R95). -/
def Lane.present (x : Lane) : Lane :=
  if x.plantEnable && x.islandEnable && x.state == .off then
    if x.faultPulldown || x.faultStale then { x with state := .fault }
    else { x with state := .pulldown, pulldownTimer := some 600000 }
  else x

/-- A lane one of whose enables has gone (R95). -/
def Lane.withdrawn (x : Lane) : Lane :=
  match x.state with
  | .off => x
  | .pulldown => { x with state := .off, pulldownTimer := none }
  | .ready => x.left .off
  | .fault => { x with state := .off }

/-- A lane with an enable set. -/
def Lane.flagged (x : Lane) (plant value : Bool) : Lane :=
  if plant then { x with plantEnable := value } else { x with islandEnable := value }

theorem Lane.enabled_eq (x : Lane) (plant value : Bool) : x.enabled plant value =
    if (if plant then x.plantEnable else x.islandEnable) = value then x
    else if value then (x.flagged plant value).present else (x.flagged plant value).withdrawn := by
  unfold Lane.enabled
  by_cases same : (if plant then x.plantEnable else x.islandEnable) = value
  · rw [if_pos same, if_pos same]
  · rw [if_neg same, if_neg same]
    cases plant <;> cases value <;> cases h : x.state <;> simp [Lane.flagged, Lane.present, Lane.withdrawn, Lane.left, h]

/-- An enable of a lane takes a value. -/
def setEnable (plant : Bool) (l : LaneId) (v : Bool) (s : State) : State :=
  if (if plant then (s.lane l).plantEnable else (s.lane l).islandEnable) = v then s
  else if v then enablePresent l (s.setLane l ((s.lane l).flagged plant v))
  else enableWithdrawn l (s.setLane l ((s.lane l).flagged plant v))

theorem setPlantEnable_eq (l : LaneId) (v : Bool) (s : State) : setPlantEnable l v s = setEnable true l v s := by
  unfold setPlantEnable setEnable
  simp only [beq_iff_eq, if_true]
  rfl

theorem setIslandEnable_eq (l : LaneId) (v : Bool) (s : State) : setIslandEnable l v s = setEnable false l v s := by
  unfold setIslandEnable setEnable
  simp only [beq_iff_eq, Bool.false_eq_true, if_false]
  rfl

theorem enablePresent_leaves (l : LaneId) (s : State) : Lit l (s.lane l).present s (enablePresent l s) ∧
    FillsStand s (enablePresent l s) := by
  unfold enablePresent Lane.present
  dsimp only
  split
  · split
    · exact lit_lane s l _ _
    · exact lit_lane s l _ _
  · refine ⟨⟨rfl, ?_⟩, .refl s⟩
    rw [setLane_self]

/-- What an enable withdrawn leaves of the fills. -/
structure Withdrawn (l : LaneId) (s t : State) : Prop where
  lost : (s.lane l).state = .ready → ∀ p, (counted s l p = true → Gone .laneLost t p) ∧
    (counted s l p = false → ¬ Waits s p → Spares p s t)
  stand : (s.lane l).state ≠ .ready ∨ (∀ p, counted s l p = false) → FillsStand s t

theorem enableWithdrawn_leaves (l : LaneId) (s : State) : Lit l (s.lane l).withdrawn s (enableWithdrawn l s) ∧
    Withdrawn l s (enableWithdrawn l s) := by
  have off (h : (s.lane l).state ≠ .ready) {y : Lane} {t : State} (ht : Lit l y s t ∧ FillsStand s t) :
      Lit l y s t ∧ Withdrawn l s t := ⟨ht.1, fun e => absurd e h, fun _ => ht.2⟩
  unfold enableWithdrawn Lane.withdrawn
  cases h : (s.lane l).state with
  | off =>
    refine off (by rw [h]; decide) ⟨⟨rfl, ?_⟩, .refl s⟩
    rw [setLane_self]
  | pulldown => exact off (by rw [h]; decide) (lit_lane s l { s.lane l with state := .off, pulldownTimer := none } _)
  | ready =>
    exact ⟨lit_laneLeavesReady l _ _ s, fun _ => laneLeavesReady_lost l _ _ s,
      fun k => laneLeavesReady_stand _ _ (k.resolve_left fun k => k h)⟩
  | fault => exact off (by rw [h]; decide) (lit_lane s l { s.lane l with state := .off } _)

theorem Lit.trans {x y : Lane} (h : Lit l y (s.setLane l x) t) : Lit l y s t :=
  ⟨h.lane, h.steady.trans (by rw [setLane_setLane])⟩

theorem Lane.flagged_state (x : Lane) (plant value : Bool) : (x.flagged plant value).state = x.state := by
  cases plant <;> rfl

theorem Lane.present_state {x : Lane} (h : x.state = .ready) : x.present.state = .ready := by
  unfold Lane.present
  rw [if_neg (by rw [h]; simp)]
  exact h

/-- What an enable that takes a value leaves. -/
theorem setEnable_leaves (plant : Bool) (l : LaneId) (v : Bool) (s : State) :
    Lit l ((s.lane l).enabled plant v) s (setEnable plant l v s) ∧
    ((s.lane l).state = .ready → ((s.lane l).enabled plant v).state = .off → ∀ p,
      (counted s l p = true → Gone .laneLost (setEnable plant l v s) p) ∧
      (counted s l p = false → ¬ Waits s p → Spares p s (setEnable plant l v s))) ∧
    ((s.lane l).state ≠ .ready ∨ ((s.lane l).enabled plant v).state ≠ .off ∨ (∀ p, counted s l p = false) →
      FillsStand s (setEnable plant l v s)) := by
  rw [Lane.enabled_eq]
  unfold setEnable
  by_cases same : (if plant then (s.lane l).plantEnable else (s.lane l).islandEnable) = v
  · rw [if_pos same, if_pos same]
    refine ⟨⟨rfl, by rw [setLane_self]⟩, fun ready off => ?_, fun _ => .refl s⟩
    rw [ready] at off
    cases off
  rw [if_neg same, if_neg same]
  obtain ⟨w, hw⟩ : ∃ w, w = s.setLane l ((s.lane l).flagged plant v) := ⟨_, rfl⟩
  have lane : w.lane l = (s.lane l).flagged plant v := by rw [hw, State.setLane_lane]
  have state : (w.lane l).state = (s.lane l).state := by rw [lane, Lane.flagged_state]
  have stands : FillsStand s w := by rw [hw]; exact ⟨rfl, rfl⟩
  have counts (p : PosId) : counted w l p = counted s l p := counted_congr (by rw [hw]; rfl) l
  have spared (p : PosId) : Spares p s w := by
    rw [hw]
    exact spares_modLane l (fun x => x.flagged plant v)
  rw [← hw, ← lane]
  have whole {t : State} (k : FillsStand w t) : FillsStand s t := ⟨k.1.trans stands.1, k.2.trans stands.2⟩
  cases v with
  | true =>
    obtain ⟨lit, stand⟩ := enablePresent_leaves l w
    refine ⟨Lit.trans (x := (s.lane l).flagged plant true) (by rw [← hw]; exact lit), fun ready off => ?_, fun _ => whole stand⟩
    rw [if_pos rfl, Lane.present_state (state.trans ready)] at off
    cases off
  | false =>
    obtain ⟨lit, withdrawn⟩ := enableWithdrawn_leaves l w
    refine ⟨Lit.trans (x := (s.lane l).flagged plant false) (by rw [← hw]; exact lit), fun ready _ p => ?_, fun h => whole (withdrawn.stand ?_)⟩
    · obtain ⟨lost, kept⟩ := withdrawn.lost (state.trans ready) p
      rw [counts] at lost kept
      exact ⟨lost, fun h out => (spared p).trans (kept h ((spared p).waits out))⟩
    · by_cases ready : (s.lane l).state = .ready
      · refine .inr fun p => ?_
        rw [counts]
        refine ((h.resolve_left fun k => k ready).resolve_left fun k => k ?_) p
        rw [if_neg (by decide), Lane.withdrawn, state, ready]
        rfl
      · exact .inl (by rwa [state])

/-! ### LANE_ENABLE (R94) -/

theorem forLane_byteOf (l : LaneId) (f : LaneId → State → State × Answer) (s : State) :
    forLane (byteOf l.val) f s = f l s := by
  unfold forLane
  rw [idOf_byteOf (by decide)]

@[simp] theorem dropFrame_lane (n : PortId) (l : LaneId) (s : State) : (dropFrame n s).lane l = s.lane l := rfl

/-- The reply of LANE_ENABLE. -/
def enableData (l : LaneId) (y : Lane) : List Field :=
  [.byte (some l.val), .byte (some y.state.code), .flag y.plantEnable, .flag y.islandEnable, .bits (faultBits y)]

theorem laneEnable_eq {g : LaneConfig} {v : Bool} (port : PortId) (l : LaneId) (value : Byte) (s : State)
    (hv : onOffOf value = some v) (hg : (s.lane l).config = some g) (hr : portRole port ≠ .till) :
    laneEnable port l value s = if portRole port = .island ∧ g.owner.val ≠ port.val then (s, .refused .unknownSubject)
      else (setEnable (decide (portRole port = .plant)) l v s,
        .accepted (enableData l ((setEnable (decide (portRole port = .plant)) l v s).lane l)) none) := by
  unfold laneEnable
  rw [hv, hg]
  dsimp only
  cases role : portRole port with
  | till => exact absurd role hr
  | island =>
    rw [if_pos rfl, setIslandEnable_eq]
    by_cases h : g.owner.val ≠ port.val
    · rw [if_pos h, if_pos ⟨rfl, h⟩]
      rfl
    · rw [if_neg h, if_neg fun k => h k.2]
      rfl
  | plant =>
    rw [if_neg (by decide), setPlantEnable_eq, if_neg fun k => by cases k.1]
    rfl

theorem answered_lane (n : PortId) (kind : Byte) (args : List Byte) (a : Answer) (s : State) (l : LaneId) :
    (endEvent (pushReply n kind args a s)).lane l = s.lane l := by
  rw [(sends_endEvent _).rest, (sends_pushReply n kind args a s).rest]
  rfl

theorem Gone.trails {reason : EndReason} (h : Gone reason s p) (k : Trails s t) : Gone reason t p := by
  refine ⟨by rw [k.pos]; exact h.state, by rw [k.pos]; exact h.endReason, ?_⟩
  rw [Waits, k.drawList, k.cooling]
  exact h.waits

theorem laneEnableResult (s : State) (port : PortId) (l : LaneId) (value : Byte) (hr : portRole port ≠ .till)
    (h : Standing (.laneEnable port [byteOf l.val, value]) s) :
    let c : Instr := .laneEnable port [byteOf l.val, value]
    let plant := decide (portRole port = .plant)
    let x := s.lane l
    match onOffOf value, x.config with
    | none, _ => Refuses c s .range
    | some _, none => Refuses c s .notConfigured
    | some v, some g =>
      if portRole port = .island ∧ g.owner.val ≠ port.val then Refuses c s .unknownSubject
      else
        let y := x.enabled plant v
        Completes c s none (s.setLane l y) (fun data t =>
          data = [.byte (some l.val), .byte (some y.state.code), .flag y.plantEnable, .flag y.islandEnable,
            .bits (faultBits y)] ∧
          t.lane l = y ∧
          (x.state = .ready → y.state = .off → LaneLost l s t) ∧
          (x.state ≠ .ready ∨ y.state ≠ .off → ∀ q, t.pos q = s.pos q ∧ t.chan q = s.chan q)) := by
  intro c plant x
  have screened : screen port 0x17#8 [byteOf l.val, value] = none := by
    refine screen_passes rfl ?_ rfl
    cases role : portRole port with
    | till => exact absurd role hr
    | island => simp
    | plant => simp
  have owner : (match idOf 4 (byteOf l.val) with
      | none => refuse .unknownSubject (dropFrame port s)
      | some l => laneEnable port l value (dropFrame port s)) = laneEnable port l value (dropFrame port s) := by
    rw [idOf_byteOf (by decide)]
  cases hv : onOffOf value with
  | none =>
    exact refuses_intro rfl rfl screened h (owner.trans (by simp [laneEnable, hv, refuse]))
  | some v =>
    cases hg : x.config with
    | none =>
      exact refuses_intro rfl rfl screened h (owner.trans (by
        have absent : ((dropFrame port s).lane l).config = none := hg
        unfold laneEnable
        rw [hv, absent]
        rfl))
    | some g =>
      dsimp only
      have owner := owner.trans (laneEnable_eq port l value (dropFrame port s) hv hg hr)
      by_cases hp : portRole port = .island ∧ g.owner.val ≠ port.val
      · rw [if_pos hp] at owner ⊢
        exact refuses_intro rfl rfl screened h owner
      rw [if_neg hp] at owner ⊢
      obtain ⟨lit, lost, stand⟩ := setEnable_leaves plant l v (dropFrame port s)
      rw [lit.lane, dropFrame_lane] at owner
      have still : counted (dropFrame port s) l = counted s l := rfl
      rw [still] at lost
      generalize setEnable (decide (portRole port = .plant)) l v (dropFrame port s) = u at *
      have trails := trails_answered port 0x17#8 [byteOf l.val, value] (.accepted (enableData l (x.enabled plant v)) none) u
      refine completes_intro rfl rfl screened h owner (lit.steady.trans rfl) ⟨rfl, ?_, fun ready off => ?_, fun k q => ?_⟩
      · rw [answered_lane]
        exact lit.lane
      · refine fun p => ⟨fun hc => ?_, fun hc hw => (trails.pos p).trans ((lost ready off p).2 hc hw).pos⟩
        have gone := ((lost ready off p).1 hc).trails trails
        exact ⟨gone.state, gone.endReason⟩
      · rw [trails.pos, trails.chan]
        exact (stand (k.imp_right .inl)).kept q

/-! ### LANE_CONFIG (R93) -/

theorem Lane.present_steady (x : Lane) : x.present.steady = x.steady.present.steady := by
  simp only [Lane.present, apply_ite Lane.steady]
  rfl

theorem Lane.withdrawn_steady (x : Lane) : x.withdrawn.steady = x.steady.withdrawn.steady := by
  cases h : x.state <;> simp [Lane.withdrawn, Lane.steady, Lane.left, h]

theorem Lane.flagged_steady (x : Lane) (plant value : Bool) : (x.flagged plant value).steady = x.steady.flagged plant value := by
  cases plant <;> rfl

theorem Lane.enabled_steady (x : Lane) (plant value : Bool) :
    (x.enabled plant value).steady = (x.steady.enabled plant value).steady := by
  simp only [Lane.enabled_eq, apply_ite Lane.steady]
  rw [Lane.present_steady, Lane.withdrawn_steady, Lane.flagged_steady]
  rfl

/-- A lane with owner, coefficient and class map set (R93). -/
def Lane.configured (x : Lane) (g : LaneConfig) (map : ClassSet) : Lane :=
  { x with config := some g, classMap := map ||| 1#6, warmHold := x.warmHold &&& (map ||| 1#6) }

/-- The lane configured, its warm test run where a class left the warm hold set. -/
def laneConfigured (g : LaneConfig) (map : ClassSet) (l : LaneId) (s : State) : State :=
  let t := s.setLane l ((s.lane l).configured g map)
  if (s.lane l).warmHold &&& (map ||| 1#6) = (s.lane l).warmHold then t else warmTest l (postLaneState l .configured t)

theorem applyLaneConfig_eq (g : LaneConfig) (map : ClassSet) (l : LaneId) (s : State) : applyLaneConfig g map l s =
    if (s.lane l).islandEnable && decide ((s.lane l).config.map (·.owner) ≠ some g.owner)
      then setEnable false l false (laneConfigured g map l s) else laneConfigured g map l s := by
  unfold applyLaneConfig
  simp only [setIslandEnable_eq]
  rfl

theorem warmTest_stand (l : LaneId) (s : State) : FillsStand s (warmTest l s) := by
  obtain ⟨x, e⟩ := warmTestOf_eq (some l) s
  rw [show warmTest l s = warmTestOf (some l) s from rfl, e]
  exact ⟨rfl, rfl⟩

theorem laneConfigured_leaves (g : LaneConfig) (map : ClassSet) (l : LaneId) (s : State) :
    (laneConfigured g map l s).steady = (s.setLane l ((s.lane l).configured g map)).steady ∧
    FillsStand s (laneConfigured g map l s) := by
  obtain ⟨lit, stand⟩ := lit_lane s l ((s.lane l).configured g map) .configured
  unfold laneConfigured
  dsimp only
  split
  · exact ⟨rfl, ⟨rfl, rfl⟩⟩
  · have tested := warmTest_stand l (postLaneState l .configured (s.setLane l ((s.lane l).configured g map)))
    exact ⟨(steady_warmTest ..).trans lit.steady, tested.1.trans stand.1, tested.2.trans stand.2⟩

theorem counted_fuelling (h : ¬ ∃ p, (s.pos p).lane = some l ∧ fuelling (s.pos p).state = true) (p : PosId) :
    counted s l p = false := by
  cases hc : counted s l p with
  | false => rfl
  | true =>
    obtain ⟨under, lane, -⟩ := (counted_iff l).1 hc
    exact absurd ⟨p, lane, by rw [fuelling, under]; rfl⟩ h

theorem laneBusy_iff : laneBusy s l = true ↔ ∃ p, (s.pos p).lane = some l ∧ fuelling (s.pos p).state = true := by
  simp only [laneBusy, List.any_eq_true, Bool.and_eq_true, beq_iff_eq]
  exact ⟨fun ⟨p, _, h⟩ => ⟨p, h⟩, fun ⟨p, h⟩ => ⟨p, mem_allPositions p, h⟩⟩

theorem Lane.enabled_withdrawn_idle {x : Lane} (h : x.islandEnable = false) : x.enabled false false = x := by
  unfold Lane.enabled
  exact if_pos h

/-- What LANE_CONFIG makes of a lane. -/
def Lane.reconfigured (x : Lane) (g : LaneConfig) (map : ClassSet) : Lane :=
  if x.config.map (·.owner) = some g.owner then x.configured g map else (x.configured g map).enabled false false

theorem applyLaneConfig_leaves (g : LaneConfig) (map : ClassSet) (h : ∀ p, counted s l p = false) :
    (applyLaneConfig g map l s).steady = (s.setLane l ((s.lane l).reconfigured g map)).steady ∧
    FillsStand s (applyLaneConfig g map l s) := by
  obtain ⟨steady, stand⟩ := laneConfigured_leaves g map l s
  rw [applyLaneConfig_eq]
  generalize laneConfigured g map l s = u at steady stand
  unfold Lane.reconfigured
  have lane : (u.lane l).steady = ((s.lane l).configured g map).steady := by
    have := lane_steady_of steady l
    rwa [State.setLane_lane] at this
  by_cases same : (s.lane l).config.map (·.owner) = some g.owner
  · rw [if_pos same, if_neg (by simp [same])]
    exact ⟨steady, stand⟩
  rw [if_neg same]
  by_cases on : (s.lane l).islandEnable = true
  · rw [if_pos (by simp [on, same])]
    obtain ⟨lit, -, kept⟩ := setEnable_leaves false l false u
    have still := kept (.inr (.inr fun p => (counted_congr (by rw [State.pos, stand.1]; rfl) l).trans (h p)))
    refine ⟨?_, still.1.trans stand.1, still.2.trans stand.2⟩
    rw [lit.steady, ← setLane_setLane s l ((s.lane l).configured g map)]
    refine steady_setLane_congr steady l ?_
    rw [Lane.enabled_steady, lane, ← Lane.enabled_steady]
  · have off : ((s.lane l).configured g map).islandEnable = false := Bool.eq_false_iff.2 on
    rw [if_neg (by simp [on]), Lane.enabled_withdrawn_idle off]
    exact ⟨steady, stand⟩

theorem configureLane_eq {o : Fin 4} {map : Byte} {coefficient : Nat} (l : LaneId) (owner : Byte) (s : State)
    (ho : idOf 4 owner = some o) : configureLane owner coefficient map l s =
      if 64 ≤ map.toNat ∨ coefficient < 100 ∨ 800 < coefficient then (s, .refused .range)
      else if laneBusy s l then (s, .refused .busy)
      else (applyLaneConfig ⟨o, coefficient⟩ (map.setWidth 6) l s, .accepted [.byte (some l.val),
        .byte (some ((applyLaneConfig ⟨o, coefficient⟩ (map.setWidth 6) l s).lane l).state.code), .byte (some o.val),
        .bits (classBits ((applyLaneConfig ⟨o, coefficient⟩ (map.setWidth 6) l s).lane l).classMap)] none) := by
  unfold configureLane
  rw [ho]
  by_cases hm : 64 ≤ map.toNat
  · rw [if_pos (.inl hm), classSetOf, if_neg (by omega)]
    rfl
  · rw [classSetOf, if_pos (by omega)]
    dsimp only
    by_cases hk : coefficient < 100 ∨ 800 < coefficient
    · rw [if_pos hk, if_pos (.inr hk)]
      rfl
    · rw [if_neg hk, if_neg (not_or.2 ⟨hm, hk⟩)]
      rfl

theorem Lane.reconfigured_map (x : Lane) (g : LaneConfig) (map : ClassSet) : (x.reconfigured g map).classMap = map ||| 1#6 := by
  have withdrawn (y : Lane) : y.withdrawn.classMap = y.classMap := by
    cases h : y.state <;> simp [Lane.withdrawn, Lane.left, h]
  have same (y : Lane) : (y.enabled false false).classMap = y.classMap := by
    rw [Lane.enabled_eq, if_neg Bool.false_ne_true, apply_ite Lane.classMap, if_neg Bool.false_ne_true, withdrawn]
    exact ite_self _
  unfold Lane.reconfigured
  split
  · rfl
  · rw [same]
    rfl

theorem laneConfigResult (s : State) (l : LaneId) (owner k0 k1 map : Byte)
    (h : Standing (.laneConfig plantPort [byteOf l.val, owner, k0, k1, map]) s) :
    let c : Instr := .laneConfig plantPort [byteOf l.val, owner, k0, k1, map]
    let x := s.lane l
    let newMap : ClassSet := map.setWidth 6 ||| 1#6
    match idOf 4 owner with
    | none => Refuses c s .range
    | some o =>
      if 64 ≤ map.toNat ∨ u16 k0 k1 < 100 ∨ 800 < u16 k0 k1 then Refuses c s .range
      else if ∃ p, (s.pos p).lane = some l ∧ fuelling (s.pos p).state = true then Refuses c s .busy
      else
        let set := { x with config := some ⟨o, u16 k0 k1⟩, classMap := newMap, warmHold := x.warmHold &&& newMap }
        Completes c s none
          (s.setLane l (if x.config.map (·.owner) = some o then set else set.enabled false false))
          (fun data t => data = [.byte (some l.val), .byte (some (t.lane l).state.code), .byte (some o.val),
              .bits (newMap.setWidth 8)] ∧
            ∀ q, t.pos q = s.pos q ∧ t.chan q = s.chan q) := by
  intro c x newMap
  cases ho : idOf 4 owner with
  | none =>
    exact refuses_intro rfl rfl (screen_passes rfl (by simp) rfl) h
      ((forLane_byteOf l (configureLane owner (u16 k0 k1) map) _).trans (by simp [configureLane, ho, refuse]))
  | some o =>
    have own := (forLane_byteOf l (configureLane owner (u16 k0 k1) map) (dropFrame plantPort s)).trans
      (configureLane_eq l owner _ ho)
    dsimp only
    by_cases hr : 64 ≤ map.toNat ∨ u16 k0 k1 < 100 ∨ 800 < u16 k0 k1
    · rw [if_pos hr] at own ⊢
      exact refuses_intro rfl rfl (screen_passes rfl (by simp) rfl) h own
    rw [if_neg hr] at own ⊢
    by_cases hb : ∃ p, (s.pos p).lane = some l ∧ fuelling (s.pos p).state = true
    · rw [if_pos hb]
      exact refuses_intro rfl rfl (screen_passes rfl (by simp) rfl) h (own.trans (if_pos (laneBusy_iff.2 hb)))
    rw [if_neg hb]
    have own := own.trans (if_neg (mt laneBusy_iff.1 hb))
    obtain ⟨steady, stand⟩ := applyLaneConfig_leaves (s := dropFrame plantPort s) (l := l) ⟨o, u16 k0 k1⟩ (map.setWidth 6)
      (counted_fuelling hb)
    have lane := lane_steady_of steady l
    rw [State.setLane_lane] at lane
    generalize applyLaneConfig ⟨o, u16 k0 k1⟩ (map.setWidth 6) l (dropFrame plantPort s) = u at *
    have classes : (u.lane l).classMap = newMap :=
      (congrArg Lane.classMap lane : (u.lane l).steady.classMap = _).trans (Lane.reconfigured_map ..)
    rw [classes] at own
    refine completes_intro rfl rfl (screen_passes rfl (by simp) rfl) h own steady ⟨by rw [answered_lane]; rfl, fun q => ?_⟩
    have trails := trails_answered plantPort 0x2E#8 [byteOf l.val, owner, k0, k1, map] (.accepted [.byte (some l.val),
      .byte (some (u.lane l).state.code), .byte (some o.val), .bits (classBits newMap)] none) u
    rw [trails.pos, trails.chan]
    exact stand.kept q

/-- Settles O37: the lane by R93 to R95, the counted fills it ends and the fills it leaves. -/
theorem laneConfigAndEnableResult : Obligations.LaneConfigAndEnableResult := by
  refine ⟨?_, ?_⟩
  · rintro s l owner k0 k1 map c rfl h
    exact laneConfigResult s l owner k0 k1 map h
  · rintro s port l value c rfl hr h
    exact laneEnableResult s port l value hr h

end Sys2Proof.Machine
end

section
/-! SUPPORT. LANE_REPORT, LANE_FAULT_CLEAR and the end of the pull-down timer (R25, R96 to R99, R102, R104, R106). -/

namespace Sys2Proof.Machine

variable {p q : PosId} {b : BankId} {l j : LaneId} {n : PortId} {s t u v : State}

/-! ### The checks (c) and (d) leave lanes, and the waiters that exclude no bank -/

theorem moveBank_unexcluded {w : DrawWait} (hw : w ∈ s.drawList) (he : w.excluded = none) (b : BankId) (st : BankState)
    (h : Option Holder) : w ∈ (moveBank b st h s).drawList := by
  unfold moveBank
  dsimp only
  rw [(sends_postBankState b _).rest]
  dsimp only
  split
  · refine List.mem_map.2 ⟨w, hw, ?_⟩
    rw [if_neg (by rw [he]; simp)]
  · exact hw

theorem grantBank_unexcluded {w : DrawWait} (hw : w ∈ s.drawList) (he : w.excluded = none) (hp : w.pos ≠ p) (b : BankId) :
    w ∈ (grantBank p b s).drawList := by
  rw [grantBank_drawList]
  exact moveBank_unexcluded (s := s.reserving p b) (List.mem_filter.2 ⟨hw, by simpa using hp⟩) he b _ _

theorem enterHold_drawList (p : PosId) (r : HoldReason) (s : State) : (enterHold p r s).drawList = s.drawList ∧
    (enterHold p r s).lanes = s.lanes := by
  obtain ⟨x, w, g, e⟩ := enterHold_eq p r s
  rw [e]
  exact ⟨rfl, rfl⟩

theorem drawRequest_unexcluded {w : DrawWait} (hw : w ∈ s.drawList) (he : w.excluded = none) (hp : w.pos ≠ p) (k : DrawKind)
    (x : Option BankId) : w ∈ (drawRequest p k x s).drawList := by
  unfold drawRequest
  split
  · exact grantBank_unexcluded hw he hp _
  · exact List.mem_append_left _ (List.mem_filter.2 ⟨hw, by simpa using hp⟩)

theorem checksCD_unexcluded {w : DrawWait} (hw : w ∈ s.drawList) (he : w.excluded = none) (hp : w.pos ≠ p) :
    w ∈ (checksCD p s).drawList := by
  have asked := drawRequest_unexcluded hw he hp .ramp none
  unfold checksCD
  dsimp only
  split
  · rwa [(enterHold_drawList ..).1]
  · split
    · exact asked
    · rwa [(enterHold_drawList ..).1]

theorem grantBank_lanes (p : PosId) (b : BankId) (s : State) : (grantBank p b s).lanes = s.lanes := by
  rw [(grantBank_apart p b s).2.2]

theorem drawRequest_lanes (p : PosId) (k : DrawKind) (x : Option BankId) (s : State) :
    (drawRequest p k x s).lanes = s.lanes := by
  unfold drawRequest
  split
  · exact grantBank_lanes ..
  · rfl

theorem checksCD_lanes (p : PosId) (s : State) : (checksCD p s).lanes = s.lanes := by
  have asked := drawRequest_lanes p .ramp none s
  unfold checksCD
  dsimp only
  split
  · exact (enterHold_drawList ..).2
  · split
    · exact asked
    · exact ((enterHold_drawList ..).2).trans asked

/-! ### The outcome of a hold for warmth (R25) -/

theorem checksCD_resolved (hb : (s.pos p).bank = none) (hs : (s.pos p).state = .hold) (hw : warmHeld s p = false) :
    Resolved p false s (checksCD p s) := by
  have resumes := checksCD_resumes hb hs
  rw [if_neg (by rw [hw]; decide)] at resumes
  have eq := checksCD_eq hb (by rw [hs]; decide)
  rw [if_neg (by rw [hw]; decide)] at eq
  unfold Resolved
  rw [if_neg (by decide)]
  cases hbest : bestBank s p .ramp none with
  | some b =>
    rw [hbest] at resumes eq
    have flows := grantBank_flows (s := s) (p := p) (by rw [hs]; decide) (by rw [hs]; decide) b
    refine .inl ⟨b, resumes.1, ?_⟩
    rw [eq]
    dsimp only
    rw [flows.bank]
    exact ⟨rfl, rfl, flows.notWaiting⟩
  | none =>
    rw [hbest] at resumes
    obtain ⟨pos, list⟩ := resumes
    refine .inr ⟨?_, ⟨p, .ramp, s.clock, none⟩, ?_, rfl, rfl, rfl⟩
    · rw [pos]
      unfold Position.heldFor
      simp [hs]
    · rw [list]
      exact List.mem_append_right _ (List.mem_singleton.2 rfl)

theorem Resolved.checksCD {warm : Bool} (h : Resolved q warm s t) (hp : q ≠ p) : Resolved q warm s (checksCD p t) := by
  have spared : Spares q t (Machine.checksCD p t) := spares_checksCD_ne hp
  unfold Resolved at h ⊢
  split
  next hw =>
    rw [if_pos hw] at h
    rw [spared.pos]
    exact h
  next hw =>
    rw [if_neg hw] at h
    rw [spared.pos]
    refine h.imp (fun ⟨b, pos, drawing, holder, out⟩ => ⟨b, pos, ?_⟩) (fun ⟨pos, w, hw, hq, kind, excluded⟩ =>
      ⟨pos, w, checksCD_unexcluded hw excluded (by rw [hq]; exact hp), hq, kind, excluded⟩)
    rw [(yields_checksCD p t).bank b (by rw [drawing]; decide)]
    exact ⟨drawing, holder, fun w hw e => by
      obtain ⟨w', hw', e'⟩ := spared.draws ⟨w, hw, e⟩
      exact out w' hw' e'⟩

theorem Resolved.trails {warm : Bool} (h : Resolved q warm s t) (k : Trails t u) : Resolved q warm s u := by
  unfold Resolved at h ⊢
  simp only [k.pos, k.bank, k.drawList]
  exact h

theorem Resolved.congr {warm : Bool} (h : Resolved q warm u t) (k : u.pos q = s.pos q) : Resolved q warm s t := by
  unfold Resolved at h ⊢
  simp only [← k]
  exact h

/-! ### Sets of classes -/

theorem class_bit (j k : ClassId) : (1#6 <<< j.val).getLsbD k.val = decide (k = j) := by
  revert j k
  decide

/-- The classes of a list that are as `P` says, added to a set. -/
theorem classes_bit (P : ClassId → Bool) (l : List ClassId) (m : ClassSet) (k : ClassId) :
    (l.foldl (fun (m : ClassSet) (k : ClassId) => if P k then m ||| (1#6 <<< k.val) else m) m).getLsbD k.val = true ↔
      m.getLsbD k.val = true ∨ k ∈ l ∧ P k = true := by
  induction l generalizing m with
  | nil => simp
  | cons j l ih =>
    rw [List.foldl_cons, ih]
    by_cases hj : P j = true
    · rw [if_pos hj, BitVec.getLsbD_or, class_bit, Bool.or_eq_true, decide_eq_true_iff, List.mem_cons]
      constructor
      · rintro ((h | rfl) | h)
        · exact .inl h
        · exact .inr ⟨.inl rfl, hj⟩
        · exact .inr ⟨.inr h.1, h.2⟩
      · rintro (h | ⟨rfl | h, hk⟩)
        · exact .inl (.inl h)
        · exact .inl (.inr rfl)
        · exact .inr ⟨h, hk⟩
    · rw [if_neg hj, List.mem_cons]
      refine or_congr_right ⟨fun h => ⟨.inr h.1, h.2⟩, fun ⟨h, hk⟩ => ⟨h.resolve_left ?_, hk⟩⟩
      rintro rfl
      exact hj hk

/-! ### The lift test (R104) -/

/-- A lane whose cold classes have left the warm hold set. -/
def Lane.lifted (x : Lane) (v : Int) : Lane := { x with warmHold := x.warmHold &&& ~~~liftedClasses x v }

/-- A class whose threshold a supply temperature meets. -/
def coldEnough (v : Int) (k : ClassId) : Bool :=
  match (classRow k).threshold with
  | some t => decide (v ≤ t)
  | none => false

theorem mem_cooledClasses {v : Int} {k : ClassId} (h : coldEnough v k = true) : k ∈ ([1, 2, 3, 4, 5] : List ClassId) := by
  by_cases e : k = 0
  · subst e
    cases h
  · have cooled : ∀ k : ClassId, k ≠ 0 → k ∈ ([1, 2, 3, 4, 5] : List ClassId) := by decide
    exact cooled k e

theorem liftedClasses_bit (x : Lane) (v : Int) (k : ClassId) : (liftedClasses x v).getLsbD k.val = true ↔
    x.warmHold.getLsbD k.val = true ∧ coldEnough v k = true := by
  have bit := classes_bit (fun k => x.warmHold.getLsbD k && coldEnough v k) [1, 2, 3, 4, 5] 0#6 k
  rw [Bool.and_eq_true] at bit
  refine bit.trans ⟨fun h => ?_, fun h => .inr ⟨mem_cooledClasses h.2, h⟩⟩
  rcases h with h | h
  · simp at h
  · exact h.2

theorem Lane.lifted_bit (x : Lane) (v : Int) (k : ClassId) : (x.lifted v).warmHold.getLsbD k.val = true ↔
    x.warmHold.getLsbD k.val = true ∧ ∀ limit, (classRow k).threshold = some limit → limit < v := by
  have cold : coldEnough v k = true ↔ ∃ limit, (classRow k).threshold = some limit ∧ v ≤ limit := by
    unfold coldEnough
    cases (classRow k).threshold <;> simp
  have bit : (x.lifted v).warmHold.getLsbD k.val = (x.warmHold.getLsbD k.val && !(liftedClasses x v).getLsbD k.val) := by
    simp only [Lane.lifted, BitVec.getLsbD_and, BitVec.getLsbD_not, k.isLt, decide_true, Bool.true_and]
  rw [bit, Bool.and_eq_true, Bool.not_eq_true', ← Bool.not_eq_true, liftedClasses_bit, cold]
  refine and_congr_right fun held => ?_
  constructor
  · exact fun h limit e => Int.lt_of_not_ge fun le => h ⟨held, limit, e, le⟩
  · rintro h ⟨-, limit, e, le⟩
    exact absurd (h limit e) (by omega)

theorem Lane.lifted_none {x : Lane} {v : Int} (h : (x.lifted v).warmHold = x.warmHold) : liftedClasses x v = 0#6 := by
  refine BitVec.eq_of_getLsbD_eq fun i hi => ?_
  rw [BitVec.getLsbD_zero]
  cases hb : (liftedClasses x v).getLsbD i with
  | false => rfl
  | true =>
    have held := ((liftedClasses_bit x v ⟨i, hi⟩).1 hb).1
    have out : (x.lifted v).warmHold.getLsbD i = false := by
      simp only [Lane.lifted, BitVec.getLsbD_and, BitVec.getLsbD_not, hb, Bool.not_true, Bool.and_false]
    rw [h] at out
    rw [← held, ← out]

/-- A position that the lift test tells. -/
def toldLift (l : LaneId) (lifted : ClassSet) (x : Position) : Bool :=
  x.lane == some l && x.state == .hold && x.holdReason == some .laneWarm &&
    (match x.cls with | some k => lifted.getLsbD k | none => false)

theorem tellLifted_eq (l : LaneId) (lifted : ClassSet) (s : State) (p : PosId) :
    tellLifted l lifted s p = if toldLift l lifted (s.pos p) then checksCD p s else s := rfl

theorem liftTest_eq (l : LaneId) (v : Int) (s : State) : liftTest l v s =
    if liftedClasses (s.lane l) v = 0#6 then s
    else postLaneState l .warmLift (allPositions.foldl (tellLifted l (liftedClasses (s.lane l) v))
      (s.setLane l ((s.lane l).lifted v))) := rfl

theorem spares_tellLifted (h : q ≠ p) (l : LaneId) (lifted : ClassSet) : Spares q s (tellLifted l lifted s p) := by
  rw [tellLifted_eq]
  split
  · exact spares_checksCD_ne h
  · exact .refl q s

theorem tellLifted_lanes (l : LaneId) (lifted : ClassSet) (s : State) (p : PosId) : (tellLifted l lifted s p).lanes = s.lanes := by
  rw [tellLifted_eq]
  split
  · exact checksCD_lanes p s
  · rfl

/-- A position that is not told stays, whoever is. -/
theorem liftFold_spares {lifted : ClassSet} (h : toldLift l lifted (s.pos q) = false) (ps : List PosId) :
    Spares q s (ps.foldl (tellLifted l lifted) s) := by
  refine foldl_keep (keep := fun u => Spares q s u) (fun u p _ hu => ?_) (.refl q s)
  by_cases e : p = q
  · subst e
    rw [tellLifted_eq, hu.pos, h]
    exact hu
  · exact hu.trans (spares_tellLifted (Ne.symm e) l lifted)

theorem liftFold_lanes (lifted : ClassSet) (ps : List PosId) : (ps.foldl (tellLifted l lifted) s).lanes = s.lanes :=
  foldl_keep (keep := fun u => u.lanes = s.lanes) (fun u p _ hu => (tellLifted_lanes l lifted u p).trans hu) rfl

/-- A position that is told resolves its hold, whatever those before and after it do. -/
theorem liftFold_resolves {lifted : ClassSet} (h : toldLift l lifted (s.pos q) = true) (hb : (s.pos q).bank = none)
    (hw : warmHeld s q = false) : Resolved q false s (allPositions.foldl (tellLifted l lifted) s) := by
  have hold : (s.pos q).state = .hold := by
    simp only [toldLift, Bool.and_eq_true, beq_iff_eq] at h
    exact h.1.1.2
  refine foldl_once (f := tellLifted l lifted) (a := q) (keep := fun u => u.lanes = s.lanes)
    (before := fun u => u.pos q = s.pos q) (after := fun u => Resolved q false s u) allPositions_nodup (mem_allPositions q)
    (fun u p _ hu => (tellLifted_lanes l lifted u p).trans hu)
    (fun u p _ hp _ hu => ((spares_tellLifted (Ne.symm hp) l lifted).pos).trans hu) (fun u hu hs => ?_)
    (fun u p _ hp _ hu => ?_) rfl rfl
  · have warm : warmHeld u q = false := by
      rw [← hw]
      unfold warmHeld State.lane
      rw [hs, hu]
    rw [tellLifted_eq, hs, if_pos h]
    exact (checksCD_resolved (by rw [hs]; exact hb) (by rw [hs]; exact hold) warm).congr hs
  · rw [tellLifted_eq]
    split
    · exact hu.checksCD (Ne.symm hp)
    · exact hu

theorem Sends.lanes (h : Sends s t) : t.lanes = s.lanes := by rw [h.rest]

/-- What the lift test leaves. -/
structure Lifted (l : LaneId) (v : Int) (s t : State) : Prop where
  lanes : t.lanes = (s.setLane l ((s.lane l).lifted v)).lanes
  steady : t.steady = (s.setLane l ((s.lane l).lifted v)).steady
  resolved : ∀ q, (s.pos q).lane = some l → (s.pos q).state = .hold → (s.pos q).holdReason = some .laneWarm →
    (s.pos q).bank = none → ∀ k, (s.pos q).cls = some k → (s.lane l).warmHold.getLsbD k = true →
    ((s.lane l).lifted v).warmHold.getLsbD k = false → Resolved q false s t
  idle : ((s.lane l).lifted v).warmHold = (s.lane l).warmHold → t = s
  kept : ∀ q, (s.pos q).holdReason ≠ some .laneWarm → Spares q s t

theorem liftTest_lifted (l : LaneId) (v : Int) (s : State) : Lifted l v s (liftTest l v s) := by
  have bit (k : ClassId) (hold : (s.lane l).warmHold.getLsbD k = true)
      (gone : ((s.lane l).lifted v).warmHold.getLsbD k = false) : (liftedClasses (s.lane l) v).getLsbD k = true := by
    simp only [Lane.lifted, BitVec.getLsbD_and, BitVec.getLsbD_not, hold, k.isLt, decide_true, Bool.true_and] at gone
    simpa using gone
  rw [liftTest_eq]
  by_cases none : liftedClasses (s.lane l) v = 0#6
  · have same : (s.lane l).lifted v = s.lane l := by
      have full : (s.lane l).warmHold &&& ~~~0#6 = (s.lane l).warmHold :=
        (congrArg ((s.lane l).warmHold &&& ·) (by decide : ~~~0#6 = BitVec.allOnes 6)).trans BitVec.and_allOnes
      rw [Lane.lifted, none, full]
    rw [if_pos none]
    refine ⟨by rw [same, setLane_self], by rw [same, setLane_self], fun q _ _ _ _ k _ hold gone => ?_, fun _ => rfl, fun q _ => .refl q s⟩
    rw [same, hold] at gone
    cases gone
  rw [if_neg none]
  obtain ⟨w, hw⟩ : ∃ w, w = s.setLane l ((s.lane l).lifted v) := ⟨_, rfl⟩
  rw [← hw]
  have pos (q : PosId) : w.pos q = s.pos q := by rw [hw]; rfl
  have spared (q : PosId) : Spares q s w := hw ▸ spares_modLane l (fun x => x.lifted v)
  generalize hf : allPositions.foldl (tellLifted l (liftedClasses (s.lane l) v)) w = f
  have posted : Sends f (postLaneState l .warmLift f) := sends_postNotice ..
  have lanes : f.lanes = w.lanes := by
    rw [← hf]
    exact liftFold_lanes (s := w) (l := l) (liftedClasses (s.lane l) v) allPositions
  have steady : f.steady = w.steady := by
    rw [← hf]
    refine steady_foldl _ _ (fun u p => ?_) w
    rw [tellLifted_eq]
    split
    · exact steady_checksCD ..
    · rfl
  refine ⟨?_, ((steady_postNotice ..).trans steady).trans (congrArg State.steady hw), fun q lane state reason bank k cls hold gone => ?_,
    fun h => absurd (Lane.lifted_none h) none, fun q hq => ?_⟩
  · exact posted.lanes.trans (lanes.trans (congrArg State.lanes hw))
  · refine Resolved.trails ?_ posted.trails
    rw [← hf]
    refine (liftFold_resolves ?_ (by rw [pos]; exact bank) ?_).congr (pos q)
    · rw [pos, toldLift, lane, state, reason, cls]
      simpa using bit k hold gone
    · unfold warmHeld
      rw [pos, lane, cls]
      dsimp only
      rw [hw, State.setLane_lane, gone, Bool.and_false]
  · have out : toldLift l (liftedClasses (s.lane l) v) (w.pos q) = false := by
      rw [pos, toldLift]
      simp [hq]
    have kept := liftFold_spares (s := w) (l := l) out allPositions
    rw [hf] at kept
    exact ((spared q).trans kept).trans (spares_postNotice ..)

end Sys2Proof.Machine
end

section
/-! SUPPORT. LANE_REPORT, LANE_FAULT_CLEAR and the end of the pull-down timer: the settling proofs (R96 to R99, R102, R104,
R106). -/

namespace Sys2Proof.Machine

variable {p q : PosId} {b : BankId} {l j : LaneId} {n : PortId} {s t u v : State}

/-! ### The warm test (R102) -/

/-- A lane after the warm test. -/
def Lane.warmTested (x : Lane) (warm : Bool) : Lane :=
  { x with warmTimer := if warm then some (x.warmTimer.getD 10000) else none }

theorem warmTest_eq (l : LaneId) (s : State) : warmTest l s =
    if (s.lane l).state == .ready then s.setLane l ((s.lane l).warmTested (allPositions.any (unheldWarm s l))) else s := by
  unfold warmTest
  split
  · split
    next h => rw [h]; rfl
    next h => rw [Bool.eq_false_iff.2 h]; rfl
  · rfl

theorem any_positions (f : PosId → Bool) : allPositions.any f = true ↔ ∃ p, f p = true := by
  rw [List.any_eq_true]
  exact ⟨fun ⟨p, _, h⟩ => ⟨p, h⟩, fun ⟨p, h⟩ => ⟨p, mem_allPositions p, h⟩⟩

/-- Whether a fill is warm depends on its record and on the supply and warm hold set of the lane. -/
theorem unheldWarm_congr (hp : t.pos p = s.pos p) (hs : (t.lane l).supply = (s.lane l).supply)
    (hw : (t.lane l).warmHold = (s.lane l).warmHold) : unheldWarm t l p = unheldWarm s l p := by
  unfold unheldWarm
  rw [counted_congr hp, hp, hs, hw]

theorem unheldWarm_answered (n : PortId) (kind : Byte) (args : List Byte) (a : Answer) (s : State) (l : LaneId) :
    unheldWarm (endEvent (pushReply n kind args a s)) l = unheldWarm s l :=
  funext fun p => unheldWarm_congr ((trails_answered n kind args a s).pos p) (by rw [answered_lane]) (by rw [answered_lane])

/-! ### LANE_REPORT (R96) -/

/-- A lane with a supply temperature held. -/
def Lane.reported (x : Lane) (v : Int) (clamped : Bool) (now : Clock) : Lane :=
  { x with supply := some ⟨v, now⟩, sensorRange := clamped }

/-- The reply of LANE_REPORT. -/
def reportData (l : LaneId) (y : Lane) : List Field :=
  [.byte (some l.val), .byte (some y.state.code), .bits (faultBits y), .bits (y.warmHold.setWidth 8), .flag y.warmTimer.isSome]

theorem reportLane_eq (temperature : Int) (l : LaneId) (s : State) : reportLane temperature l s =
    let c := clampTemp temperature
    let t := laneReportFurther l c.1 c.2 (s.setLane l ((s.lane l).reported c.1 c.2 s.clock))
    (t, .accepted (reportData l (t.lane l)) none) := rfl

/-- A lane that has shown a cold report (R97). -/
def Lane.pulledDown (x : Lane) : Lane :=
  { x with state := .ready, pulldownTimer := none, staleWatch := some 5000, warmHold := 0#6, warmTimer := none }

theorem laneReportFurther_eq (l : LaneId) (v : Int) (clamped : Bool) (s : State) : laneReportFurther l v clamped s =
    match (s.lane l).state with
    | .off | .fault => s
    | .pulldown => if !clamped && decide (v ≤ -175) then postLaneState l .ready (s.setLane l (s.lane l).pulledDown) else s
    | .ready => warmTest l (liftTest l v (s.setLane l { s.lane l with staleWatch := some 5000 })) := rfl

/-- What a report leaves of a lane in READY and of the fills, with the warm hold set lifted. -/
structure Reported (l : LaneId) (v : Int) (s t : State) : Prop where
  steady : t.steady = (s.setLane l ((s.lane l).lifted v)).steady
  lane : t.lane l = ((s.lane l).lifted v).warmTested (allPositions.any (unheldWarm t l))
  resolved : ∀ q, (s.pos q).lane = some l → (s.pos q).state = .hold → (s.pos q).holdReason = some .laneWarm →
    (s.pos q).bank = none → ∀ k, (s.pos q).cls = some k → (s.lane l).warmHold.getLsbD k = true →
    ((s.lane l).lifted v).warmHold.getLsbD k = false → Resolved q false s t
  idle : ((s.lane l).lifted v).warmHold = (s.lane l).warmHold → FillsStand s t
  kept : ∀ q, (s.pos q).holdReason ≠ some .laneWarm → Spares q s t

theorem reported_ready (l : LaneId) (v : Int) (h : (s.lane l).state = .ready) : Reported l v s (warmTest l (liftTest l v s)) := by
  obtain ⟨lanes, steady, resolved, idle, kept⟩ := liftTest_lifted l v s
  generalize liftTest l v s = u at *
  have lane : u.lane l = (s.lane l).lifted v := by
    rw [State.lane, lanes]
    exact State.setLane_lane s l _
  have tested := warmTest_eq l u
  rw [lane, if_pos (by rw [Lane.lifted, h]; rfl)] at tested
  have trails : Trails u (warmTest l u) := by
    rw [tested]
    exact ⟨rfl, fun _ => rfl⟩
  have stand := warmTest_stand l u
  have after : (warmTest l u).lane l = ((s.lane l).lifted v).warmTested (allPositions.any (unheldWarm u l)) := by
    rw [tested, State.setLane_lane]
  refine ⟨(steady_warmTest l u).trans steady, ?_, fun q a b c d k e f g => (resolved q a b c d k e f g).trails trails,
    fun e => ?_, fun q hq => (kept q hq).trans ?_⟩
  · have same : unheldWarm (warmTest l u) l = unheldWarm u l := funext fun p =>
      unheldWarm_congr (trails.pos p) (by rw [after, lane]; rfl) (by rw [after, lane]; rfl)
    rw [same]
    exact after
  · rw [idle e] at stand ⊢
    exact stand
  · rw [tested]
    exact spares_modLane l (fun _ => _)

theorem postLaneState_dropFrame (l : LaneId) (cause : LaneCause) (n : PortId) (s : State) :
    postLaneState l cause (dropFrame n s) = dropFrame n (postLaneState l cause s) := postNotice_dropFrame ..

theorem postLaneState_evt (l : LaneId) (cause : LaneCause) (s : State) : (postLaneState l cause s).evt = s.evt := by
  unfold postLaneState
  rw [postNotice_evt]

theorem laneReportResult (s : State) (l : LaneId) (t0 t1 : Byte)
    (h : Standing (.laneReport plantPort [byteOf l.val, t0, t1]) s) :
    let c : Instr := .laneReport plantPort [byteOf l.val, t0, t1]
    let v := max (-600) (min (i16 t0 t1) 1200)
    let clamped := decide (i16 t0 t1 < -600 ∨ 1200 < i16 t0 t1)
    let x := { s.lane l with supply := some ⟨v, s.clock⟩, sensorRange := clamped }
    match x.state with
    | .off | .fault => Accepts c s (reportData l x) none (s.setLane l x)
    | .pulldown =>
      if clamped = false ∧ v ≤ -175 then
        let y := { x with
          state := .ready, pulldownTimer := none, staleWatch := some 5000, warmHold := 0#6, warmTimer := none }
        Accepts c s (reportData l y) none (postLaneState l .ready (s.setLane l y))
      else Accepts c s (reportData l x) none (s.setLane l x)
    | .ready =>
      ∃ e : State, (∀ j, j ≠ l → e.lane j = s.lane j) ∧
        (∀ k : ClassId, (e.lane l).warmHold.getLsbD k = true ↔ x.warmHold.getLsbD k = true ∧
          ∀ limit, (classRow k).threshold = some limit → limit < v) ∧
        e = s.setLane l { x with staleWatch := some 5000, warmHold := (e.lane l).warmHold } ∧
        Completes c s none e (fun data t => data = reportData l (t.lane l) ∧
          (∀ q, (s.pos q).lane = some l → (s.pos q).state = .hold → (s.pos q).holdReason = some .laneWarm →
            (s.pos q).bank = none → ∀ k, (s.pos q).cls = some k → x.warmHold.getLsbD k = true →
            (e.lane l).warmHold.getLsbD k = false → Resolved q false s t) ∧
          t.lane l = { e.lane l with warmTimer :=
            if (∃ p, unheldWarm t l p = true) then some (x.warmTimer.getD 10000) else none } ∧
          ((e.lane l).warmHold = x.warmHold → ∀ q, t.pos q = s.pos q ∧ t.chan q = s.chan q) ∧
          ∀ q, (s.pos q).holdReason ≠ some .laneWarm → ¬ Waits s q → t.pos q = s.pos q ∧ t.chan q = s.chan q) := by
  intro c v clamped x
  have own := (forLane_byteOf l (reportLane (i16 t0 t1)) (dropFrame plantPort s)).trans (reportLane_eq _ l _)
  dsimp only at own
  rw [show (clampTemp (i16 t0 t1)).1 = v from rfl, show (clampTemp (i16 t0 t1)).2 = clamped from rfl,
    show ((dropFrame plantPort s).lane l).reported v clamped (dropFrame plantPort s).clock = x from rfl,
    show (dropFrame plantPort s).setLane l x = dropFrame plantPort (s.setLane l x) from rfl] at own
  have further := laneReportFurther_eq l v clamped (dropFrame plantPort (s.setLane l x))
  rw [dropFrame_lane, State.setLane_lane] at further
  have between := h.between
  have twice (z : Lane) : (dropFrame plantPort (s.setLane l x)).setLane l z = dropFrame plantPort (s.setLane l z) :=
    congrArg (dropFrame plantPort) (setLane_setLane s l x z)
  have unmoved (stay : laneReportFurther l v clamped (dropFrame plantPort (s.setLane l x)) = dropFrame plantPort (s.setLane l x)) :
      Accepts c s (reportData l x) none (s.setLane l x) := by
    rw [stay, dropFrame_lane, State.setLane_lane] at own
    exact accepts_intro rfl rfl (screen_passes rfl (by simp) rfl) h own between
  cases hx : x.state with
  | off =>
    rw [hx] at further
    exact unmoved further
  | fault =>
    rw [hx] at further
    exact unmoved further
  | pulldown =>
    rw [hx] at further
    dsimp only at further ⊢
    by_cases cold : clamped = false ∧ v ≤ -175
    · rw [if_pos cold]
      rw [if_pos (by simp [cold])] at further
      have commuted : postLaneState l .ready ((dropFrame plantPort (s.setLane l x)).setLane l x.pulledDown) =
          dropFrame plantPort (postLaneState l .ready (s.setLane l x.pulledDown)) := by
        rw [← postLaneState_dropFrame, ← twice x.pulledDown]
      have lane := (lit_lane s l x.pulledDown .ready).1.lane
      rw [further, commuted, dropFrame_lane, lane] at own
      exact accepts_intro rfl rfl (screen_passes rfl (by simp) rfl) h own ((postLaneState_evt ..).trans between)
    · rw [if_neg cold]
      exact unmoved (further.trans (if_neg (by simpa using cold)))
  | ready =>
    obtain ⟨y, hy⟩ : ∃ y, y = { x with staleWatch := some 5000 } := ⟨_, rfl⟩
    have ready : y.state = .ready := by rw [hy]; exact hx
    have fields : y.warmHold = x.warmHold ∧ y.warmTimer = x.warmTimer ∧ (s.lane l).warmHold = x.warmHold := by
      rw [hy]
      exact ⟨rfl, rfl, rfl⟩
    obtain ⟨w, hw⟩ : ∃ w, w = (dropFrame plantPort s).setLane l y := ⟨_, rfl⟩
    have lane : w.lane l = y := by rw [hw, State.setLane_lane]
    have started : laneReportFurther l v clamped (dropFrame plantPort (s.setLane l x)) = warmTest l (liftTest l v w) := by
      rw [further, hx, hw, hy]
      exact congrArg (fun e => warmTest l (liftTest l v e)) (twice _)
    obtain ⟨steady, after, resolved, idle, kept⟩ := reported_ready (s := w) l v (by rw [lane, ready])
    rw [← started] at steady after resolved idle kept
    have pos (q : PosId) : w.pos q = s.pos q := by rw [hw]; rfl
    have chan (q : PosId) : w.chan q = s.chan q := by rw [hw]; rfl
    simp only [lane, fields.1, pos] at steady after resolved idle kept
    generalize laneReportFurther l v clamped (dropFrame plantPort (s.setLane l x)) = u at *
    have hold : ((s.setLane l (y.lifted v)).lane l).warmHold = (y.lifted v).warmHold := by rw [State.setLane_lane]
    have trails := trails_answered plantPort 0x2F#8 [byteOf l.val, t0, t1] (.accepted (reportData l (u.lane l)) none) u
    refine ⟨s.setLane l (y.lifted v), fun j hj => State.setLane_lane_ne s l j _ hj, fun k => ?_, ?_,
      completes_intro rfl rfl (screen_passes rfl (by simp) rfl) h own ?_ ⟨?_, ?_, ?_, ?_, ?_⟩⟩
    · rw [hold, Lane.lifted_bit, fields.1]
    · rw [hold, hy, ← hx]
      rfl
    · rw [steady, hw]
      exact congrArg State.steady (setLane_setLane (dropFrame plantPort s) l y _)
    · rw [answered_lane]
    · rw [hold]
      exact fun q a b c d k e f g => ((resolved q a b c d k e f g).congr (pos q)).trails trails
    · rw [State.setLane_lane, answered_lane, after]
      simp only [unheldWarm_answered, ← any_positions]
      rw [Lane.warmTested, show (y.lifted v).warmTimer = x.warmTimer from fields.2.1]
    · rw [hold]
      intro same q
      obtain ⟨k, k'⟩ := (idle same).kept q
      exact ⟨(trails.pos q).trans (k.trans (pos q)), (trails.chan q).trans (k'.trans (chan q))⟩
    · intro q hq _
      have k := kept q hq
      exact ⟨(trails.pos q).trans (k.pos.trans (pos q)), (trails.chan q).trans (k.chan.trans (chan q))⟩

/-! ### LANE_FAULT_CLEAR (R99) -/

/-- A lane whose fault causes are cleared. -/
def Lane.cleared (x : Lane) : Lane := { x with faultPulldown := false, faultStale := false }

/-- What LANE_FAULT_CLEAR makes of a lane. -/
def Lane.recovered (x : Lane) : Lane :=
  if x.state ≠ .fault then x.cleared
  else if x.plantEnable = true ∧ x.islandEnable = true then { x.cleared with state := .pulldown, pulldownTimer := some 600000 }
  else { x.cleared with state := .off }

/-- The lane cleared and its state noticed. -/
def faultCleared (l : LaneId) (s : State) : State :=
  let t := s.setLane l (s.lane l).cleared
  match (s.lane l).state with
  | .fault =>
    let u := postLaneState l .cleared (t.modLane l (fun x => { x with state := .off }))
    if (s.lane l).plantEnable && (s.lane l).islandEnable then enterPulldown l .cleared u else u
  | .off | .pulldown | .ready =>
    if (s.lane l).faultPulldown || (s.lane l).faultStale then postLaneState l .cleared t else t

theorem clearLaneFault_eq (l : LaneId) (s : State) : clearLaneFault l s =
    (faultCleared l s, .accepted [.byte (some l.val), .byte (some ((faultCleared l s).lane l).state.code),
      .flag ((faultCleared l s).lane l).plantEnable, .flag ((faultCleared l s).lane l).islandEnable] none) := rfl

theorem faultCleared_leaves (l : LaneId) (s : State) : Lit l (s.lane l).recovered s (faultCleared l s) ∧
    FillsStand s (faultCleared l s) := by
  have stay (k : Prop) [Decidable k] : Lit l (s.lane l).cleared s
      (if k then postLaneState l .cleared (s.setLane l (s.lane l).cleared) else s.setLane l (s.lane l).cleared) ∧
      FillsStand s (if k then postLaneState l .cleared (s.setLane l (s.lane l).cleared) else s.setLane l (s.lane l).cleared) := by
    split
    · exact lit_lane s l _ _
    · exact ⟨lit_setLane l _ s, rfl, rfl⟩
  unfold faultCleared Lane.recovered
  dsimp only
  cases h : (s.lane l).state with
  | off => exact stay _
  | pulldown => exact stay _
  | ready => exact stay _
  | fault =>
    rw [if_neg (by simp)]
    obtain ⟨u, hu⟩ : ∃ u, u = postLaneState l .cleared
      ((s.setLane l (s.lane l).cleared).modLane l (fun x => { x with state := .off })) := ⟨_, rfl⟩
    have off : Lit l { (s.lane l).cleared with state := .off } s u ∧ FillsStand s u := by
      rw [hu, State.modLane, State.setLane_lane, setLane_setLane]
      exact lit_lane s l _ _
    dsimp only
    rw [← hu]
    by_cases on : (s.lane l).plantEnable = true ∧ (s.lane l).islandEnable = true
    · rw [if_pos on, if_pos (by simpa using on)]
      obtain ⟨lit, stand⟩ := lit_lane u l { u.lane l with state := .pulldown, pulldownTimer := some 600000 } .cleared
      have steady := lit.steady.trans (off.1.change { u.lane l with state := .pulldown, pulldownTimer := some 600000 }).steady
      have pulled : { u.lane l with state := .pulldown, pulldownTimer := some 600000 } =
          { (s.lane l).cleared with state := .pulldown, pulldownTimer := some 600000 } := by rw [off.1.lane]
      exact ⟨⟨lit.lane.trans pulled, steady.trans (by rw [pulled])⟩, stand.1.trans off.2.1, stand.2.trans off.2.2⟩
    · rw [if_neg on, if_neg (by simpa using on)]
      exact off

theorem laneFaultClearResult (s : State) (l : LaneId) (h : Standing (.laneFaultClear plantPort [byteOf l.val]) s) :
    Completes (.laneFaultClear plantPort [byteOf l.val]) s none (s.setLane l (s.lane l).recovered) (fun data t =>
      data = [.byte (some l.val), .byte (some (s.lane l).recovered.state.code), .flag (s.lane l).recovered.plantEnable,
        .flag (s.lane l).recovered.islandEnable] ∧
      t.lane l = (s.lane l).recovered ∧ ∀ q, t.pos q = s.pos q ∧ t.chan q = s.chan q) := by
  have own := (forLane_byteOf l clearLaneFault (dropFrame plantPort s)).trans (clearLaneFault_eq l _)
  obtain ⟨lit, stand⟩ := faultCleared_leaves l (dropFrame plantPort s)
  rw [lit.lane, dropFrame_lane] at own
  generalize faultCleared l (dropFrame plantPort s) = u at *
  have trails := trails_answered plantPort 0x30#8 [byteOf l.val] (.accepted [.byte (some l.val),
    .byte (some (s.lane l).recovered.state.code), .flag (s.lane l).recovered.plantEnable,
    .flag (s.lane l).recovered.islandEnable] none) u
  refine completes_intro rfl rfl (screen_passes rfl (by simp) rfl) h own (lit.steady.trans rfl) ⟨rfl, ?_, fun q => ?_⟩
  · rw [answered_lane]
    exact lit.lane
  · rw [trails.pos, trails.chan]
    exact stand.kept q

/-! ### The end of the pull-down timer (R97) -/

theorem pullDownExpiryResult (s : State) (l : LaneId) (hq : Quiet s) :
    if (s.lane l).state = .pulldown ∧ (s.lane l).pulldownTimer = some 0 then
      Takes (.pullDownTimerExpiry l) s (postLaneState l .pulldownTimeout (s.setLane l { s.lane l with
        state := .fault, pulldownTimer := none, faultPulldown := true }))
    else Takes (.pullDownTimerExpiry l) s s := by
  obtain ⟨f, effect, hf⟩ : ∃ f, effectOf (.pullDownTimerExpiry l) = some f ∧ f s =
      if (s.lane l).state == .pulldown && due (s.lane l).pulldownTimer then
        postLaneState l .pulldownTimeout (s.setLane l { s.lane l with
          state := .fault, pulldownTimer := none, faultPulldown := true }) else s := ⟨_, rfl, rfl⟩
  simp only [Bool.and_eq_true, beq_iff_eq, due_iff] at hf
  split
  next h => exact takes_intro (exec_effect effect s) hq (hf.trans (if_pos h)) ((postLaneState_evt ..).trans hq.between)
  next h => exact takes_nothing effect hq (hf.trans (if_neg h))

/-- Settles O38: the lane report by the state of the lane, the fault clear, and the end of the pull-down. -/
theorem laneReportAndFaultResult : Obligations.LaneReportAndFaultResult := by
  refine ⟨?_, ?_, pullDownExpiryResult⟩
  · rintro s l t0 t1 c rfl h
    exact laneReportResult s l t0 t1 h
  · rintro s l c rfl h
    exact laneFaultClearResult s l h

end Sys2Proof.Machine
end

section
/-! SUPPORT. The end of a lane's stale watch and of its warm timer (R98, R101, R103). -/

namespace Sys2Proof.Machine

variable {p q : PosId} {b : BankId} {l : LaneId} {k : ClassId} {joined : ClassSet} {s t u : State}

/-! ### The stale watch (R98) -/

theorem laneStaleResult (s : State) (l : LaneId) (hq : Quiet s) :
    if (s.lane l).state = .ready ∧ (s.lane l).staleWatch = some 0 then
      let y := { s.lane l with
        state := .fault, faultStale := true, staleWatch := none, warmTimer := none, warmHold := 0#6 }
      Brings (.laneStaleWatchExpiry l) s (s.setLane l y) (fun t => t.lane l = y ∧ LaneLost l s t)
    else Takes (.laneStaleWatchExpiry l) s s := by
  obtain ⟨f, effect, hf⟩ : ∃ f, effectOf (.laneStaleWatchExpiry l) = some f ∧ f s =
      if (s.lane l).state == .ready && due (s.lane l).staleWatch then
        laneLeavesReady l .fault .stale (s.setLane l { s.lane l with faultStale := true }) else s := ⟨_, rfl, rfl⟩
  simp only [Bool.and_eq_true, beq_iff_eq, due_iff] at hf
  split
  next h =>
    rw [if_pos h] at hf
    obtain ⟨w, hw⟩ : ∃ w, w = s.setLane l { s.lane l with faultStale := true } := ⟨_, rfl⟩
    have lane : w.lane l = { s.lane l with faultStale := true } := by rw [hw, State.setLane_lane]
    have start : Lit l { s.lane l with faultStale := true } s w := by rw [hw]; exact lit_setLane ..
    have spared (p : PosId) : Spares p s w := by rw [hw]; exact spares_modLane l (fun x => { x with faultStale := true })
    rw [← hw] at hf
    have lit := lit_laneLeavesReady l .fault .stale w
    have lost := laneLeavesReady_lost l .fault .stale w
    rw [lane] at lit
    generalize laneLeavesReady l .fault .stale w = v at *
    have trails := trails_endEvent v
    refine brings_intro (exec_effect effect s) hq.serving ?_ ⟨?_, ?_⟩
    · rw [hf, lit.steady, hw, setLane_setLane]
      rfl
    · rw [hf, (sends_endEvent v).rest]
      exact lit.lane
    · rw [hf]
      intro p
      obtain ⟨ends, stays⟩ := lost p
      rw [counted_congr (spared p).pos] at ends stays
      refine ⟨fun hc => ?_, fun hc hn => ?_⟩
      · have gone := (ends hc).trails trails
        exact ⟨gone.state, gone.endReason⟩
      · rw [trails.pos, (stays hc ((spared p).waits hn)).pos, (spared p).pos]
  next h => exact takes_nothing effect hq (hf.trans (if_neg h))

/-! ### A fill of a class that joins the warm hold set (R103) -/

/-- A fill of a class on a lane that flows, or is held for a bank or the vehicle. -/
structure Holdable (p : PosId) (l : LaneId) (k : ClassId) (s : State) : Prop where
  lane : (s.pos p).lane = some l
  cls : (s.pos p).cls = some k
  state : ((s.pos p).state = .hold ∧ (s.pos p).holdReason = some .bank) ∨
    ¬ Draws s p ∧ ((s.pos p).state = .ramp ∨ (s.pos p).state = .hold ∧ (s.pos p).holdReason = some .vehicle)

/-- A fill held for warmth that waits for no bank. -/
structure HeldWarm (p : PosId) (s : State) : Prop where
  state : (s.pos p).state = .hold
  reason : (s.pos p).holdReason = some .laneWarm
  out : ¬ Draws s p

theorem HeldWarm.spares (h : HeldWarm p s) (k : Spares p s t) : HeldWarm p t :=
  ⟨by rw [k.pos]; exact h.state, by rw [k.pos]; exact h.reason, fun d => h.out (k.draws d)⟩

theorem Holdable.spares (h : Holdable p l k s) (e : Spares p s t) : Holdable p l k t := by
  obtain ⟨lane, cls, state⟩ := h
  refine ⟨by rw [e.pos]; exact lane, by rw [e.pos]; exact cls, ?_⟩
  rw [e.pos]
  exact state.imp_right fun ⟨out, k⟩ => ⟨fun d => out (e.draws d), k⟩

theorem Holdable.offers (h : Holdable p l k s) (e : Offers s t) : Holdable p l k t := by
  induction e with
  | none => exact h
  | @grant t w b e hw hb ih =>
    by_cases hp : w.pos = p
    · obtain ⟨lane, cls, state⟩ := ih
      have hold := (state.resolve_right fun ⟨out, _⟩ => out ⟨w, hw, hp⟩).1
      have flows := grantBank_flows (s := t) (p := p) (by rw [hold]; decide) (by rw [hold]; decide) b
      rw [hp]
      refine ⟨by rw [flows.position]; exact lane, by rw [flows.position]; exact cls, .inr ⟨?_, .inl (by rw [flows.position])⟩⟩
      exact fun ⟨w, hw, e⟩ => flows.notWaiting w hw e
    · exact ih.spares (spares_grantBank (Ne.symm hp) b)

theorem Holdable.bankIdle (h : Holdable p l k s) (b : BankId) : Holdable p l k (bankIdle b s) := by
  have offered := h.offers (offers_offerPass [b] s)
  unfold Machine.bankIdle
  dsimp only
  split
  · exact offered.spares (spares_tellIdle b)
  · exact offered

theorem Holdable.releaseBank (h : Holdable p l k s) (hq : p ≠ q) : Holdable p l k (releaseBank q s) := by
  unfold Machine.releaseBank
  split
  · exact h
  · exact ((h.spares (spares_modPos hq _)).spares (spares_moveBank _ _ (by simp))).bankIdle _

theorem draws_filter (h : Draws { s with drawList := s.drawList.filter (fun w => w.pos != p) } q) : Draws s q := by
  obtain ⟨w, hw, e⟩ := h
  exact ⟨w, (List.mem_filter.1 hw).1, e⟩

theorem not_draws_filter (p : PosId) (s : State) : ¬ Draws { s with drawList := s.drawList.filter (fun w => w.pos != p) } p := by
  rintro ⟨w, hw, e⟩
  have := (List.mem_filter.1 hw).2
  simp [e] at this

/-! ### The positions told (R103) -/

/-- A position of the lane whose class has joined the warm hold set. -/
def toldWarm (l : LaneId) (joined : ClassSet) (x : Position) : Bool :=
  x.lane == some l && (match x.cls with | some k => joined.getLsbD k | none => false)

/-- The hold for warmth of a position told. -/
def heldWarm (p : PosId) (s : State) : State :=
  match (s.pos p).state, (s.pos p).holdReason with
  | .ramp, _ => holdFromRamp p .laneWarm s
  | .hold, some .bank | .hold, some .vehicle =>
    enterHold p .laneWarm { s with drawList := s.drawList.filter (fun w => w.pos != p) }
  | _, _ => s

theorem tellWarm_eq (l : LaneId) (joined : ClassSet) (s : State) (p : PosId) :
    tellWarm l joined s p = if toldWarm l joined (s.pos p) then heldWarm p s else s := rfl

theorem not_draws_endSegment (h : ¬ Draws s q) (c : SegmentEnd) : ¬ Draws (endSegment p c s) q := by
  obtain ⟨w, e⟩ := endSegment_eq p c s
  rw [e]
  exact h

theorem holdFromRamp_out (h : ¬ Draws s p) (r : HoldReason) : ¬ Draws (holdFromRamp p r s) p := by
  unfold holdFromRamp
  rw [Draws, (enterHold_drawList ..).1]
  exact fun d => not_draws_endSegment h .hold ((spares_releaseBank (not_draws_endSegment h .hold) p).draws d)

theorem spares_holdFromRamp (h : q ≠ p) (hd : ¬ Draws s q) (r : HoldReason) : Spares q s (holdFromRamp p r s) :=
  (((spares_endSegment h .hold).trans (spares_modPos h _)).trans
    (spares_releaseBank (not_draws_endSegment hd .hold) p)).trans (spares_enterHold h r)

theorem heldWarm_leaves (h : Holdable p l k s) : HeldWarm p (heldWarm p s) := by
  have held : HeldWarm p (enterHold p .laneWarm { s with drawList := s.drawList.filter (fun w => w.pos != p) }) := by
    refine ⟨by rw [enterHold_pos]; rfl, by rw [enterHold_pos]; rfl, ?_⟩
    rw [Draws, (enterHold_drawList ..).1]
    exact not_draws_filter p s
  unfold heldWarm
  rcases h.state with ⟨state, reason⟩ | ⟨out, state | ⟨state, reason⟩⟩
  · rw [state, reason]
    exact held
  · rw [state]
    obtain ⟨pos, -, -⟩ := holdFromRamp_leaves state out .laneWarm
    exact ⟨by rw [pos], by rw [pos], holdFromRamp_out out _⟩
  · rw [state, reason]
    exact held

/-- A position is spared while another that neither frees a bank for it nor stands for it is told. -/
theorem spares_heldWarm (h : q ≠ p) (hd : ¬ Draws s q) : Spares q s (heldWarm p s) := by
  have held : Spares q s (enterHold p .laneWarm { s with drawList := s.drawList.filter (fun w => w.pos != p) }) :=
    (spares_drawList _ draws_filter).trans (spares_enterHold h _)
  unfold heldWarm
  split
  · exact spares_holdFromRamp h hd _
  · exact held
  · exact held
  · exact .refl q s

theorem Holdable.heldWarm (h : Holdable p l k s) (hp : p ≠ q) : Holdable p l k (heldWarm q s) := by
  have held : Spares p s (enterHold q .laneWarm { s with drawList := s.drawList.filter (fun w => w.pos != q) }) :=
    (spares_drawList _ draws_filter).trans (spares_enterHold hp _)
  unfold Machine.heldWarm
  split
  · exact ((h.spares (spares_endSegment hp .hold)).releaseBank hp).spares (spares_enterHold hp _)
  · exact h.spares held
  · exact h.spares held
  · exact h

theorem Holdable.told (h : Holdable p l k s) (hj : joined.getLsbD k = true) : toldWarm l joined (s.pos p) = true := by
  rw [toldWarm, h.lane, h.cls]
  simpa using hj

theorem warmFold_holds (h : Holdable p l k s) (hj : joined.getLsbD k = true) :
    HeldWarm p (allPositions.foldl (tellWarm l joined) s) := by
  refine foldl_once (f := tellWarm l joined) (a := p) (keep := fun _ => True) (before := Holdable p l k) (after := HeldWarm p)
    allPositions_nodup (mem_allPositions p) (fun _ _ _ _ => trivial) (fun u q _ hq _ hu => ?_) (fun u _ hu => ?_)
    (fun u q _ hq _ hu => ?_) trivial h
  · rw [tellWarm_eq]
    split
    · exact hu.heldWarm (Ne.symm hq)
    · exact hu
  · rw [tellWarm_eq, if_pos (hu.told hj)]
    exact heldWarm_leaves hu
  · rw [tellWarm_eq]
    split
    · exact hu.spares (spares_heldWarm (Ne.symm hq) hu.out)
    · exact hu

theorem warmFold_spares (h : toldWarm l joined (s.pos q) = false) (hd : ¬ Draws s q) :
    Spares q s (allPositions.foldl (tellWarm l joined) s) := by
  refine foldl_keep (keep := fun u => Spares q s u) (fun u p _ hu => ?_) (.refl q s)
  rw [tellWarm_eq]
  by_cases e : p = q
  · subst e
    rw [hu.pos, h]
    exact hu
  · split
    · exact hu.trans (spares_heldWarm (Ne.symm e) fun d => hd (hu.draws d))
    · exact hu

theorem steady_warmFold (l : LaneId) (joined : ClassSet) (s : State) :
    (allPositions.foldl (tellWarm l joined) s).steady = s.steady := by
  refine steady_foldl _ _ (fun u p => ?_) s
  rw [tellWarm_eq]
  unfold heldWarm
  split
  · split <;> simp only [steady_holdFromRamp, steady_enterHold]
    all_goals rfl
  · rfl

/-! ### The classes that join (R103) -/

/-- A set of classes and the class of a fill that is warm and not held for it. -/
def joinWarm (s : State) (l : LaneId) (m : ClassSet) (p : PosId) : ClassSet :=
  if unheldWarm s l p then
    match (s.pos p).cls with
    | some k => m ||| (1#6 <<< k.val)
    | none => m
  else m

theorem warmClasses_eq (s : State) (l : LaneId) : warmClasses s l = allPositions.foldl (joinWarm s l) 0#6 := rfl

theorem joinWarm_bit (s : State) (l : LaneId) (m : ClassSet) (p : PosId) (k : ClassId) :
    (joinWarm s l m p).getLsbD k.val = true ↔
      m.getLsbD k.val = true ∨ unheldWarm s l p = true ∧ (s.pos p).cls = some k := by
  unfold joinWarm
  split
  next h =>
    split
    next j e =>
      rw [BitVec.getLsbD_or, class_bit, Bool.or_eq_true, decide_eq_true_iff, e, Option.some.injEq, eq_comm (a := k)]
      simp [h]
    next e => simp [e]
  next h => simp [h]

theorem foldl_joinWarm_bit (s : State) (l : LaneId) (ps : List PosId) (m : ClassSet) (k : ClassId) :
    (ps.foldl (joinWarm s l) m).getLsbD k.val = true ↔
      m.getLsbD k.val = true ∨ ∃ p ∈ ps, unheldWarm s l p = true ∧ (s.pos p).cls = some k := by
  induction ps generalizing m with
  | nil => simp
  | cons a ps ih => simp only [List.foldl_cons, ih, joinWarm_bit, List.mem_cons, exists_eq_or_imp, or_assoc]

theorem warmClasses_bit (s : State) (l : LaneId) (k : ClassId) : (warmClasses s l).getLsbD k.val = true ↔
    ∃ p, unheldWarm s l p = true ∧ (s.pos p).cls = some k := by
  rw [warmClasses_eq, foldl_joinWarm_bit]
  simp [mem_allPositions]

theorem unheldWarm_fill (h : unheldWarm s l p = true) : (s.pos p).lane = some l ∧
    ∃ k, (s.pos p).cls = some k ∧ (s.lane l).warmHold.getLsbD k.val = false := by
  unfold unheldWarm at h
  rw [Bool.and_eq_true, counted_iff] at h
  refine ⟨h.1.2.1, ?_⟩
  cases hk : (s.pos p).cls with
  | none => simp [hk] at h
  | some k =>
    cases hs : (s.lane l).supply with
    | none => simp [hs] at h
    | some v =>
      simp [hk, hs] at h
      exact ⟨k, rfl, h.2.2⟩

theorem Holdable.of_unheldWarm (h : unheldWarm s l p = true) (state : ((s.pos p).state = .hold ∧
    (s.pos p).holdReason = some .bank) ∨ ¬ Draws s p ∧ ((s.pos p).state = .ramp ∨ (s.pos p).state = .hold ∧
      (s.pos p).holdReason = some .vehicle)) : ∃ k, Holdable p l k s ∧ (warmClasses s l).getLsbD k.val = true := by
  obtain ⟨lane, k, cls, -⟩ := unheldWarm_fill h
  exact ⟨k, ⟨lane, cls, state⟩, (warmClasses_bit s l k).2 ⟨p, h, cls⟩⟩

/-- A position is not told whose class is in the warm hold set before when it is after. -/
theorem not_toldWarm (h : ∀ k : ClassId, (s.pos q).cls = some k →
    ((s.lane l).warmHold.getLsbD k.val || (warmClasses s l).getLsbD k.val) = (s.lane l).warmHold.getLsbD k.val) :
    toldWarm l (warmClasses s l) (s.pos q) = false := by
  cases cls : (s.pos q).cls with
  | none => simp [toldWarm, cls]
  | some k =>
    cases hj : (warmClasses s l).getLsbD k.val with
    | false =>
      rw [toldWarm, cls]
      dsimp only
      rw [hj, Bool.and_false]
    | true =>
      obtain ⟨p, warm, pk⟩ := (warmClasses_bit s l k).1 hj
      obtain ⟨-, j, pj, out⟩ := unheldWarm_fill warm
      have same := h k cls
      obtain rfl : j = k := Option.some.inj (pj.symm.trans pk)
      rw [hj, out] at same
      cases same

/-! ### The warm timer (R103) -/

/-- A lane whose warm timer has run out, some classes joined to its warm hold set. -/
def Lane.warmed (x : Lane) (joined : ClassSet) : Lane := { x with warmTimer := none, warmHold := x.warmHold ||| joined }

theorem warmExpired_eq (l : LaneId) (s : State) : warmExpired l s =
    if warmClasses s l = 0#6 then s.setLane l ((s.lane l).warmed (warmClasses s l))
    else warmTest l (postLaneState l .warmHold (allPositions.foldl (tellWarm l (warmClasses s l))
      (s.setLane l ((s.lane l).warmed (warmClasses s l))))) := rfl

/-- What the end of the warm timer leaves. -/
structure Warmed (l : LaneId) (s t : State) : Prop where
  steady : t.steady = (s.setLane l ((s.lane l).warmed (warmClasses s l))).steady
  held : ∀ p k, Holdable p l k s → (warmClasses s l).getLsbD k.val = true → HeldWarm p t
  kept : ∀ q, toldWarm l (warmClasses s l) (s.pos q) = false → ¬ Draws s q → Spares q s t

theorem warmExpired_leaves (l : LaneId) (s : State) : Warmed l s (warmExpired l s) := by
  rw [warmExpired_eq]
  obtain ⟨w, hw⟩ : ∃ w, w = s.setLane l ((s.lane l).warmed (warmClasses s l)) := ⟨_, rfl⟩
  have spared (q : PosId) : Spares q s w := by
    rw [hw]
    exact spares_modLane l (fun x => x.warmed (warmClasses s l))
  rw [← hw]
  by_cases none : warmClasses s l = 0#6
  · rw [if_pos none]
    refine ⟨by rw [hw], fun p k _ hj => ?_, fun q _ _ => spared q⟩
    rw [none] at hj
    simp at hj
  · rw [if_neg none]
    have last (q : PosId) (u : State) : Spares q u (warmTest l (postLaneState l .warmHold u)) :=
      (spares_postNotice ..).trans (spares_warmTestOf (some l))
    refine ⟨?_, fun p k h hj => (warmFold_holds (h.spares (spared p)) hj).spares (last p _), fun q hq hd =>
      ((spared q).trans (warmFold_spares ?_ fun d => hd ((spared q).draws d))).trans (last q _)⟩
    · rw [steady_warmTest, postLaneState, steady_postNotice, steady_warmFold, hw]
    · rw [(spared q).pos]
      exact hq

theorem warmTimerResult (s : State) (l : LaneId) (hq : Quiet s) :
    if (s.lane l).state = .ready ∧ (s.lane l).warmTimer = some 0 then
      ∃ e : State, e = s.setLane l { s.lane l with warmHold := (e.lane l).warmHold } ∧
        (∀ k : ClassId, (e.lane l).warmHold.getLsbD k = true ↔ (s.lane l).warmHold.getLsbD k = true ∨
          ∃ p, unheldWarm s l p = true ∧ (s.pos p).cls = some k) ∧
        Brings (.warmTimerExpiry l) s e (fun t =>
          (∀ p, unheldWarm s l p = true → ¬ Waits s p →
            (s.pos p).state = .ramp ∨ (s.pos p).holdReason = some .vehicle ∧ (s.pos p).state = .hold →
            (t.pos p).state = .hold ∧ (t.pos p).holdReason = some .laneWarm) ∧
          (∀ p, unheldWarm s l p = true → (s.pos p).state = .hold → (s.pos p).holdReason = some .bank →
            (t.pos p).state = .hold ∧ (t.pos p).holdReason = some .laneWarm ∧ ∀ w ∈ t.drawList, w.pos ≠ p) ∧
          ∀ q, (∀ k, (s.pos q).cls = some k → (e.lane l).warmHold.getLsbD k = (s.lane l).warmHold.getLsbD k) →
            ¬ Waits s q → t.pos q = s.pos q ∧ t.chan q = s.chan q)
    else Takes (.warmTimerExpiry l) s s := by
  obtain ⟨f, effect, hf⟩ : ∃ f, effectOf (.warmTimerExpiry l) = some f ∧ f s =
      if (s.lane l).state == .ready && due (s.lane l).warmTimer then warmExpired l s else s := ⟨_, rfl, rfl⟩
  simp only [Bool.and_eq_true, beq_iff_eq, due_iff] at hf
  split
  next h =>
    rw [if_pos h] at hf
    obtain ⟨steady, held, kept⟩ := warmExpired_leaves l s
    generalize warmExpired l s = v at *
    have trails := trails_endEvent v
    have holds {p : PosId} (hp : unheldWarm s l p = true) (state : ((s.pos p).state = .hold ∧
        (s.pos p).holdReason = some .bank) ∨ ¬ Draws s p ∧ ((s.pos p).state = .ramp ∨ (s.pos p).state = .hold ∧
          (s.pos p).holdReason = some .vehicle)) : HeldWarm p (endEvent v) := by
      obtain ⟨k, holdable, hj⟩ := Holdable.of_unheldWarm hp state
      have warm := held p k holdable hj
      refine ⟨by rw [trails.pos]; exact warm.state, by rw [trails.pos]; exact warm.reason, ?_⟩
      rw [Draws, trails.drawList]
      exact warm.out
    refine ⟨s.setLane l { s.lane l with warmHold := (s.lane l).warmHold ||| warmClasses s l }, ?_, fun k => ?_,
      brings_intro (exec_effect effect s) hq.serving ?_ ⟨fun p hp hw state => ?_, fun p hp state reason => ?_, fun q hc hw => ?_⟩⟩
    · rw [State.setLane_lane]
    · rw [State.setLane_lane, BitVec.getLsbD_or, Bool.or_eq_true, warmClasses_bit]
    · rw [hf, steady]
      exact steady_setLane_congr rfl l rfl
    · have warm := holds hp (.inr ⟨fun d => hw (.inl d), state.imp_right And.symm⟩)
      rw [hf]
      exact ⟨warm.state, warm.reason⟩
    · have warm := holds hp (.inl ⟨state, reason⟩)
      rw [hf]
      exact ⟨warm.state, warm.reason, fun w hw e => warm.out ⟨w, hw, e⟩⟩
    · have out : toldWarm l (warmClasses s l) (s.pos q) = false := by
        refine not_toldWarm fun k cls => ?_
        have same := hc k cls
        rw [State.setLane_lane, BitVec.getLsbD_or] at same
        exact same
      have spared := kept q out fun d => hw (.inl d)
      rw [hf, trails.pos, trails.chan]
      exact ⟨spared.pos, spared.chan⟩
  next h => exact takes_nothing effect hq (hf.trans (if_neg h))

/-- Settles O39: the stale watch by the lane it leaves, the warm timer by the fills it holds. -/
theorem laneStaleAndWarmResult : Obligations.LaneStaleAndWarmResult := ⟨laneStaleResult, warmTimerResult⟩

end Sys2Proof.Machine
end

section
/-! SUPPORT. The recovery of OPEN records at start-up (R184). -/

namespace Sys2Proof.Machine

variable {p q : PosId} {i j : SlotId} {n : PortId} {r : TxnRecord} {s t u : State}

/-! ### The slots that hold OPEN records -/

theorem insertByNumber_perm (i : SlotId) (n : Nat) (l : List (SlotId × Nat)) : (insertByNumber i n l).Perm ((i, n) :: l) := by
  induction l with
  | nil => exact .refl _
  | cons a l ih =>
    obtain ⟨j, m⟩ := a
    unfold insertByNumber
    split
    · exact .refl _
    · exact (ih.cons (j, m)).trans (.swap ..)

/-- The slot holds an OPEN record. -/
def Slot.isOpen (x : Slot) : Bool := x.openNumber.isSome

/-- One slot of the order of OPEN records. -/
def insertOpen (d : StoreData) (l : List (SlotId × Nat)) (i : SlotId) : List (SlotId × Nat) :=
  match (d.slots[i]).openNumber with
  | some n => insertByNumber i n l
  | none => l

theorem foldl_insertOpen_perm (d : StoreData) (ps : List SlotId) (l : List (SlotId × Nat)) :
    ((ps.foldl (insertOpen d) l).map (·.1)).Perm (l.map (·.1) ++ ps.filter (fun i => (d.slots[i]).isOpen)) := by
  induction ps generalizing l with
  | nil => simp
  | cons i ps ih =>
    rw [List.foldl_cons, List.filter_cons]
    refine (ih _).trans ?_
    unfold insertOpen Slot.isOpen
    cases h : (d.slots[i]).openNumber with
    | none => exact .refl _
    | some n =>
      have moved := ((insertByNumber_perm i n l).map (·.1)).append_right (ps.filter (fun i => (d.slots[i]).openNumber.isSome))
      exact moved.trans List.perm_middle.symm

theorem openSlots_perm (d : StoreData) : (openSlots d).Perm (allSlots.filter (fun i => (d.slots[i]).isOpen)) :=
  foldl_insertOpen_perm d allSlots []

theorem openSlots_nodup (d : StoreData) : (openSlots d).Nodup :=
  (openSlots_perm d).nodup_iff.2 ((List.nodup_finRange 64).filter _)

theorem mem_openSlots (d : StoreData) : i ∈ openSlots d ↔ (d.slots[i]).isOpen = true := by
  rw [(openSlots_perm d).mem_iff, List.mem_filter]
  simp [allSlots]

theorem isOpen_iff {x : Slot} : x.isOpen = true ↔ ∃ r, x = .txn r ∧ r.state = .opened := by
  unfold Slot.isOpen Slot.openNumber
  cases x with
  | free => simp
  | txn r => simp

/-! ### One recovery -/

/-- A slot whose OPEN record is closed from its checkpoint. -/
def Slot.recovered (now : Stamp) : Slot → Slot
  | .txn r => .txn (r.recover now)
  | .free => .free

/-- Totals with the record of a slot added. -/
def Totals.take (x : Totals) : Slot → Totals
  | .txn r => x.add r
  | .free => x

/-- What recovery changes: the slots and totals of the working copy, the groups in flight and the notices. -/
structure Recovers (s t : State) : Prop where
  state : t = { s with ports := t.ports, work := t.work, groups := t.groups }
  work : t.work = { s.work with slots := t.work.slots, totals := t.work.totals }

theorem Recovers.refl (s : State) : Recovers s s := ⟨rfl, rfl⟩

theorem Recovers.trans (h : Recovers s t) (k : Recovers t u) : Recovers s u := by
  refine ⟨k.state.trans (by rw [h.state]), k.work.trans (by rw [h.work])⟩

theorem Recovers.stamp (h : Recovers s t) : t.stamp = s.stamp := by rw [h.state]; rfl

theorem recoverSlot_txn (h : s.slot i = .txn r) : recoverSlot i s = postRecovered (r.recover s.stamp) (closeSlot i (r.recover s.stamp) s) := by
  unfold recoverSlot
  rw [h]

theorem postRecovered_rest (r : TxnRecord) (s : State) : postRecovered r s = { s with ports := (postRecovered r s).ports } :=
  (sends_postNotice ..).rest

theorem recovers_recoverSlot (s : State) (i : SlotId) : Recovers s (recoverSlot i s) := by
  cases h : s.slot i with
  | free =>
    unfold recoverSlot
    rw [h]
    exact .refl s
  | txn r =>
    rw [recoverSlot_txn h]
    have posted := postRecovered_rest (r.recover s.stamp) (closeSlot i (r.recover s.stamp) s)
    generalize postRecovered (r.recover s.stamp) (closeSlot i (r.recover s.stamp) s) = v at posted
    rw [posted]
    exact ⟨rfl, rfl⟩

theorem recoverSlot_work (s : State) (i : SlotId) :
    (recoverSlot i s).slot i = (s.slot i).recovered s.stamp ∧ (∀ j, j ≠ i → (recoverSlot i s).slot j = s.slot j) ∧
    (recoverSlot i s).work.totals = s.work.totals.take ((s.slot i).recovered s.stamp) := by
  cases h : s.slot i with
  | free =>
    unfold recoverSlot
    rw [h]
    exact ⟨h, fun _ _ => rfl, rfl⟩
  | txn r =>
    rw [recoverSlot_txn h]
    have posted := postRecovered_rest (r.recover s.stamp) (closeSlot i (r.recover s.stamp) s)
    generalize postRecovered (r.recover s.stamp) (closeSlot i (r.recover s.stamp) s) = v at posted
    rw [posted]
    exact ⟨s.setSlot_slot i _, fun j hj => s.setSlot_slot_ne i j _ hj, rfl⟩

/-! ### The recovery of a list of slots -/

theorem recovers_foldl (l : List SlotId) (s : State) : Recovers s (l.foldl (fun s i => recoverSlot i s) s) := by
  induction l generalizing s with
  | nil => exact .refl s
  | cons i l ih => exact (recovers_recoverSlot s i).trans (ih _)

theorem recoverAll_slot_out {l : List SlotId} (h : j ∉ l) : (l.foldl (fun s i => recoverSlot i s) s).slot j = s.slot j := by
  refine foldl_keep (f := fun s i => recoverSlot i s) (keep := fun u => u.slot j = s.slot j) (fun u i hi hu => ?_) rfl
  exact ((recoverSlot_work u i).2.1 j fun e => h (e ▸ hi)).trans hu

theorem recoverAll_slot_in {l : List SlotId} (once : l.Nodup) (h : j ∈ l) :
    (l.foldl (fun s i => recoverSlot i s) s).slot j = (s.slot j).recovered s.stamp := by
  refine foldl_once (f := fun s i => recoverSlot i s) (a := j) (keep := Recovers s) (before := fun u => u.slot j = s.slot j)
    (after := fun u => u.slot j = (s.slot j).recovered s.stamp) once h
    (fun u i _ hu => hu.trans (recovers_recoverSlot u i))
    (fun u i _ hi _ hu => ((recoverSlot_work u i).2.1 j (Ne.symm hi)).trans hu) (fun u hu hs => ?_)
    (fun u i _ hi _ hu => ((recoverSlot_work u i).2.1 j (Ne.symm hi)).trans hu) (.refl s) rfl
  rw [(recoverSlot_work u j).1, hs, hu.stamp]

theorem recoverAll_totals {l : List SlotId} (once : l.Nodup) (s : State) :
    (l.foldl (fun s i => recoverSlot i s) s).work.totals =
      l.foldl (fun x i => x.take ((s.slot i).recovered s.stamp)) s.work.totals := by
  induction l generalizing s with
  | nil => rfl
  | cons i l ih =>
    obtain ⟨out, once⟩ := List.nodup_cons.1 once
    obtain ⟨-, others, totals⟩ := recoverSlot_work s i
    rw [List.foldl_cons, List.foldl_cons, ih once, totals, (recovers_recoverSlot s i).stamp]
    refine List.foldl_ext _ _ _ fun x j hj => ?_
    rw [others j fun e => out (e ▸ hj)]

theorem recoverSlot_inFlight (h : s.slot i = .txn r) :
    (recoverSlot i s).inFlight (.slot i) = true ∧ (recoverSlot i s).inFlight .totals = true := by
  rw [recoverSlot_txn h]
  have posted := postRecovered_rest (r.recover s.stamp) (closeSlot i (r.recover s.stamp) s)
  generalize postRecovered (r.recover s.stamp) (closeSlot i (r.recover s.stamp) s) = v at posted
  rw [posted]
  exact closeSlot_inFlight i (r.recover s.stamp) s

theorem recoverSlot_keeps_inFlight (s : State) (i : SlotId) (k : RecId) (h : s.inFlight k = true) :
    (recoverSlot i s).inFlight k = true := by
  cases hr : s.slot i with
  | free =>
    unfold recoverSlot
    rw [hr]
    exact h
  | txn r =>
    rw [recoverSlot_txn hr]
    have posted := postRecovered_rest (r.recover s.stamp) (closeSlot i (r.recover s.stamp) s)
    generalize postRecovered (r.recover s.stamp) (closeSlot i (r.recover s.stamp) s) = v at posted
    rw [posted]
    exact (issue_spec _ _).2.2.2 k h

theorem recoverAll_inFlight {l : List SlotId} (once : l.Nodup) (h : j ∈ l) (hr : s.slot j = .txn r) :
    (l.foldl (fun s i => recoverSlot i s) s).inFlight (.slot j) = true ∧
    (l.foldl (fun s i => recoverSlot i s) s).inFlight .totals = true := by
  refine foldl_once (f := fun s i => recoverSlot i s) (a := j) (keep := fun _ => True) (before := fun u => u.slot j = .txn r)
    (after := fun u => u.inFlight (.slot j) = true ∧ u.inFlight .totals = true) once h (fun _ _ _ _ => trivial)
    (fun u i _ hi _ hu => ((recoverSlot_work u i).2.1 j (Ne.symm hi)).trans hu) (fun u _ hu => recoverSlot_inFlight hu)
    (fun u i _ _ _ hu => ⟨recoverSlot_keeps_inFlight u i _ hu.1, recoverSlot_keeps_inFlight u i _ hu.2⟩) trivial hr

/-! ### The notices of recovery -/

/-- A port as reset, notices pending and their coalesce counter apart. -/
def Port.Fresh (x : Port) : Prop := { x with
  pending := [], counters := { x.counters with noticesCoalesced := 0 } } = Port.initial

theorem Port.Fresh.passes {x : Port} (h : x.Fresh) (k : NoticeKind) : x.passes k = Port.initial.passes k := by
  rw [← h]
  rfl

theorem Port.Fresh.post {x : Port} (h : x.Fresh) {k : NoticeKind} (hk : Port.initial.passes k = true) (now : Clock) (m : Nat)
    (data : List Field) : (x.post now k m data).Fresh := by
  unfold Port.post
  rw [if_pos ((h.passes k).trans hk)]
  split
  · exact h
  · exact h

theorem fresh_postNotice {k : NoticeKind} (hk : Port.initial.passes k = true) (m : Nat) (data : List Field) (ports : List PortId)
    (h : ∀ n, (s.port n).Fresh) : ∀ n, ((postNotice k m data ports s).port n).Fresh := by
  refine foldl_keep (keep := fun u => ∀ n, (u.port n).Fresh) (fun u a _ hu n => ?_) h
  by_cases e : n = a
  · subst e
    rw [State.modPort_port]
    exact (hu n).post hk _ _ _
  · rw [State.modPort_port_ne _ _ _ _ e]
    exact hu n

theorem fresh_recoverSlot (h : ∀ n, (s.port n).Fresh) (i : SlotId) : ∀ n, ((recoverSlot i s).port n).Fresh := by
  unfold recoverSlot
  split
  · exact h
  next r _ => exact fresh_postNotice (s := closeSlot i (r.recover s.stamp) s) (by decide) _ _ _ h

theorem fresh_recoverAll (l : List SlotId) (h : ∀ n, (s.port n).Fresh) :
    ∀ n, ((l.foldl (fun s i => recoverSlot i s) s).port n).Fresh :=
  foldl_keep (f := fun s i => recoverSlot i s) (keep := fun u => ∀ n, (u.port n).Fresh)
    (fun _ i _ hu => fresh_recoverSlot hu i) h

theorem hears_recoverSlot (s : State) (i : SlotId) : Hears s (recoverSlot i s) := by
  unfold recoverSlot
  split
  · exact .refl s
  next r _ => exact (hears_of_ports (t := closeSlot i (r.recover s.stamp) s) rfl).trans (hears_postNotice _ _ _ _ _)

/-- The data of TXN_RECOVERED. -/
def recoveredData (r : TxnRecord) : List Field :=
  [.word (some r.number), .raw r.tag, .word (some r.mass), .word (some r.amount), .word (some r.billed)] ++
    stampFields (some r.startTime) ++ stampFields r.endTime

theorem postRecovered_eq (r : TxnRecord) (s : State) :
    postRecovered r s = postNotice .txnRecovered r.pos.val (recoveredData r) [tillPort] s := rfl

theorem recoverAll_noticed {l : List SlotId} (once : l.Nodup) (h : j ∈ l) (hr : s.slot j = .txn r)
    (fresh : ∀ n, (s.port n).Fresh) :
    Noticed (l.foldl (fun s i => recoverSlot i s) s) tillPort .txnRecovered r.pos.val := by
  refine foldl_once (f := fun s i => recoverSlot i s) (a := j) (keep := fun u => ∀ n, (u.port n).Fresh)
    (before := fun u => u.slot j = .txn r) (after := fun u => Noticed u tillPort .txnRecovered r.pos.val) once h
    (fun u i _ hu => fresh_recoverSlot hu i)
    (fun u i _ hi _ hu => ((recoverSlot_work u i).2.1 j (Ne.symm hi)).trans hu) (fun u hf hu => ?_)
    (fun u i _ _ _ hu => ?_) fresh hr
  · rw [recoverSlot_txn hu, postRecovered_eq]
    exact postNotice_noticed (List.mem_singleton.2 rfl) (((hf tillPort).passes _).trans (by decide)) _ _
  · obtain ⟨m, hm, k, e⟩ := hu
    obtain ⟨m', hm', k', e'⟩ := hears_recoverSlot u i tillPort m hm
    exact ⟨m', hm', k'.trans k, e'.trans e⟩

/-- The notice of the one record of a position stands last. -/
theorem recoverAll_latest {l : List SlotId} (once : l.Nodup) (h : j ∈ l) (hr : s.slot j = .txn r)
    (fresh : ∀ n, (s.port n).Fresh) (alone : ∀ i ∈ l, ∀ y, s.slot i = .txn y → y.pos = r.pos → i = j) :
    ((l.foldl (fun s i => recoverSlot i s) s).port tillPort).Latest .txnRecovered r.pos.val
      (fun m => m.data = recoveredData (r.recover s.stamp)) := by
  refine foldl_once (f := fun s i => recoverSlot i s) (a := j)
    (keep := fun u => (∀ n, (u.port n).Fresh) ∧ Recovers s u ∧ ∀ i ∈ l, ∀ y, u.slot i = .txn y → y.pos = r.pos → i = j)
    (before := fun u => u.slot j = .txn r)
    (after := fun u => (u.port tillPort).Latest .txnRecovered r.pos.val (fun m => m.data = recoveredData (r.recover s.stamp)))
    once h (fun u i _ hu => ⟨fresh_recoverSlot hu.1 i, hu.2.1.trans (recovers_recoverSlot u i), ?_⟩)
    (fun u i _ hi _ hu => ((recoverSlot_work u i).2.1 j (Ne.symm hi)).trans hu) (fun u hf hu => ?_)
    (fun u i hi hij hk hu => ?_) ⟨fresh, .refl s, alone⟩ hr
  · intro k hk y hy hp
    by_cases e : k = i
    · subst e
      rw [(recoverSlot_work u k).1] at hy
      cases hu' : u.slot k with
      | free =>
        rw [hu'] at hy
        cases hy
      | txn z =>
        rw [hu'] at hy
        obtain rfl := Slot.txn.inj hy
        exact hu.2.2 k hk z hu' hp
    · rw [(recoverSlot_work u i).2.1 k e] at hy
      exact hu.2.2 k hk y hy hp
  · rw [recoverSlot_txn hu, hf.2.1.stamp, postRecovered_eq, postNotice, List.foldl_cons, List.foldl_nil, State.modPort_port]
    exact Port.post_latest (((hf.1 tillPort).passes _).trans (by decide)) _ _
  · cases hu' : u.slot i with
    | free =>
      unfold recoverSlot
      rw [hu']
      exact hu
    | txn y =>
      rw [recoverSlot_txn hu', postRecovered_eq]
      exact latest_postNotice (.inr fun e => hij (hk.2.2 i hi y hu' (Fin.ext e))) _ _ hu

end Sys2Proof.Machine
end

section
/-! SUPPORT. The start-up sequence (R182 to R184): the settling proof. -/

namespace Sys2Proof.Machine

variable {i j : SlotId} {n : PortId} {r c : TxnRecord} {s t u : State}

/-! ### Its stages -/

/-- The state as stage 2 leaves it: volatile items reset, the working copies read from the store. -/
def State.rebooted (s : State) : State := { s.volatileReset with work := s.store }

/-- The state as stages 2 to 5 leave it. -/
def State.recoveredAll (s : State) : State := (openSlots s.store).foldl (fun s i => recoverSlot i s) s.rebooted

/-- The ESD latch that stage 7 sets from the level of ESD_N. -/
def State.startLatch (s : State) : EsdLatch := if s.pins.esdN then ⟨false, none⟩ else ⟨true, some ⟨.startLow, s.stamp⟩⟩

theorem startUpStages_eq (s : State) : startUpStages s = { readLines (writeCause s.recoveredAll) with phase := .recovering } := rfl

theorem recovers_recoveredAll (s : State) : Recovers s.rebooted s.recoveredAll := recovers_foldl _ _

/-- What the last stages leave of a state. -/
theorem readLines_writeCause (s : State) : ∃ ports, readLines (writeCause s) = { writeCause s with
    rate := s.pins.rate, esd := s.startLatch, ports := ports } := by
  unfold readLines State.startLatch
  dsimp only
  by_cases h : s.pins.esdN = true
  · rw [if_pos (show (writeCause s).pins.esdN = true from h), if_pos h]
    exact ⟨_, rfl⟩
  · rw [if_neg (show ¬ (writeCause s).pins.esdN = true from h), if_neg h]
    exact ⟨_, (sends_postNotice ..).rest⟩

theorem writeCause_leaves (s : State) :
    (writeCause s).work = { s.work with resetCause := if s.powerFresh then .powerOn else .resetLine } ∧
    writeCause s = { s with work := (writeCause s).work, groups := (writeCause s).groups } ∧
    (writeCause s).inFlight .resetCause = true ∧
    ∀ k, s.inFlight k = true → (writeCause s).inFlight k = true := by
  obtain ⟨-, -, writes, keeps⟩ := issue_spec [.resetCause (if s.powerFresh then .powerOn else .resetLine)]
    { s with work := { s.work with resetCause := if s.powerFresh then .powerOn else .resetLine } }
  exact ⟨rfl, rfl, writes _ (List.mem_singleton.2 rfl), keeps⟩

/-- The state after the sequence, in terms of what recovery leaves. -/
theorem startUpStages_leaves (s : State) : ∃ ports groups, startUpStages s = { s.rebooted with
    phase := .recovering, rate := s.pins.rate, esd := s.startLatch, ports := ports, groups := groups
    work := { s.store with
      slots := s.recoveredAll.work.slots, totals := s.recoveredAll.work.totals
      resetCause := if s.powerFresh then .powerOn else .resetLine } } := by
  obtain ⟨ports, read⟩ := readLines_writeCause s.recoveredAll
  obtain ⟨work, rest, -, -⟩ := writeCause_leaves s.recoveredAll
  obtain ⟨state, kept⟩ := recovers_recoveredAll s
  have pins : s.recoveredAll.pins = s.pins := by rw [state]; rfl
  have fresh : s.recoveredAll.powerFresh = s.powerFresh := by rw [state]; rfl
  have latch : s.recoveredAll.startLatch = s.startLatch := by rw [state]; rfl
  refine ⟨ports, (writeCause s.recoveredAll).groups, ?_⟩
  rw [startUpStages_eq, read, rest, work, pins, fresh, latch]
  generalize (writeCause s.recoveredAll).groups = g
  generalize s.recoveredAll = u at state kept
  rw [state]
  simp only
  rw [kept]
  rfl

/-! ### Its records -/

theorem startUpStages_slot (s : State) (i : SlotId) : (startUpStages s).slot i =
    if (s.store.slots[i]).isOpen then (s.store.slots[i]).recovered s.stamp else s.store.slots[i] := by
  have slot : (startUpStages s).slot i = s.recoveredAll.slot i := by
    obtain ⟨ports, groups, e⟩ := startUpStages_leaves s
    rw [e]
    rfl
  rw [slot]
  split
  next h => exact recoverAll_slot_in (s := s.rebooted) (openSlots_nodup _) ((mem_openSlots _).2 h)
  next h => exact recoverAll_slot_out (s := s.rebooted) fun hm => h ((mem_openSlots _).1 hm)

theorem Segment.recover_eq (x : Segment) (mass : Nat) :
    x.recover mass = if x.cause = none then { x with massEnd := some mass, cause := some .ended } else x := by
  unfold Segment.recover
  simp only [Option.isNone_iff_eq_none]

theorem TxnRecord.recover_eq (r : TxnRecord) (now : Stamp) : r.recover now =
    (let b := r.bill r.checkpointMass
    { b with
      state := .closed, endReason := some .powerInterrupted, endTime := some now
      flags := { b.flags with interrupted := true }
      segments := r.segments.map (fun x =>
        if x.cause = none then { x with massEnd := some r.checkpointMass, cause := some .ended } else x) }) := by
  simp only [← Segment.recover_eq]
  rfl

theorem startUpStages_totals (s : State) : (startUpStages s).work.totals =
    (openSlots s.store).foldl (fun x i => x.take ((startUpStages s).slot i)) s.store.totals := by
  have totals : (startUpStages s).work.totals = s.recoveredAll.work.totals := by
    obtain ⟨ports, groups, e⟩ := startUpStages_leaves s
    rw [e]
  rw [totals]
  refine (recoverAll_totals (openSlots_nodup _) s.rebooted).trans (List.foldl_ext _ _ _ fun x i hi => ?_)
  rw [startUpStages_slot, if_pos ((mem_openSlots _).1 hi)]
  rfl

theorem startUpStages_inFlight (s : State) : (startUpStages s).inFlight .resetCause = true ∧
    ∀ i ∈ openSlots s.store, (startUpStages s).inFlight (.slot i) = true ∧ (startUpStages s).inFlight .totals = true := by
  obtain ⟨-, -, cause, keeps⟩ := writeCause_leaves s.recoveredAll
  obtain ⟨ports, read⟩ := readLines_writeCause s.recoveredAll
  have same (k : RecId) : (startUpStages s).inFlight k = (writeCause s.recoveredAll).inFlight k := by
    rw [startUpStages_eq, read]
    rfl
  rw [same]
  refine ⟨cause, fun i hi => ?_⟩
  obtain ⟨r, hr, -⟩ := isOpen_iff.1 ((mem_openSlots _).1 hi)
  obtain ⟨slot, totals⟩ := recoverAll_inFlight (s := s.rebooted) (openSlots_nodup _) hi hr
  rw [same, same]
  exact ⟨keeps _ slot, keeps _ totals⟩

/-! ### Its notices -/

theorem fresh_rebooted (s : State) (n : PortId) : (s.rebooted.port n).Fresh := by
  simp [State.rebooted, State.volatileReset, State.port, Port.Fresh]
  rfl

/-- Stage 7 leaves the ports, or posts the latch at every port. -/
theorem readLines_ports (s : State) : (s.pins.esdN = true ∧ (readLines s).ports = s.ports) ∨
    (s.pins.esdN = false ∧ ∃ v data, v.ports = s.ports ∧ readLines s = postNotice .esd 255 data allPorts v) := by
  unfold readLines
  dsimp only
  split
  next h => exact .inl ⟨h, rfl⟩
  next h => exact .inr ⟨Bool.eq_false_iff.2 h, setLatch true .startLow { s with rate := s.pins.rate }, _, rfl, rfl⟩

theorem port_of_ports (h : t.ports = s.ports) (n : PortId) : t.port n = s.port n := by rw [State.port, h]; rfl

theorem startUpStages_port (s : State) (n : PortId) : (startUpStages s).port n = (readLines (writeCause s.recoveredAll)).port n := by
  rw [startUpStages_eq]
  generalize readLines (writeCause s.recoveredAll) = u
  rfl

theorem writeCause_port (s : State) (n : PortId) : (writeCause s).port n = s.port n := rfl

theorem mem_allPorts (n : PortId) : n ∈ allPorts := List.mem_finRange n

theorem recoveredAll_pins (s : State) : (writeCause s.recoveredAll).pins = s.pins := by
  obtain ⟨state, -⟩ := recovers_recoveredAll s
  rw [(writeCause_leaves s.recoveredAll).2.1, state]
  rfl

theorem fresh_startUpStages (s : State) (n : PortId) : ((startUpStages s).port n).Fresh := by
  have recovered := fresh_recoverAll (openSlots s.store) (fresh_rebooted s)
  rw [startUpStages_port]
  rcases readLines_ports (writeCause s.recoveredAll) with ⟨-, ports⟩ | ⟨-, v, data, ports, e⟩
  · rw [port_of_ports ports]
    exact recovered n
  · rw [e]
    exact fresh_postNotice (by decide) _ _ _ (fun n => by rw [port_of_ports ports]; exact recovered n) n

theorem startUpStages_esd (s : State) (h : s.pins.esdN = false) (n : PortId) : Noticed (startUpStages s) n .esd 255 := by
  have recovered := fresh_recoverAll (openSlots s.store) (fresh_rebooted s)
  unfold Noticed
  rw [startUpStages_port]
  rcases readLines_ports (writeCause s.recoveredAll) with ⟨high, -⟩ | ⟨-, v, data, ports, e⟩
  · rw [recoveredAll_pins, h] at high
    cases high
  · rw [e]
    refine postNotice_noticed (mem_allPorts n) ?_ _ _
    rw [port_of_ports ports, writeCause_port]
    exact ((recovered n).passes _).trans (by decide)

theorem startUpStages_noticed (hi : s.store.slots[i] = .txn r) (ho : r.state = .opened) :
    Noticed (startUpStages s) tillPort .txnRecovered r.pos.val := by
  obtain ⟨m, hm, k, e⟩ := recoverAll_noticed (s := s.rebooted) (openSlots_nodup s.store)
    ((mem_openSlots s.store).2 (isOpen_iff.2 ⟨r, hi, ho⟩)) hi (fresh_rebooted s)
  have hears : Hears s.recoveredAll (readLines (writeCause s.recoveredAll)) := by
    rcases readLines_ports (writeCause s.recoveredAll) with ⟨-, ports⟩ | ⟨-, v, data, ports, e⟩
    · exact hears_of_ports ports
    · rw [e]
      exact (hears_of_ports ports).trans (hears_postNotice _ _ _ _ _)
  obtain ⟨m', hm', k', e'⟩ := hears tillPort m hm
  exact ⟨m', hm', k'.trans k, e'.trans e⟩

theorem startUpStages_latest (hi : s.store.slots[i] = .txn r) (ho : r.state = .opened)
    (alone : ∀ j y, s.store.slots[j] = .txn y → y.state = .opened → y.pos = r.pos → j = i) :
    ∃ m ∈ ((startUpStages s).port tillPort).pending, m.kind = .txnRecovered ∧ m.subject = r.pos.val ∧
      m.data = recoveredData (r.recover s.stamp) := by
  have recovered := recoverAll_latest (s := s.rebooted) (openSlots_nodup s.store)
    ((mem_openSlots s.store).2 (isOpen_iff.2 ⟨r, hi, ho⟩)) hi (fresh_rebooted s) fun j hj y hy hp => by
      obtain ⟨z, hz, open_⟩ := isOpen_iff.1 ((mem_openSlots _).1 hj)
      obtain rfl := Slot.txn.inj (hz.symm.trans hy)
      exact alone j z hz open_ hp
  have latest : ((startUpStages s).port tillPort).Latest .txnRecovered r.pos.val
      (fun m => m.data = recoveredData (r.recover s.stamp)) := by
    rw [startUpStages_port]
    rcases readLines_ports (writeCause s.recoveredAll) with ⟨-, ports⟩ | ⟨-, v, data, ports, e⟩
    · rw [port_of_ports ports]
      exact recovered
    · rw [e]
      exact latest_postNotice (.inl (by decide)) _ _ (by rw [port_of_ports ports]; exact recovered)
  obtain ⟨m, hm, rest⟩ := latest.out
  have line : ((startUpStages s).port tillPort).line = none := congrArg Port.line (fresh_startUpStages s tillPort)
  rw [Port.outNotices, line] at hm
  exact ⟨m, hm, rest⟩

/-! ### The settling proof -/

/-- Settles O53: the sequence by its stages, the records in the order of recovery. -/
theorem startUpResetsAndRecovers : Obligations.StartUpResetsAndRecovers := by
  intro s
  have run : exec .startUpSequence s = .next (if s.phase = .settling ∧ s.groups = [] then startUpStages s else s) := rfl
  refine ⟨fun h => ?_, fun settling idle => ⟨startUpStages s, ?_, ?_⟩⟩
  · rw [run, if_neg fun k => h.elim (· k.1) (· k.2)]
  · rw [run, if_pos ⟨settling, idle⟩]
  obtain ⟨ports, groups, e⟩ := startUpStages_leaves s
  have slot := startUpStages_slot s
  have totals := startUpStages_totals s
  have inFlight := startUpStages_inFlight s
  have fresh := fresh_startUpStages s
  have esd := startUpStages_esd s
  have noticed := fun i r => startUpStages_noticed (s := s) (i := i) (r := r)
  have latest := fun i r => startUpStages_latest (s := s) (i := i) (r := r)
  generalize startUpStages s = t at *
  refine ⟨by rw [e], by rw [e]; rfl, by rw [e]; rfl, by rw [e]; rfl, by rw [e]; rfl, by rw [e]; rfl, by rw [e]; rfl,
    by rw [e]; rfl, by rw [e]; rfl, by rw [e]; rfl, by rw [e]; rfl, by rw [e]; rfl, by rw [e]; rfl, by rw [e]; rfl,
    by rw [e]; rfl, by rw [e]; rfl, fresh, fun i => ?_, ⟨openSlots s.store, ?_, ?_, inFlight.2⟩, fun i r c hi ho hc => ?_,
    by rw [e], by rw [e], inFlight.1, ?_, ?_, esd, by rw [e]; rfl⟩
  · rw [slot]
    cases hx : s.store.slots[i] with
    | free => rfl
    | txn r =>
      dsimp only
      by_cases ho : r.state = .opened
      · rw [if_pos ho, if_pos (isOpen_iff.2 ⟨r, rfl, ho⟩), Slot.recovered, TxnRecord.recover_eq]
        rfl
      · rw [if_neg ho, if_neg fun k => ho ?_]
        obtain ⟨z, hz, open_⟩ := isOpen_iff.1 k
        rwa [Slot.txn.inj hz]
  · refine (openSlots_perm s.store).trans (.of_eq (List.filter_congr fun i _ => ?_))
    cases s.store.slots[i] with
    | free => rfl
    | txn r => cases h : r.state == .opened <;> simp [Slot.isOpen, Slot.openNumber, h]
  · rw [totals]
    refine List.foldl_ext _ _ _ fun x i _ => ?_
    cases t.slot i <;> rfl
  · obtain rfl : r.recover s.stamp = c := by
      rw [slot, hi, if_pos (isOpen_iff.2 ⟨r, rfl, ho⟩)] at hc
      exact Slot.txn.inj hc
    exact ⟨noticed i r hi ho, fun alone => latest i r hi ho alone⟩
  · rw [e]
    change s.pins.rate = _
    unfold Pins.rate
    cases s.pins.br1 <;> cases s.pins.br0 <;> rfl
  · rw [e]
    rfl

end Sys2Proof.Machine
end

section
/-! SUPPORT. What cascades send to the plant, and the compressors that wait while they run (R84, R85, R111, R173). -/

namespace Sys2Proof.Machine

variable {p q : PosId} {b : BankId} {c n : CompId} {s t u : State} {cs : List CompId}

/-! ### What sends the plant nothing -/

/-- The directives that wait for the plant, and what is on its line, stand. -/
structure Unsent (s t : State) : Prop where
  directives : (t.port plantPort).directives = (s.port plantPort).directives
  line : (t.port plantPort).line = (s.port plantPort).line

theorem Unsent.trans (h : Unsent s t) (k : Unsent t u) : Unsent s u :=
  ⟨k.directives.trans h.directives, k.line.trans h.line⟩

theorem unsent_of (h : t.ports = s.ports) : Unsent s t := by
  have port : t.port plantPort = s.port plantPort := by rw [State.port, h]; rfl
  exact ⟨by rw [port], by rw [port]⟩

theorem Unsent.refl (s : State) : Unsent s s := ⟨rfl, rfl⟩

theorem unsent_ite (h : Prop) [Decidable h] (ht : Unsent s t) (hu : Unsent s u) : Unsent s (if h then t else u) := by
  split
  · exact ht
  · exact hu

theorem unsent_foldl {α : Type} (l : List α) (f : State → α → State) (hf : ∀ s a, Unsent s (f s a)) (s : State) :
    Unsent s (l.foldl f s) := by
  induction l generalizing s with
  | nil => exact .refl s
  | cons a l ih => exact (hf s a).trans (ih _)

theorem Port.post_unsent (x : Port) (now : Clock) (k : NoticeKind) (j : Nat) (data : List Field) :
    (x.post now k j data).directives = x.directives ∧ (x.post now k j data).line = x.line := by
  unfold Port.post
  split
  · split <;> exact ⟨rfl, rfl⟩
  · exact ⟨rfl, rfl⟩

theorem unsent_modPort (f : Port → Port) (d : PortId) (s : State)
    (hf : ∀ x : Port, (f x).directives = x.directives ∧ (f x).line = x.line) : Unsent s (s.modPort d f) := by
  by_cases e : plantPort = d
  · subst e
    exact ⟨by rw [State.modPort_port]; exact (hf _).1, by rw [State.modPort_port]; exact (hf _).2⟩
  · exact ⟨by rw [State.modPort_port_ne _ _ _ _ e], by rw [State.modPort_port_ne _ _ _ _ e]⟩

section
variable (s : State)

theorem unsent_postNotice (k : NoticeKind) (j : Nat) (data : List Field) (ports : List PortId) :
    Unsent s (postNotice k j data ports s) :=
  unsent_foldl _ _ (fun u d => unsent_modPort _ d u fun x => x.post_unsent u.clock k j data) s

theorem unsent_sendValve (p : PosId) : Unsent s (sendValve p s) := by
  have apart : plantPort ≠ islandPort p := by
    intro e
    have := congrArg Fin.val e
    revert this
    revert p
    decide
  have same : (sendValve p s).port plantPort = s.port plantPort := State.modPort_port_ne _ _ _ _ apart
  exact ⟨by rw [same], by rw [same]⟩

theorem unsent_modRecord (p : PosId) (f : TxnRecord → TxnRecord) : Unsent s (modRecord p f s) := by
  obtain ⟨w, e⟩ := modRecord_eq p f s
  rw [e]
  exact unsent_of rfl

theorem unsent_fillState (p : PosId) : Unsent s (fillState p s) := by
  obtain ⟨w, g, e⟩ := checkpoint_eq p [] (postFillState p (s.pos p).tag s)
  refine (unsent_postNotice s _ _ _ _ : Unsent s (postFillState p (s.pos p).tag s)).trans ?_
  unfold fillState fillStateWith
  rw [e]
  exact unsent_of rfl

theorem unsent_modPos (p : PosId) (f : Position → Position) : Unsent s (s.modPos p f) := unsent_of rfl

theorem unsent_modChan (p : PosId) (f : Channel → Channel) : Unsent s (s.modChan p f) := unsent_of rfl

theorem unsent_moveBank (b : BankId) (st : BankState) (h : Option Holder) : Unsent s (moveBank b st h s) := by
  unfold moveBank
  dsimp only
  refine Unsent.trans ?_ (unsent_postNotice _ _ _ _ _)
  exact unsent_ite _ (unsent_of rfl) (unsent_of rfl)

theorem unsent_enterHold (p : PosId) (r : HoldReason) : Unsent s (enterHold p r s) := by
  unfold enterHold
  dsimp only
  refine Unsent.trans ?_ (unsent_fillState _ p)
  have held (f : Position → Position) (g : Channel → Channel) : Unsent s ((s.modPos p f).modChan p g) :=
    (unsent_modPos s p f).trans (unsent_modChan _ p g)
  exact unsent_ite _ ((held _ _).trans (unsent_sendValve _ p)) (held _ _)

theorem unsent_enterRamp (p : PosId) (b : BankId) : Unsent s (enterRamp p b s) := by
  unfold enterRamp
  dsimp only
  have opened (u : State) : Unsent u (openSegment p b u) := unsent_modRecord u p _
  have flows (f : Position → Position) (g : Channel → Channel) :
      Unsent s (sendValve p ((openSegment p b (s.modPos p f)).modChan p g)) :=
    (((unsent_modPos s p f).trans (opened _)).trans (unsent_modChan _ p g)).trans (unsent_sendValve _ p)
  exact unsent_ite _ (flows _ _) ((flows _ _).trans (unsent_fillState _ p))

theorem unsent_taking (p : PosId) (b : BankId) : Unsent s (s.taking p b) :=
  (unsent_of rfl : Unsent s (s.reserving p b)).trans (unsent_moveBank _ b _ _)

theorem unsent_grantBank (p : PosId) (b : BankId) : Unsent s (grantBank p b s) := by
  rw [grantBank_taking]
  refine (unsent_taking s p b).trans (unsent_ite _ ?_ (unsent_enterRamp _ p b))
  exact (unsent_modPos _ p _).trans (unsent_sendValve _ p)

theorem unsent_drawRequest (p : PosId) (k : DrawKind) (x : Option BankId) : Unsent s (drawRequest p k x s) := by
  unfold drawRequest
  split
  · exact unsent_grantBank s p _
  · exact unsent_of rfl

theorem unsent_checksCD (p : PosId) : Unsent s (checksCD p s) := by
  unfold checksCD
  dsimp only
  exact unsent_ite _ (unsent_enterHold s p _) (unsent_ite _ (unsent_drawRequest s p _ _)
    ((unsent_drawRequest s p _ _).trans (unsent_enterHold _ p _)))

theorem unsent_flushWaitNotice (c : CompId) : Unsent s (flushWaitNotice c s) :=
  unsent_ite _ ((unsent_of rfl : Unsent s (dropWaitNotice c s)).trans (unsent_postNotice _ _ _ _ _)) (.refl s)

end

theorem Offers.unsent (h : Offers s t) : Unsent s t := by
  induction h with
  | none => exact .refl s
  | grant w b _ _ _ ih => exact ih.trans (unsent_grantBank _ _ b)

/-! ### Compressors that wait or were served -/

/-- Who waits or was served is in COOLING_WAIT, and stands there once (R84, R111). -/
structure Lined (cs : List CompId) (s : State) : Prop where
  waiting : ∀ c, CompWaits s c → (s.comp c).state = .coolingWait ∧ c ∉ cs
  served : ∀ c ∈ cs, (s.comp c).state = .coolingWait
  once : cs.Nodup
  wait : WaitLaw s

theorem Lined.of_laws (hc : CompLaw s) (hw : WaitLaw s) : Lined [] s :=
  ⟨fun c h => ⟨hc.waiting c h, by simp⟩, by simp, List.nodup_nil, hw⟩

/-- What moves no compressor and neither list. -/
structure Aside (s t : State) : Prop where
  comp : ∀ c, t.comp c = s.comp c
  wait : t.cooling.wait = s.cooling.wait
  unsent : Unsent s t

theorem Aside.refl (s : State) : Aside s s := ⟨fun _ => rfl, rfl, .refl s⟩

theorem Aside.trans (h : Aside s t) (k : Aside t u) : Aside s u :=
  ⟨fun c => (k.comp c).trans (h.comp c), k.wait.trans h.wait, h.unsent.trans k.unsent⟩

theorem Lined.aside (h : Lined cs s) (k : Aside s t) : Lined cs t := by
  have waits (c : CompId) : CompWaits t c ↔ CompWaits s c := by rw [CompWaits, CompWaits, k.wait]
  refine ⟨fun c => ?_, fun c => ?_, h.once, ?_⟩
  · rw [waits, k.comp]
    exact h.waiting c
  · rw [k.comp]
    exact h.served c
  · rw [WaitLaw, k.wait]
    exact h.wait

/-! ### Orders to the plant (R85, R173) -/

/-- The compressors that do not run. -/
def State.still (s : State) : Nat := (allComps.filter (fun c => (s.comp c).state != .running)).length

/-- The directives that wait for the plant, and the compressors to which one may yet be sent. -/
def State.load (s : State) : Nat := (s.port plantPort).directives.length + s.still

/-- The plant gets at most an order for each compressor that begins to run, and while there is room for these it loses no
directive. -/
def Orders (s t : State) : Prop :=
  s.load ≤ 32 → t.load ≤ s.load ∧ ∀ d, Directed s plantPort d → Directed t plantPort d

theorem Orders.refl (s : State) : Orders s s := fun _ => ⟨le_refl _, fun _ h => h⟩

theorem Orders.trans (h : Orders s t) (k : Orders t u) : Orders s u := by
  intro room
  obtain ⟨load, kept⟩ := h room
  obtain ⟨load', kept'⟩ := k (load.trans room)
  exact ⟨load'.trans load, fun d hd => kept' d (kept d hd)⟩

theorem Unsent.directed (h : Unsent s t) (d : Directive) (hd : Directed s plantPort d) : Directed t plantPort d := by
  rw [Directed, Port.outDirectives, h.line, h.directives]
  exact hd

theorem Unsent.load (h : Unsent s t) : t.load + s.still = s.load + t.still := by
  rw [State.load, State.load, h.directives]
  omega

theorem still_le (h : ∀ c, (s.comp c).state = .running → (t.comp c).state = .running) : t.still ≤ s.still := by
  refine (List.monotone_filter_right allComps fun c hc => ?_).length_le
  have rests : (t.comp c).state ≠ .running := by simpa using hc
  simpa using fun e => rests (h c e)

/-- What sends nothing and stops no compressor. -/
theorem Unsent.orders (h : Unsent s t) (hs : ∀ c, (s.comp c).state = .running → (t.comp c).state = .running) : Orders s t := by
  have load := h.load
  have still := still_le hs
  exact fun _ => ⟨by omega, h.directed⟩

theorem Aside.orders (h : Aside s t) : Orders s t := h.unsent.orders fun c hc => by rw [h.comp]; exact hc

/-- A compressor that begins to run is one fewer that does not. -/
theorem still_lt (hc : (s.comp c).state ≠ .running) (ht : (t.comp c).state = .running)
    (others : ∀ n, n ≠ c → t.comp n = s.comp n) : t.still + 1 ≤ s.still := by
  have mem : c ∈ allComps.filter (fun c => (s.comp c).state != .running) :=
    List.mem_filter.2 ⟨mem_allComps c, by simpa using hc⟩
  have sub : allComps.filter (fun c => (t.comp c).state != .running) ⊆
      (allComps.filter (fun c => (s.comp c).state != .running)).erase c := by
    intro n hn
    have rests : (t.comp n).state ≠ .running := by simpa using (List.mem_filter.1 hn).2
    have apart : n ≠ c := by
      rintro rfl
      exact rests ht
    refine (List.mem_erase_of_ne apart).2 (List.mem_filter.2 ⟨mem_allComps n, ?_⟩)
    rw [← others n apart]
    simpa using rests
  have once : (allComps.filter (fun c => (t.comp c).state != .running)).Nodup := List.Nodup.filter _ (by decide)
  have le := (List.subperm_of_subset once sub).length_le
  rw [List.length_erase_of_mem mem] at le
  have pos := List.length_pos_of_mem mem
  unfold State.still
  omega

theorem Port.direct_room {x : Port} (h : x.directives.length < 32) (d : Directive) :
    x.direct d = { x with directives := x.directives ++ [d] } := if_pos h

/-- A directive posted where there is room is queued, and so are those before it. -/
theorem postDirective_room (h : (s.port plantPort).directives.length < 32) (d : Directive) :
    ((postDirective plantPort d s).port plantPort).directives.length = (s.port plantPort).directives.length + 1 ∧
    Directed (postDirective plantPort d s) plantPort d ∧
    ∀ e, Directed s plantPort e → Directed (postDirective plantPort d s) plantPort e := by
  have port : (postDirective plantPort d s).port plantPort =
      { s.port plantPort with directives := (s.port plantPort).directives ++ [d] } :=
    (State.modPort_port ..).trans (Port.direct_room h d)
  refine ⟨by rw [port]; simp, ?_, fun e he => ?_⟩
  · rw [Directed, port]
    exact List.mem_append_right _ (List.mem_append_right _ (List.mem_singleton.2 rfl))
  · rw [Directed, port]
    rcases List.mem_append.1 he with he | he
    · exact List.mem_append_left _ he
    · exact List.mem_append_right _ (List.mem_append_left _ he)

end Sys2Proof.Machine
end

section
/-! SUPPORT. Service and assignment of compressors: the plant gets one order for each that begins to run, and no entry of
the refill queue is lost (R84, R85, R113 to R116, R173). -/

namespace Sys2Proof.Machine

variable {p q : PosId} {b : BankId} {c n : CompId} {s t u : State} {cs : List CompId} {e : QueueEntry}

/-- An entry stands in the queue, alone for its bank, or a compressor runs on it. -/
def Kept (e : QueueEntry) (s : State) : Prop :=
  (e ∈ s.queue ∧ ∀ x ∈ s.queue, x.bank = e.bank → x = e) ∨ ∃ m, (s.comp m).state = .running ∧ (s.comp m).entryHeld = some e

/-- Orders go out one for each compressor that begins to run, and entries are kept. -/
structure Runs (s t : State) : Prop where
  orders : Orders s t
  entries : ∀ e, Kept e s → Kept e t

theorem Runs.refl (s : State) : Runs s s := ⟨.refl s, fun _ => id⟩

theorem Runs.trans (h : Runs s t) (k : Runs t u) : Runs s u := ⟨h.orders.trans k.orders, fun e he => k.entries e (h.entries e he)⟩

theorem Aside.runs (h : Aside s t) (hq : t.queue = s.queue) : Runs s t := by
  refine ⟨h.orders, fun e he => ?_⟩
  rw [Kept, hq]
  simp only [h.comp]
  exact he

/-! ### One compressor changes -/

theorem Lined.tail (h : Lined (c :: cs) s) : Lined cs s ∧ c ∉ cs ∧ ¬ CompWaits s c := by
  obtain ⟨out, once⟩ := List.nodup_cons.1 h.once
  refine ⟨⟨fun n hn => ⟨(h.waiting n hn).1, fun k => (h.waiting n hn).2 (List.mem_cons_of_mem _ k)⟩,
    fun n hn => h.served n (List.mem_cons_of_mem _ hn), once, h.wait⟩, out, fun w => (h.waiting c w).2 List.mem_cons_self⟩

theorem Lined.change (h : Lined cs s) (others : ∀ n, n ≠ c → t.comp n = s.comp n)
    (wait : t.cooling.wait = s.cooling.wait) (out : ¬ CompWaits s c) (hc : c ∉ cs) : Lined cs t := by
  have waits (n : CompId) : CompWaits t n ↔ CompWaits s n := by rw [CompWaits, CompWaits, wait]
  refine ⟨fun n hn => ?_, fun n hn => ?_, h.once, by rw [WaitLaw, wait]; exact h.wait⟩
  · rw [waits] at hn
    rw [others n fun e => out (e ▸ hn)]
    exact h.waiting n hn
  · rw [others n fun e => hc (e ▸ hn)]
    exact h.served n hn

theorem Lined.out (h : Lined cs s) (hs : (s.comp c).state ≠ .coolingWait) : ¬ CompWaits s c ∧ c ∉ cs :=
  ⟨fun w => hs (h.waiting c w).1, fun k => hs (h.served c k)⟩

theorem setGrant_wait (r : Requester) (g : Nat) (s : State) : (setGrant r g s).cooling.wait = s.cooling.wait := by
  cases r <;> rfl

theorem startRefill_wait (c : CompId) (s : State) : (startRefill c s).1.cooling.wait = s.cooling.wait := by
  cases hf : s.queue.find? (assignable s) with
  | some e =>
    obtain ⟨l, x, eq, -⟩ := startRefill_takes (c := c) hf
    rw [eq]
    rfl
  | none =>
    obtain ⟨x, v, eq, -⟩ := startRefill_returns (c := c) hf
    rw [eq]
    exact setGrant_wait ..

theorem startRefill_sends (hf : s.queue.find? (assignable s) = some e) : ∃ u d, Unsent s u ∧
    Unsent (postDirective plantPort d u) (startRefill c s).1 := by
  have found : (s.modComp c (fun x => { x with requestTime := none })).queue.find?
      (assignable (s.modComp c (fun x => { x with requestTime := none }))) = some e := hf
  have moved := unsent_moveBank (dropWaitNotice c (s.modComp c (fun x => { x with requestTime := none }))) e.bank .refilling
    (some (.comp c))
  unfold startRefill
  dsimp only
  rw [found]
  dsimp only
  generalize moveBank e.bank .refilling (some (.comp c)) (dropWaitNotice c (s.modComp c (fun x => { x with requestTime := none }))) =
    m at moved
  refine ⟨State.modComp { m with queue := m.queue.filter (fun q => q.bank != e.bank) } c (fun x =>
    { x with state := .running, bank := some e.bank, entryHeld := some e, refillStart := some m.clock }), _, ?_,
    unsent_postNotice _ _ _ _ _⟩
  exact ((unsent_of rfl : Unsent s (dropWaitNotice c (s.modComp c (fun x => { x with requestTime := none })))).trans moved).trans
    (unsent_of rfl)

theorem startRefill_quiet (hf : s.queue.find? (assignable s) = none) : Unsent s (startRefill c s).1 := by
  have found : (s.modComp c (fun x => { x with requestTime := none })).queue.find?
      (assignable (s.modComp c (fun x => { x with requestTime := none }))) = none := hf
  have flushed := unsent_flushWaitNotice (s.modComp c (fun x => { x with requestTime := none })) c
  unfold startRefill
  dsimp only
  rw [found]
  dsimp only
  generalize flushWaitNotice c (s.modComp c (fun x => { x with requestTime := none })) = m at flushed
  have start : Unsent s m := (unsent_of rfl : Unsent s (s.modComp c _)).trans flushed
  have back : Unsent m ((setGrant (.comp c) 0 (budgetChanged .release m)).modComp c (fun x => { x with state := .ready })) :=
    unsent_of rfl
  exact (start.trans back).trans (unsent_postNotice _ _ _ _ _)

theorem runs_startRefill (hc : (s.comp c).state ≠ .running) : Runs s (startRefill c s).1 := by
  have others (n : CompId) (hn : n ≠ c) : (startRefill c s).1.comp n = s.comp n := (rests_startRefill hn s).comp
  cases hf : s.queue.find? (assignable s) with
  | none =>
    have quiet := startRefill_quiet (c := c) hf
    obtain ⟨x, v, eq, -⟩ := startRefill_returns (c := c) hf
    have queue : (startRefill c s).1.queue = s.queue := by
      rw [eq]
      rfl
    have apart {m : CompId} (hm : (s.comp m).state = .running) : m ≠ c := by
      rintro rfl
      exact hc hm
    refine ⟨quiet.orders fun m hm => by rw [others m (apart hm)]; exact hm, fun e he => ?_⟩
    rw [Kept, queue]
    refine he.imp_right fun ⟨m, hm, held⟩ => ⟨m, ?_⟩
    rw [others m (apart hm)]
    exact ⟨hm, held⟩
  | some a =>
    obtain ⟨u, d, before, after⟩ := startRefill_sends (c := c) hf
    obtain ⟨l, x, eq, -⟩ := startRefill_takes (c := c) hf
    have own : (startRefill c s).1.comp c = (s.comp c).filling a s.clock := by
      rw [eq]
      exact State.setComp_comp _ _ _
    have queue : (startRefill c s).1.queue = s.queue.filter (fun q => q.bank != a.bank) := by rw [eq]
    refine ⟨fun room => ?_, fun e he => ?_⟩
    · have lt := still_lt hc (by rw [own]; rfl) others
      unfold State.load at room ⊢
      obtain ⟨length, -, kept⟩ := postDirective_room (s := u) (by rw [before.directives]; omega) d
      refine ⟨?_, fun d hd => after.directed d (kept d (before.directed d hd))⟩
      rw [after.directives, length, before.directives]
      omega
    · rcases he with ⟨mem, alone⟩ | ⟨m, hm, held⟩
      · by_cases same : a.bank = e.bank
        · obtain rfl : a = e := alone a (List.mem_of_find?_eq_some hf) same
          exact .inr ⟨c, by rw [own]; exact ⟨rfl, rfl⟩⟩
        · rw [Kept, queue]
          exact .inl ⟨List.mem_filter.2 ⟨mem, by simpa using fun k => same k.symm⟩,
            fun x hx => alone x (List.mem_filter.1 hx).1⟩
      · refine .inr ⟨m, ?_⟩
        rw [others m (by rintro rfl; exact hc hm)]
        exact ⟨hm, held⟩

/-! ### An assignment pass -/

theorem lined_queueing (h : Lined cs s) (hc : (s.comp c).state = .ready) : Lined cs (s.queueing c) ∧ Runs s (s.queueing c) := by
  obtain ⟨out, unserved⟩ := h.out (c := c) (by rw [hc]; decide)
  have wait : (s.queueing c).cooling.wait = s.cooling.wait ++ [(⟨.comp c, s.clock⟩ : CoolWait)] := rfl
  have ne (n : CompId) (hn : n ≠ c) : (s.queueing c).comp n = s.comp n := queueing_comp_ne s hn
  refine ⟨⟨fun n hn => ?_, fun n hn => ?_, h.once, ?_⟩, ?_, fun e he => ?_⟩
  · by_cases e : n = c
    · subst e
      rw [queueing_comp]
      exact ⟨rfl, unserved⟩
    · rw [ne n e]
      obtain ⟨w, hw, who⟩ := hn
      rw [wait] at hw
      rcases List.mem_append.1 hw with hw | hw
      · exact h.waiting n ⟨w, hw, who⟩
      · rw [List.mem_singleton.1 hw] at who
        exact absurd (Requester.comp.inj who).symm e
  · rw [ne n fun e => unserved (e ▸ hn)]
    exact h.served n hn
  · rw [WaitLaw, wait, List.filter_append, List.map_append, List.nodup_append]
    refine ⟨h.wait, by simp [isFill], fun a ha d hd e => ?_⟩
    subst e
    obtain ⟨w, hw, who⟩ := List.mem_map.1 ha
    have : a = .comp c := by simpa [isFill] using hd
    exact out ⟨w, (List.mem_filter.1 hw).1, who.trans this⟩
  · refine (unsent_of rfl : Unsent s (s.queueing c)).orders fun n hn => ?_
    rw [ne n fun e => by subst e; rw [hc] at hn; cases hn]
    exact hn
  · have queue : (s.queueing c).queue = s.queue := rfl
    rw [Kept, queue]
    refine he.imp_right fun ⟨m, hm, held⟩ => ⟨m, ?_⟩
    rw [ne m fun e => by subst e; rw [hc] at hm; cases hm]
    exact ⟨hm, held⟩

theorem aside_setGrant (r : Requester) (g : Nat) (s : State) : Aside s (setGrant r g s) :=
  ⟨fun _ => by cases r <;> rfl, setGrant_wait .., unsent_of (by cases r <;> rfl)⟩

theorem aside_budgetChanged (k : CoolingCause) (s : State) : Aside s (budgetChanged k s) := ⟨fun _ => rfl, rfl, unsent_of rfl⟩

theorem setGrant_queue (r : Requester) (g : Nat) (s : State) : (setGrant r g s).queue = s.queue := by cases r <;> rfl

theorem lined_compressorAsks (h : Lined cs s) (hc : (s.comp c).state = .ready) :
    Lined cs (compressorAsks c s) ∧ Runs s (compressorAsks c s) := by
  rw [compressorAsks_eq]
  split
  · have aside : Aside s (s.serving c) := (aside_budgetChanged _ s).trans (aside_setGrant _ _ _)
    have served := h.aside aside
    have ready : ((s.serving c).comp c).state = .ready := by rw [aside.comp]; exact hc
    obtain ⟨out, unserved⟩ := served.out (c := c) (by rw [ready]; decide)
    exact ⟨served.change (fun n hn => (rests_startRefill hn _).comp) (startRefill_wait c _) out unserved,
      (aside.runs rfl).trans (runs_startRefill (by rw [ready]; decide))⟩
  · exact lined_queueing h hc

theorem lined_foldl {α : Type} (l : List α) (f : State → α → State)
    (hf : ∀ s a, Lined cs s → Lined cs (f s a) ∧ Runs s (f s a)) (s : State) (h : Lined cs s) :
    Lined cs (l.foldl f s) ∧ Runs s (l.foldl f s) := by
  induction l generalizing s with
  | nil => exact ⟨h, .refl s⟩
  | cons a l ih =>
    obtain ⟨law, runs⟩ := hf s a h
    obtain ⟨law', runs'⟩ := ih _ law
    exact ⟨law', runs.trans runs'⟩

theorem lined_assignmentPass (h : Lined cs s) : Lined cs (assignmentPass s) ∧ Runs s (assignmentPass s) := by
  cases hl : s.esd.latched with
  | true =>
    rw [assignmentPass_latched hl]
    exact ⟨h, .refl s⟩
  | false =>
    rw [assignmentPass_unlatched hl]
    refine lined_foldl _ _ (fun u c hu => ?_) s h
    unfold asksInTurn
    split
    next hc => exact lined_compressorAsks hu (by simpa using (Bool.and_eq_true_iff.1 hc).1)
    · exact ⟨hu, .refl u⟩

theorem aside_queue (l : List QueueEntry) (s : State) : Aside s { s with queue := l } := ⟨fun _ => rfl, rfl, unsent_of rfl⟩

theorem lined_tellIdle (h : Lined cs s) (b : BankId) : Lined cs (tellIdle b s) ∧ Orders s (tellIdle b s) := by
  have pass {u : State} (hu : Lined cs u) : Lined cs (assignmentPass u) ∧ Orders u (assignmentPass u) :=
    ⟨(lined_assignmentPass hu).1, (lined_assignmentPass hu).2.orders⟩
  unfold tellIdle
  split
  · exact pass h
  · split
    · split
      · have queued : Aside s (enqueue b .lowPressure s) := aside_queue _ s
        obtain ⟨law, orders⟩ := pass (h.aside queued)
        exact ⟨law, queued.orders.trans orders⟩
      · exact ⟨h, .refl s⟩
    · exact ⟨h, .refl s⟩

theorem Offers.aside (h : Offers s t) : Aside s t := by
  have rest := h.rest
  exact ⟨fun c => by rw [rest]; rfl, by rw [rest], h.unsent⟩

theorem lined_bankIdle (h : Lined cs s) (b : BankId) : Lined cs (bankIdle b s) ∧ Orders s (bankIdle b s) := by
  have offered := (offers_offerPass [b] s).aside
  unfold bankIdle
  dsimp only
  split
  · obtain ⟨law, orders⟩ := lined_tellIdle (h.aside offered) b
    exact ⟨law, offered.orders.trans orders⟩
  · exact ⟨h.aside offered, offered.orders⟩

/-! ### Redistribution -/

/-- Requesters leave the cooling wait list. -/
structure Leaves (s t : State) : Prop where
  comp : ∀ c, t.comp c = s.comp c
  wait : t.cooling.wait.Sublist s.cooling.wait
  unsent : Unsent s t
  queue : t.queue = s.queue

theorem Leaves.trans (h : Leaves s t) (k : Leaves t u) : Leaves s u :=
  ⟨fun c => (k.comp c).trans (h.comp c), k.wait.trans h.wait, h.unsent.trans k.unsent, k.queue.trans h.queue⟩

theorem Leaves.refl (s : State) : Leaves s s := ⟨fun _ => rfl, .refl _, .refl s, rfl⟩

theorem Aside.leaves (h : Aside s t) (hq : t.queue = s.queue) : Leaves s t := ⟨h.comp, h.wait ▸ .refl _, h.unsent, hq⟩

theorem Leaves.runs (h : Leaves s t) : Runs s t := by
  refine ⟨h.unsent.orders fun c hc => by rw [h.comp]; exact hc, fun e he => ?_⟩
  rw [Kept, h.queue]
  simp only [h.comp]
  exact he

theorem waitLaw_sublist (h : WaitLaw s) (k : t.cooling.wait.Sublist s.cooling.wait) : WaitLaw t :=
  List.Nodup.sublist ((k.filter _).map _) h

theorem Lined.leaves (h : Lined cs s) (k : Leaves s t) : Lined cs t := by
  refine ⟨fun c ⟨w, hw, who⟩ => ?_, fun c hc => by rw [k.comp]; exact h.served c hc, h.once, waitLaw_sublist h.wait k.wait⟩
  rw [k.comp]
  exact h.waiting c ⟨w, k.wait.subset hw, who⟩

theorem leaves_dropWait (r : Requester) (s : State) : Leaves s (dropWait r s) :=
  ⟨fun _ => rfl, List.filter_sublist, unsent_of rfl, rfl⟩

theorem leaves_modRecord (p : PosId) (f : TxnRecord → TxnRecord) (s : State) : Leaves s (modRecord p f s) := by
  obtain ⟨w, e⟩ := modRecord_eq p f s
  rw [e]
  exact ⟨fun _ => rfl, .refl _, unsent_of rfl, rfl⟩

theorem leaves_setGrant (r : Requester) (g : Nat) (s : State) : Leaves s (setGrant r g s) :=
  (aside_setGrant r g s).leaves (setGrant_queue ..)

theorem leaves_grantFill (p : PosId) (g : Nat) (s : State) : Leaves s (grantFill p g s) := by
  unfold grantFill
  dsimp only
  split
  · exact (leaves_setGrant _ g s).trans (leaves_modRecord p _ _)
  · exact leaves_setGrant _ g s

theorem leaves_raiseDerated (s : State) : Leaves s (raiseDerated s) := by
  refine foldl_keep (keep := fun u => Leaves s u) (fun u r _ hu => ?_) (.refl s)
  cases r with
  | pos p =>
    dsimp only
    split
    · exact hu.trans (((aside_budgetChanged _ u).leaves rfl).trans (leaves_setGrant _ _ _))
    · exact hu
  | comp c => exact hu

theorem leaves_serveFills (l : List CoolWait) (s : State) : Leaves s (serveFills l s).1 := by
  induction l generalizing s with
  | nil => exact .refl s
  | cons w l ih =>
    unfold serveFills
    split
    · exact .refl s
    next p _ =>
      dsimp only
      split
      · exact ((((aside_budgetChanged _ s).leaves rfl).trans (leaves_dropWait (.pos p) _)).trans (leaves_grantFill p _ _)).trans
          (ih _)
      · exact .refl s

theorem not_waits_dropWait (c : CompId) (s : State) : ¬ CompWaits (dropWait (.comp c) s) c := by
  rintro ⟨w, hw, e⟩
  have kept := (List.mem_filter.1 hw).2
  simp [e] at kept

/-- Compressors served leave the list, each once. -/
theorem lined_serveComps (l : List CoolWait) (hl : ((l.filter (fun w => !isFill w.who)).map (fun w => w.who)).Nodup)
    (hm : ∀ w ∈ l, ∀ c, w.who = .comp c → CompWaits s c) (h : Lined cs s) :
    Lined (cs ++ (serveComps l s).2) (serveComps l s).1 ∧ Leaves s (serveComps l s).1 := by
  induction l generalizing s cs with
  | nil => exact ⟨by simpa [serveComps] using h, .refl s⟩
  | cons w l ih =>
    have stop : Lined (cs ++ []) s ∧ Leaves s s := ⟨by simpa using h, .refl s⟩
    unfold serveComps
    split
    · exact stop
    next c hc =>
      dsimp only
      split
      · obtain ⟨state, unserved⟩ := h.waiting c (hm w (by simp) c hc)
        have fills : isFill w.who = false := by rw [hc]; rfl
        rw [List.filter_cons_of_pos (by rw [fills]; rfl), List.map_cons, List.nodup_cons, hc] at hl
        have leaves : Leaves s (setGrant (.comp c) (s.grantOf (.comp c)).demand (dropWait (.comp c) (budgetChanged .served s))) :=
          (((aside_budgetChanged _ s).leaves rfl).trans (leaves_dropWait _ _)).trans (leaves_setGrant _ _ _)
        have dropped := h.leaves leaves
        have gone : ¬ CompWaits (setGrant (.comp c) (s.grantOf (.comp c)).demand
            (dropWait (.comp c) (budgetChanged .served s))) c := mt (setGrant_waits ..).1 (not_waits_dropWait c _)
        have others (n : CompId) (hn : n ≠ c) (hw : CompWaits s n) : CompWaits (setGrant (.comp c) (s.grantOf (.comp c)).demand
            (dropWait (.comp c) (budgetChanged .served s))) n := by
          obtain ⟨w, hw, who⟩ := hw
          exact (setGrant_waits ..).2 ⟨w, List.mem_filter.2 ⟨hw, by rw [who]; simpa using hn⟩, who⟩
        generalize setGrant (.comp c) (s.grantOf (.comp c)).demand (dropWait (.comp c) (budgetChanged .served s)) = v at *
        have served : Lined (cs ++ [c]) v := by
          refine ⟨fun n hn => ⟨(dropped.waiting n hn).1, fun k => ?_⟩, fun n hn => ?_, ?_, dropped.wait⟩
          · rcases List.mem_append.1 k with k | k
            · exact (dropped.waiting n hn).2 k
            · rw [List.mem_singleton.1 k] at hn
              exact gone hn
          · rcases List.mem_append.1 hn with hn | hn
            · exact dropped.served n hn
            · rw [List.mem_singleton.1 hn, leaves.comp]
              exact state
          · rw [List.nodup_append]
            exact ⟨h.once, by simp, fun a ha d hd e => unserved (by rw [← List.mem_singleton.1 hd, ← e]; exact ha)⟩
        obtain ⟨law, rest⟩ := ih hl.2 (fun x hx n who => others n (fun e => hl.1 (List.mem_map.2 ⟨x,
          List.mem_filter.2 ⟨hx, by rw [who]; rfl⟩, by rw [who, e]⟩)) (hm x (by simp [hx]) n who)) served
        rw [List.append_assoc] at law
        exact ⟨law, leaves.trans rest⟩
      · exact stop

theorem lined_redistributePasses (h : Lined [] s) :
    Lined (redistributePasses s).2.2 (redistributePasses s).1 ∧ Leaves s (redistributePasses s).1 := by
  unfold redistributePasses
  split
  · exact ⟨h, .refl s⟩
  · dsimp only
    have first := (leaves_raiseDerated s).trans (leaves_serveFills (raiseDerated s).cooling.wait _)
    have law := h.leaves first
    obtain ⟨law', rest⟩ := lined_serveComps _ law.wait (fun w hw c who => ⟨w, hw, who⟩) law
    exact ⟨law', first.trans rest⟩

theorem checksCD_still (p : PosId) (s : State) : Aside s (checksCD p s) ∧ (checksCD p s).queue = s.queue := by
  have asked (k : DrawKind) (x : Option BankId) : (drawRequest p k x s).cooling = s.cooling ∧
      (drawRequest p k x s).queue = s.queue := by
    unfold drawRequest
    split
    · rw [(grantBank_apart p _ s).2.2]
      exact ⟨rfl, rfl⟩
    · exact ⟨rfl, rfl⟩
  have held (r : HoldReason) (u : State) : (enterHold p r u).cooling = u.cooling ∧ (enterHold p r u).queue = u.queue := by
    obtain ⟨x, w, g, e⟩ := enterHold_eq p r u
    rw [e]
    exact ⟨rfl, rfl⟩
  have lists : (checksCD p s).cooling = s.cooling ∧ (checksCD p s).queue = s.queue := by
    unfold checksCD
    dsimp only
    split
    · exact held _ s
    · split
      · exact asked _ _
      · exact ⟨(held _ _).1.trans (asked _ _).1, (held _ _).2.trans (asked _ _).2⟩
  exact ⟨⟨fun c => (rests_checksCD (n := c) s p).comp, by rw [lists.1], unsent_checksCD s p⟩, lists.2⟩

theorem lined_tellServed (fills : List PosId) (h : Lined cs s) : Lined [] (tellServed fills cs s).1 ∧ Runs s (tellServed fills cs s).1 := by
  have told : Aside s (fills.foldl (fun s p => checksCD p s) s) ∧ (fills.foldl (fun s p => checksCD p s) s).queue = s.queue :=
    foldl_keep (f := fun s p => checksCD p s) (keep := fun u => Aside s u ∧ u.queue = s.queue)
      (fun u p _ hu => ⟨hu.1.trans (checksCD_still p u).1, (checksCD_still p u).2.trans hu.2⟩) ⟨.refl s, rfl⟩
  unfold tellServed
  dsimp only
  have law := h.aside told.1
  have start := told.1.runs told.2
  generalize fills.foldl (fun s p => checksCD p s) s = u at *
  suffices rest : ∀ back, Lined [] (cs.foldl (fun r c => ((startRefill c r.1).1, r.2 || (startRefill c r.1).2)) (u, back)).1 ∧
      Runs u (cs.foldl (fun r c => ((startRefill c r.1).1, r.2 || (startRefill c r.1).2)) (u, back)).1 from
    ⟨(rest false).1, start.trans (rest false).2⟩
  clear start told h
  induction cs generalizing u with
  | nil => exact fun back => ⟨law, .refl u⟩
  | cons c cs ih =>
    intro back
    obtain ⟨tail, out, gone⟩ := law.tail
    have state := law.served c List.mem_cons_self
    obtain ⟨law', runs⟩ := ih (startRefill c u).1
      (tail.change (fun n hn => (rests_startRefill hn u).comp) (startRefill_wait c u) gone out) (back || (startRefill c u).2)
    exact ⟨law', (runs_startRefill (by rw [state]; decide)).trans runs⟩

theorem lined_redistributeN (k : Nat) (h : Lined [] s) : Lined [] (redistributeN k s) ∧ Runs s (redistributeN k s) := by
  induction k generalizing s with
  | zero => exact ⟨h, .refl s⟩
  | succ k ih =>
    obtain ⟨law, leaves⟩ := lined_redistributePasses h
    obtain ⟨law', runs⟩ := lined_tellServed (redistributePasses s).2.1 law
    unfold redistributeN
    dsimp only
    split
    · obtain ⟨law'', runs'⟩ := ih law'
      exact ⟨law'', (leaves.runs.trans runs).trans runs'⟩
    · exact ⟨law', leaves.runs.trans runs⟩

theorem lined_releaseGrant (h : Lined [] s) (r : Requester) : Lined [] (releaseGrant r s) ∧ Runs s (releaseGrant r s) := by
  unfold releaseGrant
  split
  · exact ⟨h, .refl s⟩
  · have aside : Aside s (setGrant r 0 (budgetChanged .release s)) := (aside_budgetChanged _ s).trans (aside_setGrant _ _ _)
    obtain ⟨law, runs⟩ := lined_redistributeN 3 (h.aside aside)
    exact ⟨law, (aside.runs (setGrant_queue ..)).trans runs⟩

end Sys2Proof.Machine
end

section
/-! SUPPORT. REFILL_DONE and REFILL_WITHDRAW: the settling proofs (R80, R84, R86, R87, R91, R114). -/

namespace Sys2Proof.Machine

variable {p q : PosId} {b : BankId} {c n : CompId} {s t u v : State} {e : QueueEntry}

/-! ### The end of a refill -/

/-- The bank of a completed refill comes to IDLE. -/
def freed (b : BankId) (s : State) : State := if (s.bank b).state == .refilling then toIdle b s else s

/-- The compressor stops, what it frees is assigned where it is READY, and its notice goes out. -/
def refillEnds (c : CompId) (cause : CompCause) (next : CompState) (s : State) : State :=
  postCompData c (compData c cause (stopAndRelease c next s))
    (if next == .ready then assignmentPass (stopAndRelease c next s) else stopAndRelease c next s)

theorem completeRefill_ends (hb : (s.comp c).bank = some b) (stop : StopCause) (cause : CompCause) :
    completeRefill c stop cause s = refillEnds c cause .ready (freed b (postDirective plantPort (.refillStop c b stop) s)) := by
  unfold completeRefill
  rw [hb]
  rfl

theorem withdrawRefill_ends (hb : (s.comp c).bank = some b) (he : (s.comp c).entryHeld = some e) (stop : StopCause)
    (cause : CompCause) (next : CompState) : withdrawRefill c stop cause next s =
      refillEnds c cause next (backToQueue b e (postDirective plantPort (.refillStop c b stop) s)) :=
  withdrawRefill_eq hb he stop cause next

theorem rests_freed (h : (s.comp n).state ≠ .ready) (b : BankId) : Rests n s (freed b s) :=
  rests_ite _ (rests_toIdle h b) (.refl n s)

theorem spares_freed (h : ¬ Draws s q) (b : BankId) : Spares q s (freed b s) := by
  unfold freed
  split
  · exact spares_toIdle h b
  · exact .refl q s

theorem spares_refillEnds (h : ¬ Cools s q) (c : CompId) (cause : CompCause) (next : CompState) :
    Spares q s (refillEnds c cause next s) := by
  have released := spares_stopAndRelease h c next
  refine Spares.trans ?_ (spares_postNotice _ _ _ _)
  split
  · exact released.trans spares_assignmentPass
  · exact released

theorem fillsKept_completed (c : CompId) (b : BankId) (stop : StopCause) (cause : CompCause) (s : State) :
    FillsKept s (refillEnds c cause .ready (freed b (postDirective plantPort (.refillStop c b stop) s))) := by
  refine fillsKept_of fun q hq => ?_
  have directed : Spares q s (postDirective plantPort (.refillStop c b stop) s) := spares_postDirective _ _
  have idle := directed.trans (spares_freed (not_draws (directed.waits hq)) b)
  exact idle.trans (spares_refillEnds (not_cools (idle.waits hq)) c cause .ready)

theorem steady_refillEnds (c : CompId) (cause : CompCause) (next : CompState) (s : State) :
    (refillEnds c cause next s).steady = s.steady := by
  have released : (stopAndRelease c next s).steady = s.steady := steady_stopAndRelease c next s
  unfold refillEnds
  refine (steady_postNotice ..).trans ?_
  split
  · rw [steady_assignmentPass, released]
  · exact released

theorem steady_freed (b : BankId) (s : State) : (freed b s).steady = s.steady := by
  unfold freed
  split
  · exact toIdle_steady b s
  · rfl

/-! ### Its orders to the plant -/

theorem Lined.same {cs : List CompId} (h : Lined cs s) (hc : ∀ c, t.comp c = s.comp c)
    (hw : t.cooling.wait = s.cooling.wait) : Lined cs t := by
  have waits (c : CompId) : CompWaits t c ↔ CompWaits s c := by rw [CompWaits, CompWaits, hw]
  exact ⟨fun c => by rw [waits, hc]; exact h.waiting c, fun c => by rw [hc]; exact h.served c, h.once,
    by rw [WaitLaw, hw]; exact h.wait⟩

theorem aside_moveBank (b : BankId) (st : BankState) (h : Option Holder) (s : State) : Aside s (moveBank b st h s) := by
  have unsent := unsent_moveBank s b st h
  obtain ⟨l, x, e, -⟩ := moveBank_eq b st h s
  refine ⟨fun c => by rw [e]; rfl, by rw [e]; rfl, unsent⟩

theorem lined_freed (h : Lined [] s) (b : BankId) : Lined [] (freed b s) ∧ Orders s (freed b s) := by
  unfold freed
  split
  · have moved := aside_moveBank b .idle none s
    obtain ⟨law, orders⟩ := lined_bankIdle (h.aside moved) b
    exact ⟨law, moved.orders.trans orders⟩
  · exact ⟨h, .refl s⟩

theorem lined_backToQueue (h : Lined [] s) (b : BankId) (e : QueueEntry) : Lined [] (backToQueue b e s) ∧
    Orders s (backToQueue b e s) := by
  unfold backToQueue
  split
  · have aside := ((aside_moveBank b .idle none s).trans (offers_offerPass [b] _).aside).trans
      (aside_queue _ _ : Aside _ (enqueueEntry e _))
    exact ⟨h.aside aside, aside.orders⟩
  · exact ⟨h, .refl s⟩

theorem still_le_two (s : State) : s.still ≤ 2 := List.length_filter_le ..

theorem lined_stopRunning (h : Lined [] s) (hs : (s.comp n).state = .running) (next : CompState) :
    Lined [] (stopRunning n next s) :=
  h.change (fun _ hm => State.modComp_comp_ne _ _ _ _ hm) rfl (h.out (by rw [hs]; decide)).1 (by simp)

/-- A refill that ends where the plant has room for the directives keeps those that wait. -/
theorem refillEnds_directed (h : Lined [] s) (hs : (s.comp n).state = .running) (room : s.load ≤ 30) (cause : CompCause)
    (next : CompState) (d : Directive) (hd : Directed s plantPort d) : Directed (refillEnds n cause next s) plantPort d := by
  obtain ⟨law, released⟩ := lined_releaseGrant (lined_stopRunning h hs next) (.comp n)
  have still := still_le_two (stopRunning n next s)
  have stopped : (stopRunning n next s).load ≤ 32 := by
    have same : ((stopRunning n next s).port plantPort).directives = (s.port plantPort).directives := rfl
    rw [State.load, same]
    rw [State.load] at room
    omega
  obtain ⟨load, kept⟩ := released.orders stopped
  have first : Directed (stopAndRelease n next s) plantPort d := kept d hd
  refine (unsent_postNotice _ _ _ _ _ : Unsent _ (refillEnds n cause next s)).directed d ?_
  split
  · exact ((lined_assignmentPass law).2.orders (load.trans stopped)).2 d first
  · exact first

/-! ### Its notice and its data -/

theorem releaseGrant_demand (h : ¬ CompWaits s n) :
    ((releaseGrant (.comp n) s).grantOf (.comp n)).demand = (s.grantOf (.comp n)).demand := by
  unfold releaseGrant
  split
  · rfl
  · have out : ¬ CompWaits (setGrant (.comp n) 0 (budgetChanged .release s)) n := mt (setGrant_waits ..).1 h
    rw [(rests_redistribute out).grant]
    simp [setGrant, State.setGrantOf, State.grantOf, budgetChanged]

theorem refillEnds_data (h : ¬ CompWaits s n) (cause : CompCause) {next : CompState} (hn : next ≠ .running) :
    ∃ q, compData n cause (stopAndRelease n next s) = [.byte (some next.code), .half (some 0),
      .half (some (s.grantOf (.comp n)).demand), .byte (some cause.code), .byte (some q)] := by
  obtain ⟨comp, grant, -⟩ := stopAndRelease_own h next
  have demand : ((stopAndRelease n next s).grantOf (.comp n)).demand = (s.grantOf (.comp n)).demand :=
    releaseGrant_demand (s := stopRunning n next s) h
  refine ⟨(stopAndRelease n next s).queue.length, ?_⟩
  unfold compData
  rw [comp, grant, demand]
  dsimp only
  rw [if_neg (by simpa using hn)]
  rfl

/-- The notice of the end is the last of its compressor, where that does not then wait for cooling. -/
theorem refillEnds_noticed (h : ¬ CompWaits s n) {cause : CompCause} {next : CompState} (hn : next ≠ .running)
    (hc : ((refillEnds n cause next s).comp n).state ≠ .coolingWait)
    (hp : (s.port plantPort).passes .compressorState = true) (kind : Byte) (args : List Byte) (a : Answer) :
    ∃ m ∈ ((endEvent (pushReply plantPort kind args a (refillEnds n cause next s))).port plantPort).outNotices,
      m.kind = .compressorState ∧ m.subject = n.val ∧ ∃ q, m.data = [.byte (some next.code), .half (some 0),
        .half (some (s.grantOf (.comp n)).demand), .byte (some cause.code), .byte (some q)] := by
  obtain ⟨q, data⟩ := refillEnds_data h cause hn
  have latest : ((refillEnds n cause next s).port plantPort).Latest .compressorState n.val
      (fun m => m.data = compData n cause (stopAndRelease n next s)) := by
    unfold refillEnds
    rw [postCompData, postNotice, List.foldl_cons, List.foldl_nil, State.modPort_port]
    refine Port.post_latest ?_ _ _
    rw [← hp]
    refine passes_of_steady ?_ _ _
    have released : (stopAndRelease n next s).steady = s.steady := steady_stopAndRelease n next s
    split
    · rw [steady_assignmentPass, released]
    · exact released
  have pushed := latest_pushReply kind args a plantPort latest
  have comp : ((pushReply plantPort kind args a (refillEnds n cause next s)).comp n) = (refillEnds n cause next s).comp n := by
    rw [(sends_pushReply plantPort kind args a _).rest]
    rfl
  obtain ⟨m, hm, kind, subject, out⟩ := (latest_endEvent (by rw [comp]; exact hc) pushed).out
  exact ⟨m, hm, kind, subject, q, out.trans data⟩

/-! ### With nobody waiting (R86) -/

/-- Nobody waits and no bank is queued. -/
structure Calm (s : State) : Prop where
  draws : s.drawList = []
  queue : s.queue = []
  wait : s.cooling.wait = []

theorem offerBank_nil (h : s.drawList = []) (b : BankId) : offerBank b s = s := by
  unfold offerBank
  rw [h]
  rfl

theorem offerPass_nil (h : s.drawList = []) (l : List BankId) : offerPass l s = s := by
  cases hl : s.esd.latched with
  | true => exact offerPass_latched l hl
  | false =>
    rw [offerPass_offered l hl]
    refine foldl_keep (keep := fun u => u = s) (fun u b _ hu => ?_) rfl
    subst hu
    unfold offered
    split
    · exact offerBank_nil h b
    · rfl

theorem assignmentPass_nil (h : s.queue = []) : assignmentPass s = s := by
  cases hl : s.esd.latched with
  | true => exact assignmentPass_latched hl
  | false =>
    rw [assignmentPass_unlatched hl]
    refine foldl_keep (keep := fun u => u = s) (fun u c _ hu => ?_) rfl
    subst hu
    have none : u.backlog = false := by simp [State.backlog, h]
    unfold asksInTurn
    rw [none, Bool.and_false]
    rfl

/-- Grants, lists of requesters and the scratch of the event apart, the state stands. -/
def Budgets (s t : State) : Prop := t = { s with cooling := t.cooling, evt := t.evt }

theorem Budgets.trans (h : Budgets s t) (k : Budgets t u) : Budgets s u := Eq.trans k (by rw [h])

theorem budgets_setGrant (r : Requester) (g : Nat) (s : State) : Budgets s (setGrant r g s) := by cases r <;> rfl

theorem budgets_budgetChanged (c : CoolingCause) (s : State) : Budgets s (budgetChanged c s) := rfl

theorem raiseDerated_rest (s : State) : Budgets s (raiseDerated s) ∧ (raiseDerated s).cooling.wait = s.cooling.wait := by
  refine foldl_keep (keep := fun u => Budgets s u ∧ u.cooling.wait = s.cooling.wait) (fun u r _ hu => ?_) ⟨rfl, rfl⟩
  cases r with
  | pos p =>
    dsimp only
    split
    · exact ⟨hu.1.trans ((budgets_budgetChanged _ u).trans (budgets_setGrant _ _ _)), hu.2⟩
    · exact hu
  | comp c => exact hu

theorem redistribute_nil (h : s.cooling.wait = []) : redistribute s = s ∨ redistribute s = raiseDerated s := by
  unfold redistribute redistributeN redistributePasses
  split
  · exact .inl rfl
  · right
    simp [(raiseDerated_rest s).2, h, serveFills, serveComps, tellServed]

/-- A grant given back with nobody waiting changes grants alone. -/
theorem releaseGrant_nil (h : s.cooling.wait = []) (r : Requester) : Budgets s (releaseGrant r s) := by
  unfold releaseGrant
  split
  · rfl
  · have released := (budgets_budgetChanged .release s).trans (budgets_setGrant r 0 _)
    have wait : (setGrant r 0 (budgetChanged .release s)).cooling.wait = [] := (setGrant_wait ..).trans h
    rcases redistribute_nil wait with same | raised
    · rw [same]
      exact released
    · rw [raised]
      exact released.trans (raiseDerated_rest _).1

/-- A bank above its threshold that nobody waits for comes to rest in IDLE. -/
theorem toIdle_calm (h : Calm s) (hr : ∃ r g, (s.bank b).report = some r ∧ (s.bank b).config = some g ∧ g.threshold < r.pressure) :
    toIdle b s = moveBank b .idle none s := by
  obtain ⟨r, g, report, config, enough⟩ := hr
  obtain ⟨l, x, e, list, -⟩ := moveBank_eq b .idle none s
  have bank := moveBank_bank b .idle none s
  have queue : (moveBank b .idle none s).queue = [] := by
    rw [e]
    exact h.queue
  have draws : (moveBank b .idle none s).drawList = [] := by
    rw [h.draws] at list
    rw [e]
    exact List.map_eq_nil_iff.1 list
  unfold toIdle bankIdle
  generalize moveBank b .idle none s = u at *
  rw [offerPass_nil draws]
  dsimp only
  split
  · have queued : u.queued b = false := by rw [State.queued, queue]; rfl
    unfold tellIdle
    rw [queued, bank]
    dsimp only
    rw [report, config]
    dsimp only
    rw [if_neg Bool.false_ne_true, if_neg (Nat.not_le.2 enough)]
  · rfl

/-- What DONE leaves where nobody waits. -/
theorem completed_calm (h : Calm s) (hn : (s.comp n).state = .running) (hw : ¬ CompWaits s n) (hb : (s.bank b).state = .refilling)
    (hr : ∃ r g, (s.bank b).report = some r ∧ (s.bank b).config = some g ∧ g.threshold < r.pressure) (cause : CompCause) :
    (refillEnds n cause .ready (freed b s)).comp n =
      { s.comp n with state := .ready, bank := none, entryHeld := none, refillStart := none } ∧
    ((refillEnds n cause .ready (freed b s)).grantOf (.comp n)).grant = 0 ∧
    (refillEnds n cause .ready (freed b s)).bank b = { s.bank b with state := .idle, holder := none } ∧
    (refillEnds n cause .ready (freed b s)).queue = [] := by
  have idle : freed b s = moveBank b .idle none s := (if_pos (by rw [hb]; rfl)).trans (toIdle_calm h hr)
  obtain ⟨l, x, e, -⟩ := moveBank_eq b .idle none s
  have bank := moveBank_bank b .idle none s
  have rests : Rests n s (moveBank b .idle none s) := rests_moveBank s b .idle none
  rw [idle]
  have queue : (moveBank b .idle none s).queue = [] := by
    rw [e]
    exact h.queue
  have wait : (moveBank b .idle none s).cooling.wait = [] := by
    rw [e]
    exact h.wait
  generalize moveBank b .idle none s = u at *
  obtain ⟨comp, grant, -⟩ := stopAndRelease_own (mt rests.waits hw) (n := n) .ready
  have budget : Budgets (stopRunning n .ready u) (stopAndRelease n .ready u) := releaseGrant_nil (s := stopRunning n .ready u) wait _
  rw [rests.comp] at comp
  have queue' : (stopAndRelease n .ready u).queue = [] := by
    rw [budget]
    exact queue
  have bank' : (stopAndRelease n .ready u).bank b = { s.bank b with state := .idle, holder := none } := by
    rw [budget]
    exact bank
  unfold refillEnds
  rw [if_pos (by rfl), assignmentPass_nil queue']
  generalize compData n cause (stopAndRelease n .ready u) = data
  generalize stopAndRelease n .ready u = v at *
  have rest : postCompData n data v = { v with ports := (postCompData n data v).ports } := (sends_postNotice _ _ _ _ v).rest
  rw [rest]
  exact ⟨comp, grant, bank', queue'⟩

/-! ### The settling proofs -/

theorem dropFrame_room (s : State) (m : PortId) : ((dropFrame m s).port plantPort).directives = (s.port plantPort).directives ∧
    ((dropFrame m s).port plantPort).passes .compressorState = (s.port plantPort).passes .compressorState := by
  have port : (dropFrame m s).port plantPort = if plantPort = m then { s.port m with rxBuffer := (s.port m).rxBuffer.drop 1 }
      else s.port plantPort := by
    by_cases e : plantPort = m
    · subst e
      rw [if_pos rfl]
      exact State.modPort_port ..
    · rw [if_neg e]
      exact State.modPort_port_ne _ _ _ _ e
  rw [port]
  split
  next e =>
    subst e
    exact ⟨rfl, rfl⟩
  · exact ⟨rfl, rfl⟩

theorem dropFrame_lined (hc : CompLaw s) (hw : WaitLaw s) (m : PortId) : Lined [] (dropFrame m s) :=
  (Lined.of_laws hc hw).same (fun _ => rfl) rfl

/-- REFILL_STOP goes out where the plant has room, and stays. -/
theorem stopped_directed (h : Lined [] s) (hs : (s.comp n).state = .running)
    (room : (s.port plantPort).directives.length < 28) (d : Directive) (cause : CompCause) (next : CompState)
    (f : State → State) (hf : ∀ u, Lined [] u → Lined [] (f u) ∧ Orders u (f u))
    (hr : ∀ u, (u.comp n).state = .running → Rests n u (f u)) :
    Directed (refillEnds n cause next (f (postDirective plantPort d s))) plantPort d := by
  have law : Lined [] (postDirective plantPort d s) := h.same (fun _ => rfl) rfl
  obtain ⟨length, directed, -⟩ := postDirective_room (s := s) (by omega) d
  have load : (postDirective plantPort d s).load ≤ 30 := by
    have := still_le_two (postDirective plantPort d s)
    unfold State.load
    omega
  have runs : ((postDirective plantPort d s).comp n).state = .running := hs
  have rests := hr (postDirective plantPort d s) hs
  generalize postDirective plantPort d s = u at *
  obtain ⟨law', orders⟩ := hf u law
  obtain ⟨load', kept⟩ := orders (load.trans (by omega))
  refine refillEnds_directed law' ?_ (load'.trans load) cause next d (kept d directed)
  rw [rests.comp]
  exact runs

theorem refillDoneResult (s : State) (n : CompId) (b : BankId) (h : Standing (.refillDone plantPort [byteOf n.val]) s)
    (hc : CompLaw s) (hw : WaitLaw s) :
    let c : Instr := .refillDone plantPort [byteOf n.val]
    if (s.comp n).state ≠ .running then Refuses c s .badState
    else
      (s.comp n).bank = some b →
      Completes c s none s (fun data t => data = [] ∧ FillsKept s t ∧
        ((s.port plantPort).directives.length < 28 → Directed t plantPort (.refillStop n b .done)) ∧
        ((t.comp n).state ≠ .coolingWait → (s.port plantPort).passes .compressorState = true →
          ∃ m ∈ (t.port plantPort).outNotices, m.kind = .compressorState ∧ m.subject = n.val ∧
            ∃ q, m.data = [.byte (some CompState.ready.code), .half (some 0),
              .half (some (s.grantOf (.comp n)).demand), .byte (some CompCause.done.code), .byte (some q)]) ∧
        (s.drawList = [] → s.queue = [] → s.cooling.wait = [] → (s.bank b).state = .refilling →
          (∃ r g, (s.bank b).report = some r ∧ (s.bank b).config = some g ∧ g.threshold < r.pressure) →
          t.comp n = { s.comp n with state := .ready, bank := none, entryHeld := none, refillStart := none } ∧
          (t.grantOf (.comp n)).grant = 0 ∧ t.bank b = { s.bank b with state := .idle, holder := none } ∧
          t.queue = [])) := by
  intro c
  have owner := forComp_byteOf n refillDone (dropFrame plantPort s)
  by_cases hs : (s.comp n).state ≠ .running
  · rw [if_pos hs]
    exact refuses_intro rfl rfl (screen_passes rfl (by simp) rfl) h (owner.trans (if_pos hs))
  rw [if_neg hs]
  have hs := Decidable.not_not.1 hs
  intro hb
  have owner : forComp (byteOf n.val) refillDone (dropFrame plantPort s) =
      (completeRefill n .done .done (dropFrame plantPort s), .accepted [] none) := owner.trans (if_neg (not_not.2 hs))
  rw [completeRefill_ends (s := dropFrame plantPort s) hb] at owner
  obtain ⟨length, passes⟩ := dropFrame_room s plantPort
  have law := dropFrame_lined hc hw plantPort
  have out : ¬ CompWaits (dropFrame plantPort s) n := (law.out (c := n) (by rw [dropFrame_comp, hs]; decide)).1
  have kept := (fillsKept_completed n b .done .done (dropFrame plantPort s)).before (s := s) rfl rfl rfl rfl
  have directed := fun room => stopped_directed (s := dropFrame plantPort s) (n := n) law hs room (.refillStop n b .done) .done
    .ready (freed b) (fun u hu => lined_freed hu b) (fun u hu => rests_freed (by rw [hu]; decide) b)
  rw [length] at directed
  have calm := fun k hb hr => completed_calm (s := postDirective plantPort (.refillStop n b .done) (dropFrame plantPort s)) (b := b)
    (n := n) k hs out hb hr .done
  have posted : Rests n (dropFrame plantPort s) (postDirective plantPort (.refillStop n b .done) (dropFrame plantPort s)) :=
    rests_postDirective _ _ _
  have rests := posted.trans (rests_freed (n := n) (by rw [posted.comp, dropFrame_comp, hs]; decide) b)
  have noticed := refillEnds_noticed (mt rests.waits out) (cause := .done) (next := .ready) (by decide)
  rw [rests.grant] at noticed
  have steady := (steady_refillEnds n .done .ready (freed b (postDirective plantPort (.refillStop n b .done)
    (dropFrame plantPort s)))).trans ((steady_freed b _).trans (steady_postDirective ..))
  have heard := passes_of_steady (s := dropFrame plantPort s) ((steady_freed b _).trans (steady_postDirective plantPort (.refillStop n b .done) (dropFrame plantPort s))) plantPort .compressorState
  rw [passes] at heard
  rw [heard] at noticed
  generalize freed b (postDirective plantPort (.refillStop n b .done) (dropFrame plantPort s)) = w at *
  generalize refillEnds n .done .ready w = u at *
  have trails := trails_answered plantPort 0x2D#8 [byteOf n.val] (.accepted [] none) u
  have comp : (endEvent (pushReply plantPort 0x2D#8 [byteOf n.val] (.accepted [] none) u)).comp n = u.comp n := by
    rw [trails.rest]
    rfl
  refine completes_intro rfl rfl (screen_passes rfl (by simp) rfl) h owner steady
    ⟨rfl, fillsKept_answered kept, fun room => (trails.directed plantPort _).2 (directed room), fun hn hp => ?_,
      fun draws queue wait hb hr => ?_⟩
  · rw [comp] at hn
    exact noticed hn hp 0x2D#8 [byteOf n.val] (.accepted [] none)
  · obtain ⟨comp', grant, bank, queue⟩ := calm ⟨draws, queue, wait⟩ hb hr
    rw [comp, trails.grantOf, trails.bank, trails.queue]
    exact ⟨comp', grant, bank, queue⟩

/-! ### REFILL_WITHDRAW -/

/-- The entry of a withdrawn refill is queued again, or a compressor runs on it. -/
theorem withdrawn_kept (h : Lined [] s) (hs : (s.comp n).state = .running) (hb : (s.bank b).state = .refilling) (he : e.bank = b)
    (alone : ∀ q ∈ s.queue, q.bank ≠ b) (cause : CompCause) (next : CompState) :
    Kept e (refillEnds n cause next (backToQueue b e s)) := by
  have rests : Rests n s (backToQueue b e s) := rests_backToQueue b e s
  have law := (lined_backToQueue h b e).1
  have queue : (backToQueue b e s).queue = insertQueue (offerPass [b] (moveBank b .idle none s)).clock e s.queue := by
    unfold backToQueue
    rw [if_pos (by rw [hb]; rfl)]
    have offered := (offers_offerPass [b] (moveBank b .idle none s)).rest
    obtain ⟨l, x, moved, -⟩ := moveBank_eq b .idle none s
    have same : (offerPass [b] (moveBank b .idle none s)).queue = s.queue := by
      rw [offered]
      dsimp only
      rw [moved]
      rfl
    unfold enqueueEntry
    rw [same]
  have mem : e ∈ (backToQueue b e s).queue ∧ ∀ x ∈ (backToQueue b e s).queue, x.bank = e.bank → x = e := by
    rw [queue]
    refine ⟨(mem_insertQueue ..).2 (.inl rfl), fun x hx k => ((mem_insertQueue ..).1 hx).resolve_right fun hx => ?_⟩
    exact alone x hx (k.trans he)
  generalize backToQueue b e s = v at *
  have runs : (v.comp n).state = .running := by rw [rests.comp]; exact hs
  obtain ⟨law', released⟩ := lined_releaseGrant (lined_stopRunning law runs next) (.comp n)
  have stopped : Kept e (stopRunning n next v) := .inl mem
  have first : Kept e (stopAndRelease n next v) := released.entries e stopped
  have last (u : State) (hu : Kept e u) (data : List Field) : Kept e (postCompData n data u) := by
    rw [show postCompData n data u = { u with ports := (postCompData n data u).ports } from (sends_postNotice _ _ _ _ u).rest]
    exact hu
  refine last _ ?_ _
  split
  · exact (lined_assignmentPass law').2.entries e first
  · exact first

theorem refillEnds_unavailable (h : ¬ CompWaits s n) (cause : CompCause) :
    ((refillEnds n cause .unavailable s).grantOf (.comp n)).grant = 0 ∧ (refillEnds n cause .unavailable s).comp n =
      { s.comp n with state := .unavailable, bank := none, entryHeld := none, refillStart := none } := by
  obtain ⟨comp, grant, -⟩ := stopAndRelease_own h .unavailable
  have posted : Rests n (stopAndRelease n .unavailable s) (refillEnds n cause .unavailable s) := rests_postNotice _ _ _ _ _
  exact ⟨by rw [posted.grant]; exact grant, posted.comp.trans comp⟩

theorem refillEnds_available (h : ¬ CompWaits s n) (cause : CompCause) :
    ((refillEnds n cause .ready s).comp n).state ≠ .unavailable := by
  obtain ⟨comp, -, -⟩ := stopAndRelease_own h .ready
  have posted : Rests n (assignmentPass (stopAndRelease n .ready s)) (refillEnds n cause .ready s) := rests_postNotice _ _ _ _ _
  rw [posted.comp]
  exact assignmentPass_available (by rw [comp]; exact CompState.noConfusion)

/-- What a withdrawal leaves. -/
structure WithdrawalEnds (n : CompId) (b : BankId) (e : QueueEntry) (state : CompState) (s t : State) : Prop where
  steady : t.steady = s.steady
  directed : (s.port plantPort).directives.length < 28 → Directed t plantPort (.refillStop n b .withdrawn)
  noticed : (t.comp n).state ≠ .coolingWait → (s.port plantPort).passes .compressorState = true →
    ∀ kind args a, ∃ m ∈ ((endEvent (pushReply plantPort kind args a t)).port plantPort).outNotices,
      m.kind = .compressorState ∧ m.subject = n.val ∧ ∃ q, m.data = [.byte (some state.code), .half (some 0),
        .half (some (s.grantOf (.comp n)).demand), .byte (some CompCause.withdrawn.code), .byte (some q)]
  entry : Kept e t
  unavailable : state = .unavailable → (t.grantOf (.comp n)).grant = 0 ∧
    t.comp n = { s.comp n with state := .unavailable, bank := none, entryHeld := none, refillStart := none }
  available : state = .ready → (t.comp n).state ≠ .unavailable

theorem withdrawal_ends (law : Lined [] s) (hs : (s.comp n).state = .running) (refilling : (s.bank b).state = .refilling)
    (same : e.bank = b) (alone : ∀ q ∈ s.queue, q.bank ≠ b) {state : CompState} (idle : state ≠ .running) :
    WithdrawalEnds n b e state s (refillEnds n .withdrawn state (backToQueue b e
      (postDirective plantPort (.refillStop n b .withdrawn) s))) := by
  have out : ¬ CompWaits s n := (law.out (c := n) (by rw [hs]; decide)).1
  have directed := fun room => stopped_directed (n := n) law hs room (.refillStop n b .withdrawn)
    .withdrawn state (backToQueue b e) (fun u hu => lined_backToQueue hu b e) (fun u _ => rests_backToQueue b e u)
  have posted : Rests n s (postDirective plantPort (.refillStop n b .withdrawn) s) := rests_postDirective _ _ _
  have law' : Lined [] (postDirective plantPort (.refillStop n b .withdrawn) s) := law.same (fun _ => rfl) rfl
  have kept : Kept e (refillEnds n .withdrawn state (backToQueue b e
      (postDirective plantPort (.refillStop n b .withdrawn) s))) :=
    withdrawn_kept (s := postDirective plantPort (.refillStop n b .withdrawn) s) law' (by rw [posted.comp, hs]) refilling same
      alone .withdrawn state
  have rests := posted.trans (rests_backToQueue (n := n) b e _)
  have noticed := refillEnds_noticed (mt rests.waits out) (cause := .withdrawn) idle
  rw [rests.grant] at noticed
  have steady := (steady_backToQueue b e _).trans (steady_postDirective plantPort (.refillStop n b .withdrawn) s)
  rw [passes_of_steady steady plantPort .compressorState] at noticed
  have unavailable := refillEnds_unavailable (mt rests.waits out) .withdrawn
  rw [rests.comp] at unavailable
  have available := refillEnds_available (mt rests.waits out) .withdrawn
  refine ⟨(steady_refillEnds n .withdrawn state _).trans steady, directed, noticed, kept, ?_, ?_⟩
  · rintro rfl
    exact unavailable
  · rintro rfl
    exact available

theorem refillWithdrawResult (s : State) (n : CompId) (next : Byte) (b : BankId) (e : QueueEntry)
    (h : Standing (.refillWithdraw plantPort [byteOf n.val, next]) s) (hc : CompLaw s) (hw : WaitLaw s) :
    let c : Instr := .refillWithdraw plantPort [byteOf n.val, next]
    if 2 ≤ next.toNat then Refuses c s .range
    else if (s.comp n).state ≠ .running then Refuses c s .badState
    else
      (s.comp n).bank = some b → (s.comp n).entryHeld = some e → e.bank = b → (s.bank b).state = .refilling →
      (∀ q ∈ s.queue, q.bank ≠ b) →
      Completes c s none s (fun data t => data = [] ∧ FillsKept s t ∧
        ((s.port plantPort).directives.length < 28 → Directed t plantPort (.refillStop n b .withdrawn)) ∧
        ((t.comp n).state ≠ .coolingWait → (s.port plantPort).passes .compressorState = true →
          ∃ m ∈ (t.port plantPort).outNotices, m.kind = .compressorState ∧ m.subject = n.val ∧
            ∃ q, m.data = [.byte (some (if next = 0#8 then CompState.unavailable else CompState.ready).code),
              .half (some 0), .half (some (s.grantOf (.comp n)).demand), .byte (some CompCause.withdrawn.code),
              .byte (some q)]) ∧
        (e ∈ t.queue ∨ ∃ m, (t.comp m).state = .running ∧ (t.comp m).entryHeld = some e) ∧
        (next = 0#8 → (t.grantOf (.comp n)).grant = 0 ∧ t.comp n = { s.comp n with
          state := .unavailable, bank := none, entryHeld := none, refillStart := none }) ∧
        (next = 1#8 → (t.comp n).state ≠ .unavailable)) := by
  intro c
  have owner := forComp_byteOf n (withdrawRequest next) (dropFrame plantPort s)
  by_cases hr : 2 ≤ next.toNat
  · rw [if_pos hr]
    exact refuses_intro rfl rfl (screen_passes rfl (by simp) rfl) h (owner.trans (if_pos hr))
  rw [if_neg hr]
  have owner := owner.trans (if_neg hr)
  by_cases hs : (s.comp n).state ≠ .running
  · rw [if_pos hs]
    exact refuses_intro rfl rfl (screen_passes rfl (by simp) rfl) h (owner.trans (if_pos hs))
  rw [if_neg hs]
  have hs := Decidable.not_not.1 hs
  intro hb he same refilling alone
  obtain ⟨state, hstate⟩ : ∃ state, state = if next = 0#8 then CompState.unavailable else CompState.ready := ⟨_, rfl⟩
  rw [← hstate]
  have owner : forComp (byteOf n.val) (withdrawRequest next) (dropFrame plantPort s) =
      (withdrawRefill n .withdrawn .withdrawn state (dropFrame plantPort s), .accepted [] none) :=
    hstate ▸ owner.trans (if_neg (not_not.2 hs))
  have idle : state ≠ .running := by
    rw [hstate]
    split <;> decide
  rw [withdrawRefill_ends (s := dropFrame plantPort s) hb he] at owner
  obtain ⟨length, passes⟩ := dropFrame_room s plantPort
  have fills := (fillsKept_withdrawRefill .withdrawn .withdrawn state n (dropFrame plantPort s)).before (s := s) rfl rfl rfl rfl
  rw [withdrawRefill_ends (s := dropFrame plantPort s) hb he] at fills
  obtain ⟨steady, directed, noticed, kept, unavailable, available⟩ := withdrawal_ends (s := dropFrame plantPort s) (n := n)
    (dropFrame_lined hc hw plantPort) hs refilling same alone idle
  rw [length] at directed
  rw [passes] at noticed
  generalize refillEnds n .withdrawn state (backToQueue b e
    (postDirective plantPort (.refillStop n b .withdrawn) (dropFrame plantPort s))) = u at *
  have trails := trails_answered plantPort 0x29#8 [byteOf n.val, next] (.accepted [] none) u
  have comp (m : CompId) : (endEvent (pushReply plantPort 0x29#8 [byteOf n.val, next] (.accepted [] none) u)).comp m = u.comp m := by
    rw [trails.rest]
    rfl
  refine completes_intro rfl rfl (screen_passes rfl (by simp) rfl) h owner steady
    ⟨rfl, fillsKept_answered fills, fun room => (trails.directed plantPort _).2 (directed room), fun hn hp => ?_, ?_,
      fun h0 => ?_, fun h1 => ?_⟩
  · rw [comp] at hn
    exact noticed hn hp 0x29#8 [byteOf n.val, next] (.accepted [] none)
  · rw [trails.queue]
    simp only [comp]
    exact kept.imp_left And.left
  · rw [trails.grantOf, comp]
    exact unavailable (hstate.trans (if_pos h0))
  · rw [comp]
    exact available (hstate.trans (if_neg (by rw [h1]; decide)))

/-- Settles O36: the end of the refill by its parts, the assignment pass by what it keeps. -/
theorem refillEndsResult : Obligations.RefillEndsResult := by
  refine ⟨?_, ?_⟩
  · rintro s n b c rfl h hc hw
    exact refillDoneResult s n b h hc hw
  · rintro s n next b e c rfl h hc hw
    exact refillWithdrawResult s n next b e h hc hw

end Sys2Proof.Machine
end

section
/-! SUPPORT. What cascades that release no bank leave of an IDLE bank and of the waiters: a bank at most begins to draw or,
where it is queued, to be refilled, and no bank comes to serve a waiter (R68 to R72, R84, R85, R114 to R116). -/

namespace Sys2Proof.Machine

variable {p q : PosId} {b c : BankId} {n : CompId} {s t u : State}

/-- From `s` to `t` IDLE banks are taken at most, and no waiter comes that an IDLE bank serves. -/
structure Cedes (s t : State) : Prop where
  yields : Yields s t
  shrinks : Shrinks s t
  idle : ∀ c, (s.bank c).state = .idle →
    t.bank c = s.bank c ∨ (t.bank c).state = .drawing ∨ (t.bank c).state = .refilling ∧ s.queued c = true
  lost : t.evt.plantLost = s.evt.plantLost

theorem Cedes.refl (s : State) : Cedes s s := ⟨.refl s, .refl s, fun _ _ => .inl rfl, rfl⟩

theorem Yields.queued (h : Yields s t) (hc : t.queued c = true) : s.queued c = true := by
  obtain ⟨e, he, bank⟩ := queued_iff.1 hc
  exact queued_iff.2 ⟨e, h.queue e he, bank⟩

theorem Cedes.trans (h : Cedes s t) (k : Cedes t u) : Cedes s u := by
  refine ⟨h.yields.trans k.yields, h.shrinks.trans k.shrinks, fun c hc => ?_, k.lost.trans h.lost⟩
  rcases h.idle c hc with same | drawing | ⟨refilling, queued⟩
  · rcases k.idle c (by rwa [same]) with again | drawing | ⟨refilling, queued⟩
    · exact .inl (again.trans same)
    · exact .inr (.inl drawing)
    · exact .inr (.inr ⟨refilling, h.yields.queued queued⟩)
  · rw [k.yields.bank c (by rw [drawing]; decide)]
    exact .inr (.inl drawing)
  · rw [k.yields.bank c (by rw [refilling]; decide)]
    exact .inr (.inr ⟨refilling, queued⟩)

theorem cedes_foldl {α : Type} (l : List α) (f : State → α → State) (hf : ∀ s a, Cedes s (f s a)) (s : State) :
    Cedes s (l.foldl f s) := by
  induction l generalizing s with
  | nil => exact .refl s
  | cons a l ih => exact (hf s a).trans (ih _)

theorem cedes_ite (h : Prop) [Decidable h] (ht : Cedes s t) (hu : Cedes s u) : Cedes s (if h then t else u) := by
  split
  · exact ht
  · exact hu

/-- What leaves banks, both lists, and what the tests of R68 read. -/
theorem cedes_of (hp : t.positions = s.positions) (hb : t.banks = s.banks) (hd : t.drawList = s.drawList)
    (hq : t.queue = s.queue) (hw : t.windows = s.windows) (hm : t.margin = s.margin)
    (hl : t.evt.plantLost = s.evt.plantLost) : Cedes s t := by
  have pos (q : PosId) : t.pos q = s.pos q := by rw [State.pos, hp]; rfl
  exact ⟨yields_of hb (fun q => by rw [pos]) hq, shrinks_same hd hb hw hm hl fun q => by rw [pos],
    fun c _ => .inl (by rw [State.bank, hb]; rfl), hl⟩

section
variable (s : State)

theorem cedes_setGrant (r : Requester) (g : Nat) : Cedes s (setGrant r g s) := by
  cases r <;> exact cedes_of rfl rfl rfl rfl rfl rfl rfl

theorem cedes_budgetChanged (k : CoolingCause) : Cedes s (budgetChanged k s) := cedes_of rfl rfl rfl rfl rfl rfl rfl

theorem cedes_dropWait (r : Requester) : Cedes s (dropWait r s) := cedes_of rfl rfl rfl rfl rfl rfl rfl

theorem cedes_modComp (n : CompId) (f : Compressor → Compressor) : Cedes s (s.modComp n f) :=
  cedes_of rfl rfl rfl rfl rfl rfl rfl

theorem cedes_modRecord (p : PosId) (f : TxnRecord → TxnRecord) : Cedes s (modRecord p f s) := by
  obtain ⟨w, e⟩ := modRecord_eq p f s
  rw [e]
  exact cedes_of rfl rfl rfl rfl rfl rfl rfl

theorem cedes_postNotice (k : NoticeKind) (j : Nat) (data : List Field) (ports : List PortId) :
    Cedes s (postNotice k j data ports s) := by
  rw [(sends_postNotice k j data ports s).rest]
  exact cedes_of rfl rfl rfl rfl rfl rfl rfl

theorem cedes_unqueued (ok : QueueEntry → Bool) : Cedes s { s with queue := s.queue.filter ok } :=
  ⟨yields_unqueued s ok, shrinks_same rfl rfl rfl rfl rfl fun _ => rfl, fun _ _ => .inl rfl, rfl⟩

theorem cedes_flushWaitNotice (n : CompId) : Cedes s (flushWaitNotice n s) := by
  obtain ⟨x, v, e, hv⟩ := flushWaitNotice_eq n s
  rw [e]
  refine cedes_of rfl rfl rfl rfl rfl rfl ?_
  rcases hv with rfl | rfl <;> rfl

end

/-! ### Fills -/

theorem cedes_grantBank (hb : (s.bank b).state = .idle) (p : PosId) : Cedes s (grantBank p b s) := by
  obtain ⟨-, banks, rest⟩ := grantBank_apart p b s
  refine ⟨yields_grantBank p hb, grantBank_shrinks p b s, fun c _ => ?_, by rw [rest]⟩
  by_cases e : c = b
  · subst e
    rw [grantBank_drawing]
    exact .inr (.inl rfl)
  · exact .inl (banks c e)

theorem cedes_drawRequest (p : PosId) (k : DrawKind) (x : Option BankId) (s : State) : Cedes s (drawRequest p k x s) := by
  unfold drawRequest
  cases hb : bestBank s p k x with
  | some b => exact cedes_grantBank (eligible_idle (bestBank_eligible hb)).1 p
  | none =>
    refine ⟨yields_of rfl (fun _ => rfl) rfl, fun c w hw he => ?_, fun _ _ => .inl rfl, rfl⟩
    rcases List.mem_append.1 hw with hw | hw
    · exact ⟨w, (List.mem_filter.1 hw).1, he⟩
    · rw [List.mem_singleton.1 hw] at he
      exact absurd ((bestBank_none.1 hb c).symm.trans he) Bool.false_ne_true

theorem cedes_enterHold (p : PosId) (r : HoldReason) (s : State) : Cedes s (enterHold p r s) := by
  have yields := yields_enterHold p r s
  have pressure (q : PosId) : ((enterHold p r s).pos q).pressure = (s.pos q).pressure := by
    by_cases h : q = p
    · subst h
      rw [enterHold_pos]
      rfl
    · obtain ⟨x, w, g, e⟩ := enterHold_eq p r s
      rw [e]
      exact congrArg Position.pressure (State.setPos_pos_ne s p q ((s.pos p).heldFor r) h)
  obtain ⟨x, w, g, e⟩ := enterHold_eq p r s
  refine ⟨yields, shrinks_same (by rw [e]; rfl) (by rw [e]; rfl) (by rw [e]; rfl) (by rw [e]; rfl) (by rw [e]; rfl) pressure,
    fun c _ => .inl ?_, by rw [e]; rfl⟩
  rw [e]
  rfl

theorem cedes_checksCD (p : PosId) (s : State) : Cedes s (checksCD p s) := by
  unfold checksCD
  dsimp only
  exact cedes_ite _ (cedes_enterHold p _ s) (cedes_ite _ (cedes_drawRequest p _ _ s)
    ((cedes_drawRequest p _ _ s).trans (cedes_enterHold p _ _)))

theorem Offers.cedes (h : Offers s t) : Cedes s t := by
  induction h with
  | none => exact .refl s
  | grant w b _ _ hb ih => exact ih.trans (cedes_grantBank hb w.pos)

/-! ### Compressors -/

theorem cedes_startRefill (n : CompId) (s : State) : Cedes s (startRefill n s).1 := by
  have yields := yields_startRefill n s
  cases hf : s.queue.find? (assignable s) with
  | some e =>
    obtain ⟨l, x, eq, waiters⟩ := startRefill_takes (c := n) hf
    have idle := assignable_idle.1 (List.find?_some hf)
    have queued : s.queued e.bank = true := queued_iff.2 ⟨e, List.mem_of_find?_eq_some hf, rfl⟩
    have own : (startRefill n s).1.bank e.bank = (s.bank e.bank).filledBy n := by
      rw [eq]
      exact s.setBank_bank e.bank _
    have others (c : BankId) (hc : c ≠ e.bank) : (startRefill n s).1.bank c = s.bank c := by
      rw [eq]
      exact State.setBank_bank_ne _ _ _ _ hc
    refine ⟨yields, shrinks_of e.bank (by rw [own]; exact BankState.noConfusion) others (by rw [eq]; rfl) (by rw [eq]; rfl)
      (by rw [eq]; rfl) (fun q => by rw [eq]; rfl) (by rw [eq]; exact waiters), fun c _ => ?_, by rw [eq]; rfl⟩
    by_cases h : c = e.bank
    · subst h
      rw [own]
      exact .inr (.inr ⟨rfl, queued⟩)
    · exact .inl (others c h)
  | none =>
    obtain ⟨x, v, eq, lost⟩ := startRefill_returns (c := n) hf
    rw [eq]
    exact cedes_of rfl rfl rfl rfl rfl rfl lost

theorem cedes_compressorAsks (n : CompId) (s : State) : Cedes s (compressorAsks n s) := by
  rw [compressorAsks_eq]
  exact cedes_ite _ (((cedes_budgetChanged s _).trans (cedes_setGrant _ _ _)).trans (cedes_startRefill n _))
    (cedes_of rfl rfl rfl rfl rfl rfl rfl)

theorem cedes_assignmentPass (s : State) : Cedes s (assignmentPass s) :=
  cedes_ite _ (.refl s) (cedes_foldl _ _ (fun u c => cedes_ite _ (cedes_compressorAsks c u) (.refl u)) s)

/-! ### Redistribution and what causes it -/

theorem cedes_grantFill (p : PosId) (g : Nat) (s : State) : Cedes s (grantFill p g s) :=
  cedes_ite _ ((cedes_setGrant s _ _).trans (cedes_modRecord _ _ _)) (cedes_setGrant s _ _)

theorem cedes_raiseDerated (s : State) : Cedes s (raiseDerated s) := by
  refine cedes_foldl _ _ (fun u r => ?_) s
  cases r with
  | pos p => exact cedes_ite _ ((cedes_budgetChanged u _).trans (cedes_setGrant _ _ _)) (.refl u)
  | comp c => exact .refl u

theorem cedes_serveFills (l : List CoolWait) (s : State) : Cedes s (serveFills l s).1 := by
  induction l generalizing s with
  | nil => exact .refl s
  | cons w l ih =>
    unfold serveFills
    split
    · exact .refl s
    next p _ =>
      dsimp only
      split
      · exact (((cedes_budgetChanged s _).trans (cedes_dropWait _ _)).trans (cedes_grantFill _ _ _)).trans (ih _)
      · exact .refl s

theorem cedes_serveComps (l : List CoolWait) (s : State) : Cedes s (serveComps l s).1 := by
  induction l generalizing s with
  | nil => exact .refl s
  | cons w l ih =>
    unfold serveComps
    split
    · exact .refl s
    next c _ =>
      dsimp only
      split
      · exact (((cedes_budgetChanged s _).trans (cedes_dropWait _ _)).trans (cedes_setGrant _ _ _)).trans (ih _)
      · exact .refl s

theorem cedes_redistributePasses (s : State) : Cedes s (redistributePasses s).1 := by
  unfold redistributePasses
  split
  · exact .refl s
  · exact (cedes_raiseDerated s).trans ((cedes_serveFills _ _).trans (cedes_serveComps _ _))

theorem cedes_tellServed (fills : List PosId) (comps : List CompId) (s : State) : Cedes s (tellServed fills comps s).1 := by
  have told := cedes_foldl fills _ (fun u p => cedes_checksCD p u) s
  unfold tellServed
  dsimp only
  refine told.trans ?_
  generalize fills.foldl (fun s p => checksCD p s) s = u
  generalize false = back
  induction comps generalizing u back with
  | nil => exact .refl u
  | cons c l ih => exact (cedes_startRefill c u).trans (ih _ _)

theorem cedes_redistributeN (k : Nat) (s : State) : Cedes s (redistributeN k s) := by
  induction k generalizing s with
  | zero => exact .refl s
  | succ k ih =>
    have round := (cedes_redistributePasses s).trans
      (cedes_tellServed (redistributePasses s).2.1 (redistributePasses s).2.2 _)
    unfold redistributeN
    exact cedes_ite _ (round.trans (ih _)) round

theorem cedes_releaseGrant (r : Requester) (s : State) : Cedes s (releaseGrant r s) :=
  cedes_ite _ (.refl s) (((cedes_budgetChanged s _).trans (cedes_setGrant _ _ _)).trans (cedes_redistributeN 3 _))

theorem cedes_departWait (r : Requester) (s : State) : Cedes s (departWait r s) :=
  cedes_ite _ (((cedes_budgetChanged s _).trans (cedes_dropWait _ _)).trans (cedes_redistributeN 3 _)) (.refl s)

theorem cedes_matchQueue (k : Nat) (s : State) : Cedes s (matchQueue k s) := by
  induction k generalizing s with
  | zero => exact .refl s
  | succ k ih =>
    unfold matchQueue
    refine cedes_ite _ ?_ (.refl s)
    split
    next c _ =>
      refine Cedes.trans ?_ (ih _)
      exact (((cedes_flushWaitNotice s c).trans (cedes_modComp _ c _)).trans (cedes_postNotice _ _ _ _ _)).trans
        (cedes_departWait _ _)
    · exact .refl s

theorem cedes_dequeue (b : BankId) (s : State) : Cedes s (dequeue b s) :=
  cedes_ite _ ((cedes_unqueued s _).trans (cedes_matchQueue 2 _)) (.refl s)

theorem cedes_stopRunning (n : CompId) (next : CompState) (s : State) : Cedes s (stopRunning n next s) := cedes_modComp s n _

theorem cedes_refillEnds (n : CompId) (cause : CompCause) (next : CompState) (s : State) : Cedes s (refillEnds n cause next s) := by
  have released : Cedes s (stopAndRelease n next s) := (cedes_stopRunning n next s).trans (cedes_releaseGrant _ _)
  exact (released.trans (cedes_ite _ (cedes_assignmentPass _) (.refl _))).trans (cedes_postNotice _ _ _ _ _)

/-! ### What follows of a bank -/

theorem Cedes.serving (h : Cedes s t) (hb : Serving (s.bank b)) : Serving (t.bank b) := by
  by_cases idle : (s.bank b).state = .idle
  · rcases h.idle b idle with same | drawing | ⟨refilling, -⟩
    · rwa [same]
    · rw [Serving, drawing]
      exact ⟨BankState.noConfusion, BankState.noConfusion⟩
    · rw [Serving, refilling]
      exact ⟨BankState.noConfusion, BankState.noConfusion⟩
  · rwa [h.yields.bank b idle]

theorem Cedes.none {ok : BankId → Prop} (h : Cedes s t) (hn : NoneEligible ok s) : NoneEligible ok t := hn.shrinks h.shrinks

theorem Cedes.was_idle (h : Cedes s t) (ht : (t.bank b).state = .idle) : (s.bank b).state = .idle := by
  by_contra busy
  rw [h.yields.bank b busy] at ht
  exact busy ht

theorem Cedes.unqueued (h : Cedes s t) (hq : s.queued b = false) : t.queued b = false := by
  cases ht : t.queued b with
  | false => rfl
  | true => exact absurd (hq.symm.trans (h.yields.queued ht)) Bool.false_ne_true

/-- An IDLE or DRAWING bank that is not queued stays so. -/
theorem Cedes.unfilled (h : Cedes s t) (hq : s.queued b = false) (hb : (s.bank b).state = .idle ∨ (s.bank b).state = .drawing) :
    (t.bank b).state = .idle ∨ (t.bank b).state = .drawing := by
  rcases hb with idle | drawing
  · rcases h.idle b idle with same | drawing | ⟨-, queued⟩
    · exact .inl (by rw [same]; exact idle)
    · exact .inr drawing
    · exact absurd (hq.symm.trans queued) Bool.false_ne_true
  · rw [h.yields.bank b (by rw [drawing]; decide)]
    exact .inr drawing

end Sys2Proof.Machine
end

section
/-! SUPPORT. BANK_REPORT: what the tests and the refill scheduler make of it (R62 to R64, R71, R80, R82, R86). -/

namespace Sys2Proof.Machine

variable {p q : PosId} {b a : BankId} {c n : CompId} {s t u : State} {d : Bool}

/-! ### What stands of banks and waiters -/

/-- Banks that are not IDLE stand, banks in service stay so, and no bank comes to serve a waiter. -/
structure Stays (s t : State) : Prop where
  stands : ∀ c, (s.bank c).state ≠ .idle → t.bank c = s.bank c
  serving : ∀ c, Serving (s.bank c) → Serving (t.bank c)
  shrinks : Shrinks s t
  lost : t.evt.plantLost = s.evt.plantLost

theorem Stays.refl (s : State) : Stays s s := ⟨fun _ _ => rfl, fun _ h => h, .refl s, rfl⟩

theorem Stays.trans (h : Stays s t) (k : Stays t u) : Stays s u := by
  refine ⟨fun c hc => ?_, fun c hc => k.serving c (h.serving c hc), h.shrinks.trans k.shrinks, k.lost.trans h.lost⟩
  have same := h.stands c hc
  exact (k.stands c (by rwa [same])).trans same

theorem Cedes.stays (h : Cedes s t) : Stays s t := ⟨h.yields.bank, fun _ hc => h.serving hc, h.shrinks, h.lost⟩

theorem Tells.stays (h : Tells s t) : Stays s t := ⟨h.stands, fun _ hc => h.serving hc, h.shrinks, h.plantLost⟩

theorem Stays.was_idle (h : Stays s t) (ht : (t.bank b).state = .idle) : (s.bank b).state = .idle := by
  by_contra busy
  rw [h.stands b busy] at ht
  exact busy ht

/-! ### The refill scheduler is told of a report (R80) -/

/-- A bank that is IDLE stands in the refill queue at its threshold or below, and not at its target or above. -/
def Filed (b : BankId) (s : State) : Prop :=
  ∀ r g, (s.bank b).report = some r → (s.bank b).config = some g → g.threshold < g.target → (s.bank b).state = .idle →
    (r.pressure ≤ g.threshold → s.queued b = true) ∧ (g.target ≤ r.pressure → s.queued b = false)

theorem Filed.of_busy (h : (s.bank b).state ≠ .idle) : Filed b s := fun _ _ _ _ _ idle => absurd idle h

theorem tellReport_cases (b : BankId) (s : State) :
    tellReport b s = s ∨ tellReport b s = dequeue b s ∨ tellReport b s = assignmentPass (enqueue b .lowPressure s) := by
  unfold tellReport
  split
  · split
    · split
      · exact .inr (.inl rfl)
      · exact .inl rfl
    · split
      · exact .inr (.inr rfl)
      · exact .inl rfl
  · exact .inl rfl

theorem tellReport_stays (b : BankId) (s : State) : Stays s (tellReport b s) := by
  rcases tellReport_cases b s with e | e | e <;> rw [e]
  · exact .refl s
  · exact (cedes_dequeue b s).stays
  · exact ((tells_queue _ s).trans (assigns_assignmentPass _).tells).stays

theorem spares_tellReport (h : ¬ Cools s q) (b : BankId) : Spares q s (tellReport b s) := by
  rcases tellReport_cases b s with e | e | e <;> rw [e]
  · exact .refl q s
  · exact spares_dequeue h b
  · exact (spares_queue _).trans spares_assignmentPass

theorem steady_tellReport (b : BankId) (s : State) : (tellReport b s).steady = s.steady := by
  rcases tellReport_cases b s with e | e | e <;> rw [e]
  · exact steady_dequeue b s
  · exact (steady_assignmentPass _).trans (steady_enqueue ..)

theorem filed_tellReport (b : BankId) (s : State) : Filed b (tellReport b s) := by
  intro r g report config below idle
  obtain ⟨report', config', -⟩ := bank_of_steady (steady_tellReport b s) b
  rw [report'] at report
  rw [config'] at config
  unfold tellReport at idle ⊢
  rw [report, config] at idle ⊢
  dsimp only at idle ⊢
  by_cases queued : s.queued b = true
  · rw [if_pos queued]
    by_cases full : g.target ≤ r.pressure
    · rw [if_pos full]
      exact ⟨fun low => by omega, fun _ => dequeue_queued b s⟩
    · rw [if_neg full]
      exact ⟨fun _ => queued, fun k => absurd k full⟩
  · rw [if_neg queued] at idle ⊢
    by_cases low : r.pressure ≤ g.threshold
    · rw [if_pos low] at idle ⊢
      refine ⟨fun _ => ?_, fun _ => by omega⟩
      have apart : ∀ x ∈ s.queue, x.bank ≠ b := fun x hx e => queued (queued_iff.2 ⟨x, hx, e⟩)
      rcases requested_assigns (e := ⟨b, ((s.bank b).config.map (·.tier)).getD .low, s.clock, .lowPressure⟩) (s := s)
        (assigns_assignmentPass _) apart with stays | ⟨refilling, -⟩
      · exact queued_iff.2 ⟨_, stays, rfl⟩
      · exact absurd (refilling.symm.trans idle) BankState.noConfusion
    · rw [if_neg low]
      exact ⟨fun k => absurd k low, fun _ => Bool.eq_false_iff.2 queued⟩

/-! ### A bank that is refilled is in no queue -/

/-- A bank that the assignment pass gives to a compressor leaves the queue. -/
theorem assignmentPass_unqueues (hb : (s.bank b).state = .idle) (hr : ((assignmentPass s).bank b).state = .refilling) :
    (assignmentPass s).queued b = false := by
  cases hl : s.esd.latched with
  | true =>
    rw [assignmentPass_latched hl, hb] at hr
    cases hr
  | false =>
    rw [assignmentPass_unlatched hl] at hr ⊢
    refine (foldl_keep (keep := fun u => (u.bank b).state = .idle ∨ (u.bank b).state = .refilling ∧ u.queued b = false)
      (fun u c _ hu => ?_) (.inl hb)).resolve_left (by rw [hr]; decide) |>.2
    have assigns := assigns_asksInTurn c u
    rcases hu with idle | ⟨refilling, out⟩
    · unfold asksInTurn
      split
      next h =>
        obtain ⟨-, backlog⟩ := Bool.and_eq_true_iff.1 h
        cases fits : u.fits c with
        | true =>
          obtain ⟨e, l, x, -, eq, -⟩ := compressorAsks_takes (backlog_assignable backlog) fits
          rw [eq]
          by_cases k : b = e.bank
          · subst k
            refine .inr ⟨?_, ?_⟩
            · exact congrArg Bank.state ((u.serving c).setBank_bank e.bank _)
            · exact queued_false.2 fun q hq => by simpa using (List.mem_filter.1 hq).2
          · refine .inl (Eq.trans (congrArg Bank.state ((u.serving c).setBank_bank_ne e.bank b _ k)) ?_)
            exact idle
        | false =>
          rw [compressorAsks_eq, fits]
          exact .inl idle
      · exact .inl idle
    · refine .inr ⟨?_, queued_false.2 fun e he => queued_false.1 out e (assigns.queue.subset he)⟩
      rw [assigns.stands b (by rw [refilling]; decide)]
      exact refilling

/-- A bank that came to IDLE and was given to a compressor has left the queue. -/
theorem toIdle_unqueues (hr : ((toIdle b s).bank b).state = .refilling) : (toIdle b s).queued b = false := by
  unfold toIdle bankIdle at hr ⊢
  dsimp only at hr ⊢
  have offered : ((offerPass [b] (moveBank b .idle none s)).bank b).state ≠ .refilling := by
    rcases (offers_offerPass [b] (moveBank b .idle none s)).offered b with same | ⟨w, -, drawing, -⟩
    · rw [same, moveBank_bank]
      exact BankState.noConfusion
    · rw [drawing]
      exact BankState.noConfusion
  generalize offerPass [b] (moveBank b .idle none s) = u at hr offered ⊢
  split at hr
  next idle =>
    rw [if_pos idle]
    have idle : (u.bank b).state = .idle := eq_of_beq idle
    unfold tellIdle at hr ⊢
    split at hr
    next queued =>
      rw [if_pos queued]
      exact assignmentPass_unqueues idle hr
    next queued =>
      rw [if_neg queued]
      split at hr
      · split at hr
        next low =>
          rw [if_pos low]
          exact assignmentPass_unqueues (s := enqueue b .lowPressure u) idle hr
        · rw [idle] at hr
          cases hr
      · rw [idle] at hr
        cases hr
  next busy =>
    rw [if_neg busy]
    exact absurd hr offered

/-- A bank that is not queued, and above its threshold, comes to IDLE and at most to a waiter. -/
theorem toIdle_unfilled (hq : s.queued b = false)
    (hr : ∀ r g, (s.bank b).report = some r → (s.bank b).config = some g → g.threshold < r.pressure) :
    (((toIdle b s).bank b).state = .idle ∨ ((toIdle b s).bank b).state = .drawing) ∧ (toIdle b s).queued b = false := by
  have moved := moveBank_bank b .idle none s
  obtain ⟨l, x, e, -⟩ := moveBank_eq b .idle none s
  have out : (moveBank b .idle none s).queued b = false := by
    rw [e]
    exact hq
  have cedes := (offers_offerPass [b] (moveBank b .idle none s)).cedes
  have steady := (steady_offerPass [b] (moveBank b .idle none s)).trans (steady_moveBank ..)
  have unqueued := cedes.unqueued out
  have unfilled := cedes.unfilled out (.inl (by rw [moved]))
  obtain ⟨report, config, -⟩ := bank_of_steady steady b
  rw [← report, ← config] at hr
  have same : toIdle b s = offerPass [b] (moveBank b .idle none s) := by
    unfold toIdle bankIdle
    generalize offerPass [b] (moveBank b .idle none s) = u at *
    dsimp only
    split
    · unfold tellIdle
      rw [if_neg (by rw [unqueued]; exact Bool.false_ne_true)]
      split
      next r g hrep hcfg => exact if_neg (Nat.not_le.2 (hr r g hrep hcfg))
      · rfl
    · rfl
  rw [same]
  exact ⟨unfilled, unqueued⟩

/-! ### The end of a refill by a report (R86) -/

theorem bankIdle_stays (b : BankId) (s : State) : Stays s (bankIdle b s) := by
  have offers := (offers_offerPass [b] s).cedes.stays
  unfold bankIdle
  dsimp only
  split
  · exact offers.trans (tells_tellIdle b _).stays
  · exact offers

/-- The end of a refill, whichever bank the compressor fills. -/
structure Completed (b : BankId) (c : CompId) (s t : State) : Prop where
  steady : t.steady = s.steady
  fills : FillsKept s t
  lost : t.evt.plantLost = s.evt.plantLost
  others : (s.comp c).bank ≠ some b → t.bank b = s.bank b
  serving : Serving (t.bank b)
  none : (s.comp c).bank = some b → s.esd.latched = false → NoneEligible (fun a => a = b) t
  unfilled : (s.comp c).bank = some b → s.queued b = false →
    (∀ r g, (s.bank b).report = some r → (s.bank b).config = some g → g.threshold < r.pressure) →
    ((t.bank b).state = .idle ∨ (t.bank b).state = .drawing) ∧ t.queued b = false

theorem completed_freed (hb : (s.comp c).bank = some a) (hr : (s.bank b).state = .refilling) (stop : StopCause) (cause : CompCause) :
    Completed b c s (refillEnds c cause .ready (freed a (postDirective plantPort (.refillStop c a stop) s))) := by
  have fills := fillsKept_completed c a stop cause s
  have steady := (steady_refillEnds c cause .ready (freed a (postDirective plantPort (.refillStop c a stop) s))).trans
    ((steady_freed a _).trans (steady_postDirective ..))
  obtain ⟨u, hu, esd, bank, queued, comp, lost⟩ : ∃ u, u = postDirective plantPort (.refillStop c a stop) s ∧ u.esd = s.esd ∧
      u.bank b = s.bank b ∧ u.queued b = s.queued b ∧ u.comp c = s.comp c ∧ u.evt.plantLost = s.evt.plantLost :=
    ⟨_, rfl, rfl, rfl, rfl, rfl, rfl⟩
  rw [← hu] at fills steady ⊢
  clear hu
  have ends := cedes_refillEnds c cause .ready (freed a u)
  by_cases same : a = b
  · subst same
    have idle : freed a u = toIdle a u := if_pos (by rw [bank, hr]; rfl)
    rw [idle] at ends fills steady ⊢
    obtain ⟨serving, none, lost'⟩ := toIdle_leaves a u
    refine ⟨steady, fills, ends.lost.trans (lost'.trans lost), fun k => absurd hb k, ends.serving serving,
      fun _ hl => ends.none (none (by rw [esd]; exact hl)), fun _ hq hp => ?_⟩
    obtain ⟨unfilled, unqueued⟩ := toIdle_unfilled (b := a) (s := u) (queued.trans hq) (by rw [bank]; exact hp)
    exact ⟨ends.unfilled unqueued unfilled, ends.unqueued unqueued⟩
  · have apart : b ≠ a := fun e => same e.symm
    obtain ⟨stays, lost'⟩ : (freed a u).bank b = u.bank b ∧ (freed a u).evt.plantLost = u.evt.plantLost := by
      unfold freed
      split
      · obtain ⟨l, x, e, -⟩ := moveBank_eq a .idle none u
        have moved : (moveBank a .idle none u).bank b = u.bank b := by
          rw [e]
          exact State.setBank_bank_ne _ _ _ _ apart
        have busy : ((moveBank a .idle none u).bank b).state ≠ .idle := by
          rw [moved, bank, hr]
          decide
        have idle := bankIdle_stays a (moveBank a .idle none u)
        exact ⟨(idle.stands b busy).trans moved, (toIdle_leaves a u).2.2⟩
      · exact ⟨rfl, rfl⟩
    have stands : (refillEnds c cause .ready (freed a u)).bank b = s.bank b := by
      rw [ends.yields.bank b (by rw [stays, bank, hr]; decide), stays, bank]
    have other : (s.comp c).bank ≠ some b := by
      rw [hb]
      exact fun e => same (Option.some.inj e)
    refine ⟨steady, fills, ends.lost.trans (lost'.trans lost), fun _ => stands, ?_, fun k => absurd k other, fun k => absurd k other⟩
    rw [stands, Serving, hr]
    exact ⟨BankState.noConfusion, BankState.noConfusion⟩

theorem completed_completeRefill (hr : (s.bank b).state = .refilling) (c : CompId) (stop : StopCause) (cause : CompCause) :
    Completed b c s (completeRefill c stop cause s) := by
  cases hb : (s.comp c).bank with
  | none =>
    have same : completeRefill c stop cause s = s := by
      unfold completeRefill
      rw [hb]
    have other : (s.comp c).bank ≠ some b := by
      rw [hb]
      exact fun e => nomatch e
    rw [same]
    refine ⟨rfl, fun _ _ => ⟨rfl, rfl⟩, rfl, fun _ => rfl, ?_, fun k => absurd k other, fun k => absurd k other⟩
    rw [Serving, hr]
    exact ⟨BankState.noConfusion, BankState.noConfusion⟩
  | some a =>
    rw [completeRefill_ends hb]
    exact completed_freed hb hr stop cause

/-! ### What a report does further -/

theorem reportFurther_idle (h : (s.bank b).state = .idle) : reportFurther b d s = tellReport b (if d then offerPass [b] s else s) := by
  unfold reportFurther
  rw [h]

theorem reportFurther_rests (hi : (s.bank b).state ≠ .idle) (hr : (s.bank b).state ≠ .refilling) : reportFurther b d s = s := by
  unfold reportFurther
  split
  next h => exact absurd h hi
  next h => exact absurd h hr
  all_goals rfl

theorem reportFurther_refilling (h : (s.bank b).state = .refilling) : reportFurther b d s = s ∨ ∃ c r g,
    (s.bank b).holder = some (.comp c) ∧ (s.bank b).report = some r ∧ (s.bank b).config = some g ∧ g.target ≤ r.pressure ∧
    reportFurther b d s = completeRefill c .target .target s := by
  unfold reportFurther
  rw [h]
  dsimp only
  split
  next c r g holder report config =>
    split
    next full => exact .inr ⟨c, r, g, holder, report, config, full, rfl⟩
    · exact .inl rfl
  · exact .inl rfl

/-- What a report of a bank in service leaves. -/
structure Furthered (b : BankId) (d : Bool) (s t : State) : Prop where
  steady : t.steady = s.steady
  fills : FillsKept s t
  lost : t.evt.plantLost = s.evt.plantLost
  serving : Serving (t.bank b)
  none : s.esd.latched = false → (t.bank b).state = .idle →
    (s.bank b).state ≠ .idle ∨ d = true ∨ NoneEligible (fun a => a = b) s → NoneEligible (fun a => a = b) t
  filed : ((s.bank b).state = .refilling → s.queued b = false) → Filed b t

theorem furthered_of_busy (hs : Serving (s.bank b)) (h : (s.bank b).state ≠ .idle) : Furthered b d s s :=
  ⟨rfl, fun _ _ => ⟨rfl, rfl⟩, rfl, hs, fun _ k => absurd k h, fun _ => .of_busy h⟩

theorem furthered_reportFurther (hs : Serving (s.bank b)) : Furthered b d s (reportFurther b d s) := by
  by_cases idle : (s.bank b).state = .idle
  · rw [reportFurther_idle idle]
    have offers : Offers s (if d = true then offerPass [b] s else s) := by
      split
      · exact offers_offerPass [b] s
      · exact .none s
    have served (hd : d = true) (hl : s.esd.latched = false) :
        NoneEligible (fun a => a = b) (if d = true then offerPass [b] s else s) := by
      rw [if_pos hd]
      exact fun w hw a ha => offerPass_serves [b] hl w hw a (by simp [ha])
    have spares (q : PosId) (hq : ¬ Waits s q) : Spares q s (if d = true then offerPass [b] s else s) := by
      split
      · exact spares_offerPass (not_draws hq) [b]
      · exact .refl q s
    have steady : (if d = true then offerPass [b] s else s).steady = s.steady := by
      split
      · exact steady_offerPass [b] s
      · rfl
    generalize (if d = true then offerPass [b] s else s) = u at *
    have told := tellReport_stays b u
    have stays := offers.cedes.stays.trans told
    refine ⟨(steady_tellReport b u).trans steady, fillsKept_of fun q hq => ?_, stays.lost, stays.serving b hs,
      fun hl _ why => ?_, fun _ => filed_tellReport b u⟩
    · exact (spares q hq).trans (spares_tellReport (not_cools ((spares q hq).waits hq)) b)
    · rcases why with busy | hd | none
      · exact absurd idle busy
      · exact (served hd hl).shrinks told.shrinks
      · exact none.shrinks stays.shrinks
  by_cases refilling : (s.bank b).state = .refilling
  · rcases reportFurther_refilling (d := d) refilling with same | ⟨c, r, g, -, report, config, full, completes⟩
    · rw [same]
      exact furthered_of_busy hs idle
    · rw [completes]
      have done := completed_completeRefill refilling c .target .target
      have own (hi : ((completeRefill c .target .target s).bank b).state = .idle) : (s.comp c).bank = some b := by
        by_contra other
        rw [done.others other, refilling] at hi
        cases hi
      refine ⟨done.steady, done.fills, done.lost, done.serving, fun hl hi _ => done.none (own hi) hl, fun out => ?_⟩
      intro r' g' report' config' below hi
      obtain ⟨report'', config'', -⟩ := bank_of_steady done.steady b
      obtain rfl : r = r' := Option.some.inj (report.symm.trans (report''.symm.trans report'))
      obtain rfl : g = g' := Option.some.inj (config.symm.trans (config''.symm.trans config'))
      refine ⟨fun low => by omega, fun _ => (done.unfilled (own hi) (out refilling) fun r' g' hr hg => ?_).2⟩
      obtain rfl : r = r' := Option.some.inj (report.symm.trans hr)
      obtain rfl : g = g' := Option.some.inj (config.symm.trans hg)
      omega
  · rw [reportFurther_rests idle refilling]
    exact furthered_of_busy hs idle

end Sys2Proof.Machine
end

section
/-! SUPPORT. BANK_REPORT: the lock tests, and the settling proof (R62 to R64, R71, R80, R82, R86, R91). -/

namespace Sys2Proof.Machine

variable {p q : PosId} {b a : BankId} {c n : CompId} {s t u : State} {d : Bool} {old : LockCauses}

/-! ### The refill that a report completes -/

/-- A compressor without a grant has none after the assignment pass, but where it runs. -/
theorem assignmentPass_grant (h : (s.grantOf (.comp n)).grant = 0) (hr : ((assignmentPass s).comp n).state ≠ .running) :
    ((assignmentPass s).grantOf (.comp n)).grant = 0 := by
  cases hl : s.esd.latched with
  | true => rwa [assignmentPass_latched hl]
  | false =>
    rw [assignmentPass_unlatched hl] at hr ⊢
    refine (foldl_keep (keep := fun u => (u.comp n).state = .running ∨ (u.grantOf (.comp n)).grant = 0) (fun u c _ hu => ?_)
      (.inr h)).resolve_left hr
    unfold asksInTurn
    split
    next k =>
      obtain ⟨ready, backlog⟩ := Bool.and_eq_true_iff.1 k
      by_cases same : n = c
      · subst same
        have idle : (u.comp n).state = .ready := eq_of_beq ready
        cases fits : u.fits n with
        | true =>
          obtain ⟨e, l, x, -, eq, -⟩ := compressorAsks_takes (backlog_assignable backlog) fits
          rw [eq]
          exact .inl (congrArg Compressor.state (State.setComp_comp ((u.serving n).setBank e.bank _) n _))
        | false =>
          rw [compressorAsks_eq, fits]
          refine .inr (hu.resolve_left ?_)
          rw [idle]
          exact CompState.noConfusion
      · have rests := rests_compressorAsks same u
        rw [rests.comp, rests.grant]
        exact hu
    · exact hu

/-- What the end of a running refill leaves, its fills and its bank apart. -/
structure CompletionEnds (n : CompId) (b : BankId) (stop : StopCause) (cause : CompCause) (s t : State) : Prop where
  directed : (s.port plantPort).directives.length < 28 → Directed t plantPort (.refillStop n b stop)
  noticed : (t.comp n).state ≠ .coolingWait → (s.port plantPort).passes .compressorState = true →
    ∀ kind args a, ∃ m ∈ ((endEvent (pushReply plantPort kind args a t)).port plantPort).outNotices,
      m.kind = .compressorState ∧ m.subject = n.val ∧ ∃ q, m.data = [.byte (some CompState.ready.code), .half (some 0),
        .half (some (s.grantOf (.comp n)).demand), .byte (some cause.code), .byte (some q)]
  grant : (t.comp n).state ≠ .running → (t.grantOf (.comp n)).grant = 0
  calm : Calm s → (s.bank b).state = .refilling →
    (∃ r g, (s.bank b).report = some r ∧ (s.bank b).config = some g ∧ g.threshold < r.pressure) →
    t.comp n = { s.comp n with state := .ready, bank := none, entryHeld := none, refillStart := none } ∧
    (t.grantOf (.comp n)).grant = 0 ∧ t.bank b = { s.bank b with state := .idle, holder := none } ∧ t.queue = []

theorem completion_ends (law : Lined [] s) (hs : (s.comp n).state = .running) (hb : (s.comp n).bank = some b)
    (stop : StopCause) (cause : CompCause) : CompletionEnds n b stop cause s (completeRefill n stop cause s) := by
  have out : ¬ CompWaits s n := (law.out (c := n) (by rw [hs]; decide)).1
  have directed := fun room => stopped_directed (n := n) law hs room (.refillStop n b stop) cause .ready (freed b)
    (fun u hu => lined_freed hu b) (fun u hu => rests_freed (by rw [hu]; decide) b)
  have calm := fun k hr hp => completed_calm (s := postDirective plantPort (.refillStop n b stop) s) (b := b) (n := n) k hs out
    hr hp cause
  have posted : Rests n s (postDirective plantPort (.refillStop n b stop) s) := rests_postDirective _ _ _
  have rests := posted.trans (rests_freed (n := n) (by rw [posted.comp, hs]; decide) b)
  have noticed := refillEnds_noticed (mt rests.waits out) (cause := cause) (next := .ready) (by decide)
  rw [rests.grant] at noticed
  have steady := (steady_freed b _).trans (steady_postDirective plantPort (.refillStop n b stop) s)
  rw [passes_of_steady steady plantPort .compressorState] at noticed
  obtain ⟨-, grant, -⟩ := stopAndRelease_own (mt rests.waits out) (n := n) .ready
  rw [completeRefill_ends hb]
  refine ⟨directed, noticed, ?_, fun k hr hp => calm ⟨k.draws, k.queue, k.wait⟩ hr hp⟩
  generalize freed b (postDirective plantPort (.refillStop n b stop) s) = w at *
  have last : Rests n (assignmentPass (stopAndRelease n .ready w)) (refillEnds n cause .ready w) := rests_postNotice _ _ _ _ _
  rw [last.comp, last.grant]
  exact assignmentPass_grant grant

/-! ### The lock tests (R63, R64) -/

theorem spares_bankLeaves (hq : ¬ Waits s q) {b : BankId} (hb : (s.bank b).holder ≠ some (.pos q)) (st : BankState) :
    Spares q s (bankLeaves b st s) := by
  have vacated : Spares q s (vacateBank b st s) := by
    have moved : Spares q s (moveBank b st none s) := spares_moveBank b st (by simp)
    unfold vacateBank
    dsimp only
    split
    next p _ holder =>
      exact moved.trans (spares_modPos (by rintro rfl; exact hb holder) _)
    · exact moved
  have out := vacated.waits hq
  refine vacated.trans ?_
  unfold bankLeaves
  generalize vacateBank b st s = u at *
  unfold tellBankLeft
  split
  next p _ holder =>
    have asked : Spares q u (withdrawPosition p u) := spares_withdrawPosition (by rintro rfl; exact hb holder)
    exact asked.trans (spares_dequeue (not_cools (asked.waits out)) b)
  next c _ _ =>
    have sent : Spares q u (postDirective plantPort (.refillStop c b .bankLost) u) := spares_postDirective _ _
    have lost := sent.trans (spares_refillEnds (not_cools (sent.waits out)) c .bankLost .ready)
    exact lost.trans (spares_dequeue (not_cools (lost.waits out)) b)
  · exact spares_dequeue (not_cools out) b

/-- The owners are told of the causes of a bank where they have changed. -/
def tellCauses (b : BankId) (old : LockCauses) (s : State) : State :=
  if (s.bank b).causes = old then s
  else if (s.bank b).state = .locked then causesShrunk b s
  else causesGrown b s

/-- R59, R63: a LOCKED bank has a cause. -/
theorem BankLaw.locked (h : BankLaw s) (hb : (s.bank b).state = .locked) : (s.bank b).causes ≠ ⟨false, false, false, false⟩ := by
  have law := h b
  rw [hb] at law
  exact law

/-- R59, R63: a bank in service has none. -/
theorem BankLaw.serving (h : BankLaw s) (hb : Serving (s.bank b)) : (s.bank b).causes = ⟨false, false, false, false⟩ := by
  have law := h b
  obtain ⟨on, free⟩ := hb
  split at law
  next k => exact absurd k on
  next k => exact absurd k free
  all_goals exact law

/-- What the tests and the owners make of a report. -/
structure ReportEnds (b : BankId) (d : Bool) (s t : State) : Prop where
  steady : t.steady = s.steady
  locked : (s.bank b).causes ≠ ⟨false, false, false, false⟩ →
    (t.bank b).state = .locked ∧ ((s.bank b).state ≠ .locked → (t.bank b).holder = none)
  serving : (s.bank b).causes = ⟨false, false, false, false⟩ → Serving (t.bank b)
  fills : ∀ q, ¬ Waits s q → (s.bank b).holder ≠ some (.pos q) → t.pos q = s.pos q ∧ t.chan q = s.chan q
  none : (s.bank b).state = .locked ∨ (s.bank b).state = .idle ∧ d = true → s.esd.latched = false →
    (t.bank b).state = .idle → NoneEligible (fun a => a = b) t ∧ t.evt.plantLost = s.evt.plantLost
  same : (s.bank b).causes = ⟨false, false, false, false⟩ → Serving (s.bank b) → t = reportFurther b d s
  filed : (s.bank b).state ≠ .refilling → Filed b t

theorem reportEnds (on : (s.bank b).state ≠ .offline) (hl : (s.bank b).state = .locked → old ≠ ⟨false, false, false, false⟩)
    (hs : Serving (s.bank b) → old = ⟨false, false, false, false⟩) : ReportEnds b d s (reportFurther b d (tellCauses b old s)) := by
  by_cases clear : (s.bank b).causes = ⟨false, false, false, false⟩
  · by_cases locked : (s.bank b).state = .locked
    · have told : tellCauses b old s = toIdle b s := by
        unfold tellCauses causesShrunk
        rw [if_neg (by rw [clear]; exact fun e => hl locked e.symm), if_pos locked, locked]
        exact if_pos ((isEmpty_iff _).2 clear)
      rw [told]
      obtain ⟨serving, none, lost⟩ := toIdle_leaves b s
      have latch : (toIdle b s).esd = s.esd := esd_of_steady (toIdle_steady b s)
      have further : Furthered b d (toIdle b s) (reportFurther b d (toIdle b s)) := furthered_reportFurther serving
      refine ⟨further.steady.trans (toIdle_steady b s), fun k => absurd clear k, fun _ => further.serving, fun q hq _ => ?_,
        fun _ hl hi => ⟨further.none (by rw [latch]; exact hl) hi (.inr (.inr (none hl))), further.lost.trans lost⟩,
        fun _ k => absurd locked k.2, fun _ => further.filed toIdle_unqueues⟩
      have idle : Spares q s (toIdle b s) := spares_toIdle (not_draws hq) b
      obtain ⟨pos, chan⟩ := further.fills q (idle.waits hq)
      exact ⟨pos.trans idle.pos, chan.trans idle.chan⟩
    · have told : tellCauses b old s = s := if_pos (clear.trans (hs ⟨on, locked⟩).symm)
      rw [told]
      have further : Furthered b d s (reportFurther b d s) := furthered_reportFurther ⟨on, locked⟩
      exact ⟨further.steady, fun k => absurd clear k, fun _ => further.serving, fun q hq _ => further.fills q hq,
        fun why hl hi => ⟨further.none hl hi (.inr (.inl (why.resolve_left locked).2)), further.lost⟩, fun _ _ => rfl,
        fun k => further.filed fun k' => absurd k' k⟩
  · have rests (u : State) (hu : (u.bank b).state = .locked) : reportFurther b d u = u :=
      reportFurther_rests (by rw [hu]; decide) (by rw [hu]; decide)
    by_cases locked : (s.bank b).state = .locked
    · obtain ⟨told, steady⟩ : Sends s (tellCauses b old s) ∧ (tellCauses b old s).steady = s.steady := by
        unfold tellCauses causesShrunk
        by_cases same : (s.bank b).causes = old
        · rw [if_pos same]
          exact ⟨.refl s, rfl⟩
        · rw [if_neg same, if_pos locked, locked]
          dsimp only
          rw [if_neg (mt (isEmpty_iff _).1 clear)]
          exact ⟨sends_postBankState b s, steady_postBankState b s⟩
      have state : ((tellCauses b old s).bank b).state = .locked := by
        rw [told.trails.bank]
        exact locked
      rw [rests _ state]
      refine ⟨steady, fun _ => ⟨state, fun k => absurd locked k⟩, fun k => absurd k clear,
        fun q _ _ => ⟨told.trails.pos q, told.trails.chan q⟩, fun _ _ hi => ?_, fun k => absurd k clear,
        fun _ => .of_busy (by rw [state]; decide)⟩
      rw [state] at hi
      cases hi
    · have told : tellCauses b old s = bankLeaves b .locked s := by
        unfold tellCauses
        rw [if_neg (by rw [hs ⟨on, locked⟩]; exact clear), if_neg locked]
        exact causesGrown_in (by simp [on, locked])
      rw [told]
      obtain ⟨⟨state, holder, -⟩, -⟩ := bankLeaves_leaves (st := .locked) (by decide) b s
      rw [rests _ state]
      refine ⟨steady_bankLeaves .., fun _ => ⟨state, fun _ => holder⟩, fun k => absurd k clear, fun q hq hh => ?_,
        fun _ _ hi => ?_, fun k => absurd k clear, fun _ => .of_busy (by rw [state]; decide)⟩
      · have spared := spares_bankLeaves hq hh .locked
        exact ⟨spared.pos, spared.chan⟩
      · rw [state] at hi
        cases hi

end Sys2Proof.Machine
end

section
/-! SUPPORT. BANK_REPORT: the settling proof (R62 to R64, R71, R80, R82, R86, R91). -/

namespace Sys2Proof.Machine

variable {p q : PosId} {b : BankId} {c n : CompId} {s t u : State} {d : Bool}

/-- A bank with a report held. -/
def Bank.reported (x : Bank) (pressure : Nat) (temperature : Int) (now : Clock) : Bank :=
  { x with
    report := some ⟨(clampPressure pressure).1, (clampTemp temperature).1, now⟩
    sensorRange := (clampPressure pressure).2 || (clampTemp temperature).2 }

/-- What the reply to a report shows of the bank. -/
def Bank.shown (x : Bank) (b : BankId) : List Field :=
  [.byte (some b.val), .byte (some x.state.code), .byte (match x.holder with | some (.pos p) => some p.val | _ => none),
    .byte (match x.holder with | some (.comp n) => some n.val | _ => none), .bits x.causes.bits, .word (some x.drawnMass)]

theorem testReport_eq (b : BankId) (d : Bool) (s : State) : testReport b d s =
    reportFurther b d (tellCauses b (s.bank b).causes (s.setBank b (s.bank b).tested)) := by
  have own : (s.setBank b (s.bank b).tested).bank b = (s.bank b).tested := s.setBank_bank b _
  unfold tellCauses
  rw [own]
  rfl

theorem setBank_setBank (s : State) (b : BankId) (x y : Bank) : (s.setBank b x).setBank b y = s.setBank b y := by
  simp [State.setBank]

theorem reportBank_eq (pressure : Nat) (temperature : Int) (b : BankId) (s : State) : reportBank pressure temperature b s =
    let y := (s.bank b).reported pressure temperature s.clock
    let d := decide ((s.bank b).report.map (·.pressure) ≠ some (clampPressure pressure).1)
    let u := if (s.bank b).state = .offline then s.setBank b y
      else reportFurther b d (tellCauses b (s.bank b).causes (s.setBank b y.tested))
    (u, .accepted ((u.bank b).shown b) none) := by
  have run : reportBank pressure temperature b s =
      let w := s.setBank b ((s.bank b).reported pressure temperature s.clock)
      let u := if (w.bank b).state = .offline then w
        else testReport b (decide ((s.bank b).report.map (·.pressure) ≠ some (clampPressure pressure).1)) w
      (u, .accepted ((u.bank b).shown b) none) := rfl
  rw [run]
  dsimp only
  rw [testReport_eq, State.setBank_bank, setBank_setBank]
  rfl

theorem reportFurther_full {c : CompId} {r : BankReport} {g : BankConfig} (h : (s.bank b).state = .refilling)
    (holder : (s.bank b).holder = some (.comp c)) (report : (s.bank b).report = some r) (config : (s.bank b).config = some g) :
    reportFurther b d s = if g.target ≤ r.pressure then completeRefill c .target .target s else s := by
  unfold reportFurther
  rw [h, holder, report, config]

/-- Settles O33: the lock tests, the owner told by the state they leave, and the refill the report completes. -/
theorem bankReportResult : Obligations.BankReportResult := by
  rintro s e b p0 p1 t0 t1 c rfl h hb hc hw
  intro x pressure temperature clamped causes reply reported
  have range : reported = x.reported (u16 p0 p1) (i16 t0 t1) s.clock := by
    have either : clamped = ((clampPressure (u16 p0 p1)).2 || (clampTemp (i16 t0 t1)).2) := Bool.decide_or ..
    change { x with report := some ⟨pressure, temperature, s.clock⟩, sensorRange := clamped } = _
    rw [either]
    rfl
  have found : causes = testedCauses reported := by
    change (match x.config with | none => x.causes | some g => _) = _
    cases hg : x.config with
    | none =>
      have config : reported.config = none := hg
      unfold testedCauses
      rw [config]
    | some g => exact (testedCauses_eq (x := reported) (g := g) hg).symm
  have differs : decide (x.report.map (·.pressure) ≠ some (clampPressure (u16 p0 p1)).1) =
      decide (x.report.map (·.pressure) ≠ some pressure) := rfl
  have owner := (forBank_byteOf b (reportBank (u16 p0 p1) (i16 t0 t1)) (dropFrame plantPort s)).trans (reportBank_eq _ _ b _)
  dsimp only at owner
  rw [dropFrame_bank, show (dropFrame plantPort s).clock = s.clock from rfl, ← range, differs] at owner
  by_cases on : x.state = .offline
  · rw [if_pos on]
    rw [if_pos on] at owner
    have shown : (((dropFrame plantPort s).setBank b reported).bank b).shown b = reply s := by
      rw [State.setBank_bank]
      rfl
    rw [shown] at owner
    exact accepts_intro rfl rfl (screen_passes rfl (by simp) rfl) h owner h.evt
  rw [if_neg on]
  rw [if_neg on] at owner
  intro he
  have bank : e.bank b = { reported with staleWatch := some 5000, causes := causes } := by rw [he, State.setBank_bank]
  have start : (dropFrame plantPort s).setBank b reported.tested = dropFrame plantPort e := by
    rw [he, found]
    rfl
  rw [start] at owner
  obtain ⟨length, passes⟩ := dropFrame_room e plantPort
  have port : e.port plantPort = s.port plantPort := by rw [he]; rfl
  rw [port] at length passes
  have law : Lined [] (dropFrame plantPort e) := (dropFrame_lined hc hw plantPort).same (fun _ => by rw [he]; rfl) (by rw [he]; rfl)
  have evt : (dropFrame plantPort e).evt.plantLost = false := by
    rw [he]
    exact (congrArg (fun x : Scratch => x.plantLost) h.evt :)
  have rest : dropFrame plantPort e = { dropFrame plantPort s with banks := e.banks } := by
    rw [he]
    rfl
  have own : (dropFrame plantPort e).bank b = { reported with staleWatch := some 5000, causes := causes } := by
    rw [dropFrame_bank, bank]
  clear he start bank
  have bankOf : e.bank b = (dropFrame plantPort e).bank b := rfl
  generalize hv : dropFrame plantPort e = v at law evt rest own length passes owner bankOf
  have state : (v.bank b).state = x.state := by rw [own]
  have holder : (v.bank b).holder = x.holder := by rw [own]
  have config : (v.bank b).config = x.config := by rw [own]
  have held : (v.bank b).causes = causes := by rw [own]
  have report : (v.bank b).report = some ⟨pressure, temperature, s.clock⟩ := by rw [own]
  have ends : ReportEnds b _ v (reportFurther b (decide (x.report.map (·.pressure) ≠ some pressure)) (tellCauses b x.causes v)) :=
    reportEnds (by rw [state]; exact on) (fun k => hb.locked (state.symm.trans k)) (fun k => hb.serving (by
      rw [Serving, state] at k
      exact k))
  have serving (k : Serving x) : Serving (v.bank b) := by
    rw [Serving, state]
    exact k
  have drawn (clear : causes = ⟨false, false, false, false⟩) (k : x.state = .drawing) :
      reportFurther b (decide (x.report.map (·.pressure) ≠ some pressure)) (tellCauses b x.causes v) = v := by
    rw [ends.same (held.trans clear) (serving (by rw [Serving, k]; decide))]
    exact reportFurther_rests (by rw [state, k]; decide) (by rw [state, k]; decide)
  have refilled (clear : causes = ⟨false, false, false, false⟩) (k : x.state = .refilling) (n : CompId)
      (hn : x.holder = some (.comp n)) (g : BankConfig) (hg : x.config = some g) :
      reportFurther b (decide (x.report.map (·.pressure) ≠ some pressure)) (tellCauses b x.causes v) =
        if g.target ≤ pressure then completeRefill n .target .target v else v := by
    rw [ends.same (held.trans clear) (serving (by rw [Serving, k]; decide))]
    exact reportFurther_full (state.trans k) (holder.trans hn) report (config.trans hg)
  generalize reportFurther b (decide (x.report.map (·.pressure) ≠ some pressure)) (tellCauses b x.causes v) = u at *
  have trails := trails_answered plantPort 0x27#8 [byteOf b.val, p0, p1, t0, t1] (.accepted ((u.bank b).shown b) none) u
  have comps (m : CompId) : (endEvent (pushReply plantPort 0x27#8 [byteOf b.val, p0, p1, t0, t1]
      (.accepted ((u.bank b).shown b) none) u)).comp m = u.comp m := by
    rw [trails.rest]
    rfl
  have whole : (endEvent (pushReply plantPort 0x27#8 [byteOf b.val, p0, p1, t0, t1]
      (.accepted ((u.bank b).shown b) none) u)).comps = u.comps ∧ (endEvent (pushReply plantPort 0x27#8
      [byteOf b.val, p0, p1, t0, t1] (.accepted ((u.bank b).shown b) none) u)).banks = u.banks ∧
      (endEvent (pushReply plantPort 0x27#8 [byteOf b.val, p0, p1, t0, t1] (.accepted ((u.bank b).shown b) none) u)).positions =
        u.positions ∧ (endEvent (pushReply plantPort 0x27#8 [byteOf b.val, p0, p1, t0, t1]
      (.accepted ((u.bank b).shown b) none) u)).cooling = u.cooling := by
    rw [trails.rest]
    exact ⟨rfl, rfl, rfl, rfl⟩
  refine completes_intro rfl rfl (screen_passes rfl (by simp) rfl) h owner ?_ ⟨?_, ?_, ?_, ?_, ?_, ?_, ?_, ?_⟩
  · rw [hv]
    exact ends.steady
  · exact congrArg (fun y : Bank => y.shown b) (trails.bank b).symm
  · intro k
    rw [trails.bank]
    have out := ends.locked (by rw [held]; exact k)
    rw [state] at out
    exact out
  · intro k
    rw [trails.bank]
    exact ends.serving (held.trans k)
  · intro q hq _ hh
    have fills := ends.fills q (by rw [rest]; exact hq) (by rw [holder]; exact hh)
    rw [trails.pos, trails.chan, fills.1, fills.2, rest]
    exact ⟨rfl, rfl⟩
  · intro why hl hi
    rw [trails.bank] at hi
    obtain ⟨none, lost⟩ := ends.none (by rw [state]; exact why.imp_right fun k => ⟨k.1, decide_eq_true k.2⟩)
      (by rw [rest]; exact hl) hi
    exact noneEligible_answered _ _ _ none (lost.trans evt)
  · intro clear k
    obtain ⟨comps, banks, positions, -⟩ := whole
    rw [comps, banks, positions, trails.queue, drawn clear k, rest]
    exact ⟨rfl, rfl, rfl, rfl⟩
  · intro n clear k hn hs hb' g hg
    have ended := refilled clear k n hn g hg
    by_cases below : pressure < g.target
    · rw [if_neg (Nat.not_le.2 below)] at ended
      obtain ⟨comps, banks, positions, cooling⟩ := whole
      rw [if_pos below, comps, banks, positions, cooling, trails.queue, ended, rest]
      exact ⟨rfl, rfl, rfl, rfl, rfl⟩
    rw [if_pos (Nat.not_lt.1 below)] at ended
    rw [if_neg below]
    have same : v.comp n = s.comp n := by rw [rest]; rfl
    have demand : v.grantOf (.comp n) = s.grantOf (.comp n) := by rw [rest]; rfl
    have latch : v.esd = s.esd := by rw [rest]; rfl
    have done : Completed b n v u := by
      rw [ended]
      exact completed_completeRefill (state.trans k) n .target .target
    have completes : CompletionEnds n b .target .target v u := by
      rw [ended]
      exact completion_ends law (by rw [same, hs]) (by rw [same, hb']) .target .target
    have bank : (v.comp n).bank = some b := by rw [same, hb']
    have enough (low : g.threshold < g.target) (r : BankReport) (g' : BankConfig) (hr : (v.bank b).report = some r)
        (hg' : (v.bank b).config = some g') : g'.threshold < r.pressure := by
      obtain rfl : _ = r := Option.some.inj (report.symm.trans hr)
      obtain rfl : g = g' := Option.some.inj (hg.symm.trans (config.symm.trans hg'))
      dsimp only
      omega
    refine ⟨fillsKept_answered (done.fills.before (by rw [rest]; rfl) (by rw [rest]; rfl) (by rw [rest]; rfl)
      (by rw [rest]; rfl)), fun room => ?_, fun hn hp => ?_, fun hn => ?_, fun alone low => ?_, fun hi hl => ?_,
      fun hd hq hc low => ?_⟩
    · exact (trails.directed plantPort _).2 (completes.directed (by rw [length]; exact room))
    · rw [comps] at hn
      rw [← demand]
      exact completes.noticed hn (by rw [passes]; exact hp) _ _ _
    · rw [comps] at hn
      rw [trails.grantOf]
      exact completes.grant hn
    · rw [trails.bank]
      exact (done.unfilled bank (queued_false.2 (by rw [rest]; exact alone)) (enough low)).1
    · exact noneEligible_answered _ _ _ (done.none bank (by rw [latch]; exact hl)) (done.lost.trans evt)
    · rw [comps, trails.grantOf, trails.bank, trails.queue, ← same, bankOf]
      exact completes.calm ⟨by rw [rest]; exact hd, by rw [rest]; exact hq, by rw [rest]; exact hc⟩ (state.trans k)
        ⟨_, g, report, config.trans hg, enough low _ g report (config.trans hg)⟩
  · intro g hg below k hi
    rw [trails.bank] at hi
    rw [State.queued, trails.queue]
    obtain ⟨report', config', -⟩ := bank_of_steady ends.steady b
    exact ends.filed (by rw [state]; exact k) _ g (report'.trans report) (config'.trans (config.trans hg)) below hi

end Sys2Proof.Machine
end

section
/-! SUPPORT. The laws of requesters and holders in the middle of a cascade: what is granted but not yet told, shed but
not yet held, ended but not yet given back (R27, R84 to R90, R110, R111, R114 to R118). -/

namespace Sys2Proof.Machine

variable {p q : PosId} {b : BankId} {c n : CompId} {s t u : State}

/-- What a cascade has still to tell: fills and compressors served, fills shed, a fill that ends. -/
structure Untold where
  fills : List PosId
  comps : List CompId
  shed : List PosId
  ending : Option PosId

/-- Nothing is left to tell. -/
def Untold.none : Untold := ⟨[], [], [], .none⟩

variable {x y : Untold}

/-- The compressors: who waits, who was served, who runs, with which bank and entry (R84 to R88, R111). -/
structure SoundComps (x : Untold) (s : State) : Prop where
  waiting : ∀ c, CompWaits s c → (s.comp c).state = .coolingWait ∧ c ∉ x.comps
  served : ∀ c ∈ x.comps, (s.comp c).state = .coolingWait
  onceServed : x.comps.Nodup
  onceWaits : WaitLaw s
  running : ∀ c, (s.comp c).state = .running → (s.comp c).bank.isSome = true ∧ (s.comp c).entryHeld.isSome = true
  resting : ∀ c, (s.comp c).state ≠ .running → (s.comp c).bank = .none ∧ (s.comp c).entryHeld = .none
  refills : ∀ c, (s.grantOf (.comp c)).grant ≠ 0 → (s.comp c).state = .running ∨ c ∈ x.comps

/-- The fills: who waits for cooling, who was served or shed, who waits for a bank (R29, R70, R111). On the loss of the
plant no bank is granted (R77), and one that waits for a bank may be shed. -/
structure SoundFills (x : Untold) (s : State) : Prop where
  granted : ∀ p, (s.grantOf (.pos p)).grant ≠ 0 → (s.pos p).state = .ramp ∨ (s.pos p).state = .hold ∨ x.ending = some p
  cooling : ∀ p, Cools s p →
    ((s.pos p).state = .hold ∧ (s.pos p).holdReason = some .cooling ∨ p ∈ x.shed ∨ x.ending = some p) ∧ p ∉ x.fills
  served : ∀ p ∈ x.fills, (s.pos p).state = .ramp ∨ (s.pos p).state = .hold
  shed : ∀ p ∈ x.shed, (s.pos p).state = .hold ∨ (s.pos p).state = .ramp ∧ (Draws s p → s.evt.plantLost = true)
  drawing : ∀ p, Draws s p → endable (s.pos p).state = true ∧ (Cools s p → p ∈ x.shed ∨ s.evt.plantLost = true)

/-- Grant order (R110). -/
structure SoundOrder (s : State) : Prop where
  ordered : ∀ r, r ∈ s.cooling.order ↔ (s.grantOf r).grant ≠ 0
  once : s.cooling.order.Nodup

/-- The banks of fills, and those that a compressor holds (R59). -/
structure SoundBanks (s : State) : Prop where
  fills : ∀ p b, (s.pos p).bank = some b → (s.bank b).state = .drawing ∧ (s.bank b).holder = some (.pos p)
  refilled : ∀ b c, (s.bank b).holder = some (.comp c) → (s.bank b).state = .refilling ∧ (s.comp c).bank = some b

/-- The laws but for what is still to be told. -/
structure Sound (x : Untold) (s : State) : Prop where
  comps : SoundComps x s
  fills : SoundFills x s
  order : SoundOrder s
  banks : SoundBanks s

theorem Sound.of_laws (he : EsdLaw s) (hc : CompLaw s) (hw : WaitLaw s) (hg : GrantLaw s) (hh : HolderLaw s) :
    Sound .none s where
  comps := ⟨fun c hc' => ⟨hc.waiting c hc', by simp [Untold.none]⟩, by simp [Untold.none], List.nodup_nil, hw, hc.running,
    hc.resting, fun c h => .inl (hg.refills c h)⟩
  fills := by
    refine ⟨fun p h => (hg.fills p h).imp_right .inl, fun p h => ⟨.inl (hg.waiters p h), by simp [Untold.none]⟩,
      by simp [Untold.none], by simp [Untold.none], fun p h => ?_⟩
    obtain ⟨w, hw, rfl⟩ := h
    refine ⟨he.drawers w hw, fun cools => ?_⟩
    obtain ⟨hold, reason⟩ := hg.waiters w.pos cools
    obtain ⟨-, kind⟩ := hh.drawers w hw
    cases hk : w.kind with
    | pulse =>
      rw [hk, hold] at kind
      exact absurd kind.1 (by decide)
    | ramp =>
      rw [hk, reason] at kind
      exact absurd kind.2 (by decide)
  order := ⟨hg.ordered, hg.once⟩
  banks := ⟨fun p b h => (hh.fills p b h).2, fun b c h => ⟨(hh.refills c b (hh.refilled b c h)).2.1, hh.refilled b c h⟩⟩

theorem Sound.compLaw (h : Sound .none s) : CompLaw s :=
  ⟨h.comps.running, h.comps.resting, fun c hc => (h.comps.waiting c hc).1⟩

theorem Sound.grantLaw (h : Sound .none s) : GrantLaw s := by
  refine ⟨h.order.ordered, h.order.once, fun p hp => ?_, fun c hc => (h.comps.refills c hc).resolve_right (by simp [Untold.none]),
    fun p hp => ((h.fills.cooling p hp).1).resolve_right (by simp [Untold.none])⟩
  rcases h.fills.granted p hp with e | e | e
  · exact .inl e
  · exact .inr e
  · cases e

/-! ### What leaves the laws -/

theorem SoundComps.same (h : SoundComps x s) (hc : t.comps = s.comps) (hk : t.cooling = s.cooling) : SoundComps x t := by
  have comp (c : CompId) : t.comp c = s.comp c := by rw [State.comp, hc]; rfl
  have grant (r : Requester) : t.grantOf r = s.grantOf r := by cases r <;> rw [State.grantOf, State.grantOf, hk]
  have waits (c : CompId) : CompWaits t c ↔ CompWaits s c := by rw [CompWaits, CompWaits, hk]
  refine ⟨?_, ?_, h.onceServed, by rw [WaitLaw, hk]; exact h.onceWaits, ?_, ?_, ?_⟩
  all_goals
    intro c
    rw [comp]
  · rw [waits]; exact h.waiting c
  · exact h.served c
  · exact h.running c
  · exact h.resting c
  · rw [grant]; exact h.refills c

/-- One compressor changes its state, its grant or its place in the lists. -/
theorem SoundComps.change (h : SoundComps x s) (c : CompId) (wait : WaitLaw t) (once : y.comps.Nodup)
    (others : ∀ n, n ≠ c → t.comp n = s.comp n ∧ ((t.grantOf (.comp n)).grant ≠ 0 → (s.grantOf (.comp n)).grant ≠ 0) ∧
      (CompWaits t n → CompWaits s n) ∧ (n ∈ y.comps ↔ n ∈ x.comps))
    (waiting : CompWaits t c → (t.comp c).state = .coolingWait ∧ c ∉ y.comps)
    (served : c ∈ y.comps → (t.comp c).state = .coolingWait)
    (running : (t.comp c).state = .running → (t.comp c).bank.isSome = true ∧ (t.comp c).entryHeld.isSome = true)
    (resting : (t.comp c).state ≠ .running → (t.comp c).bank = .none ∧ (t.comp c).entryHeld = .none)
    (refills : (t.grantOf (.comp c)).grant ≠ 0 → (t.comp c).state = .running ∨ c ∈ y.comps) : SoundComps y t := by
  refine ⟨fun n hn => ?_, fun n hn => ?_, once, wait, fun n => ?_, fun n => ?_, fun n hn => ?_⟩
  all_goals
    by_cases e : n = c
    · subst e
      solve_by_elim
    obtain ⟨same, grants, waits, told⟩ := others n e
    rw [same]
  · rw [told]; exact h.waiting n (waits hn)
  · exact h.served n (told.1 hn)
  · exact h.running n
  · exact h.resting n
  · rw [told]; exact h.refills n (grants hn)

theorem SoundOrder.same (h : SoundOrder s) (hk : t.cooling = s.cooling) : SoundOrder t := by
  have grant (r : Requester) : t.grantOf r = s.grantOf r := by cases r <;> rw [State.grantOf, State.grantOf, hk]
  exact ⟨fun r => by rw [hk, grant]; exact h.ordered r, by rw [hk]; exact h.once⟩

/-- Order and grants as they are. -/
theorem SoundOrder.still (h : SoundOrder s) (ho : t.cooling.order = s.cooling.order)
    (hg : ∀ r, (t.grantOf r).grant = (s.grantOf r).grant) : SoundOrder t :=
  ⟨fun r => by rw [ho, hg]; exact h.ordered r, by rw [ho]; exact h.once⟩

/-- Positions stand; fewer hold grants or wait. -/
theorem SoundFills.fewer (h : SoundFills x s)
    (pos : ∀ q, (t.pos q).state = (s.pos q).state ∧ (t.pos q).holdReason = (s.pos q).holdReason)
    (granted : ∀ q, (t.grantOf (.pos q)).grant ≠ 0 →
      (s.grantOf (.pos q)).grant ≠ 0 ∨ (s.pos q).state = .ramp ∨ (s.pos q).state = .hold ∨ x.ending = some q)
    (cools : ∀ q, Cools t q → Cools s q) (draws : ∀ q, Draws t q → Draws s q) (lost : t.evt.plantLost = s.evt.plantLost) :
    SoundFills x t := by
  refine ⟨fun q hq => ?_, fun q hq => ?_, fun q hq => ?_, fun q hq => ?_, fun q hq => ?_⟩
  · rw [(pos q).1]
    rcases granted q hq with g | flows
    · exact h.granted q g
    · exact flows
  · rw [(pos q).1, (pos q).2]
    exact h.cooling q (cools q hq)
  · rw [(pos q).1]
    exact h.served q hq
  · rw [(pos q).1, lost]
    exact (h.shed q hq).imp_right fun k => ⟨k.1, k.2 ∘ draws q⟩
  · rw [(pos q).1, lost]
    exact ⟨(h.drawing q (draws q hq)).1, (h.drawing q (draws q hq)).2 ∘ cools q⟩

/-- One position changes its state, or none. -/
theorem SoundFills.change (h : SoundFills x s) (p : PosId)
    (others : ∀ q, q ≠ p → (t.pos q).state = (s.pos q).state ∧ (t.pos q).holdReason = (s.pos q).holdReason)
    (hk : t.cooling = s.cooling) (lost : t.evt.plantLost = s.evt.plantLost)
    (granted : (s.grantOf (.pos p)).grant ≠ 0 → (t.pos p).state = .ramp ∨ (t.pos p).state = .hold ∨ x.ending = some p)
    (served : p ∈ x.fills → (t.pos p).state = .ramp ∨ (t.pos p).state = .hold)
    (shed : p ∈ x.shed → (t.pos p).state = .hold ∨ (t.pos p).state = .ramp ∧ (Draws t p → s.evt.plantLost = true))
    (cools : Cools s p → (t.pos p).state = .hold ∧ (t.pos p).holdReason = some .cooling ∨ p ∈ x.shed ∨ x.ending = some p)
    (draws : ∀ q, Draws t q → q = p ∨ Draws s q)
    (own : Draws t p → endable (t.pos p).state = true ∧ (Cools s p → p ∈ x.shed ∨ s.evt.plantLost = true)) :
    SoundFills x t := by
  have grant (r : Requester) : t.grantOf r = s.grantOf r := by cases r <;> rw [State.grantOf, State.grantOf, hk]
  have waits (q : PosId) : Cools t q ↔ Cools s q := by rw [Cools, Cools, hk]
  refine ⟨fun q hq => ?_, fun q hq => ?_, fun q hq => ?_, fun q hq => ?_, fun q hq => ?_⟩
  · rw [grant] at hq
    by_cases e : q = p
    · subst e
      exact granted hq
    · rw [(others q e).1]
      exact h.granted q hq
  · rw [waits] at hq
    obtain ⟨holds, untold⟩ := h.cooling q hq
    by_cases e : q = p
    · subst e
      exact ⟨cools hq, untold⟩
    · rw [(others q e).1, (others q e).2]
      exact ⟨holds, untold⟩
  · by_cases e : q = p
    · subst e
      exact served hq
    · rw [(others q e).1]
      exact h.served q hq
  · rw [lost]
    by_cases e : q = p
    · subst e
      exact shed hq
    · rw [(others q e).1]
      exact (h.shed q hq).imp_right fun k => ⟨k.1, fun d => k.2 ((draws q d).resolve_left e)⟩
  · rw [waits, lost]
    by_cases e : q = p
    · subst e
      exact own hq
    · rw [(others q e).1]
      exact h.drawing q ((draws q hq).resolve_left e)

/-- One bank changes. -/
theorem SoundBanks.change (h : SoundBanks s) (b : BankId)
    (others : ∀ a, a ≠ b → (t.bank a).state = (s.bank a).state ∧ (t.bank a).holder = (s.bank a).holder)
    (pos : ∀ q a, a ≠ b → (t.pos q).bank = some a → (s.pos q).bank = some a)
    (comp : ∀ c a, a ≠ b → (s.comp c).bank = some a → (s.bank a).holder = some (.comp c) → (t.comp c).bank = some a)
    (fills : ∀ q, (t.pos q).bank = some b → (t.bank b).state = .drawing ∧ (t.bank b).holder = some (.pos q))
    (refilled : ∀ c, (t.bank b).holder = some (.comp c) → (t.bank b).state = .refilling ∧ (t.comp c).bank = some b) :
    SoundBanks t := by
  refine ⟨fun q a hq => ?_, fun a c hc => ?_⟩
  · by_cases e : a = b
    · subst e
      exact fills q hq
    · rw [(others a e).1, (others a e).2]
      exact h.fills q a (pos q a e hq)
  · by_cases e : a = b
    · subst e
      exact refilled c hc
    · rw [(others a e).2] at hc
      obtain ⟨refilling, held⟩ := h.refilled a c hc
      rw [(others a e).1]
      exact ⟨refilling, comp c a e held hc⟩

/-- States, reasons and banks of positions, compressors, states and holders of banks, both wait lists and the grant
table stand. -/
structure Unmoved (s t : State) : Prop where
  pos : ∀ p, (t.pos p).state = (s.pos p).state ∧ (t.pos p).holdReason = (s.pos p).holdReason ∧
    (t.pos p).bank = (s.pos p).bank
  comps : ∀ c, (t.comp c).state = (s.comp c).state ∧ (t.comp c).bank = (s.comp c).bank ∧
    (t.comp c).entryHeld = (s.comp c).entryHeld
  bank : ∀ b, (t.bank b).state = (s.bank b).state ∧ (t.bank b).holder = (s.bank b).holder
  draws : ∀ p, Draws t p → Draws s p
  wait : t.cooling.wait = s.cooling.wait
  order : t.cooling.order = s.cooling.order
  grant : ∀ r, (t.grantOf r).grant = (s.grantOf r).grant
  lost : t.evt.plantLost = s.evt.plantLost
  asks : ∀ r, (t.grantOf r).demand = (s.grantOf r).demand ∧ (t.grantOf r).floor = (s.grantOf r).floor
  capacity : t.cooling.capacity = s.cooling.capacity
  cls : ∀ p, (t.pos p).cls = (s.pos p).cls
  configured : ∀ c, (t.comp c).configured = (s.comp c).configured

theorem Unmoved.trans (h : Unmoved s t) (k : Unmoved t u) : Unmoved s u where
  pos p := ⟨(k.pos p).1.trans (h.pos p).1, (k.pos p).2.1.trans (h.pos p).2.1, (k.pos p).2.2.trans (h.pos p).2.2⟩
  comps c := ⟨(k.comps c).1.trans (h.comps c).1, (k.comps c).2.1.trans (h.comps c).2.1, (k.comps c).2.2.trans (h.comps c).2.2⟩
  bank b := ⟨(k.bank b).1.trans (h.bank b).1, (k.bank b).2.trans (h.bank b).2⟩
  draws p := h.draws p ∘ k.draws p
  wait := k.wait.trans h.wait
  order := k.order.trans h.order
  grant r := (k.grant r).trans (h.grant r)
  lost := k.lost.trans h.lost
  asks r := ⟨(k.asks r).1.trans (h.asks r).1, (k.asks r).2.trans (h.asks r).2⟩
  capacity := k.capacity.trans h.capacity
  cls p := (k.cls p).trans (h.cls p)
  configured c := (k.configured c).trans (h.configured c)

theorem Unmoved.waits (h : Unmoved s t) (c : CompId) : CompWaits t c ↔ CompWaits s c := by rw [CompWaits, CompWaits, h.wait]

theorem Unmoved.cools (h : Unmoved s t) (p : PosId) : Cools t p ↔ Cools s p := by rw [Cools, Cools, h.wait]

theorem Sound.unmoved (h : Sound x s) (k : Unmoved s t) : Sound x t where
  comps := by
    refine ⟨fun c => ?_, fun c => ?_, h.comps.onceServed, by rw [WaitLaw, k.wait]; exact h.comps.onceWaits, fun c => ?_,
      fun c => ?_, fun c => ?_⟩
    · rw [k.waits, (k.comps c).1]; exact h.comps.waiting c
    · rw [(k.comps c).1]; exact h.comps.served c
    · rw [(k.comps c).1, (k.comps c).2.1, (k.comps c).2.2]; exact h.comps.running c
    · rw [(k.comps c).1, (k.comps c).2.1, (k.comps c).2.2]; exact h.comps.resting c
    · rw [(k.comps c).1, k.grant]; exact h.comps.refills c
  fills := h.fills.fewer (fun q => ⟨(k.pos q).1, (k.pos q).2.1⟩) (fun q hq => .inl (by rwa [k.grant] at hq))
    (fun q => (k.cools q).1) k.draws k.lost
  order := h.order.still k.order k.grant
  banks := by
    refine ⟨fun p b => ?_, fun b c => ?_⟩
    · rw [(k.pos p).2.2, (k.bank b).1, (k.bank b).2]
      exact h.banks.fills p b
    · rw [(k.comps c).2.1, (k.bank b).1, (k.bank b).2]
      exact h.banks.refilled b c

theorem unmoved_of (hp : t.positions = s.positions) (hc : t.comps = s.comps) (hb : t.banks = s.banks)
    (hd : t.drawList = s.drawList) (hk : t.cooling = s.cooling) (hl : t.evt.plantLost = s.evt.plantLost) : Unmoved s t where
  pos p := by rw [State.pos, hp]; exact ⟨rfl, rfl, rfl⟩
  comps c := by rw [State.comp, hc]; exact ⟨rfl, rfl, rfl⟩
  bank b := by rw [State.bank, hb]; exact ⟨rfl, rfl⟩
  draws p := by rw [Draws, hd]; exact id
  wait := by rw [hk]
  order := by rw [hk]
  grant r := by cases r <;> rw [State.grantOf, State.grantOf, hk]
  lost := hl
  asks r := by cases r <;> rw [State.grantOf, State.grantOf, hk] <;> exact ⟨rfl, rfl⟩
  capacity := by rw [hk]
  cls p := by rw [State.pos, hp]; rfl
  configured c := by rw [State.comp, hc]; rfl

section
variable (s : State)

theorem Unmoved.refl : Unmoved s s := unmoved_of rfl rfl rfl rfl rfl rfl

theorem Sends.unmoved {s t : State} (h : Sends s t) : Unmoved s t := by
  rw [h.rest]
  exact unmoved_of rfl rfl rfl rfl rfl rfl

theorem unmoved_budgetChanged (k : CoolingCause) : Unmoved s (budgetChanged k s) := unmoved_of rfl rfl rfl rfl rfl rfl

theorem unmoved_postDirective (m : PortId) (d : Directive) : Unmoved s (postDirective m d s) :=
  unmoved_of rfl rfl rfl rfl rfl rfl

theorem unmoved_sendValve (p : PosId) : Unmoved s (sendValve p s) := unmoved_of rfl rfl rfl rfl rfl rfl

theorem unmoved_modChan (p : PosId) (f : Channel → Channel) : Unmoved s (s.modChan p f) := unmoved_of rfl rfl rfl rfl rfl rfl

theorem unmoved_modLane (l : LaneId) (f : Lane → Lane) : Unmoved s (s.modLane l f) := unmoved_of rfl rfl rfl rfl rfl rfl

theorem unmoved_queue (l : List QueueEntry) : Unmoved s { s with queue := l } := unmoved_of rfl rfl rfl rfl rfl rfl

theorem unmoved_modRecord (p : PosId) (f : TxnRecord → TxnRecord) : Unmoved s (modRecord p f s) := by
  obtain ⟨w, e⟩ := modRecord_eq p f s
  rw [e]
  exact unmoved_of rfl rfl rfl rfl rfl rfl

theorem unmoved_undraw (ok : DrawWait → Bool) : Unmoved s { s with drawList := s.drawList.filter ok } where
  pos _ := ⟨rfl, rfl, rfl⟩
  comps _ := ⟨rfl, rfl, rfl⟩
  bank _ := ⟨rfl, rfl⟩
  draws _ := fun ⟨w, hw, e⟩ => ⟨w, (List.mem_filter.1 hw).1, e⟩
  wait := rfl
  order := rfl
  grant _ := rfl
  lost := rfl
  asks _ := ⟨rfl, rfl⟩
  capacity := rfl
  cls _ := rfl
  configured _ := rfl

theorem unmoved_flushWaitNotice (c : CompId) : Unmoved s (flushWaitNotice c s) := by
  obtain ⟨x, v, e, hv⟩ := flushWaitNotice_eq c s
  rw [e]
  refine unmoved_of rfl rfl rfl rfl rfl ?_
  rcases hv with rfl | rfl <;> rfl

theorem unmoved_fillState (p : PosId) : Unmoved s (fillState p s) := by
  obtain ⟨x, w, g, e, -⟩ := fillState_eq p s
  rw [e]
  exact unmoved_of rfl rfl rfl rfl rfl rfl

theorem unmoved_modPos (p : PosId) (f : Position → Position)
    (hf : ∀ x, (f x).state = x.state ∧ (f x).holdReason = x.holdReason ∧ (f x).bank = x.bank)
    (hc : ∀ x, (f x).cls = x.cls := by exact fun _ => rfl) : Unmoved s (s.modPos p f) where
  pos q := by
    by_cases e : q = p
    · subst e
      rw [State.modPos_pos]
      exact hf _
    · rw [State.modPos_pos_ne _ _ _ _ e]
      exact ⟨rfl, rfl, rfl⟩
  comps _ := ⟨rfl, rfl, rfl⟩
  bank _ := ⟨rfl, rfl⟩
  draws _ := id
  wait := rfl
  order := rfl
  grant _ := rfl
  lost := rfl
  asks _ := ⟨rfl, rfl⟩
  capacity := rfl
  cls q := by
    by_cases e : q = p
    · subst e
      rw [State.modPos_pos]
      exact hc _
    · rw [State.modPos_pos_ne _ _ _ _ e]
  configured _ := rfl

theorem unmoved_modBank (b : BankId) (f : Bank → Bank) (hf : ∀ x, (f x).state = x.state ∧ (f x).holder = x.holder) :
    Unmoved s (s.modBank b f) where
  pos _ := ⟨rfl, rfl, rfl⟩
  comps _ := ⟨rfl, rfl, rfl⟩
  bank a := by
    by_cases e : a = b
    · subst e
      rw [State.modBank_bank]
      exact hf _
    · rw [State.modBank_bank_ne _ _ _ _ e]
      exact ⟨rfl, rfl⟩
  draws _ := id
  wait := rfl
  order := rfl
  grant _ := rfl
  lost := rfl
  asks _ := ⟨rfl, rfl⟩
  capacity := rfl
  cls _ := rfl
  configured _ := rfl

end

theorem unmoved_ite (h : Prop) [Decidable h] (ht : Unmoved s t) (hu : Unmoved s u) : Unmoved s (if h then t else u) := by
  split
  · exact ht
  · exact hu

end Sys2Proof.Machine
end

section
/-! SUPPORT. What grants, the cooling wait list, bank grants and holds keep of the laws of requesters and holders (R69, R70,
R110, R111, R113). -/

namespace Sys2Proof.Machine

variable {p q : PosId} {b : BankId} {c n : CompId} {s t u : State} {x y : Untold} {r : Requester}

/-! ### Grants and the wait list -/

theorem setGrant_order_eq (r : Requester) (g : Nat) (s : State) : (setGrant r g s).cooling.order =
    if g = 0 then s.cooling.order.filter (fun q => q != r)
    else if (s.grantOf r).grant = 0 then s.cooling.order.filter (fun q => q != r) ++ [r]
    else s.cooling.order := by
  have same : (setGrant r g s).cooling.order = if (g == 0) = true then s.cooling.order.filter (fun q => q != r)
      else if ((s.grantOf r).grant == 0 && g != 0) = true then s.cooling.order.filter (fun q => q != r) ++ [r]
      else s.cooling.order := by cases r <;> rfl
  rw [same]
  by_cases h : g = 0
  · simp [h]
  · simp [h]

theorem SoundOrder.setGrant (h : SoundOrder s) (r : Requester) (g : Nat) : SoundOrder (setGrant r g s) := by
  have kept (q : Requester) : q ∈ s.cooling.order.filter (fun q => q != r) ↔ q ≠ r ∧ (s.grantOf q).grant ≠ 0 := by
    rw [List.mem_filter, h.ordered]
    simp [and_comm]
  refine ⟨fun q => ?_, ?_⟩
  · rw [setGrant_grantOf, setGrant_order_eq]
    split
    next hg =>
      rw [kept]
      split
      next e => simp [e, hg]
      next e => simp [e]
    next hg =>
      split
      · rw [List.mem_append, kept, List.mem_singleton]
        split
        next e => simp [e, hg]
        next e => simp [e]
      next hr =>
        rw [h.ordered]
        split
        next e =>
          subst e
          simp [hr, hg]
        · rfl
  · rw [setGrant_order_eq]
    have once := h.once.filter (fun q => q != r)
    split
    · exact once
    · split
      · refine List.nodup_append.2 ⟨once, List.nodup_singleton r, fun a ha b hb => ?_⟩
        rw [List.mem_singleton.1 hb]
        exact ((kept a).1 ha).1
      · exact h.once

/-- A requester may hold a grant. -/
def MayHold (x : Untold) (s : State) : Requester → Prop
  | .pos p => (s.pos p).state = .ramp ∨ (s.pos p).state = .hold ∨ x.ending = some p
  | .comp c => (s.comp c).state = .running ∨ c ∈ x.comps

theorem setGrant_lists (r : Requester) (g : Nat) (s : State) : (setGrant r g s).positions = s.positions ∧
    (setGrant r g s).comps = s.comps ∧ (setGrant r g s).banks = s.banks ∧ (setGrant r g s).drawList = s.drawList ∧
    (setGrant r g s).cooling.wait = s.cooling.wait ∧ (setGrant r g s).evt = s.evt := by
  cases r <;> exact ⟨rfl, rfl, rfl, rfl, rfl, rfl⟩

theorem SoundBanks.same (h : SoundBanks s) (hp : t.positions = s.positions) (hc : t.comps = s.comps) (hb : t.banks = s.banks) :
    SoundBanks t := by
  refine ⟨fun p b => ?_, fun b c => ?_⟩
  · rw [State.pos, hp, State.bank, hb]
    exact h.fills p b
  · rw [State.comp, hc, State.bank, hb]
    exact h.refilled b c

/-- The compressors where positions change grants and places at most. -/
theorem SoundComps.still (h : SoundComps x s) (hc : ∀ c, t.comp c = s.comp c)
    (hg : ∀ c, (t.grantOf (.comp c)).grant ≠ 0 → (s.grantOf (.comp c)).grant ≠ 0 ∨ MayHold x s (.comp c))
    (hw : ∀ c, CompWaits t c → CompWaits s c) (wait : WaitLaw t) : SoundComps x t := by
  refine ⟨fun c k => ?_, fun c k => ?_, h.onceServed, wait, fun c => ?_, fun c => ?_, fun c k => ?_⟩
  all_goals rw [hc]
  · exact h.waiting c (hw c k)
  · exact h.served c k
  · exact h.running c
  · exact h.resting c
  · exact (hg c k).elim (h.refills c) id

theorem sound_setGrant (h : Sound x s) {g : Nat} (ok : g ≠ 0 → (s.grantOf r).grant ≠ 0 ∨ MayHold x s r) : Sound x (setGrant r g s) := by
  obtain ⟨hp, hc, hb, hd, hw, he⟩ := setGrant_lists r g s
  have grants (q : Requester) (hq : ((setGrant r g s).grantOf q).grant ≠ 0) : (s.grantOf q).grant ≠ 0 ∨ MayHold x s q := by
    rw [setGrant_grantOf] at hq
    split at hq
    next e => exact e ▸ ok hq
    · exact .inl hq
  refine ⟨h.comps.still (fun c => by rw [State.comp, hc]; rfl) (fun c => grants (.comp c)) (fun c => by rw [CompWaits, hw]; exact id)
    (by rw [WaitLaw, hw]; exact h.comps.onceWaits), h.fills.fewer (fun q => by rw [State.pos, hp]; exact ⟨rfl, rfl⟩)
    (fun q hq => grants (.pos q) hq) (fun q => by rw [Cools, hw]; exact id) (fun q => by rw [Draws, hd]; exact id) (by rw [he]),
    h.order.setGrant r g, h.banks.same hp hc hb⟩

theorem sound_setGrant_zero (h : Sound x s) (r : Requester) : Sound x (setGrant r 0 s) := sound_setGrant h fun k => absurd rfl k

theorem WaitLaw.dropWait (h : WaitLaw s) (r : Requester) : WaitLaw (dropWait r s) := by
  refine List.Nodup.sublist (List.Sublist.map _ ?_) h
  exact List.Sublist.filter _ List.filter_sublist

theorem sound_dropWait (h : Sound x s) (r : Requester) : Sound x (dropWait r s) where
  comps := h.comps.still (fun _ => rfl) (fun _ k => .inl k) (fun _ ⟨w, hw, who⟩ => ⟨w, (List.mem_filter.1 hw).1, who⟩)
    (h.comps.onceWaits.dropWait r)
  fills := h.fills.fewer (fun _ => ⟨rfl, rfl⟩) (fun _ k => .inl k) (fun _ ⟨w, hw, who⟩ => ⟨w, (List.mem_filter.1 hw).1, who⟩)
    (fun _ => id) rfl
  order := h.order.still rfl fun r => by cases r <;> rfl
  banks := h.banks.same rfl rfl rfl

theorem Unmoved.dropWait (h : Unmoved s t) (r : Requester) : Unmoved (dropWait r s) (dropWait r t) where
  pos := h.pos
  comps := h.comps
  bank := h.bank
  draws := h.draws
  wait := congrArg (List.filter (fun w : CoolWait => w.who != r)) h.wait
  order := h.order
  grant q := by
    have same := h.grant q
    cases q <;> exact same
  lost := h.lost
  asks q := by
    have same := h.asks q
    cases q <;> exact same
  capacity := h.capacity
  cls := h.cls
  configured := h.configured

/-! ### Banks to fills -/

/-- A position to which a bank may be granted: a fill under way, not in the cooling wait list but for shedding. -/
def Grantable (x : Untold) (s : State) (p : PosId) : Prop :=
  endable (s.pos p).state = true ∧ (Cools s p → p ∈ x.shed ∨ x.ending = some p)

theorem sound_grantBank (h : Sound x s) (hb : (s.bank b).state = .idle) (hp : Grantable x s p) : Sound x (grantBank p b s) := by
  obtain ⟨others, banks, rest⟩ := grantBank_apart p b s
  obtain ⟨state, own, gone⟩ := grantBank_own p b s
  have cooling : (grantBank p b s).cooling = s.cooling := by rw [rest]
  have comps : (grantBank p b s).comps = s.comps := by rw [rest]
  have comp (c : CompId) : (grantBank p b s).comp c = s.comp c := by rw [State.comp, comps]; rfl
  have drawn := grantBank_drawing p b s
  have flows (k : (s.pos p).state = .ramp ∨ (s.pos p).state = .hold) : ((grantBank p b s).pos p).state = .ramp := by
    rcases state with ⟨pulse, -⟩ | ⟨-, ramp⟩
    · rw [pulse] at k
      rcases k with e | e <;> cases e
    · exact ramp
  refine ⟨h.comps.same comps cooling, ?_, h.order.same cooling, ?_⟩
  · refine h.fills.change p (fun q hq => by rw [(others q hq).1]; exact ⟨rfl, rfl⟩) cooling (by rw [rest]) (fun k => ?_)
      (fun k => .inl (flows (h.fills.served p k)))
      (fun k => .inr ⟨flows ((h.fills.shed p k).symm.imp_left And.left), fun d => absurd d gone⟩)
      (fun k => .inr (hp.2 k)) (fun q ⟨w, hw, e⟩ => ?_) (fun e => absurd e gone)
    · rcases h.fills.granted p k with e | e | e
      · exact .inl (flows (.inl e))
      · exact .inl (flows (.inr e))
      · exact .inr (.inr e)
    · rw [grantBank_drawList] at hw
      obtain ⟨-, v, hv, e', -⟩ := taking_waiter hw
      exact .inr ⟨v, hv, e'.trans e⟩
  · refine h.banks.change b (fun a ha => by rw [banks a ha]; exact ⟨rfl, rfl⟩) (fun q a ha hq => ?_)
      (fun c a _ hc _ => by rw [comp]; exact hc) (fun q hq => ?_) (fun c hc => ?_)
    · by_cases e : q = p
      · subst e
        exact absurd (Option.some.inj (own.symm.trans hq)).symm ha
      · rwa [(others q e).1] at hq
    · rw [drawn]
      by_cases e : q = p
      · subst e
        exact ⟨rfl, rfl⟩
      · rw [(others q e).1] at hq
        have held := (h.banks.fills q b hq).1
        rw [hb] at held
        cases held
    · rw [drawn] at hc
      cases hc

/-- A position joins the draw wait list. -/
theorem sound_joins (h : Sound x s) (he : endable (s.pos p).state = true) (hc : ¬ Cools s p)
    (hs : p ∈ x.shed → (s.pos p).state = .hold) (w : DrawWait) (hw : w.pos = p) :
    Sound x { s with drawList := s.drawList.filter (fun w => w.pos != p) ++ [w] } where
  comps := h.comps.same rfl rfl
  fills := by
    refine h.fills.change p (fun q _ => ⟨rfl, rfl⟩) rfl rfl (h.fills.granted p) (h.fills.served p) (fun k => .inl (hs k))
      (fun k => absurd k hc) (fun q ⟨v, hv, e⟩ => ?_) (fun _ => ⟨he, fun k => absurd k hc⟩)
    rcases List.mem_append.1 hv with hv | hv
    · exact .inr ⟨v, (List.mem_filter.1 hv).1, e⟩
    · rw [List.mem_singleton.1 hv, hw] at e
      exact .inl e.symm
  order := h.order.same rfl
  banks := h.banks.same rfl rfl rfl

/-- A bank is asked for by a fill under way that does not wait for cooling. -/
theorem sound_drawRequest (h : Sound x s) (he : endable (s.pos p).state = true) (hc : ¬ Cools s p)
    (hs : p ∈ x.shed → (s.pos p).state = .hold) (k : DrawKind) (e : Option BankId) : Sound x (drawRequest p k e s) := by
  unfold drawRequest
  cases hb : bestBank s p k e with
  | some b => exact sound_grantBank h (eligible_idle (bestBank_eligible hb)).1 ⟨he, fun k => absurd k hc⟩
  | none => exact sound_joins h he hc hs _ rfl

/-- The bank offered is in nobody's link loss. -/
theorem eligible_linked {k : DrawKind} {e : Option BankId} (h : eligible s p k e b = true) : s.evt.plantLost = false := by
  unfold eligible at h
  dsimp only at h
  split at h
  · simp only [Bool.and_eq_true, Bool.not_eq_true'] at h
    exact h.1.1.2
  · cases h

end Sys2Proof.Machine
end

section
/-! SUPPORT. What offers, holds, refill assignments and banks that come to IDLE keep of the laws of requesters and holders
(R71, R73, R80, R84, R85, R113). -/

namespace Sys2Proof.Machine

variable {p q : PosId} {b : BankId} {c n : CompId} {s t u : State} {x y : Untold} {e : QueueEntry}

/-! ### Offers and holds -/

theorem sound_offered (h : Sound x s) (b : BankId) : Sound x (offered s b) := by
  unfold offered
  split
  next idle =>
    unfold offerBank
    split
    next w found =>
      have eligible := List.find?_some found
      have linked := eligible_linked eligible
      obtain ⟨under, cools⟩ := h.fills.drawing w.pos ⟨w, List.mem_of_find?_eq_some found, rfl⟩
      refine sound_grantBank h (eq_of_beq idle) ⟨under, fun k => .inl ((cools k).resolve_right ?_)⟩
      rw [linked]
      exact Bool.false_ne_true
    · exact h
  · exact h

theorem sound_offerPass (h : Sound x s) (l : List BankId) : Sound x (offerPass l s) := by
  cases hl : s.esd.latched with
  | true => rwa [offerPass_latched l hl]
  | false =>
    rw [offerPass_offered l hl]
    exact foldl_keep (fun u b _ hu => sound_offered hu b) h

theorem enterHold_rest (p : PosId) (reason : HoldReason) (s : State) :
    (∀ q, q ≠ p → (enterHold p reason s).pos q = s.pos q) ∧ (enterHold p reason s).cooling = s.cooling ∧
    (enterHold p reason s).comps = s.comps ∧ (enterHold p reason s).banks = s.banks ∧
    (enterHold p reason s).drawList = s.drawList ∧ (enterHold p reason s).evt = s.evt := by
  obtain ⟨y, w, g, e⟩ := enterHold_eq p reason s
  rw [e]
  exact ⟨fun q hq => State.setPos_pos_ne _ _ _ _ hq, rfl, rfl, rfl, rfl, rfl⟩

/-- A hold begins, or takes another reason. -/
theorem sound_enterHold (h : Sound x s) (reason : HoldReason)
    (hc : Cools s p → reason = .cooling ∨ p ∈ x.shed ∨ x.ending = some p) : Sound x (enterHold p reason s) := by
  have own : ((enterHold p reason s).pos p) = (s.pos p).heldFor reason := enterHold_pos p reason s
  obtain ⟨others, cooling, comps, banks, list, evt⟩ := enterHold_rest p reason s
  have draws (q : PosId) : Draws (enterHold p reason s) q ↔ Draws s q := by rw [Draws, list]; rfl
  refine ⟨h.comps.same comps cooling, ?_, h.order.same cooling, ?_⟩
  · refine h.fills.change p (fun q hq => by rw [others q hq]; exact ⟨rfl, rfl⟩) cooling (by rw [evt])
      (fun _ => .inr (.inl (by rw [own]; rfl))) (fun _ => .inr (by rw [own]; rfl)) (fun _ => .inl (by rw [own]; rfl))
      (fun e => ?_) (fun q hq => .inr ((draws q).1 hq)) (fun hd => ?_)
    · rw [own]
      exact (hc e).imp_left fun r => ⟨rfl, congrArg some r⟩
    · rw [own]
      exact ⟨rfl, (h.fills.drawing p ((draws p).1 hd)).2⟩
  · have comp (c : CompId) : (enterHold p reason s).comp c = s.comp c := by rw [State.comp, comps]; rfl
    have bank (a : BankId) : (enterHold p reason s).bank a = s.bank a := by rw [State.bank, banks]; rfl
    refine ⟨fun q a hq => ?_, fun a c => ?_⟩
    · rw [bank]
      refine h.banks.fills q a ?_
      by_cases e : q = p
      · subst e
        rw [own] at hq
        exact hq
      · rwa [← others q e]
    · rw [comp, bank]
      exact h.banks.refilled a c

theorem drawRequest_cools (p : PosId) (k : DrawKind) (b : Option BankId) (s : State) : (drawRequest p k b s).cooling = s.cooling := by
  unfold drawRequest
  split
  · rw [(grantBank_apart p _ s).2.2]
  · rfl

/-- The checks of a fill that does not wait for cooling, nor is to be held. -/
theorem sound_checksCD (h : Sound x s) (he : endable (s.pos p).state = true) (hc : ¬ Cools s p)
    (hs : p ∈ x.shed → (s.pos p).state = .hold) : Sound x (checksCD p s) := by
  have asked := sound_drawRequest h he hc hs .ramp none
  have cools : ¬ Cools (drawRequest p .ramp none s) p := by rwa [Cools, drawRequest_cools]
  unfold checksCD
  dsimp only
  split
  · exact sound_enterHold h .laneWarm fun k => absurd k hc
  · split
    · exact asked
    · exact sound_enterHold asked .bank fun k => absurd k cools

/-! ### Compressors served and assigned -/

theorem SoundComps.moved (h : SoundComps y s) (hc : (s.comp c).state ≠ .running) (out : ¬ CompWaits s c)
    (once : x.comps.Nodup) (served : c ∉ x.comps) (told : ∀ n, n ≠ c → (n ∈ x.comps ↔ n ∈ y.comps))
    (wait : t.cooling.wait = s.cooling.wait)
    (others : ∀ n, n ≠ c → t.comp n = s.comp n ∧ ((t.grantOf (.comp n)).grant ≠ 0 → (s.grantOf (.comp n)).grant ≠ 0))
    (own : (t.comp c).state = .running ∧ (t.comp c).bank.isSome = true ∧ (t.comp c).entryHeld.isSome = true ∨
      (t.comp c).state ≠ .running ∧ (t.comp c).bank = (s.comp c).bank ∧ (t.comp c).entryHeld = (s.comp c).entryHeld ∧
        (t.grantOf (.comp c)).grant = 0) : SoundComps x t := by
  have waits (n : CompId) : CompWaits t n ↔ CompWaits s n := by rw [CompWaits, CompWaits, wait]
  refine h.change c (by rw [WaitLaw, wait]; exact h.onceWaits) once
    (fun n hn => ⟨(others n hn).1, (others n hn).2, (waits n).1, told n hn⟩) (fun k => absurd ((waits c).1 k) out)
    (fun k => absurd k served) (fun k => ?_) (fun k => ?_) (fun k => ?_)
  · rcases own with ⟨-, full⟩ | ⟨idle, -⟩
    · exact full
    · exact absurd k idle
  · rcases own with ⟨runs, -⟩ | ⟨-, bank, entry, -⟩
    · exact absurd runs k
    · rw [bank, entry]
      exact h.resting c hc
  · rcases own with ⟨runs, -⟩ | ⟨-, -, -, none⟩
    · exact .inl runs
    · exact absurd none k

/-- A compressor that runs on a bank it takes. -/
theorem sound_filling {l : List DrawWait} {ports : Vector Port 6} {v : Scratch} (hc : SoundComps x t)
    (ht : t = { (s.setBank e.bank ((s.bank e.bank).filledBy c)).setComp c ((s.comp c).filling e s.clock) with
      queue := s.queue.filter (fun q => q.bank != e.bank), drawList := l, ports := ports, evt := v })
    (hf : SoundFills x s) (ho : SoundOrder s) (hb : SoundBanks s) (idle : (s.bank e.bank).state = .idle)
    (rest : (s.comp c).bank = .none) (hl : ∀ w ∈ l, ∃ v ∈ s.drawList, v.pos = w.pos) (hv : v.plantLost = s.evt.plantLost) :
    Sound x t := by
  have own : t.bank e.bank = (s.bank e.bank).filledBy c := by
    rw [ht]
    exact s.setBank_bank e.bank _
  have others (a : BankId) (ha : a ≠ e.bank) : t.bank a = s.bank a := by
    rw [ht]
    exact State.setBank_bank_ne _ _ _ _ ha
  have comp (n : CompId) (hn : n ≠ c) : t.comp n = s.comp n := by
    rw [ht]
    exact State.setComp_comp_ne _ _ _ _ hn
  have filled : (t.comp c).bank = some e.bank := by
    rw [ht]
    exact congrArg Compressor.bank (State.setComp_comp (s.setBank e.bank _) c _)
  refine ⟨hc, ?_, ho.same (by rw [ht]; rfl), ?_⟩
  · refine hf.fewer (fun q => by rw [ht]; exact ⟨rfl, rfl⟩) (fun q hq => .inl (by rw [ht] at hq; exact hq))
      (fun q hq => by rw [ht] at hq; exact hq) (fun q ⟨w, hw, pos⟩ => ?_) (by rw [ht]; exact hv)
    rw [ht] at hw
    obtain ⟨v, hv, same⟩ := hl w hw
    exact ⟨v, hv, same.trans pos⟩
  · refine hb.change e.bank (fun a ha => by rw [others a ha]; exact ⟨rfl, rfl⟩) (fun q a _ hq => by rw [ht] at hq; exact hq)
      (fun m a _ hm _ => ?_) (fun q hq => ?_) (fun m hm => ?_)
    · by_cases k : m = c
      · subst k
        rw [rest] at hm
        cases hm
      · rwa [comp m k]
    · rw [ht] at hq
      have held := (hb.fills q e.bank hq).1
      rw [idle] at held
      cases held
    · rw [own] at hm ⊢
      obtain rfl : c = m := Holder.comp.inj (Option.some.inj hm)
      exact ⟨rfl, filled⟩

theorem sound_startRefill {cs : List CompId} {fs sh : List PosId} {g : Option PosId} (h : Sound ⟨fs, c :: cs, sh, g⟩ s) :
    Sound ⟨fs, cs, sh, g⟩ (startRefill c s).1 := by
  have waits := h.comps.served c List.mem_cons_self
  have idle : (s.comp c).state ≠ .running := by rw [waits]; decide
  have out : ¬ CompWaits s c := fun k => (h.comps.waiting c k).2 List.mem_cons_self
  obtain ⟨unserved, once⟩ := List.nodup_cons.1 h.comps.onceServed
  have told (n : CompId) (hn : n ≠ c) : n ∈ (⟨fs, cs, sh, g⟩ : Untold).comps ↔ n ∈ (⟨fs, c :: cs, sh, g⟩ : Untold).comps :=
    ⟨List.mem_cons_of_mem _, fun k => (List.mem_cons.1 k).resolve_left hn⟩
  have fills : SoundFills ⟨fs, cs, sh, g⟩ s := ⟨h.fills.granted, h.fills.cooling, h.fills.served, h.fills.shed, h.fills.drawing⟩
  cases hf : s.queue.find? (assignable s) with
  | some e =>
    obtain ⟨l, ports, eq, waiters⟩ := startRefill_takes (c := c) hf
    have first := congrArg Prod.fst eq
    generalize (startRefill c s).1 = t at first
    refine sound_filling ?_ first fills h.order h.banks (assignable_idle.1 (List.find?_some hf)) (h.comps.resting c idle).1
      (fun w hw => ?_) rfl
    · refine h.comps.moved idle out once unserved told (by rw [first]; rfl) (fun n hn => ?_) (.inl ?_)
      · rw [first]
        exact ⟨State.setComp_comp_ne _ _ _ _ hn, id⟩
      · rw [first]
        have own := State.setComp_comp (s.setBank e.bank ((s.bank e.bank).filledBy c)) c ((s.comp c).filling e s.clock)
        exact ⟨congrArg Compressor.state own, congrArg (fun x => x.bank.isSome) own, congrArg (fun x => x.entryHeld.isSome) own⟩
    · obtain ⟨v, hv, pos, -⟩ := waiters w hw
      exact ⟨v, hv, pos⟩
  | none =>
    obtain ⟨ports, v, eq, lost⟩ := startRefill_returns (c := c) hf
    have first := congrArg Prod.fst eq
    have given := sound_setGrant_zero h (.comp c)
    have comps : (setGrant (.comp c) 0 s).comps = s.comps := rfl
    have given0 : ((setGrant (.comp c) 0 s).grantOf (.comp c)).grant = 0 := by rw [setGrant_grantOf, if_pos rfl]
    have own : (setGrant (.comp c) 0 s).comp c = s.comp c := rfl
    have same : (setGrant (.comp c) 0 s).evt = s.evt := rfl
    have outside : ¬ CompWaits (setGrant (.comp c) 0 s) c := mt (setGrant_waits ..).1 out
    rw [← own] at first idle
    generalize setGrant (.comp c) 0 s = w at *
    have fills : SoundFills ⟨fs, cs, sh, g⟩ w :=
      ⟨given.fills.granted, given.fills.cooling, given.fills.served, given.fills.shed, given.fills.drawing⟩
    generalize (startRefill c s).1 = t at first
    have ready : t.comp c = { w.comp c with requestTime := none, state := .ready } := by
      rw [first]
      exact State.setComp_comp w c _
    have others (n : CompId) (hn : n ≠ c) : t.comp n = w.comp n := by
      rw [first]
      exact State.setComp_comp_ne _ _ _ _ hn
    refine ⟨given.comps.moved idle outside once unserved told (by rw [first]; rfl) (fun n hn => ⟨others n hn, ?_⟩) (.inr ?_), ?_,
      given.order.same (by rw [first]; rfl), ?_⟩
    · rw [first]
      exact id
    · rw [ready]
      refine ⟨CompState.noConfusion, rfl, rfl, ?_⟩
      rw [first]
      exact given0
    · exact fills.fewer (fun q => by rw [first]; exact ⟨rfl, rfl⟩) (fun q hq => .inl (by rw [first] at hq; exact hq))
        (fun q hq => by rw [first] at hq; exact hq) (fun q hq => by rw [first] at hq; exact hq) (by rw [first, same]; exact lost)
    · have bank (a : BankId) : t.bank a = w.bank a := by rw [first]; rfl
      refine ⟨fun q a hq => ?_, fun a m hm => ?_⟩
      · rw [bank]
        exact given.banks.fills q a (by rw [first] at hq; exact hq)
      · rw [bank] at hm ⊢
        obtain ⟨refilling, held⟩ := given.banks.refilled a m hm
        refine ⟨refilling, ?_⟩
        by_cases k : m = c
        · subst k
          rw [ready]
          exact held
        · rwa [others m k]

theorem sound_queueing (h : Sound x s) (hc : (s.comp c).state = .ready) : Sound x (s.queueing c) := by
  have out : ¬ CompWaits s c := fun k => by
    have waits := (h.comps.waiting c k).1
    rw [hc] at waits
    cases waits
  have unserved : c ∉ x.comps := fun k => by
    have waits := h.comps.served c k
    rw [hc] at waits
    cases waits
  have idle : (s.comp c).state ≠ .running := by rw [hc]; decide
  have own := queueing_comp s c
  have others (n : CompId) (hn : n ≠ c) : (s.queueing c).comp n = s.comp n := queueing_comp_ne s hn
  have waits (r : Requester) : (∃ w ∈ (s.queueing c).cooling.wait, w.who = r) ↔ (∃ w ∈ s.cooling.wait, w.who = r) ∨ r = .comp c := by
    constructor
    · rintro ⟨w, hw, who⟩
      rcases List.mem_append.1 hw with hw | hw
      · exact .inl ⟨w, hw, who⟩
      · rw [List.mem_singleton.1 hw] at who
        exact .inr who.symm
    · rintro (⟨w, hw, who⟩ | rfl)
      · exact ⟨w, List.mem_append_left _ hw, who⟩
      · exact ⟨⟨.comp c, s.clock⟩, List.mem_append_right _ (List.mem_singleton.2 rfl), rfl⟩
  have law : WaitLaw (s.queueing c) := by
    have list : (s.queueing c).cooling.wait = s.cooling.wait ++ [⟨.comp c, s.clock⟩] := rfl
    rw [WaitLaw, list, List.filter_append, List.map_append, List.nodup_append]
    refine ⟨h.comps.onceWaits, List.nodup_singleton _, fun a ha b hb => ?_⟩
    obtain ⟨w, hw, rfl⟩ := List.mem_map.1 ha
    obtain ⟨v, hv, rfl⟩ := List.mem_map.1 hb
    rw [List.mem_singleton.1 (List.mem_filter.1 hv).1]
    exact fun e => out ⟨w, (List.mem_filter.1 hw).1, e⟩
  have positions : (s.queueing c).positions = s.positions := rfl
  have grants (r : Requester) : ((s.queueing c).grantOf r).grant = (s.grantOf r).grant := by cases r <;> rfl
  have order : (s.queueing c).cooling.order = s.cooling.order := rfl
  have banks : (s.queueing c).banks = s.banks := rfl
  have list : (s.queueing c).drawList = s.drawList := rfl
  have lost : (s.queueing c).evt.plantLost = s.evt.plantLost := rfl
  generalize s.queueing c = t at *
  refine ⟨h.comps.change c law h.comps.onceServed (fun n hn => ⟨others n hn, by rw [grants]; exact id, fun k => ?_, Iff.rfl⟩)
      (fun _ => ⟨by rw [own], unserved⟩) (fun k => absurd k unserved) (fun k => ?_) (fun _ => ?_) (fun k => ?_),
    h.fills.fewer (fun q => by rw [State.pos, positions]; exact ⟨rfl, rfl⟩) (fun q hq => .inl (by rwa [grants] at hq))
      (fun q hq => ((waits (.pos q)).1 hq).resolve_right Requester.noConfusion) (fun q => by rw [Draws, list]; exact id) lost,
    h.order.still order grants, ?_⟩
  · exact ((waits (.comp n)).1 k).resolve_right fun e => hn (Requester.comp.inj e)
  · rw [own] at k
    cases k
  · rw [own]
    exact h.comps.resting c idle
  · rw [grants] at k
    exact absurd ((h.comps.refills c k).resolve_right unserved) idle
  · refine ⟨fun q a hq => ?_, fun a m hm => ?_⟩
    · rw [State.bank, banks]
      exact h.banks.fills q a (by rwa [State.pos, positions] at hq)
    · rw [State.bank, banks] at hm ⊢
      obtain ⟨refilling, held⟩ := h.banks.refilled a m hm
      refine ⟨refilling, ?_⟩
      by_cases k : m = c
      · subst k
        rw [own]
        exact held
      · rwa [others m k]

/-- A READY compressor asks while an entry can be assigned. -/
theorem sound_compressorAsks (h : Sound x s) (hc : (s.comp c).state = .ready) (hq : ∃ e ∈ s.queue, assignable s e = true) :
    Sound x (compressorAsks c s) := by
  cases fits : s.fits c with
  | false =>
    rw [compressorAsks_eq, fits]
    exact sound_queueing h hc
  | true =>
    obtain ⟨e, l, ports, hf, eq, waiters⟩ := compressorAsks_takes hq fits
    have idle : (s.comp c).state ≠ .running := by rw [hc]; decide
    have out : ¬ CompWaits s c := fun k => by
      have waits := (h.comps.waiting c k).1
      rw [hc] at waits
      cases waits
    have unserved : c ∉ x.comps := fun k => by
      have waits := h.comps.served c k
      rw [hc] at waits
      cases waits
    have order : SoundOrder (s.serving c) := (h.order.same (t := budgetChanged .served s) rfl).setGrant _ _
    have fills : SoundFills x (s.serving c) := h.fills.fewer (fun q => ⟨rfl, rfl⟩) (fun q hq => .inl hq) (fun q => id) (fun q => id) rfl
    have banks : SoundBanks (s.serving c) := h.banks.same rfl rfl rfl
    have comps (n : CompId) : (s.serving c).comp n = s.comp n := rfl
    have grants (n : CompId) (hn : n ≠ c) : ((s.serving c).grantOf (.comp n)).grant = (s.grantOf (.comp n)).grant :=
      congrArg GrantEntry.grant (setGrant_grantOf_ne (by simpa using hn) _ (budgetChanged .served s))
    have wait : (s.serving c).cooling.wait = s.cooling.wait := rfl
    generalize s.serving c = u at *
    generalize compressorAsks c s = t at eq
    refine sound_filling ?_ eq fills order banks (assignable_idle.1 (List.find?_some hf))
      (by rw [comps]; exact (h.comps.resting c idle).1) (fun w hw => ?_) rfl
    · refine h.comps.moved idle out h.comps.onceServed unserved (fun _ _ => Iff.rfl) (by rw [eq]; exact wait)
        (fun n hn => ⟨?_, ?_⟩) (.inl ?_)
      · rw [eq, ← comps]
        exact State.setComp_comp_ne _ _ _ _ hn
      · rw [eq, ← grants n hn]
        exact id
      · rw [eq]
        have own := State.setComp_comp (u.setBank e.bank ((u.bank e.bank).filledBy c)) c ((u.comp c).filling e u.clock)
        exact ⟨congrArg Compressor.state own, congrArg (fun x => x.bank.isSome) own, congrArg (fun x => x.entryHeld.isSome) own⟩
    · obtain ⟨v, hv, pos, -⟩ := waiters w hw
      exact ⟨v, hv, pos⟩

theorem sound_assignmentPass (h : Sound x s) : Sound x (assignmentPass s) := by
  cases hl : s.esd.latched with
  | true => rwa [assignmentPass_latched hl]
  | false =>
    rw [assignmentPass_unlatched hl]
    refine foldl_keep (fun u c _ hu => ?_) h
    unfold asksInTurn
    split
    next k =>
      obtain ⟨ready, backlog⟩ := Bool.and_eq_true_iff.1 k
      exact sound_compressorAsks hu (eq_of_beq ready) (backlog_assignable backlog)
    · exact hu

theorem sound_tellIdle (h : Sound x s) (b : BankId) : Sound x (tellIdle b s) := by
  unfold tellIdle
  split
  · exact sound_assignmentPass h
  · split
    · split
      · exact sound_assignmentPass (h.unmoved (unmoved_queue s _))
      · exact h
    · exact h

theorem sound_bankIdle (h : Sound x s) (b : BankId) : Sound x (bankIdle b s) := by
  have offered := sound_offerPass h [b]
  unfold bankIdle
  dsimp only
  split
  · exact sound_tellIdle offered b
  · exact offered

/-- A bank is left by its holder, what else moves is a position that held it. -/
structure Frees (b : BankId) (s t : State) : Prop where
  pos : ∀ q, (t.pos q).state = (s.pos q).state ∧ (t.pos q).holdReason = (s.pos q).holdReason
  banks : ∀ q a, (t.pos q).bank = some a → a ≠ b ∧ (s.pos q).bank = some a
  others : ∀ a, a ≠ b → t.bank a = s.bank a
  holder : (t.bank b).holder = none
  comps : t.comps = s.comps
  cooling : t.cooling = s.cooling
  draws : ∀ q, Draws t q → Draws s q
  lost : t.evt.plantLost = s.evt.plantLost

theorem Sound.frees (h : Sound x s) (k : Frees b s t) : Sound x t := by
  have grant (r : Requester) : t.grantOf r = s.grantOf r := by cases r <;> rw [State.grantOf, State.grantOf, k.cooling]
  refine ⟨h.comps.same k.comps k.cooling, h.fills.fewer k.pos (fun q hq => .inl (by rwa [grant] at hq))
    (fun q => by rw [Cools, k.cooling]; exact id) k.draws k.lost, h.order.same k.cooling,
    h.banks.change b (fun a ha => by rw [k.others a ha]; exact ⟨rfl, rfl⟩) (fun q a _ hq => (k.banks q a hq).2)
      (fun m a _ hm _ => by rw [State.comp, k.comps]; exact hm) (fun q hq => absurd rfl (k.banks q b hq).1) (fun m hm => ?_)⟩
  rw [k.holder] at hm
  cases hm

/-- What a bank that loses its holder leaves of the rest. -/
theorem moveBank_rest (b : BankId) (st : BankState) (s : State) :
    (moveBank b st none s).positions = s.positions ∧ (∀ a, a ≠ b → (moveBank b st none s).bank a = s.bank a) ∧
    (moveBank b st none s).comps = s.comps ∧ (moveBank b st none s).cooling = s.cooling ∧
    (∀ q, Draws (moveBank b st none s) q → Draws s q) ∧ (moveBank b st none s).evt = s.evt := by
  obtain ⟨l, ports, e, -⟩ := moveBank_eq b st none s
  have waiters (w : DrawWait) (hw : w ∈ l) : ∃ v ∈ s.drawList, v.pos = w.pos := by
    obtain ⟨v, hv, pos, -⟩ := moveBank_waiter (w := w) (s := s) (b := b) (st := st) (h := none) (by rw [e]; exact hw)
    exact ⟨v, hv, pos⟩
  rw [e]
  refine ⟨rfl, fun a ha => State.setBank_bank_ne _ _ _ _ ha, rfl, rfl, fun q ⟨w, hw, pos⟩ => ?_, rfl⟩
  obtain ⟨v, hv, same⟩ := waiters w hw
  exact ⟨v, hv, same.trans pos⟩

theorem frees_moveBank (hb : ∀ q, (s.pos q).bank ≠ some b) (st : BankState) : Frees b s (moveBank b st none s) := by
  obtain ⟨positions, others, comps, cooling, draws, evt⟩ := moveBank_rest b st s
  have pos (q : PosId) : (moveBank b st none s).pos q = s.pos q := by rw [State.pos, positions]; rfl
  refine ⟨fun q => by rw [pos]; exact ⟨rfl, rfl⟩, fun q a hq => ?_, others, by rw [moveBank_bank], comps, cooling, draws,
    by rw [evt]⟩
  rw [pos] at hq
  exact ⟨fun k => hb q (k ▸ hq), hq⟩

/-- A bank that no fill holds loses its holder. -/
theorem sound_moveBank (h : Sound x s) (hb : ∀ q, (s.pos q).bank ≠ some b) (st : BankState) : Sound x (moveBank b st none s) :=
  h.frees (frees_moveBank hb st)

theorem SoundBanks.alone (h : SoundBanks s) (hp : (s.pos p).bank = some b) (hq : q ≠ p) : (s.pos q).bank ≠ some b := by
  intro k
  have held := (h.fills p b hp).2
  rw [(h.fills q b k).2] at held
  exact hq (Holder.pos.inj (Option.some.inj held))

theorem sound_unbanked (h : Sound x s) (p : PosId) : Sound x (s.modPos p (fun x => { x with bank := none })) := by
  have pos (q : PosId) : ((s.modPos p (fun x => { x with bank := none })).pos q).state = (s.pos q).state ∧
      ((s.modPos p (fun x => { x with bank := none })).pos q).holdReason = (s.pos q).holdReason := by
    by_cases e : q = p
    · subst e
      rw [State.modPos_pos]
      exact ⟨rfl, rfl⟩
    · rw [State.modPos_pos_ne _ _ _ _ e]
      exact ⟨rfl, rfl⟩
  refine ⟨h.comps.same rfl rfl, h.fills.fewer pos (fun q hq => .inl hq) (fun q => id) (fun q => id) rfl, h.order.same rfl,
    fun q a hq => ?_, h.banks.refilled⟩
  by_cases e : q = p
  · subst e
    rw [State.modPos_pos] at hq
    cases hq
  · rw [State.modPos_pos_ne _ _ _ _ e] at hq
    exact h.banks.fills q a hq

theorem sound_releaseBank (h : Sound x s) (p : PosId) : Sound x (releaseBank p s) := by
  unfold releaseBank
  split
  · exact h
  next b hb =>
    refine sound_bankIdle (sound_moveBank (sound_unbanked h p) (fun q => ?_) .idle) b
    by_cases e : q = p
    · subst e
      rw [State.modPos_pos]
      exact fun k => nomatch k
    · rw [State.modPos_pos_ne _ _ _ _ e]
      exact h.banks.alone hb e

end Sys2Proof.Machine
end

section
/-! SUPPORT. What redistribution, the ends of fills and the ends of refills keep of the laws of requesters and holders
(R27, R82, R85 to R88, R114 to R116). -/

namespace Sys2Proof.Machine

variable {p q : PosId} {b : BankId} {c n : CompId} {s t u : State} {x y : Untold} {e : QueueEntry}
  {fs sh : List PosId} {cs : List CompId} {g : Option PosId}

/-! ### The passes (R115) -/

theorem sound_raiseDerated (h : Sound x s) : Sound x (raiseDerated s) := by
  refine foldl_keep (keep := Sound x) (fun u r _ hu => ?_) h
  cases r with
  | comp c => exact hu
  | pos p =>
    dsimp only
    split
    next hd =>
      refine sound_setGrant (hu.unmoved (unmoved_budgetChanged u .served)) fun _ => .inl ?_
      simp only [GrantEntry.derated, Bool.and_eq_true, decide_eq_true_eq] at hd
      exact Nat.pos_iff_ne_zero.1 hd.1.1
    · exact hu

/-- A fill given a share leaves the wait list. -/
theorem sound_grantFill (h : Sound x s) (ok : MayHold x s (.pos p)) (k : Nat) : Sound x (grantFill p k s) := by
  have granted := sound_setGrant (g := k) h fun _ => .inr ok
  unfold grantFill
  dsimp only
  split
  · exact granted.unmoved (unmoved_modRecord _ p _)
  · exact granted

/-- A fill served is told later. -/
theorem Sound.serve (h : Sound ⟨fs, cs, sh, g⟩ s) (flows : (s.pos p).state = .ramp ∨ (s.pos p).state = .hold) (hc : ¬ Cools s p) :
    Sound ⟨fs ++ [p], cs, sh, g⟩ s := by
  refine ⟨⟨h.comps.waiting, h.comps.served, h.comps.onceServed, h.comps.onceWaits, h.comps.running, h.comps.resting,
    h.comps.refills⟩, ⟨h.fills.granted, fun q hq => ?_, fun q hq => ?_, h.fills.shed, h.fills.drawing⟩, h.order, h.banks⟩
  · obtain ⟨holds, untold⟩ := h.fills.cooling q hq
    refine ⟨holds, fun k => (List.mem_append.1 k).elim untold fun k => ?_⟩
    rw [List.mem_singleton.1 k] at hq
    exact hc hq
  · rcases List.mem_append.1 hq with k | k
    · exact h.fills.served q k
    · rw [List.mem_singleton.1 k]
      exact flows

theorem grantFill_still (p : PosId) (k : Nat) (s : State) : (grantFill p k s).positions = s.positions ∧
    (grantFill p k s).cooling.wait = s.cooling.wait := by
  unfold grantFill
  dsimp only
  split
  · obtain ⟨w, e⟩ := modRecord_eq p (fun r => { r with flags := { r.flags with derated := true } }) (setGrant (.pos p) k s)
    unfold tellDerated
    rw [e]
    exact ⟨rfl, rfl⟩
  · exact ⟨rfl, rfl⟩

theorem sound_serveFills (l : List CoolWait) (h : Sound ⟨fs, cs, sh, g⟩ s)
    (hl : ∀ w ∈ l, ∀ p, w.who = .pos p → (s.pos p).state = .ramp ∨ (s.pos p).state = .hold) :
    Sound ⟨fs ++ (serveFills l s).2, cs, sh, g⟩ (serveFills l s).1 := by
  induction l generalizing s fs with
  | nil => simpa [serveFills] using h
  | cons w l ih =>
    have stop : Sound ⟨fs ++ [], cs, sh, g⟩ s := by simpa using h
    unfold serveFills
    split
    · exact stop
    next p hp =>
      dsimp only
      split
      · have flows := hl w List.mem_cons_self p hp
        have dropped := sound_dropWait (h.unmoved (unmoved_budgetChanged s .served)) (.pos p)
        have served := sound_grantFill (p := p) dropped (flows.imp_right .inl) (min (s.grantOf (.pos p)).demand s.freeCapacity)
        obtain ⟨positions, wait⟩ := grantFill_still p (min (s.grantOf (.pos p)).demand s.freeCapacity)
          (dropWait (.pos p) (budgetChanged .served s))
        have gone : ¬ Cools (grantFill p (min (s.grantOf (.pos p)).demand s.freeCapacity)
            (dropWait (.pos p) (budgetChanged .served s))) p := by
          rw [Cools, wait]
          exact not_cools_dropWait p _
        have pos (q : PosId) : (grantFill p (min (s.grantOf (.pos p)).demand s.freeCapacity)
            (dropWait (.pos p) (budgetChanged .served s))).pos q = s.pos q := by
          rw [State.pos, positions]
          rfl
        generalize grantFill p (min (s.grantOf (.pos p)).demand s.freeCapacity) (dropWait (.pos p) (budgetChanged .served s)) = v at *
        have rest := ih (served.serve (by rw [pos]; exact flows) gone) fun w hw q hq => by
          rw [pos]
          exact hl w (List.mem_cons_of_mem _ hw) q hq
        rwa [List.append_assoc] at rest
      · exact stop

/-- A compressor served assigns its bank later. -/
theorem Sound.serveComp (h : Sound ⟨fs, cs, sh, g⟩ s) (waits : (s.comp c).state = .coolingWait) (once : c ∉ cs)
    (hc : ¬ CompWaits s c) : Sound ⟨fs, cs ++ [c], sh, g⟩ s := by
  refine ⟨⟨fun n hn => ?_, fun n hn => ?_, ?_, h.comps.onceWaits, h.comps.running, h.comps.resting,
    fun n hn => (h.comps.refills n hn).imp_right (List.mem_append_left _)⟩,
    ⟨h.fills.granted, h.fills.cooling, h.fills.served, h.fills.shed, h.fills.drawing⟩, h.order, h.banks⟩
  · obtain ⟨state, unserved⟩ := h.comps.waiting n hn
    refine ⟨state, fun k => (List.mem_append.1 k).elim unserved fun k => ?_⟩
    rw [List.mem_singleton.1 k] at hn
    exact hc hn
  · rcases List.mem_append.1 hn with k | k
    · exact h.comps.served n k
    · rw [List.mem_singleton.1 k]
      exact waits
  · refine List.nodup_append.2 ⟨h.comps.onceServed, List.nodup_singleton c, fun a ha b hb => ?_⟩
    rw [List.mem_singleton.1 hb]
    rintro rfl
    exact once ha

theorem sound_setGrant_serving (h : Sound ⟨fs, cs, sh, g⟩ s) (waits : (s.comp c).state = .coolingWait) (once : c ∉ cs)
    (hc : ¬ CompWaits s c) (k : Nat) : Sound ⟨fs, cs ++ [c], sh, g⟩ (setGrant (.comp c) k s) :=
  sound_setGrant (h.serveComp waits once hc) fun _ => .inr (.inr (List.mem_append_right _ (List.mem_singleton.2 rfl)))

theorem sound_serveComps (l : List CoolWait) (hl : ((l.filter (fun w => !isFill w.who)).map (fun w => w.who)).Nodup)
    (hm : ∀ w ∈ l, ∀ c, w.who = .comp c → CompWaits s c) (h : Sound ⟨fs, cs, sh, g⟩ s) :
    Sound ⟨fs, cs ++ (serveComps l s).2, sh, g⟩ (serveComps l s).1 := by
  induction l generalizing s cs with
  | nil => simpa [serveComps] using h
  | cons w l ih =>
    have stop : Sound ⟨fs, cs ++ [], sh, g⟩ s := by simpa using h
    unfold serveComps
    split
    · exact stop
    next c hc =>
      dsimp only
      split
      · obtain ⟨state, unserved⟩ := h.comps.waiting c (hm w List.mem_cons_self c hc)
        have fills : isFill w.who = false := by rw [hc]; rfl
        rw [List.filter_cons_of_pos (by rw [fills]; rfl), List.map_cons, List.nodup_cons, hc] at hl
        have dropped := sound_dropWait (h.unmoved (unmoved_budgetChanged s .served)) (.comp c)
        have served := sound_setGrant_serving dropped state unserved (not_waits_dropWait c _) (s.grantOf (.comp c)).demand
        have others (n : CompId) (hn : n ≠ c) (hw : CompWaits s n) : CompWaits (setGrant (.comp c) (s.grantOf (.comp c)).demand
            (dropWait (.comp c) (budgetChanged .served s))) n := by
          obtain ⟨w, hw, who⟩ := hw
          exact (setGrant_waits ..).2 ⟨w, List.mem_filter.2 ⟨hw, by rw [who]; simpa using hn⟩, who⟩
        have rest := ih hl.2 (fun v hv n who => others n (fun k => hl.1 (List.mem_map.2 ⟨v, List.mem_filter.2 ⟨hv, by
          rw [who]
          rfl⟩, by rw [who, k]⟩)) (hm v (List.mem_cons_of_mem _ hv) n who)) served
        rwa [List.append_assoc] at rest
      · exact stop

theorem sound_redistributePasses (h : Sound ⟨[], [], sh, g⟩ s) (hg : ∀ p, g = some p → ¬ Cools s p) :
    Sound ⟨(redistributePasses s).2.1, (redistributePasses s).2.2, sh, g⟩ (redistributePasses s).1 := by
  unfold redistributePasses
  split
  · exact h
  · dsimp only
    have raised := sound_raiseDerated h
    have wait := (raiseDerated_rest s).2
    have fills := sound_serveFills (raiseDerated s).cooling.wait raised fun w hw p who => by
      have cools : Cools (raiseDerated s) p := ⟨w, hw, who⟩
      rcases (raised.fills.cooling p cools).1 with ⟨hold, -⟩ | shed | ending
      · exact .inr hold
      · exact (raised.fills.shed p shed).symm.imp_left And.left
      · refine absurd ?_ (hg p ending)
        rw [Cools, ← wait]
        exact cools
    exact sound_serveComps _ fills.comps.onceWaits (fun w hw c who => ⟨w, hw, who⟩) fills

/-! ### The holders told (R116) -/

theorem sound_tellFills (h : Sound ⟨fs, cs, [], g⟩ s) : Sound ⟨[], cs, [], g⟩ (fs.foldl (fun s p => checksCD p s) s) := by
  induction fs generalizing s with
  | nil => exact h
  | cons p fs ih =>
    have flows := h.fills.served p List.mem_cons_self
    have checked := sound_checksCD (p := p) h (by rcases flows with k | k <;> rw [k] <;> rfl)
      (fun k => (h.fills.cooling p k).2 List.mem_cons_self) (fun k => absurd k List.not_mem_nil)
    refine ih ⟨⟨checked.comps.waiting, checked.comps.served, checked.comps.onceServed, checked.comps.onceWaits,
      checked.comps.running, checked.comps.resting, checked.comps.refills⟩, ⟨checked.fills.granted, fun q hq => ?_,
      fun q hq => checked.fills.served q (List.mem_cons_of_mem _ hq), checked.fills.shed, checked.fills.drawing⟩,
      checked.order, checked.banks⟩
    obtain ⟨holds, untold⟩ := checked.fills.cooling q hq
    exact ⟨holds, fun k => untold (List.mem_cons_of_mem _ k)⟩

theorem sound_tellServed (h : Sound ⟨fs, cs, [], g⟩ s) : Sound ⟨[], [], [], g⟩ (tellServed fs cs s).1 := by
  have told := sound_tellFills h
  unfold tellServed
  dsimp only
  generalize fs.foldl (fun s p => checksCD p s) s = u at told
  generalize false = back
  clear h
  induction cs generalizing u back with
  | nil => exact told
  | cons c cs ih => exact ih _ (sound_startRefill told) _

theorem sound_redistributeN (k : Nat) (h : Sound ⟨[], [], [], g⟩ s) (hg : ∀ p, g = some p → ¬ Cools s p) :
    Sound ⟨[], [], [], g⟩ (redistributeN k s) := by
  induction k generalizing s with
  | zero => exact h
  | succ k ih =>
    have told := sound_tellServed (sound_redistributePasses h hg)
    have still (p : PosId) (hp : g = some p) : ¬ Cools (tellServed (redistributePasses s).2.1 (redistributePasses s).2.2
        (redistributePasses s).1).1 p := by
      obtain ⟨passed, untold⟩ := spares_redistributePasses (hg p hp)
      exact mt (passed.trans (spares_tellServed untold _)).cools (hg p hp)
    unfold redistributeN
    dsimp only
    split
    · exact ih told still
    · exact told

theorem sound_releaseGrant (h : Sound ⟨[], [], [], g⟩ s) (hg : ∀ p, g = some p → ¬ Cools s p) (r : Requester) :
    Sound ⟨[], [], [], g⟩ (releaseGrant r s) := by
  unfold releaseGrant
  split
  · exact h
  · refine sound_redistributeN 3 (sound_setGrant_zero (h.unmoved (unmoved_budgetChanged s .release)) r) fun p hp => ?_
    rw [Cools, setGrant_wait]
    exact hg p hp

/-! ### The end of a fill (R27) -/

theorem sound_endMarks (h : Sound .none s) (reason : EndReason) : Sound ⟨[], [], [], some p⟩ (endMarks p reason s) := by
  obtain ⟨w, e⟩ := endMarks_eq p reason s
  have own := endMarks_pos p reason s
  have gone := endMarks_not_draws p reason s
  have others (q : PosId) (hq : q ≠ p) : (endMarks p reason s).pos q = s.pos q := (spares_endMarks hq reason s).pos
  have draws (q : PosId) (hq : Draws (endMarks p reason s) q) : Draws s q := by
    rw [e] at hq
    obtain ⟨v, hv, same⟩ := hq
    exact ⟨v, (List.mem_filter.1 hv).1, same⟩
  have cooling : (endMarks p reason s).cooling = s.cooling := by rw [e]; rfl
  have comps : (endMarks p reason s).comps = s.comps := by rw [e]; rfl
  have banks : (endMarks p reason s).banks = s.banks := by rw [e]; rfl
  have lost : (endMarks p reason s).evt.plantLost = s.evt.plantLost := by rw [e]; rfl
  have loose : SoundFills ⟨[], [], [], some p⟩ s := by
    refine ⟨fun q hq => ?_, fun q hq => ?_, h.fills.served, h.fills.shed, h.fills.drawing⟩
    · rcases h.fills.granted q hq with k | k | k
      · exact .inl k
      · exact .inr (.inl k)
      · cases k
    · obtain ⟨holds, untold⟩ := h.fills.cooling q hq
      rcases holds with k | k | k
      · exact ⟨.inl k, untold⟩
      · exact ⟨.inr (.inl k), untold⟩
      · cases k
  generalize endMarks p reason s = t at *
  refine ⟨SoundComps.same (x := ⟨[], [], [], some p⟩) ⟨h.comps.waiting, h.comps.served, h.comps.onceServed, h.comps.onceWaits,
      h.comps.running, h.comps.resting, h.comps.refills⟩ comps cooling,
    loose.change p (fun q hq => by rw [others q hq]; exact ⟨rfl, rfl⟩) cooling lost (fun _ => .inr (.inr rfl))
      (fun k => absurd k List.not_mem_nil) (fun k => absurd k List.not_mem_nil) (fun _ => .inr (.inr rfl))
      (fun q hq => .inr (draws q hq)) (fun k => absurd k gone), h.order.same cooling, fun q a hq => ?_, fun a c => ?_⟩
  · rw [State.bank, banks]
    refine h.banks.fills q a ?_
    by_cases k : q = p
    · subst k
      rw [own] at hq
      exact hq
    · rwa [others q k] at hq
  · rw [State.bank, banks, State.comp, comps]
    exact h.banks.refilled a c

theorem sound_endReleases (h : Sound ⟨[], [], [], some p⟩ s) : Sound ⟨[], [], [], some p⟩ (endReleases p s) := by
  have released := sound_releaseBank h p
  have departed : Sound ⟨[], [], [], some p⟩ (departWait (.pos p) (releaseBank p s)) := by
    unfold departWait
    split
    · refine sound_redistributeN 3 (sound_dropWait (released.unmoved (unmoved_budgetChanged _ .departed)) _) fun q hq => ?_
      obtain rfl := Option.some.inj hq
      exact not_cools_dropWait p _
    · exact released
  refine sound_releaseGrant departed (fun q hq => ?_) _
  obtain rfl := Option.some.inj hq
  exact departWait_not_cools p _

theorem sound_endFill (h : Sound .none s) (p : PosId) (reason : EndReason) : Sound .none (endFill p reason s) := by
  cases he : endable (s.pos p).state with
  | false => rwa [endFill_of_not_endable he]
  | true =>
    rw [endFill_eq he]
    have ended := sound_endReleases (sound_endMarks (p := p) h reason)
    obtain ⟨own, cools, grant, -⟩ := endReleases_own (endMarks_not_draws p reason s)
    have law : Sound .none (endReleases p (endMarks p reason s)) := by
      refine ⟨⟨ended.comps.waiting, ended.comps.served, ended.comps.onceServed, ended.comps.onceWaits, ended.comps.running,
        ended.comps.resting, ended.comps.refills⟩, ⟨fun q hq => ?_, fun q hq => ?_, ended.fills.served, ended.fills.shed,
        ended.fills.drawing⟩, ended.order, ended.banks⟩
      · rcases ended.fills.granted q hq with k | k | k
        · exact .inl k
        · exact .inr (.inl k)
        · obtain rfl := Option.some.inj k
          exact absurd grant hq
      · obtain ⟨holds, untold⟩ := ended.fills.cooling q hq
        rcases holds with k | k | k
        · exact ⟨.inl k, untold⟩
        · exact ⟨.inr (.inl k), untold⟩
        · obtain rfl := Option.some.inj k
          exact absurd hq cools
    generalize endReleases p (endMarks p reason s) = v at law
    obtain ⟨ports, w, gs, l, e⟩ := endTells_eq p (s.pos p) v
    rw [e]
    exact law.unmoved ((unmoved_modPos v p Position.settling fun _ => ⟨rfl, rfl, rfl⟩).trans
      (unmoved_of rfl rfl rfl rfl rfl rfl))

end Sys2Proof.Machine
end

section
/-! SUPPORT. What the ends of refills, and banks that leave service, keep of the laws of requesters and holders (R19, R22,
R67, R82, R83, R86 to R90). -/

namespace Sys2Proof.Machine

variable {p q : PosId} {a b : BankId} {c n : CompId} {s t u : State} {x y : Untold} {e : QueueEntry}

/-! ### A compressor that does not run -/

/-- No bank names the compressor as its holder. -/
def Unheld (c : CompId) (s : State) : Prop := ∀ a, (s.bank a).holder ≠ some (.comp c)

theorem Sound.unheld (h : Sound x s) (hb : ∀ b, (s.comp c).bank = some b → (s.bank b).holder ≠ some (.comp c)) : Unheld c s :=
  fun a ha => hb a (h.banks.refilled a c ha).2 ha

/-- A compressor that neither waits nor was served comes to rest. -/
theorem sound_modComp (h : Sound x s) (out : ¬ CompWaits s c) (unserved : c ∉ x.comps) (grant : (s.grantOf (.comp c)).grant = 0)
    (unheld : Unheld c s) (f : Compressor → Compressor) (hf : (f (s.comp c)).state ≠ .running)
    (hb : (f (s.comp c)).bank = none) (he : (f (s.comp c)).entryHeld = none) : Sound x (s.modComp c f) := by
  have own := s.modComp_comp c f
  have others (n : CompId) (hn : n ≠ c) : (s.modComp c f).comp n = s.comp n := State.modComp_comp_ne _ _ _ _ hn
  refine ⟨h.comps.change c h.comps.onceWaits h.comps.onceServed (fun n hn => ⟨others n hn, id, id, Iff.rfl⟩)
      (fun k => absurd k out) (fun k => absurd k unserved) (fun k => ?_) (fun _ => by rw [own]; exact ⟨hb, he⟩)
      (fun k => absurd grant k), h.fills.fewer (fun _ => ⟨rfl, rfl⟩) (fun q hq => .inl hq) (fun _ => id) (fun _ => id) rfl,
    h.order.same rfl, h.banks.fills, fun a m hm => ?_⟩
  · rw [own] at k
    exact absurd k hf
  · obtain ⟨refilling, held⟩ := h.banks.refilled a m hm
    refine ⟨refilling, ?_⟩
    rw [others m (by rintro rfl; exact unheld a hm)]
    exact held

theorem Sound.still (h : Sound x s) (hc : (s.comp c).state = .running) : ¬ CompWaits s c ∧ c ∉ x.comps := by
  refine ⟨fun k => ?_, fun k => ?_⟩
  · have waits := (h.comps.waiting c k).1
    rw [hc] at waits
    cases waits
  · have waits := h.comps.served c k
    rw [hc] at waits
    cases waits

/-- A compressor that runs stops and gives its grant back. -/
theorem sound_stopAndRelease (h : Sound x s) (hc : (s.comp c).state = .running) (unheld : Unheld c s) {next : CompState}
    (hn : next ≠ .running) (hx : x = .none ∨ (s.grantOf (.comp c)).grant = 0) : Sound x (stopAndRelease c next s) := by
  obtain ⟨out, unserved⟩ := h.still hc
  unfold stopAndRelease releaseGrant
  by_cases hg : (s.grantOf (.comp c)).grant = 0
  · rw [if_pos (by exact hg)]
    exact sound_modComp h out unserved hg unheld _ hn rfl rfl
  · obtain rfl := hx.resolve_right hg
    rw [if_neg (by exact hg)]
    refine sound_redistributeN 3 ?_ fun q k => nomatch k
    have given := sound_setGrant_zero (h.unmoved (unmoved_budgetChanged s .release)) (.comp c)
    exact sound_modComp (s := setGrant (.comp c) 0 (budgetChanged .release s)) given (mt (setGrant_waits ..).1 out) unserved
      (by rw [setGrant_grantOf, if_pos rfl]) unheld
      (fun x => { x with state := next, bank := none, entryHeld := none, refillStart := none }) hn rfl rfl

theorem sound_refillEnds (h : Sound x s) (hc : (s.comp c).state = .running) (unheld : Unheld c s) {next : CompState}
    (hn : next ≠ .running) (hx : x = .none ∨ (s.grantOf (.comp c)).grant = 0) (cause : CompCause) :
    Sound x (refillEnds c cause next s) := by
  have stopped := sound_stopAndRelease h hc unheld hn hx
  refine Sound.unmoved ?_ (sends_postNotice _ _ _ _ _).unmoved
  split
  · exact sound_assignmentPass stopped
  · exact stopped

/-! ### Banks given by cascades to others than a running compressor -/

theorem unheld_offerPass (h : Unheld c s) (l : List BankId) : Unheld c (offerPass l s) := by
  intro a
  rcases (offers_offerPass l s).offered a with same | ⟨w, -, -, holder⟩
  · rw [same]
    exact h a
  · rw [holder]
    exact fun k => nomatch Option.some.inj k

theorem unheld_assignmentPass (h : Unheld c s) (hc : (s.comp c).state = .running) : Unheld c (assignmentPass s) := by
  cases hl : s.esd.latched with
  | true => rwa [assignmentPass_latched hl]
  | false =>
    rw [assignmentPass_unlatched hl]
    refine (foldl_keep (keep := fun u => Unheld c u ∧ (u.comp c).state = .running) (fun u m _ hu => ?_) ⟨h, hc⟩).1
    obtain ⟨free, runs⟩ := hu
    have rests : Rests c u (asksInTurn u m) := by
      unfold asksInTurn
      split
      next k =>
        refine rests_compressorAsks ?_ u
        rintro rfl
        have ready := eq_of_beq (Bool.and_eq_true_iff.1 k).1
        rw [runs] at ready
        cases ready
      · exact .refl c u
    refine ⟨?_, by rw [rests.comp]; exact runs⟩
    unfold asksInTurn at rests ⊢
    split
    next k =>
      obtain ⟨ready, backlog⟩ := Bool.and_eq_true_iff.1 k
      have apart : m ≠ c := by
        rintro rfl
        have ready := eq_of_beq ready
        rw [runs] at ready
        cases ready
      cases fits : u.fits m with
      | false =>
        rw [compressorAsks_eq, fits]
        exact free
      | true =>
        obtain ⟨e, l, ports, -, eq, -⟩ := compressorAsks_takes (backlog_assignable backlog) fits
        rw [eq]
        intro a
        by_cases k : a = e.bank
        · subst k
          intro held
          have own := congrArg Bank.holder ((u.serving m).setBank_bank e.bank (((u.serving m).bank e.bank).filledBy m))
          exact apart (Holder.comp.inj (Option.some.inj (own.symm.trans held)))
        · intro held
          have same := congrArg Bank.holder ((u.serving m).setBank_bank_ne e.bank a (((u.serving m).bank e.bank).filledBy m) k)
          exact free a (same.symm.trans held)
    · exact free

theorem unheld_toIdle (h : ∀ a, a ≠ b → (s.bank a).holder ≠ some (.comp c)) (hc : (s.comp c).state = .running) :
    Unheld c (toIdle b s) := by
  obtain ⟨-, others, comps, -⟩ := moveBank_rest b .idle s
  have free : Unheld c (moveBank b .idle none s) := by
    intro a
    by_cases k : a = b
    · subst k
      rw [moveBank_bank]
      exact fun k => nomatch k
    · rw [others a k]
      exact h a k
  have offered := unheld_offerPass free [b]
  have runs : ((offerPass [b] (moveBank b .idle none s)).comp c).state = .running := by
    have rests : Rests c (moveBank b .idle none s) (offerPass [b] (moveBank b .idle none s)) := rests_offerPass _ [b]
    rw [rests.comp, State.comp, comps]
    exact hc
  unfold toIdle bankIdle
  generalize offerPass [b] (moveBank b .idle none s) = u at *
  dsimp only
  split
  · unfold tellIdle
    split
    · exact unheld_assignmentPass offered runs
    · split
      · split
        · exact unheld_assignmentPass (s := enqueue b .lowPressure u) offered runs
        · exact offered
      · exact offered
  · exact offered

/-! ### The ends of refills (R86 to R88) -/

/-- The bank a compressor fills is no fill's. -/
theorem Sound.no_fill (h : Sound x s) (hb : (s.bank b).state ≠ .drawing) (q : PosId) : (s.pos q).bank ≠ some b :=
  fun k => hb (h.banks.fills q b k).1

theorem Sound.holds_one (h : Sound x s) (hb : (s.comp c).bank = some b) (ha : a ≠ b) : (s.bank a).holder ≠ some (.comp c) :=
  fun k => ha (Option.some.inj ((h.banks.refilled a c k).2.symm.trans hb))

theorem sound_toIdle (h : Sound x s) (hb : (s.bank b).state ≠ .drawing) : Sound x (toIdle b s) :=
  sound_bankIdle (sound_moveBank h (h.no_fill hb) .idle) b

theorem sound_freed (h : Sound x s) (b : BankId) : Sound x (freed b s) := by
  unfold freed
  split
  next k =>
    refine sound_toIdle h ?_
    rw [eq_of_beq k]
    decide
  · exact h

theorem unheld_freed (h : Sound x s) (hc : (s.comp c).state = .running) (hb : (s.comp c).bank = some b) : Unheld c (freed b s) := by
  unfold freed
  split
  · exact unheld_toIdle (fun a ha => h.holds_one hb ha) hc
  next k =>
    refine h.unheld fun a ha held => ?_
    obtain rfl : a = b := Option.some.inj (ha.symm.trans hb)
    exact k (beq_iff_eq.2 (h.banks.refilled a c held).1)

theorem Sound.runs (h : Sound x s) (hb : (s.comp c).bank = some b) : (s.comp c).state = .running := by
  by_contra rests
  rw [(h.comps.resting c rests).1] at hb
  cases hb

theorem sound_completeRefill (h : Sound .none s) (c : CompId) (stop : StopCause) (cause : CompCause) :
    Sound .none (completeRefill c stop cause s) := by
  cases hb : (s.comp c).bank with
  | none =>
    have same : completeRefill c stop cause s = s := by
      unfold completeRefill
      rw [hb]
    rwa [same]
  | some b =>
    rw [completeRefill_ends hb]
    have posted := h.unmoved (unmoved_postDirective s plantPort (.refillStop c b stop))
    have runs := posted.runs (c := c) hb
    have rests := rests_freed (n := c) (by rw [runs]; decide) b
    exact sound_refillEnds (sound_freed posted b) (by rw [rests.comp]; exact runs) (unheld_freed posted runs hb) (by decide)
      (.inl rfl) cause

theorem sound_backToQueue (h : Sound x s) (b : BankId) (e : QueueEntry) : Sound x (backToQueue b e s) := by
  unfold backToQueue
  split
  next k =>
    have moved := sound_moveBank h (h.no_fill (b := b) (by rw [eq_of_beq k]; decide)) .idle
    exact (sound_offerPass moved [b]).unmoved (unmoved_queue _ _)
  · exact h

theorem unheld_backToQueue (h : Sound x s) (hb : (s.comp c).bank = some b) (e : QueueEntry) : Unheld c (backToQueue b e s) := by
  unfold backToQueue
  split
  · obtain ⟨-, others, -⟩ := moveBank_rest b .idle s
    refine unheld_offerPass (fun a => ?_) [b]
    by_cases k : a = b
    · subst k
      rw [moveBank_bank]
      exact fun k => nomatch k
    · rw [others a k]
      exact h.holds_one hb k
  next k =>
    refine h.unheld fun a ha held => ?_
    obtain rfl : a = b := Option.some.inj (ha.symm.trans hb)
    exact k (beq_iff_eq.2 (h.banks.refilled a c held).1)

theorem sound_withdrawRefill (h : Sound x s) (c : CompId) (stop : StopCause) (cause : CompCause) {next : CompState}
    (hn : next ≠ .running) (hx : x = .none ∨ (s.grantOf (.comp c)).grant = 0) : Sound x (withdrawRefill c stop cause next s) := by
  cases hb : (s.comp c).bank with
  | none =>
    have same : withdrawRefill c stop cause next s = s := by
      unfold withdrawRefill
      rw [hb]
    rwa [same]
  | some b =>
    cases he : (s.comp c).entryHeld with
    | none =>
      have same : withdrawRefill c stop cause next s = s := by
        unfold withdrawRefill
        rw [hb, he]
      rwa [same]
    | some e =>
      rw [withdrawRefill_ends hb he]
      have posted := h.unmoved (unmoved_postDirective s plantPort (.refillStop c b stop))
      have runs := posted.runs (c := c) hb
      have rests : Rests c _ (backToQueue b e (postDirective plantPort (.refillStop c b stop) s)) := rests_backToQueue b e _
      exact sound_refillEnds (sound_backToQueue posted b e) (by rw [rests.comp]; exact runs) (unheld_backToQueue posted hb e) hn
        (hx.imp_right fun k => by rw [rests.grant]; exact k) cause

theorem sound_loseBank (h : Sound .none s) (hc : (s.comp c).state = .running) (unheld : Unheld c s) : Sound .none (loseBank c s) :=
  sound_refillEnds h hc unheld (next := .ready) (by decide) (.inl rfl) .bankLost

/-! ### Compressors that leave the wait list (R82, R83, R89, R90) -/

/-- A compressor leaves COOLING_WAIT, and the wait list where it stands there. -/
theorem sound_leaveCoolingWait (h : Sound .none s) (hc : (s.comp c).state = .coolingWait) {next : CompState}
    (hn : next ≠ .running) (cause : CompCause) : Sound .none (leaveCoolingWait c next cause s) := by
  have flushed := h.unmoved (unmoved_flushWaitNotice s c)
  have state : ((flushWaitNotice c s).comp c).state ≠ .running := by
    rw [((unmoved_flushWaitNotice s c).comps c).1, hc]
    decide
  have grant : ((flushWaitNotice c s).grantOf (.comp c)).grant = 0 := by
    by_contra k
    exact state ((flushed.comps.refills c k).resolve_right List.not_mem_nil)
  obtain ⟨bank, entry⟩ := flushed.comps.resting c state
  have unheld : Unheld c (flushWaitNotice c s) := flushed.unheld fun b k => by
    rw [bank] at k
    cases k
  unfold leaveCoolingWait
  dsimp only
  generalize flushWaitNotice c s = w at *
  have posted : Unmoved (w.modComp c (fun x => { x with state := next, requestTime := none }))
      (postCompState c cause (w.modComp c (fun x => { x with state := next, requestTime := none }))) :=
    (sends_postNotice _ _ _ _ _).unmoved
  unfold departWait
  split
  · refine sound_redistributeN 3 ?_ fun q k => nomatch k
    have left : Sound .none ((dropWait (.comp c) w).modComp c (fun x => { x with state := next, requestTime := none })) :=
      sound_modComp (sound_dropWait flushed (.comp c)) (not_waits_dropWait c w) List.not_mem_nil grant unheld _ hn bank entry
    exact left.unmoved ((posted.trans (unmoved_budgetChanged _ .departed)).dropWait (.comp c))
  next k =>
    refine Sound.unmoved ?_ posted
    refine sound_modComp flushed (fun ⟨v, hv, who⟩ => k ?_) List.not_mem_nil grant unheld _ hn bank entry
    refine List.any_eq_true.2 ⟨v, ?_, by simp [who]⟩
    rw [posted.wait]
    exact hv

/-- The last compressor up to an entry. -/
def laterComp (last : Option CompId) (w : CoolWait) : Option CompId :=
  match w.who with
  | .comp c => some c
  | .pos _ => last

theorem lastWaitingComp_eq (s : State) : lastWaitingComp s = s.cooling.wait.foldl laterComp none := rfl

theorem laterComp_fold (l : List CoolWait) (d : Option CompId) (h : l.foldl laterComp d = some c) :
    d = some c ∨ ∃ w ∈ l, w.who = .comp c := by
  induction l generalizing d with
  | nil => exact .inl h
  | cons w l ih =>
    rcases ih _ h with k | ⟨v, hv, who⟩
    · unfold laterComp at k
      split at k
      next m hw => exact .inr ⟨w, List.mem_cons_self, by rw [hw, Option.some.inj k]⟩
      · exact .inl k
    · exact .inr ⟨v, List.mem_cons_of_mem _ hv, who⟩

theorem lastWaitingComp_waits (h : lastWaitingComp s = some c) : CompWaits s c :=
  (laterComp_fold s.cooling.wait none ((lastWaitingComp_eq s).symm.trans h)).resolve_left fun k => nomatch k

theorem sound_matchQueue (k : Nat) (h : Sound .none s) : Sound .none (matchQueue k s) := by
  induction k generalizing s with
  | zero => exact h
  | succ k ih =>
    unfold matchQueue
    split
    · split
      next c hc =>
        exact ih (sound_leaveCoolingWait h (h.comps.waiting c (lastWaitingComp_waits hc)).1 (next := .ready) (by decide) .queueShort)
      · exact h
    · exact h

theorem sound_dequeue (h : Sound .none s) (b : BankId) : Sound .none (dequeue b s) := by
  unfold dequeue
  split
  · exact sound_matchQueue 2 (h.unmoved (unmoved_queue s _))
  · exact h

/-! ### Banks that leave service (R67) -/

theorem frees_vacateBank (h : Sound x s) (b : BankId) (st : BankState) : Frees b s (vacateBank b st s) := by
  obtain ⟨positions, others, comps, cooling, draws, evt⟩ := moveBank_rest b st s
  have pos (q : PosId) : (moveBank b st none s).pos q = s.pos q := by rw [State.pos, positions]; rfl
  have own : ((moveBank b st none s).bank b).holder = none := by rw [moveBank_bank]
  by_cases held : ∃ p, (s.bank b).state = .drawing ∧ (s.bank b).holder = some (.pos p)
  · obtain ⟨p, drawing, holder⟩ := held
    have vacated : vacateBank b st s = (moveBank b st none s).modPos p (fun x => { x with bank := none }) := by
      unfold vacateBank
      rw [drawing, holder]
    rw [vacated]
    refine ⟨fun q => ?_, fun q a hq => ?_, others, own, comps, cooling, draws, by rw [← evt]; rfl⟩
    · by_cases e : q = p
      · subst e
        rw [State.modPos_pos, pos]
        exact ⟨rfl, rfl⟩
      · rw [State.modPos_pos_ne _ _ _ _ e, pos]
        exact ⟨rfl, rfl⟩
    · by_cases e : q = p
      · subst e
        rw [State.modPos_pos] at hq
        cases hq
      · rw [State.modPos_pos_ne _ _ _ _ e, pos] at hq
        refine ⟨?_, hq⟩
        rintro rfl
        have same := (h.banks.fills q a hq).2
        rw [holder] at same
        exact e (Holder.pos.inj (Option.some.inj same)).symm
  · have free (q : PosId) : (s.pos q).bank ≠ some b := fun k => held ⟨q, h.banks.fills q b k⟩
    have vacated : vacateBank b st s = moveBank b st none s := by
      unfold vacateBank
      split
      next p drawing holder => exact absurd ⟨p, drawing, holder⟩ held
      · rfl
    rw [vacated]
    exact frees_moveBank free st

theorem sound_vacateBank (h : Sound x s) (b : BankId) (st : BankState) : Sound x (vacateBank b st s) := h.frees (frees_vacateBank h b st)

theorem not_cools_of (h : Sound .none s) (hp : (s.pos p).state ≠ .hold) : ¬ Cools s p := fun k => by
  rcases (h.fills.cooling p k).1 with e | e | e
  · exact hp e.1
  · cases e
  · cases e

/-- A fill whose bank has gone asks for another. -/
theorem sound_asksAgain (h : Sound .none s) (hp : (s.pos p).state = .ramp) (x : Option BankId) :
    Sound .none (if ((drawRequest p .ramp x s).pos p).bank.isSome then drawRequest p .ramp x s
      else enterHold p .bank (drawRequest p .ramp x s)) := by
  have cools := not_cools_of h (p := p) (by rw [hp]; decide)
  have asked := sound_drawRequest h (by rw [hp]; rfl) cools (fun k => nomatch k) .ramp x
  split
  · exact asked
  · refine sound_enterHold asked .bank fun k => absurd ?_ cools
    rwa [Cools, drawRequest_cools] at k

theorem sound_withdrawPosition (h : Sound .none s) (p : PosId) : Sound .none (withdrawPosition p s) := by
  have left := sound_unbanked h p
  have state : ((s.modPos p (fun x => { x with bank := none })).pos p).state = (s.pos p).state := by rw [State.modPos_pos]
  unfold withdrawPosition
  dsimp only
  generalize s.modPos p (fun x => { x with bank := none }) = u at *
  split
  next k =>
    have moved := (unmoved_modPos u p (fun x => { x with pulseState := some .waiting, phaseTimer := none })
      fun _ => ⟨rfl, rfl, rfl⟩).trans (unmoved_sendValve _ p)
    generalize sendValve p (u.modPos p (fun x => { x with pulseState := some .waiting, phaseTimer := none })) = v at *
    have pulse : (v.pos p).state = .pulse := (moved.pos p).1.trans (state.trans k)
    have waits := left.unmoved moved
    exact sound_drawRequest waits (by rw [pulse]; rfl) (not_cools_of waits (by rw [pulse]; decide)) (fun k => nomatch k) .pulse none
  next k =>
    obtain ⟨w, e⟩ := endSegment_eq p .bankWithdrawn u
    have ended : Sound .none (endSegment p .bankWithdrawn u) := by
      rw [e]
      exact left.unmoved (unmoved_of rfl rfl rfl rfl rfl rfl)
    refine sound_asksAgain ended ?_ none
    rw [e]
    exact state.trans k
  · exact left

theorem sound_tellBankLeft (h : Sound .none s) (b : BankId) (old : Bank)
    (hc : ∀ c, old.state = .refilling → old.holder = some (.comp c) → (s.comp c).state = .running ∧ Unheld c s) :
    Sound .none (tellBankLeft b old s) := by
  unfold tellBankLeft
  split
  next p _ _ => exact sound_dequeue (sound_withdrawPosition h p) b
  next c refilling holder =>
    obtain ⟨runs, unheld⟩ := hc c refilling holder
    exact sound_dequeue (sound_loseBank (h.unmoved (unmoved_postDirective s _ _)) runs unheld) b
  · exact sound_dequeue h b

theorem sound_bankLeaves (h : Sound .none s) (b : BankId) (st : BankState) : Sound .none (bankLeaves b st s) := by
  have frees := frees_vacateBank h b st
  refine sound_tellBankLeft (h.frees frees) b _ fun c _ holder => ?_
  have held := (h.banks.refilled b c holder).2
  have comp : (vacateBank b st s).comp c = s.comp c := by rw [State.comp, frees.comps]; rfl
  refine ⟨by rw [comp]; exact h.runs held, (h.frees frees).unheld fun a ha => ?_⟩
  rw [comp, held] at ha
  obtain rfl := Option.some.inj ha
  rw [frees.holder]
  exact fun k => nomatch k

end Sys2Proof.Machine
end

section
/-! SUPPORT. What holds from RAMP and shedding keep of the laws of requesters and holders (R23, R24, R117, R118). -/

namespace Sys2Proof.Machine

variable {p q : PosId} {a b : BankId} {c n : CompId} {s t u : State} {x y : Untold}
  {fs ps sh : List PosId} {cs : List CompId} {g : Option PosId}

/-! ### Holds from RAMP -/

theorem offers_cooling (h : Offers s t) : t.cooling = s.cooling := by
  induction h with
  | none => rfl
  | grant w b _ _ _ ih => rw [(grantBank_apart _ b _).2.2]; exact ih

theorem bankIdle_cools (b : BankId) (h : Cools (bankIdle b s) q) : Cools s q := by
  have cooling := offers_cooling (offers_offerPass [b] s)
  unfold bankIdle at h
  dsimp only at h
  generalize offerPass [b] s = u at h cooling
  have before : Cools u q := by
    split at h
    · exact (spares_tellIdle (q := q) b).cools h
    · exact h
  rwa [Cools, cooling] at before

theorem releaseBank_cools (p : PosId) (h : Cools (releaseBank p s) q) : Cools s q := by
  unfold releaseBank at h
  split at h
  · exact h
  next b _ =>
    have moved : Spares q (s.modPos p (fun x => { x with bank := none }))
        (moveBank b .idle none (s.modPos p (fun x => { x with bank := none }))) := spares_moveBank b _ (by simp)
    exact moved.cools (bankIdle_cools b h)

theorem releaseBank_lost (p : PosId) (s : State) : (releaseBank p s).evt.plantLost = s.evt.plantLost := by
  unfold releaseBank
  split
  · rfl
  next b _ =>
    have moved := (moveBank_rest b .idle (s.modPos p (fun x => { x with bank := none }))).2.2.2.2.2
    exact (bankIdle_stays b _).lost.trans (congrArg Scratch.plantLost moved)

theorem unmoved_endSegment (p : PosId) (c : SegmentEnd) (s : State) : Unmoved s (endSegment p c s) := by
  obtain ⟨w, e⟩ := endSegment_eq p c s
  rw [e]
  exact unmoved_of rfl rfl rfl rfl rfl rfl

theorem sound_holdFromRamp (h : Sound x s) (reason : HoldReason)
    (hc : Cools s p → reason = .cooling ∨ p ∈ x.shed ∨ x.ending = some p) : Sound x (holdFromRamp p reason s) := by
  have ended := unmoved_endSegment p .hold s
  exact sound_enterHold (sound_releaseBank (h.unmoved ended) p) reason fun k => hc ((ended.cools p).1 (releaseBank_cools p k))

/-! ### Shedding (R117, R118) -/

/-- A fill that is shed is held. -/
theorem Sound.held (h : Sound ⟨fs, cs, p :: ps, g⟩ s) (state : (s.pos p).state = .hold)
    (reason : (s.pos p).holdReason = some .cooling) (draws : Draws s p → s.evt.plantLost = true) : Sound ⟨fs, cs, ps, g⟩ s := by
  refine ⟨⟨h.comps.waiting, h.comps.served, h.comps.onceServed, h.comps.onceWaits, h.comps.running, h.comps.resting,
    h.comps.refills⟩, ⟨h.fills.granted, fun q hq => ?_, h.fills.served, fun q hq => h.fills.shed q (List.mem_cons_of_mem _ hq),
    fun q hq => ⟨(h.fills.drawing q hq).1, fun k => ?_⟩⟩, h.order, h.banks⟩
  · obtain ⟨holds, untold⟩ := h.fills.cooling q hq
    refine ⟨?_, untold⟩
    rcases holds with k | k | k
    · exact .inl k
    · rcases List.mem_cons.1 k with rfl | k
      · exact .inl ⟨state, reason⟩
      · exact .inr (.inl k)
    · exact .inr (.inr k)
  · rcases (h.fills.drawing q hq).2 k with k | k
    · rcases List.mem_cons.1 k with rfl | k
      · exact .inr (draws hq)
      · exact .inl k
    · exact .inr k

theorem sound_holdByShedding (h : Sound ⟨fs, cs, p :: ps, g⟩ s) : Sound ⟨fs, cs, ps, g⟩ (holdByShedding p s) := by
  unfold holdByShedding
  rcases h.fills.shed p List.mem_cons_self with hold | ⟨ramp, apart⟩
  · rw [hold]
    dsimp only
    have out := h.unmoved (unmoved_undraw s (fun w => w.pos != p))
    have held := sound_enterHold (p := p) out .cooling fun _ => .inl rfl
    have gone : ¬ Draws (enterHold p .cooling { s with drawList := s.drawList.filter (fun w => w.pos != p) }) p := by
      rintro ⟨w, hw, e⟩
      rw [(enterHold_rest p .cooling _).2.2.2.2.1] at hw
      have kept := (List.mem_filter.1 hw).2
      rw [e] at kept
      simp at kept
    exact held.held (by rw [enterHold_pos]; rfl) (by rw [enterHold_pos]; rfl) fun k => absurd k gone
  · rw [ramp]
    dsimp only
    have held := sound_holdFromRamp (p := p) h .cooling fun _ => .inl rfl
    refine held.held (by rw [holdFromRamp, enterHold_pos]; rfl) (by rw [holdFromRamp, enterHold_pos]; rfl) fun k => ?_
    have ended := unmoved_endSegment p .hold s
    have lost : (holdFromRamp p .cooling s).evt.plantLost = s.evt.plantLost := by
      unfold holdFromRamp
      rw [(enterHold_rest p .cooling _).2.2.2.2.2, releaseBank_lost, ended.lost]
    rw [lost]
    by_cases draws : Draws s p
    · exact apart draws
    · exact absurd k (holdFromRamp_out draws .cooling)

theorem sound_shedComps (l : List Requester) (h : Sound x s) : Sound x (shedComps l s).1 := by
  induction l generalizing s with
  | nil => exact h
  | cons r l ih =>
    cases r with
    | pos p => exact ih h
    | comp c =>
      unfold shedComps
      split
      · exact ih (sound_setGrant_zero h (.comp c))
      · exact h

theorem sound_shedCuts (l : List Requester) (h : Sound x s) : Sound x (shedCuts l s) := by
  induction l generalizing s with
  | nil => exact h
  | cons r l ih =>
    cases r with
    | comp c => exact ih h
    | pos p =>
      unfold shedCuts
      dsimp only
      split
      next k => exact ih ((sound_setGrant h fun _ => .inl (by omega)).unmoved (unmoved_modRecord _ p _))
      · exact ih h

theorem sound_shedHolds (l : List Requester) (h : Sound x s) : Sound x (shedHolds l s).1 := by
  induction l generalizing s with
  | nil => exact h
  | cons r l ih =>
    cases r with
    | comp c => exact ih h
    | pos p =>
      unfold shedHolds
      split
      · exact ih (sound_setGrant_zero h (.pos p))
      · exact h

theorem shedHolds_mem (l : List Requester) (s : State) : ∀ p ∈ (shedHolds l s).2, .pos p ∈ l := by
  induction l generalizing s with
  | nil => exact fun p hp => nomatch hp
  | cons r l ih =>
    intro q hq
    cases r with
    | comp c => exact List.mem_cons_of_mem _ (ih s q hq)
    | pos p =>
      unfold shedHolds at hq
      split at hq
      · rcases List.mem_cons.1 hq with rfl | hq
        · exact List.mem_cons_self
        · exact List.mem_cons_of_mem _ (ih _ q hq)
      · exact nomatch hq

theorem shedComps_list (l : List Requester) (s : State) : ((shedComps l s).2.map Requester.comp).Sublist l ∧
    ∀ c ∈ (shedComps l s).2, ((shedComps l s).1.grantOf (.comp c)).grant = 0 := by
  induction l generalizing s with
  | nil => exact ⟨.slnil, fun c hc => nomatch hc⟩
  | cons r l ih =>
    cases r with
    | pos p => exact ⟨(ih s).1.cons _, (ih s).2⟩
    | comp c =>
      unfold shedComps
      split
      · obtain ⟨sub, zero⟩ := ih (setGrant (.comp c) 0 s)
        refine ⟨sub.cons_cons _, fun n hn => ?_⟩
        rcases List.mem_cons.1 hn with rfl | hn
        · have falls := (shedComps_falls l (setGrant (.comp n) 0 s)).1.grants (.comp n)
          rw [setGrant_grantOf, if_pos rfl] at falls
          exact Nat.le_zero.1 falls
        · exact zero n hn
      · exact ⟨List.nil_sublist _, fun n hn => nomatch hn⟩

/-- What the three passes of shedding leave of all but the grants. -/
structure Regrants (s t : State) : Prop where
  positions : t.positions = s.positions
  comps : t.comps = s.comps
  drawList : t.drawList = s.drawList
  wait : t.cooling.wait = s.cooling.wait
  evt : t.evt = s.evt

theorem Regrants.refl (s : State) : Regrants s s := ⟨rfl, rfl, rfl, rfl, rfl⟩

theorem Regrants.trans (h : Regrants s t) (k : Regrants t u) : Regrants s u :=
  ⟨k.positions.trans h.positions, k.comps.trans h.comps, k.drawList.trans h.drawList, k.wait.trans h.wait, k.evt.trans h.evt⟩

theorem regrants_setGrant (r : Requester) (k : Nat) (s : State) : Regrants s (setGrant r k s) := by
  obtain ⟨hp, hc, -, hd, hw, he⟩ := setGrant_lists r k s
  exact ⟨hp, hc, hd, hw, he⟩

theorem regrants_tellDerated (p : PosId) (s : State) : Regrants s (tellDerated p s) := by
  unfold tellDerated
  obtain ⟨w, e⟩ := modRecord_eq p (fun r => { r with flags := { r.flags with derated := true } }) s
  rw [e]
  exact ⟨rfl, rfl, rfl, rfl, rfl⟩

theorem regrants_shedComps (l : List Requester) (s : State) : Regrants s (shedComps l s).1 := by
  induction l generalizing s with
  | nil => exact .refl s
  | cons r l ih =>
    cases r with
    | pos p => exact ih s
    | comp c =>
      unfold shedComps
      split
      · exact (regrants_setGrant _ _ s).trans (ih _)
      · exact .refl s

theorem regrants_shedCuts (l : List Requester) (s : State) : Regrants s (shedCuts l s) := by
  induction l generalizing s with
  | nil => exact .refl s
  | cons r l ih =>
    cases r with
    | comp c => exact ih s
    | pos p =>
      unfold shedCuts
      dsimp only
      split
      · exact ((regrants_setGrant _ _ s).trans (regrants_tellDerated p _)).trans (ih _)
      · exact ih s

theorem regrants_shedHolds (l : List Requester) (s : State) : Regrants s (shedHolds l s).1 := by
  induction l generalizing s with
  | nil => exact .refl s
  | cons r l ih =>
    cases r with
    | comp c => exact ih s
    | pos p =>
      unfold shedHolds
      split
      · exact (regrants_setGrant _ _ s).trans (ih _)
      · exact .refl s

end Sys2Proof.Machine
end

section
/-! SUPPORT. What a whole shedding keeps of the laws of requesters and holders (R117, R118). -/

namespace Sys2Proof.Machine

variable {p q : PosId} {a b : BankId} {c n : CompId} {s t u : State} {x y : Untold}
  {fs ps sh : List PosId} {cs : List CompId} {g : Option PosId}

/-- A compressor other than the one withdrawn rests, where that one holds no grant. -/
theorem rests_withdrawRefill (hn : n ≠ c) (ready : (s.comp n).state ≠ .ready) (grant : (s.grantOf (.comp c)).grant = 0)
    (stop : StopCause) (cause : CompCause) (next : CompState) : Rests n s (withdrawRefill c stop cause next s) := by
  cases hb : (s.comp c).bank with
  | none =>
    unfold withdrawRefill
    rw [hb]
    exact .refl n s
  | some b =>
    cases he : (s.comp c).entryHeld with
    | none =>
      unfold withdrawRefill
      rw [hb, he]
      exact .refl n s
    | some e =>
      rw [withdrawRefill_ends hb he]
      have posted : Rests n s (postDirective plantPort (.refillStop c b stop) s) := rests_postDirective s _ _
      have queued := posted.trans (rests_backToQueue b e _)
      have kept : Rests c s (backToQueue b e (postDirective plantPort (.refillStop c b stop) s)) :=
        (rests_postDirective s _ _).trans (rests_backToQueue b e _)
      generalize backToQueue b e (postDirective plantPort (.refillStop c b stop) s) = u at *
      have still : stopAndRelease c next u = stopRunning c next u := by
        have none : ((stopRunning c next u).grantOf (.comp c)).grant = 0 := by
          refine Eq.trans ?_ grant
          rw [← kept.grant]
          rfl
        exact if_pos none
      have stopped : Rests n s (stopAndRelease c next u) := by
        rw [still]
        exact queued.trans (rests_modComp u hn _)
      unfold refillEnds
      generalize stopAndRelease c next u = v at stopped
      have passed : Rests n v (if next == .ready then assignmentPass v else v) :=
        rests_ite _ (rests_assignmentPass (by rw [stopped.comp]; exact ready)) (.refl n v)
      exact (stopped.trans passed).trans (rests_postNotice _ _ _ _ _)

/-- Compressors shed stop in turn: they hold no grant, and one that stops does not serve the others. -/
theorem sound_withdrawEach (l : List CompId) (once : l.Nodup) (h : Sound x s)
    (hl : ∀ c ∈ l, (s.comp c).state = .running ∧ (s.grantOf (.comp c)).grant = 0) :
    Sound x (l.foldl (fun s c => withdrawRefill c .shed .shed .ready s) s) := by
  induction l generalizing s with
  | nil => exact h
  | cons c l ih =>
    obtain ⟨apart, once⟩ := List.nodup_cons.1 once
    obtain ⟨runs, grant⟩ := hl c List.mem_cons_self
    refine ih once (sound_withdrawRefill h c .shed .shed (next := .ready) (by decide) (.inr grant)) fun n hn => ?_
    obtain ⟨runs', grant'⟩ := hl n (List.mem_cons_of_mem _ hn)
    have rests : Rests n s (withdrawRefill c .shed .shed .ready s) :=
      rests_withdrawRefill (by rintro rfl; exact apart hn) (by rw [runs']; decide) grant _ _ _
    rw [rests.comp, rests.grant]
    exact ⟨runs', grant'⟩

theorem sound_holdEach (h : Sound ⟨fs, cs, ps, g⟩ s) :
    Sound ⟨fs, cs, [], g⟩ (ps.foldl (fun s p => holdByShedding p s) s) := by
  induction ps generalizing s with
  | nil => exact h
  | cons p ps ih => exact ih (sound_holdByShedding h)

/-! ### The parts of a shedding -/

/-- The fills shed go to the head of the cooling wait list (R118). -/
def State.jumped (s : State) (group : List CoolWait) : State :=
  { s with cooling := { s.cooling with wait := group ++ s.cooling.wait } }

/-- What is left free is given (R117). -/
def shares (v : State) : State × List PosId × List CompId := if 0 < v.freeCapacity then redistributePasses v else (v, [], [])

/-- The holders are told: those shed, then those served (R117, R118). -/
def shedTold (held : List CompId) (l : List PosId) (r : State × List PosId × List CompId) : State × Bool :=
  tellServed r.2.1 r.2.2 (l.foldl (fun s p => holdByShedding p s)
    (held.foldl (fun s c => withdrawRefill c .shed .shed .ready s) r.1))

/-- A redistribution follows a hand-back (R85). -/
def handBack (t : State × Bool) : State := if t.2 then redistribute t.1 else t.1

/-- The table passes of a shedding, with the compressors and the fills that they stop (R117, R118). -/
def shedTables (s : State) : State × List CompId × List PosId :=
  let r1 := shedComps s.cooling.order.reverse s
  let s2 := shedCuts r1.1.cooling.order.reverse r1.1
  let r3 := shedHolds s2.cooling.order.reverse s2
  (r3.1, r1.2, r3.2)

/-- The fills shed, as they stand in the wait list: the one with the oldest grant at its head. -/
def shedGroup (k : State × List CompId × List PosId) : List CoolWait := k.2.2.reverse.map fun p => ⟨.pos p, k.1.clock⟩

/-- The table passes are done, and what is left free is given. -/
def shedShares (k : State × List CompId × List PosId) : State × List PosId × List CompId :=
  shares (k.1.jumped (shedGroup k))

theorem shed_eq (s : State) : shed s =
    let k := shedTables (budgetChanged .shed s)
    handBack (shedTold k.2.1 k.2.2 (shedShares k)) := by
  unfold shed handBack shedTold shedShares shares State.jumped shedGroup shedTables
  with_reducible rfl

/-- The fills shed stand at the head of the wait list, and are held later. -/
theorem Sound.sheds (h : Sound .none s) (l : List PosId)
    (hl : ∀ p ∈ l, (s.pos p).state = .hold ∨ (s.pos p).state = .ramp ∧ (Draws s p → s.evt.plantLost = true))
    (group : List CoolWait) (hg : ∀ w ∈ group, ∃ p ∈ l, w.who = .pos p) :
    Sound ⟨[], [], l, none⟩ (s.jumped group) := by
  have fillsOnly : group.filter (fun w => !isFill w.who) = [] := by
    refine List.filter_eq_nil_iff.2 fun w hw => ?_
    obtain ⟨p, -, who⟩ := hg w hw
    rw [who]
    simp [isFill]
  have cools (q : PosId) (hq : Cools (s.jumped group) q) :
      q ∈ l ∨ Cools s q := by
    obtain ⟨w, hw, who⟩ := hq
    rcases List.mem_append.1 hw with hw | hw
    · obtain ⟨p, hp, same⟩ := hg w hw
      rw [same] at who
      exact .inl (Requester.pos.inj who ▸ hp)
    · exact .inr ⟨w, hw, who⟩
  refine ⟨⟨fun c ⟨w, hw, who⟩ => ?_, h.comps.served, h.comps.onceServed, ?_, h.comps.running, h.comps.resting,
      h.comps.refills⟩, ⟨fun q hq => ?_, fun q hq => ⟨?_, List.not_mem_nil⟩, fun q hq => absurd hq List.not_mem_nil, hl,
      fun q hq => ⟨(h.fills.drawing q hq).1, fun k => ?_⟩⟩, h.order.still rfl fun r => by cases r <;> rfl,
    h.banks.same rfl rfl rfl⟩
  · rcases List.mem_append.1 hw with hw | hw
    · obtain ⟨p, -, same⟩ := hg w hw
      rw [same] at who
      cases who
    · exact h.comps.waiting c ⟨w, hw, who⟩
  · have once := h.comps.onceWaits
    have wait : (s.jumped group).cooling.wait = group ++ s.cooling.wait := rfl
    unfold WaitLaw at once ⊢
    rwa [wait, List.filter_append, fillsOnly]
  · exact h.fills.granted q hq
  · rcases cools q hq with hq | hq
    · exact .inr (.inl hq)
    · refine (h.fills.cooling q hq).1.imp_right fun k => ?_
      rcases k with k | k
      · cases k
      · cases k
  · rcases cools q k with k | k
    · exact .inl k
    · exact ((h.fills.drawing q hq).2 k).imp_left fun k => nomatch k

/-- The fills served and shed are still to be told, the compressors shed to be stopped. -/
theorem sound_shares {l : List PosId} {group : List CoolWait} (held : List CompId)
    (hc : ∀ c ∈ held, (s.comp c).state = .running ∧ (s.grantOf (.comp c)).grant = 0)
    (listed : Sound ⟨[], [], l, none⟩ (s.jumped group)) :
    Sound ⟨(shares (s.jumped group)).2.1, (shares (s.jumped group)).2.2, l, none⟩ (shares (s.jumped group)).1 ∧
      ∀ c ∈ held, ((shares (s.jumped group)).1.comp c).state = .running ∧
        ((shares (s.jumped group)).1.grantOf (.comp c)).grant = 0 := by
  have before (c : CompId) (hn : c ∈ held) : ((s.jumped group).comp c).state = .running ∧
      ((s.jumped group).grantOf (.comp c)).grant = 0 := hc c hn
  generalize s.jumped group = v at *
  unfold shares
  split
  · refine ⟨sound_redistributePasses listed (fun _ k => nomatch k), fun c hn => ?_⟩
    obtain ⟨runs, grant⟩ := before c hn
    have rests := (rests_redistributePasses (listed.still runs).1).1
    rw [rests.comp, rests.grant]
    exact ⟨runs, grant⟩
  · exact ⟨listed, before⟩

theorem Regrants.pos (h : Regrants s t) (p : PosId) : t.pos p = s.pos p := by rw [State.pos, h.positions]; rfl

theorem Regrants.comp (h : Regrants s t) (c : CompId) : t.comp c = s.comp c := by rw [State.comp, h.comps]; rfl

theorem Regrants.draws (h : Regrants s t) (p : PosId) : Draws t p ↔ Draws s p := by rw [Draws, Draws, h.drawList]

/-- What the table passes of a shedding move, and whom they stop. -/
structure Tabled (s : State) (k : State × List CompId × List PosId) : Prop where
  sound : Sound .none k.1
  moved : Regrants s k.1
  once : k.2.1.Nodup
  comps : ∀ c ∈ k.2.1, (s.grantOf (.comp c)).grant ≠ 0 ∧ (k.1.grantOf (.comp c)).grant = 0
  fills : ∀ p ∈ k.2.2, (s.grantOf (.pos p)).grant ≠ 0

theorem tabled_shedTables (h : Sound .none s) : Tabled s (shedTables s) := by
  unfold shedTables
  dsimp only
  have comps := sound_shedComps s.cooling.order.reverse h
  have moved1 := regrants_shedComps s.cooling.order.reverse s
  have falls1 := (shedComps_falls s.cooling.order.reverse s).1
  obtain ⟨listed, zero1⟩ := shedComps_list s.cooling.order.reverse s
  generalize shedComps s.cooling.order.reverse s = r1 at *
  have cuts := sound_shedCuts r1.1.cooling.order.reverse comps
  have moved2 := moved1.trans (regrants_shedCuts r1.1.cooling.order.reverse r1.1)
  have falls2 := shedCuts_falls r1.1.cooling.order.reverse r1.1
  generalize shedCuts r1.1.cooling.order.reverse r1.1 = s2 at *
  have holds := sound_shedHolds s2.cooling.order.reverse cuts
  have moved3 := moved2.trans (regrants_shedHolds s2.cooling.order.reverse s2)
  have falls3 := (shedHolds_falls s2.cooling.order.reverse s2).1
  have shed := shedHolds_mem s2.cooling.order.reverse s2
  generalize shedHolds s2.cooling.order.reverse s2 = r3 at *
  refine ⟨holds, moved3, List.Nodup.of_map _ (listed.nodup (List.nodup_reverse.2 h.order.once)), fun c hc => ⟨?_, ?_⟩,
    fun p hp => ?_⟩
  · exact (h.order.ordered _).1 (List.mem_reverse.1 (listed.subset (List.mem_map_of_mem hc)))
  · have zero := zero1 c hc
    have f2 := falls2.grants (.comp c)
    have f3 := falls3.grants (.comp c)
    dsimp only
    omega
  · have grant := (cuts.order.ordered _).1 (List.mem_reverse.1 (shed p hp))
    have f1 := falls1.grants (.pos p)
    have f2 := falls2.grants (.pos p)
    omega

theorem shedGroup_mem {k : State × List CompId × List PosId} : ∀ w ∈ shedGroup k, ∃ p ∈ k.2.2, w.who = .pos p := by
  intro w hw
  obtain ⟨p, hp, rfl⟩ := List.mem_map.1 hw
  exact ⟨p, List.mem_reverse.1 hp, rfl⟩

/-- The fills that a shedding stops are in RAMP or in HOLD. -/
theorem Tabled.flows {k : State × List CompId × List PosId} (h : Sound .none s) (t : Tabled s k)
    (apart : ∀ p, (s.pos p).state = .ramp → Draws s p → s.evt.plantLost = true) :
    ∀ p ∈ k.2.2, (k.1.pos p).state = .hold ∨ (k.1.pos p).state = .ramp ∧ (Draws k.1 p → k.1.evt.plantLost = true) := by
  intro p hp
  rw [t.moved.pos, t.moved.draws, t.moved.evt]
  rcases h.fills.granted p (t.fills p hp) with ramp | hold | ending
  · exact .inr ⟨ramp, apart p ramp⟩
  · exact .inl hold
  · cases ending

theorem Tabled.jumped {k : State × List CompId × List PosId} (h : Sound .none s) (t : Tabled s k)
    (apart : ∀ p, (s.pos p).state = .ramp → Draws s p → s.evt.plantLost = true) :
    Sound ⟨[], [], k.2.2, none⟩ (k.1.jumped (shedGroup k)) :=
  t.sound.sheds k.2.2 (t.flows h apart) (shedGroup k) shedGroup_mem

/-- The compressors that a shedding stops run. -/
theorem Tabled.shared {k : State × List CompId × List PosId} (h : Sound .none s) (t : Tabled s k)
    (apart : ∀ p, (s.pos p).state = .ramp → Draws s p → s.evt.plantLost = true) :
    Sound ⟨(shedShares k).2.1, (shedShares k).2.2, k.2.2, none⟩ (shedShares k).1 ∧
      ∀ c ∈ k.2.1, ((shedShares k).1.comp c).state = .running ∧ ((shedShares k).1.grantOf (.comp c)).grant = 0 := by
  refine sound_shares k.2.1 (fun c hc => ?_) (t.jumped h apart)
  rw [t.moved.comp]
  exact ⟨(h.comps.refills c (t.comps c hc).1).resolve_right List.not_mem_nil, (t.comps c hc).2⟩

/-- The compressors shed have stopped. -/
theorem Tabled.withdrawn {k : State × List CompId × List PosId} (h : Sound .none s) (t : Tabled s k)
    (apart : ∀ p, (s.pos p).state = .ramp → Draws s p → s.evt.plantLost = true) :
    Sound ⟨(shedShares k).2.1, (shedShares k).2.2, k.2.2, none⟩
      (k.2.1.foldl (fun s c => withdrawRefill c .shed .shed .ready s) (shedShares k).1) := by
  obtain ⟨sound, stopped⟩ := t.shared h apart
  exact sound_withdrawEach k.2.1 t.once sound stopped

/-- The capacity lies below the grants (R117, R118). -/
theorem sound_shed (h : Sound .none s) (apart : ∀ p, (s.pos p).state = .ramp → Draws s p → s.evt.plantLost = true) :
    Sound .none (shed s) := by
  have begun := h.unmoved (unmoved_budgetChanged s .shed)
  have told := (tabled_shedTables begun).withdrawn begun apart
  rw [shed_eq]
  dsimp only
  generalize shedTables (budgetChanged .shed s) = k at *
  have told : Sound .none (shedTold k.2.1 k.2.2 (shedShares k)).1 := sound_tellServed (sound_holdEach told)
  unfold handBack
  split
  · exact sound_redistributeN 3 told fun _ k => nomatch k
  · exact told

end Sys2Proof.Machine
end

section
/-! SUPPORT. The cooling budget in the middle of a cascade: its table and wait list, the grants of fills that flow, and what
is free once the passes are made (R109 to R113, R115). -/

namespace Sys2Proof.Machine

variable {p q : PosId} {a b : BankId} {c n : CompId} {r : Requester} {s t u : State} {x y : Untold}

/-- The table and the wait list (R109 to R111, R113). -/
structure Ledger (s : State) : Prop where
  fillFloors : ∀ p, (s.grantOf (.pos p)).floor = ((s.grantOf (.pos p)).demand + 3) / 4
  compFloors : ∀ c, (s.grantOf (.comp c)).floor = (s.grantOf (.comp c)).demand
  grants : ∀ r, (s.grantOf r).grant ≤ (s.grantOf r).demand
  whole : ∀ c, (s.grantOf (.comp c)).grant = 0 ∨ (s.grantOf (.comp c)).grant = (s.grantOf (.comp c)).demand
  asking : ∀ c, (s.comp c).configured = true → 0 < (s.grantOf (.comp c)).demand
  available : ∀ c, (s.comp c).state ≠ .unavailable → (s.comp c).configured = true
  waiting : ∀ w ∈ s.cooling.wait, (s.grantOf w.who).grant = 0 ∧ 0 < (s.grantOf w.who).floor
  once : (s.cooling.wait.map (·.who)).Nodup
  fillsFirst : s.cooling.wait =
    s.cooling.wait.filter (fun w => isFill w.who) ++ s.cooling.wait.filter (fun w => !isFill w.who)

/-- A cooled fill holds its floor at least (R110, R115). -/
def Afloat (s : State) (p : PosId) : Prop :=
  ∀ k, (s.pos p).cls = some k → k ≠ 0 → (s.grantOf (.pos p)).floor ≤ (s.grantOf (.pos p)).grant

/-- Cooled fills hold their floor while they flow, or wait for a bank to flow from, and where they were served; not those
that were shed and are still to be held. -/
structure Streams (x : Untold) (s : State) : Prop where
  flowing : ∀ p, p ∉ x.shed →
    (s.pos p).state = .ramp ∨ (s.pos p).state = .hold ∧ (s.pos p).holdReason ≠ some .cooling → Afloat s p
  drawing : ∀ p, p ∉ x.shed → Draws s p → (s.pos p).state ≠ .pulse → s.evt.plantLost = false → Afloat s p
  served : ∀ p ∈ x.fills, Afloat s p

/-- Nothing is free while a fill is derated, and less is free than the floor of the head of the wait list (R115). While
the ESD latch is set no pass is made, and nobody holds a grant or waits. -/
structure Balanced (s : State) : Prop where
  derated : s.esd.latched = false → ∀ p, (s.grantOf (.pos p)).grant ≠ 0 →
    (s.grantOf (.pos p)).grant < (s.grantOf (.pos p)).demand → s.freeCapacity = 0
  head : s.esd.latched = false → ∀ w l, s.cooling.wait = w :: l → s.freeCapacity < (s.grantOf w.who).floor

/-- The budget in the middle of a cascade. -/
structure Budget (x : Untold) (s : State) : Prop where
  ledger : Ledger s
  streams : Streams x s
  balanced : Balanced s

/-! ### What leaves the budget -/

/-- Grants, demands, floors, wait list and capacity stand, and no compressor comes into service. -/
structure Booked (s t : State) : Prop where
  wait : t.cooling.wait = s.cooling.wait
  grant : ∀ r, (t.grantOf r).grant = (s.grantOf r).grant
  asks : ∀ r, (t.grantOf r).demand = (s.grantOf r).demand ∧ (t.grantOf r).floor = (s.grantOf r).floor
  capacity : t.cooling.capacity = s.cooling.capacity
  configured : ∀ c, (t.comp c).configured = (s.comp c).configured
  up : ∀ c, (t.comp c).state ≠ .unavailable → (s.comp c).state ≠ .unavailable
  esd : t.esd = s.esd

theorem booked_of (hk : t.cooling = s.cooling) (hc : t.comps = s.comps) (esd : t.esd = s.esd) : Booked s t where
  wait := by rw [hk]
  grant r := by cases r <;> rw [State.grantOf, State.grantOf, hk]
  asks r := by cases r <;> rw [State.grantOf, State.grantOf, hk] <;> exact ⟨rfl, rfl⟩
  capacity := by rw [hk]
  configured c := by rw [State.comp, hc]; rfl
  up c := by rw [State.comp, hc]; exact id
  esd := esd

theorem Unmoved.booked (h : Unmoved s t) (esd : t.esd = s.esd) : Booked s t :=
  ⟨h.wait, h.grant, h.asks, h.capacity, h.configured, fun c => by rw [(h.comps c).1]; exact id, esd⟩

theorem Booked.free (h : Booked s t) : t.freeCapacity = s.freeCapacity := by
  unfold State.freeCapacity State.sumGrants
  simp only [h.grant, h.capacity]

theorem Ledger.booked (h : Ledger s) (k : Booked s t) : Ledger t where
  fillFloors p := by rw [(k.asks _).1, (k.asks _).2]; exact h.fillFloors p
  compFloors c := by rw [(k.asks _).1, (k.asks _).2]; exact h.compFloors c
  grants r := by rw [(k.asks _).1, k.grant]; exact h.grants r
  whole c := by rw [(k.asks _).1, k.grant]; exact h.whole c
  asking c := by rw [(k.asks _).1, k.configured]; exact h.asking c
  available c hc := by rw [k.configured]; exact h.available c (k.up c hc)
  waiting w hw := by
    rw [k.wait] at hw
    rw [(k.asks _).2, k.grant]
    exact h.waiting w hw
  once := by rw [k.wait]; exact h.once
  fillsFirst := by rw [k.wait]; exact h.fillsFirst

theorem Balanced.booked (h : Balanced s) (k : Booked s t) : Balanced t := by
  refine ⟨fun l p => ?_, fun l w m hw => ?_⟩
  · rw [k.grant, (k.asks _).1, k.free]
    rw [k.esd] at l
    exact h.derated l p
  · rw [(k.asks _).2, k.free]
    rw [k.esd] at l
    rw [k.wait] at hw
    exact h.head l w m hw

theorem Afloat.of (h : Afloat s p) (cls : (t.pos p).cls = (s.pos p).cls)
    (floor : (t.grantOf (.pos p)).floor = (s.grantOf (.pos p)).floor)
    (grant : (s.grantOf (.pos p)).grant ≤ (t.grantOf (.pos p)).grant) : Afloat t p := fun k hk hc => by
  rw [cls] at hk
  rw [floor]
  exact Nat.le_trans (h k hk hc) grant

theorem Booked.afloat (h : Booked s t) (cls : (t.pos p).cls = (s.pos p).cls) (k : Afloat s p) : Afloat t p :=
  k.of cls (h.asks _).2 (Nat.le_of_eq (h.grant _).symm)

/-- Positions stand, and no fill loses of its grant but those shed. -/
theorem Streams.still (h : Streams x s) (pos : ∀ q, (t.pos q).state = (s.pos q).state ∧ (t.pos q).holdReason = (s.pos q).holdReason)
    (float : ∀ q, Afloat s q → Afloat t q) (draws : ∀ q, Draws t q → Draws s q)
    (lost : t.evt.plantLost = s.evt.plantLost) : Streams x t := by
  refine ⟨fun q hq => ?_, fun q hq => ?_, fun q hq => float q (h.served q hq)⟩
  · rw [(pos q).1, (pos q).2]
    exact float q ∘ h.flowing q hq
  · rw [(pos q).1, lost]
    exact fun d pulse lost => float q (h.drawing q hq (draws q d) pulse lost)

/-- One position changes. -/
theorem Streams.change (h : Streams x s) (p : PosId)
    (others : ∀ q, q ≠ p → (t.pos q).state = (s.pos q).state ∧ (t.pos q).holdReason = (s.pos q).holdReason)
    (float : ∀ q, q ≠ p → Afloat s q → Afloat t q) (draws : ∀ q, q ≠ p → Draws t q → Draws s q)
    (lost : t.evt.plantLost = s.evt.plantLost) (served : p ∈ x.fills → Afloat t p)
    (own : p ∉ x.shed → (t.pos p).state = .ramp ∨ (t.pos p).state = .hold ∧ (t.pos p).holdReason ≠ some .cooling ∨
      Draws t p ∧ (t.pos p).state ≠ .pulse ∧ s.evt.plantLost = false → Afloat t p) : Streams x t := by
  refine ⟨fun q hq k => ?_, fun q hq d pulse k => ?_, fun q hq => ?_⟩
  all_goals by_cases e : q = p
  · subst e
    exact own hq (k.imp_right .inl)
  · rw [(others q e).1, (others q e).2] at k
    exact float q e (h.flowing q hq k)
  · subst e
    rw [lost] at k
    exact own hq (.inr (.inr ⟨d, pulse, k⟩))
  · rw [lost] at k
    rw [(others q e).1] at pulse
    exact float q e (h.drawing q hq (draws q e d) pulse k)
  · subst e
    exact served hq
  · exact float q e (h.served q hq)

/-- The budget where the table, the list and the compressors stand. -/
theorem Budget.booked (h : Budget x s) (k : Booked s t) (streams : Streams y t) : Budget y t :=
  ⟨h.ledger.booked k, streams, h.balanced.booked k⟩

theorem Streams.unmoved (h : Streams x s) (k : Unmoved s t) : Streams x t :=
  h.still (fun q => ⟨(k.pos q).1, (k.pos q).2.1⟩)
    (fun q f => f.of (k.cls q) (k.asks _).2 (Nat.le_of_eq (k.grant _).symm)) k.draws k.lost

theorem Budget.unmoved (h : Budget x s) (k : Unmoved s t) (esd : t.esd = s.esd) : Budget x t :=
  h.booked (k.booked esd) (h.streams.unmoved k)

/-! ### What cascades keep of the settings -/

theorem asks_of_steady (h : t.steady = s.steady) (r : Requester) :
    (t.grantOf r).demand = (s.grantOf r).demand ∧ (t.grantOf r).floor = (s.grantOf r).floor := by
  have same : (t.grantOf r).steady = (s.grantOf r).steady := by
    cases r with
    | pos p =>
      have fills := congrArg (fun u : State => u.cooling.fills[p]) h
      simpa [State.steady, Cooling.steady, State.grantOf] using fills
    | comp c =>
      have comps := congrArg (fun u : State => u.cooling.comps[c]) h
      simpa [State.steady, Cooling.steady, State.grantOf] using comps
  exact ⟨(congrArg GrantEntry.demand same : (t.grantOf r).steady.demand = _),
    (congrArg GrantEntry.floor same : (t.grantOf r).steady.floor = _)⟩

theorem cls_of_steady (h : t.steady = s.steady) (p : PosId) : (t.pos p).cls = (s.pos p).cls :=
  (congrArg Position.cls (pos_steady_of h p) : (t.pos p).steady.cls = _)

theorem configured_of_steady (h : t.steady = s.steady) (c : CompId) : (t.comp c).configured = (s.comp c).configured := by
  have comps := congrArg (fun u : State => u.comps[c].configured) h
  simpa [State.steady, State.comp, Compressor.steady] using comps

/-! ### The ledger, and what a grant or a place in the list moves in it -/

theorem Ledger.laws (h : Ledger s) (hs : Streams .none s)
    (derated : ∀ p, (s.grantOf (.pos p)).grant ≠ 0 → (s.grantOf (.pos p)).grant < (s.grantOf (.pos p)).demand → s.freeCapacity = 0)
    (head : ∀ w l, s.cooling.wait = w :: l → s.freeCapacity < (s.grantOf w.who).floor) : BudgetLaw s where
  floors r := by
    cases r with
    | pos p => exact h.fillFloors p
    | comp c => exact h.compFloors c
  grants := h.grants
  whole := h.whole
  flowing p k hk hc flows := hs.flowing p List.not_mem_nil flows k hk hc
  asking c := ⟨h.asking c, h.available c⟩
  waiting := h.waiting
  once := h.once
  fillsFirst := h.fillsFirst
  derated p some less := Nat.sub_eq_zero_iff_le.1 (derated p some less)
  head := head

theorem Budget.of_law (h : BudgetLaw s) (holders : HolderLaw s) : Budget .none s where
  ledger := ⟨fun p => h.floors (.pos p), fun c => h.floors (.comp c), h.grants, h.whole, fun c => (h.asking c).1,
    fun c => (h.asking c).2, h.waiting, h.once, h.fillsFirst⟩
  streams := by
    refine ⟨fun p _ flows k hk hc => h.flowing p k hk hc flows, fun p _ ⟨w, hw, e⟩ pulse _ k hk hc => ?_,
      fun p hp => absurd hp List.not_mem_nil⟩
    have draws := (holders.drawers w hw).2
    rw [e] at draws
    refine h.flowing p k hk hc (.inr ?_)
    cases kind : w.kind with
    | pulse =>
      rw [kind] at draws
      exact absurd draws.1 pulse
    | ramp =>
      rw [kind] at draws
      exact ⟨draws.1, by rw [draws.2]; decide⟩
  balanced := ⟨fun _ p some less => Nat.sub_eq_zero_iff_le.2 (h.derated p some less), fun _ w l hw => h.head w l hw⟩

/-- A grant takes a value within the demand, a compressor's nothing or all of it. -/
theorem ledger_setGrant (h : Ledger s) {g : Nat} (le : g ≤ (s.grantOf r).demand)
    (whole : ∀ c, r = .comp c → g = 0 ∨ g = (s.grantOf r).demand) (out : g = 0 ∨ ∀ w ∈ s.cooling.wait, w.who ≠ r) :
    Ledger (setGrant r g s) := by
  have asks := asks_of_steady (steady_setGrant r g s)
  obtain ⟨-, comps, -, -, wait, -⟩ := setGrant_lists r g s
  have comp (c : CompId) : (setGrant r g s).comp c = s.comp c := by rw [State.comp, comps]; rfl
  have grant := setGrant_grantOf r
  refine ⟨fun p => ?_, fun c => ?_, fun q => ?_, fun c => ?_, fun c => ?_, fun c => ?_, fun w hw => ?_, ?_, ?_⟩
  · rw [(asks _).1, (asks _).2]
    exact h.fillFloors p
  · rw [(asks _).1, (asks _).2]
    exact h.compFloors c
  · rw [(asks _).1, setGrant_grantOf]
    split
    next e => exact e ▸ le
    · exact h.grants q
  · rw [(asks _).1, setGrant_grantOf]
    split
    next e =>
      rw [e]
      exact whole c e.symm
    · exact h.whole c
  · rw [(asks _).1, comp]
    exact h.asking c
  · rw [comp]
    exact h.available c
  · rw [wait] at hw
    rw [(asks _).2, setGrant_grantOf]
    refine ⟨?_, (h.waiting w hw).2⟩
    split
    next e => exact out.resolve_right fun k => k w hw e
    · exact (h.waiting w hw).1
  · rw [wait]
    exact h.once
  · rw [wait]
    exact h.fillsFirst

theorem fillsFirst_filter {l : List CoolWait} (ok : CoolWait → Bool)
    (h : l = l.filter (fun w => isFill w.who) ++ l.filter (fun w => !isFill w.who)) :
    l.filter ok = (l.filter ok).filter (fun w => isFill w.who) ++ (l.filter ok).filter (fun w => !isFill w.who) := by
  have comm (f : CoolWait → Bool) : (l.filter ok).filter f = (l.filter f).filter ok := by
    simp only [List.filter_filter, Bool.and_comm]
  rw [comm, comm, ← List.filter_append, ← h]

theorem ledger_dropWait (h : Ledger s) (r : Requester) : Ledger (dropWait r s) where
  fillFloors := h.fillFloors
  compFloors := h.compFloors
  grants q := by
    have le := h.grants q
    cases q <;> exact le
  whole := h.whole
  asking := h.asking
  available := h.available
  waiting w hw := by
    have some := h.waiting w (List.mem_filter.1 hw).1
    cases e : w.who <;> rw [e] at some <;> exact some
  once := h.once.sublist (List.Sublist.map _ List.filter_sublist)
  fillsFirst := fillsFirst_filter _ h.fillsFirst

end Sys2Proof.Machine
end

section
/-! SUPPORT. What banks given, holds and compressors that ask keep of the cooling budget (R69, R71, R84, R85, R113). -/

namespace Sys2Proof.Machine

variable {p q : PosId} {a b : BankId} {c n : CompId} {r : Requester} {s t u : State} {x y : Untold} {e : QueueEntry}

theorem Moves.esd (h : Moves s t) : t.esd = s.esd := by
  have fixed := h.fixed
  exact congrArg (fun x => x.2.2.2.1) fixed

theorem Sends.esd {s t : State} (h : Sends s t) : t.esd = s.esd := by rw [h.rest]

/-- Settings and the grant table stand. -/
theorem Afloat.stand (h : Afloat s p) (steady : t.steady = s.steady) (hk : t.cooling = s.cooling) : Afloat t p :=
  h.of (cls_of_steady steady p) (asks_of_steady steady _).2 (by rw [State.grantOf, State.grantOf, hk])

/-! ### Banks to fills, and holds -/

theorem budget_grantBank (h : Budget x s) (hp : p ∈ x.shed ∨ (s.pos p).state = .pulse ∨ Afloat s p) (b : BankId) :
    Budget x (grantBank p b s) := by
  obtain ⟨others, -, rest⟩ := grantBank_apart p b s
  obtain ⟨state, -, gone⟩ := grantBank_own p b s
  have cooling : (grantBank p b s).cooling = s.cooling := by rw [rest]
  have float (q : PosId) (f : Afloat s q) : Afloat (grantBank p b s) q := f.stand (steady_grantBank p b s) cooling
  refine h.booked (booked_of cooling (by rw [rest]) (by rw [rest])) ?_
  refine h.streams.change p (fun q hq => by rw [(others q hq).1]; exact ⟨rfl, rfl⟩) (fun q _ => float q) (fun q _ ⟨w, hw, e⟩ => ?_)
    (by rw [rest]) (fun k => float p (h.streams.served p k)) fun out k => ?_
  · rw [grantBank_drawList] at hw
    obtain ⟨-, v, hv, e', -⟩ := taking_waiter hw
    exact ⟨v, hv, e'.trans e⟩
  · rcases state with ⟨-, pulse⟩ | ⟨apart, -⟩
    · rw [pulse] at k
      rcases k with k | ⟨k, -⟩ | ⟨-, k, -⟩
      · cases k
      · cases k
      · exact absurd rfl k
    · exact float p ((hp.resolve_left out).resolve_left apart)

theorem budget_joins (h : Budget x s) (hp : p ∈ x.shed ∨ (s.pos p).state = .pulse ∨ Afloat s p) (w : DrawWait) (hw : w.pos = p) :
    Budget x { s with drawList := s.drawList.filter (fun w => w.pos != p) ++ [w] } := by
  refine h.booked (booked_of rfl rfl rfl) (h.streams.change p (fun _ _ => ⟨rfl, rfl⟩) (fun _ _ => id) (fun q hq ⟨v, hv, e⟩ => ?_) rfl
    (h.streams.served p) fun out k => ?_)
  · rcases List.mem_append.1 hv with hv | hv
    · exact ⟨v, (List.mem_filter.1 hv).1, e⟩
    · rw [List.mem_singleton.1 hv, hw] at e
      exact absurd e.symm hq
  · rcases k with k | k | ⟨-, k, -⟩
    · exact h.streams.flowing p out (.inl k)
    · exact h.streams.flowing p out (.inr k)
    · exact (hp.resolve_left out).resolve_left k

theorem budget_drawRequest (h : Budget x s) (hp : p ∈ x.shed ∨ (s.pos p).state = .pulse ∨ Afloat s p) (k : DrawKind)
    (e : Option BankId) : Budget x (drawRequest p k e s) := by
  unfold drawRequest
  split
  · exact budget_grantBank h hp _
  · exact budget_joins h hp _ rfl

theorem budget_offered (h : Budget x s) (b : BankId) : Budget x (offered s b) := by
  unfold offered
  split
  · unfold offerBank
    split
    next w found =>
      have serves := List.find?_some found
      have linked := eligible_linked serves
      refine budget_grantBank h ?_ b
      by_cases shed : w.pos ∈ x.shed
      · exact .inl shed
      by_cases pulse : (s.pos w.pos).state = .pulse
      · exact .inr (.inl pulse)
      · exact .inr (.inr (h.streams.drawing w.pos shed ⟨w, List.mem_of_find?_eq_some found, rfl⟩ pulse linked))
    · exact h
  · exact h

theorem budget_offerPass (h : Budget x s) (l : List BankId) : Budget x (offerPass l s) := by
  cases hl : s.esd.latched with
  | true => rwa [offerPass_latched l hl]
  | false =>
    rw [offerPass_offered l hl]
    exact foldl_keep (fun u b _ hu => budget_offered hu b) h

/-- A hold begins, or takes another reason: of a fill that holds its floor, or for cooling. -/
theorem budget_enterHold (h : Budget x s) (reason : HoldReason)
    (hp : p ∈ x.shed ∨ Afloat s p ∨ reason = .cooling ∧ ¬ Draws s p) : Budget x (enterHold p reason s) := by
  have own : ((enterHold p reason s).pos p) = (s.pos p).heldFor reason := enterHold_pos p reason s
  obtain ⟨others, cooling, comps, -, list, evt⟩ := enterHold_rest p reason s
  have draws (q : PosId) : Draws (enterHold p reason s) q ↔ Draws s q := by rw [Draws, list]; rfl
  have float (q : PosId) (f : Afloat s q) : Afloat (enterHold p reason s) q := f.stand (steady_enterHold p reason s) cooling
  refine h.booked (booked_of cooling comps (moves_enterHold p reason .refl).esd) ?_
  refine h.streams.change p (fun q hq => by rw [others q hq]; exact ⟨rfl, rfl⟩) (fun q _ => float q) (fun q _ => (draws q).1)
    (by rw [evt]) (fun k => float p (h.streams.served p k)) fun out k => ?_
  rcases hp.resolve_left out with f | ⟨cooling, undrawn⟩
  · exact float p f
  · rw [own] at k
    rcases k with k | ⟨-, k⟩ | ⟨k, -⟩
    · cases k
    · exact absurd (congrArg some cooling) k
    · exact absurd ((draws p).1 k) undrawn

theorem budget_checksCD (h : Budget x s) (hp : p ∈ x.shed ∨ Afloat s p) : Budget x (checksCD p s) := by
  have asked := budget_drawRequest (p := p) h (hp.imp_right .inr) .ramp none
  unfold checksCD
  dsimp only
  split
  · exact budget_enterHold h .laneWarm (hp.imp_right .inl)
  · split
    · exact asked
    · exact budget_enterHold asked .bank (hp.imp_right fun f => .inl (f.stand (steady_drawRequest ..) (drawRequest_cools ..)))

/-- A position gives up its bank. -/
theorem Budget.frees (h : Budget x s) (k : Frees b s t) (steady : t.steady = s.steady) (esd : t.esd = s.esd) : Budget x t :=
  h.booked (booked_of k.cooling k.comps esd) (h.streams.still k.pos (fun _ f => f.stand steady k.cooling) k.draws k.lost)

theorem budget_moveBank (h : Budget x s) (b : BankId) (st : BankState) : Budget x (moveBank b st none s) := by
  obtain ⟨positions, -, comps, cooling, draws, evt⟩ := moveBank_rest b st s
  refine h.booked (booked_of cooling comps (moves_moveBank b st none .refl).esd) (h.streams.still (fun q => ?_)
    (fun _ f => f.stand (steady_moveBank ..) cooling) draws (by rw [evt]))
  rw [State.pos, positions]
  exact ⟨rfl, rfl⟩

theorem budget_unbanked (h : Budget x s) (p : PosId) : Budget x (s.modPos p (fun x => { x with bank := none })) := by
  have pos (q : PosId) : ((s.modPos p (fun x => { x with bank := none })).pos q).state = (s.pos q).state ∧
      ((s.modPos p (fun x => { x with bank := none })).pos q).holdReason = (s.pos q).holdReason := by
    by_cases e : q = p
    · subst e
      rw [State.modPos_pos]
      exact ⟨rfl, rfl⟩
    · rw [State.modPos_pos_ne _ _ _ _ e]
      exact ⟨rfl, rfl⟩
  exact h.booked (booked_of rfl rfl rfl) (h.streams.still pos
    (fun _ f => f.stand (steady_modPos _ _ _ fun _ => rfl) rfl) (fun _ => id) rfl)

/-! ### Compressors that ask (R84, R85, R113) -/

/-- Positions stand, and no fill loses of its grant. -/
theorem Streams.placed (h : Streams x s) (hp : t.positions = s.positions) (steady : t.steady = s.steady)
    (grants : ∀ q, (s.grantOf (.pos q)).grant ≤ (t.grantOf (.pos q)).grant) (draws : ∀ q, Draws t q → Draws s q)
    (lost : t.evt.plantLost = s.evt.plantLost) : Streams x t := by
  refine h.still (fun q => ?_) (fun q f => f.of (cls_of_steady steady q) (asks_of_steady steady _).2 (grants q)) draws lost
  rw [State.pos, hp]
  exact ⟨rfl, rfl⟩

/-- A compressor without a grant joins the tail of the wait list, where it cannot be served at once. -/
theorem budget_queueing (h : Budget x s) (hc : (s.comp c).state ≠ .unavailable) (grant : (s.grantOf (.comp c)).grant = 0)
    (out : ¬ CompWaits s c) (fits : s.fits c = false) : Budget x (s.queueing c) := by
  have asks : 0 < (s.grantOf (.comp c)).demand := h.ledger.asking c (h.ledger.available c hc)
  have floor : 0 < (s.grantOf (.comp c)).floor := by rw [h.ledger.compFloors]; exact asks
  have grants (r : Requester) : (s.queueing c).grantOf r = s.grantOf r := by cases r <;> rfl
  have wait : (s.queueing c).cooling.wait = s.cooling.wait ++ [⟨.comp c, s.clock⟩] := rfl
  have own := queueing_comp s c
  have others (n : CompId) (hn : n ≠ c) : (s.queueing c).comp n = s.comp n := queueing_comp_ne s hn
  have free : (s.queueing c).freeCapacity = s.freeCapacity := rfl
  have streams : Streams x (s.queueing c) := h.streams.still (fun _ => ⟨rfl, rfl⟩) (fun _ => id) (fun _ => id) rfl
  have esd : (s.queueing c).esd = s.esd := rfl
  generalize s.queueing c = t at *
  refine ⟨⟨fun p => ?_, fun n => ?_, fun r => ?_, fun n => ?_, fun n => ?_, fun n => ?_, fun w hw => ?_, ?_, ?_⟩, streams, ⟨fun l p => ?_,
    fun l w m hw => ?_⟩⟩
  · rw [grants]; exact h.ledger.fillFloors p
  · rw [grants]; exact h.ledger.compFloors n
  · rw [grants]; exact h.ledger.grants r
  · rw [grants]; exact h.ledger.whole n
  · rw [grants]
    by_cases e : n = c
    · subst e
      exact fun _ => asks
    · rw [others n e]
      exact h.ledger.asking n
  · by_cases e : n = c
    · subst e
      rw [own]
      exact fun _ => h.ledger.available n hc
    · rw [others n e]
      exact h.ledger.available n
  · rw [grants]
    rw [wait] at hw
    rcases List.mem_append.1 hw with hw | hw
    · exact h.ledger.waiting w hw
    · rw [List.mem_singleton.1 hw]
      exact ⟨grant, floor⟩
  · rw [wait, List.map_append, List.nodup_append]
    refine ⟨h.ledger.once, List.nodup_singleton _, fun r hr d hd => ?_⟩
    rw [List.mem_singleton.1 hd]
    rintro rfl
    obtain ⟨w, hw, who⟩ := List.mem_map.1 hr
    exact out ⟨w, hw, who⟩
  · rw [wait, List.filter_append, List.filter_append]
    have fills : [(⟨.comp c, s.clock⟩ : CoolWait)].filter (fun w => isFill w.who) = [] := rfl
    have comps : [(⟨.comp c, s.clock⟩ : CoolWait)].filter (fun w => !isFill w.who) = [⟨.comp c, s.clock⟩] := rfl
    rw [fills, comps, List.append_nil, ← List.append_assoc, ← h.ledger.fillsFirst]
  · rw [grants, free]
    rw [esd] at l
    exact h.balanced.derated l p
  · rw [grants, free]
    rw [esd] at l
    rw [wait] at hw
    cases hs : s.cooling.wait with
    | cons v k =>
      rw [hs] at hw
      cases hw
      exact h.balanced.head l _ k hs
    | nil =>
      rw [hs] at hw
      cases hw
      have above : ¬ (s.grantOf (.comp c)).demand ≤ s.freeCapacity := by
        unfold State.fits at fits
        rw [hs] at fits
        exact of_decide_eq_false fits
      rw [h.ledger.compFloors]
      exact Nat.lt_of_not_le above

/-- A compressor without a grant takes its demand, and a bank that can be assigned. -/
theorem budget_takes (h : Budget x s) (hc : (s.comp c).state ≠ .unavailable) (fits : s.fits c = true)
    (hq : ∃ e ∈ s.queue, assignable s e = true) : Budget x (compressorAsks c s) := by
  obtain ⟨e, l, ports, -, eq, waiters⟩ := compressorAsks_takes hq fits
  unfold State.fits at fits
  obtain ⟨empty, le⟩ := Bool.and_eq_true_iff.1 fits
  have empty := List.isEmpty_iff.1 empty
  have le := of_decide_eq_true le
  have asks : 0 < (s.grantOf (.comp c)).demand := h.ledger.asking c (h.ledger.available c hc)
  have served : Ledger (s.serving c) := ledger_setGrant (h.ledger.booked (t := budgetChanged .served s) (booked_of rfl rfl rfl))
    (Nat.le_refl _) (fun _ _ => .inr rfl) (.inr fun w hw => by
      have none : (budgetChanged .served s).cooling.wait = [] := empty
      rw [none] at hw
      cases hw)
  have wait : (s.serving c).cooling.wait = [] := empty
  have fills (p : PosId) : (s.serving c).grantOf (.pos p) = s.grantOf (.pos p) := rfl
  have comp (n : CompId) : (s.serving c).comp n = s.comp n := rfl
  have esd : (s.serving c).esd = s.esd := rfl
  have positions : (s.serving c).positions = s.positions := rfl
  have lost : (s.serving c).evt.plantLost = s.evt.plantLost := rfl
  have draws : (s.serving c).drawList = s.drawList := rfl
  have steady : (compressorAsks c s).steady = s.steady := steady_compressorAsks c s
  generalize s.serving c = u at *
  generalize compressorAsks c s = t at *
  have own : t.comp c = (u.comp c).filling e u.clock := by
    rw [eq]
    exact State.setComp_comp (u.setBank e.bank _) c _
  have others (n : CompId) (hn : n ≠ c) : t.comp n = u.comp n := by
    rw [eq]
    exact State.setComp_comp_ne _ _ _ _ hn
  have booked : Booked u t := by
    refine ⟨by rw [eq]; rfl, fun r => by rw [eq]; cases r <;> rfl, fun r => by rw [eq]; cases r <;> exact ⟨rfl, rfl⟩, by rw [eq]; rfl,
      fun n => ?_, fun n => ?_, by rw [eq]; rfl⟩
    · by_cases k : n = c
      · subst k
        rw [own]
        rfl
      · rw [others n k]
    · by_cases k : n = c
      · subst k
        rw [comp]
        exact fun _ => hc
      · rw [others n k]
        exact id
  have free : s.freeCapacity ≠ 0 := by omega
  refine ⟨served.booked booked, h.streams.placed (by rw [eq]; exact positions) steady (fun q => ?_) (fun q ⟨w, hw, pos⟩ => ?_)
    (by rw [eq]; exact lost), ⟨fun l p some less => ?_, fun _ w m hw => ?_⟩⟩
  · rw [booked.grant, fills]
  · rw [eq] at hw
    obtain ⟨v, hv, same, -⟩ := waiters w hw
    rw [draws] at hv
    exact ⟨v, hv, same.trans pos⟩
  · rw [booked.esd, esd] at l
    rw [booked.grant, fills] at some less
    rw [(booked.asks _).1, fills] at less
    exact absurd (h.balanced.derated l p some less) free
  · rw [booked.wait, wait] at hw
    cases hw

/-- A READY compressor asks while an entry can be assigned. -/
theorem budget_compressorAsks (k : Sound x s) (h : Budget x s) (hc : (s.comp c).state = .ready)
    (hq : ∃ e ∈ s.queue, assignable s e = true) : Budget x (compressorAsks c s) := by
  have up : (s.comp c).state ≠ .unavailable := by rw [hc]; decide
  cases fits : s.fits c with
  | true => exact budget_takes h up fits hq
  | false =>
    rw [compressorAsks_eq, fits]
    refine budget_queueing h up ?_ (fun w => ?_) fits
    · by_contra grant
      rcases k.comps.refills c grant with e | e
      · rw [hc] at e
        cases e
      · have waits := k.comps.served c e
        rw [hc] at waits
        cases waits
    · have waits := (k.comps.waiting c w).1
      rw [hc] at waits
      cases waits

theorem budget_assignmentPass (k : Sound x s) (h : Budget x s) : Budget x (assignmentPass s) := by
  cases hl : s.esd.latched with
  | true => rwa [assignmentPass_latched hl]
  | false =>
    rw [assignmentPass_unlatched hl]
    refine (foldl_keep (keep := fun u => Sound x u ∧ Budget x u) (fun u c _ hu => ?_) ⟨k, h⟩).2
    obtain ⟨sound, budget⟩ := hu
    unfold asksInTurn
    split
    next asks =>
      obtain ⟨ready, backlog⟩ := Bool.and_eq_true_iff.1 asks
      exact ⟨sound_compressorAsks sound (eq_of_beq ready) (backlog_assignable backlog),
        budget_compressorAsks sound budget (eq_of_beq ready) (backlog_assignable backlog)⟩
    · exact ⟨sound, budget⟩

theorem budget_tellIdle (k : Sound x s) (h : Budget x s) (b : BankId) : Budget x (tellIdle b s) := by
  unfold tellIdle
  split
  · exact budget_assignmentPass k h
  · split
    · split
      · exact budget_assignmentPass (k.unmoved (unmoved_queue s _)) (h.unmoved (unmoved_queue s _) rfl)
      · exact h
    · exact h

theorem budget_bankIdle (k : Sound x s) (h : Budget x s) (b : BankId) : Budget x (bankIdle b s) := by
  have sound := sound_offerPass k [b]
  have offered := budget_offerPass h [b]
  unfold bankIdle
  dsimp only
  split
  · exact budget_tellIdle sound offered b
  · exact offered

/-- The position that gives up its bank leaves the bank to nobody. -/
theorem Sound.left (k : Sound x s) (hb : (s.pos p).bank = some b) (q : PosId) :
    ((s.modPos p (fun x => { x with bank := none })).pos q).bank ≠ some b := by
  by_cases e : q = p
  · subst e
    rw [State.modPos_pos]
    exact fun k => nomatch k
  · rw [State.modPos_pos_ne _ _ _ _ e]
    exact k.banks.alone hb e

theorem budget_releaseBank (k : Sound x s) (h : Budget x s) (p : PosId) : Budget x (releaseBank p s) := by
  unfold releaseBank
  split
  · exact h
  next b hb =>
    exact budget_bankIdle (sound_moveBank (sound_unbanked k p) (k.left hb) .idle) (budget_moveBank (budget_unbanked h p) b .idle) b

theorem budget_toIdle (k : Sound x s) (h : Budget x s) (hb : (s.bank b).state ≠ .drawing) : Budget x (toIdle b s) :=
  budget_bankIdle (sound_moveBank k (k.no_fill hb) .idle) (budget_moveBank h b .idle) b

end Sys2Proof.Machine
end

section
/-! SUPPORT. What the passes of a redistribution make of the cooling budget (R115). -/

namespace Sys2Proof.Machine

variable {p q : PosId} {a b : BankId} {c n : CompId} {r : Requester} {s t u : State} {x y : Untold}
  {fs ps sh : List PosId} {cs : List CompId} {g : Option PosId}

/-- A fill holds a grant below its demand (R110). -/
def Derated (s : State) (p : PosId) : Prop :=
  (s.grantOf (.pos p)).grant ≠ 0 ∧ (s.grantOf (.pos p)).grant < (s.grantOf (.pos p)).demand

/-- Nothing is free while a fill is derated (R115). -/
def Evened (s : State) : Prop := ∀ p, Derated s p → s.freeCapacity = 0

/-- What is free moves with the one grant that changes. -/
theorem setGrant_free (r : Requester) (k : Nat) (s : State) :
    (setGrant r k s).freeCapacity = s.cooling.capacity - (s.sumGrants + k - (s.grantOf r).grant) := by
  have sum := setGrant_sumGrants r k s
  unfold State.freeCapacity
  rw [setGrant_capacity]
  omega

theorem setGrant_asks (r o : Requester) (k : Nat) (s : State) : ((setGrant r k s).grantOf o).demand = (s.grantOf o).demand ∧
    ((setGrant r k s).grantOf o).floor = (s.grantOf o).floor := asks_of_steady (steady_setGrant r k s) o

/-! ### Derated fills are raised -/

/-- A derated fill is raised toward its demand (R115). -/
def raise (s : State) (r : Requester) : State :=
  match r with
  | .pos p =>
    let e := s.grantOf r
    if e.derated && decide (0 < s.freeCapacity) then
      setGrant (.pos p) (e.grant + min (e.demand - e.grant) s.freeCapacity) (budgetChanged .served s)
    else s
  | .comp _ => s

theorem raiseDerated_eq (s : State) : raiseDerated s = s.cooling.order.foldl raise s := rfl

theorem raise_pos (h : Derated s p) (free : 0 < s.freeCapacity) : raise s (.pos p) =
    setGrant (.pos p) ((s.grantOf (.pos p)).grant + min ((s.grantOf (.pos p)).demand - (s.grantOf (.pos p)).grant) s.freeCapacity)
      (budgetChanged .served s) := by
  obtain ⟨some, less⟩ := h
  unfold raise
  dsimp only
  refine if_pos ?_
  simp only [GrantEntry.derated, Bool.and_eq_true, decide_eq_true_eq]
  exact ⟨⟨Nat.pos_of_ne_zero some, less⟩, free⟩

theorem raise_not (h : ¬ (Derated s p ∧ 0 < s.freeCapacity)) : raise s (.pos p) = s := by
  unfold raise
  dsimp only
  refine if_neg fun k => h ?_
  simp only [GrantEntry.derated, Bool.and_eq_true, decide_eq_true_eq] at k
  exact ⟨⟨Nat.ne_of_gt k.1.1, k.1.2⟩, k.2⟩

/-- What raising leaves: no grant falls, none begins. -/
structure Raises (s t : State) : Prop where
  ledger : Ledger s → Ledger t
  grants : ∀ p, (s.grantOf (.pos p)).grant ≤ (t.grantOf (.pos p)).grant
  begun : ∀ p, (t.grantOf (.pos p)).grant ≠ 0 → (s.grantOf (.pos p)).grant ≠ 0

theorem Raises.refl (s : State) : Raises s s := ⟨id, fun _ => Nat.le_refl _, fun _ => id⟩

theorem Raises.trans (h : Raises s t) (k : Raises t u) : Raises s u :=
  ⟨k.ledger ∘ h.ledger, fun p => Nat.le_trans (h.grants p) (k.grants p), fun p => h.begun p ∘ k.begun p⟩

theorem raises_raise (s : State) (r : Requester) : Raises s (raise s r) := by
  cases r with
  | comp c => exact .refl s
  | pos p =>
    by_cases k : Derated s p ∧ 0 < s.freeCapacity
    · obtain ⟨⟨some, less⟩, free⟩ := k
      rw [raise_pos ⟨some, less⟩ free]
      refine ⟨fun h => ?_, fun q => ?_, fun q => ?_⟩
      · refine ledger_setGrant (h.booked (t := budgetChanged .served s) (booked_of rfl rfl rfl)) ?_ (fun c e => nomatch e)
          (.inr fun w hw e => ?_)
        · change _ ≤ (s.grantOf (.pos p)).demand
          omega
        · have none := (h.waiting w hw).1
          rw [e] at none
          exact some none
      · rw [setGrant_grantOf]
        split
        next e =>
          rw [e]
          omega
        · exact Nat.le_refl _
      · rw [setGrant_grantOf]
        split
        next e =>
          rw [e]
          exact fun _ => some
        · exact id
    · rw [raise_not k]
      exact .refl s

theorem raise_evens (r : Requester) (done : List Requester) (h : ∀ p, .pos p ∈ done → Derated s p → s.freeCapacity = 0) :
    ∀ p, .pos p ∈ r :: done → Derated (raise s r) p → (raise s r).freeCapacity = 0 := by
  intro q hq
  cases r with
  | comp c => exact h q ((List.mem_cons.1 hq).resolve_left Requester.noConfusion)
  | pos p =>
    by_cases k : Derated s p ∧ 0 < s.freeCapacity
    · obtain ⟨derated, free⟩ := k
      rw [raise_pos derated free]
      obtain ⟨some, less⟩ := derated
      rintro ⟨above, below⟩
      rw [(setGrant_asks ..).1, setGrant_grantOf] at below
      rw [setGrant_grantOf] at above
      rw [setGrant_free]
      have sum : (budgetChanged .served s).sumGrants = s.sumGrants := rfl
      have capacity : (budgetChanged .served s).cooling.capacity = s.cooling.capacity := rfl
      have grant (r : Requester) : (budgetChanged .served s).grantOf r = s.grantOf r := by cases r <;> rfl
      rw [sum, capacity, grant]
      unfold State.freeCapacity at *
      by_cases e : q = p
      · rw [if_pos (by rw [e]), e, grant] at below
        omega
      · have apart : Requester.pos q ≠ .pos p := fun k => e (Requester.pos.inj k)
        rw [if_neg apart, grant] at below above
        have none := h q ((List.mem_cons.1 hq).resolve_left apart) ⟨above, below⟩
        unfold State.freeCapacity at none
        omega
    · rw [raise_not k]
      intro derated
      rcases List.mem_cons.1 hq with e | hq
      · rw [Requester.pos.inj e] at derated
        exact Nat.eq_zero_of_not_pos fun free => k ⟨derated, free⟩
      · exact h q hq derated

theorem raise_foldl (l done : List Requester) (h : ∀ p, .pos p ∈ done → Derated s p → s.freeCapacity = 0) :
    ∀ p, .pos p ∈ done ∨ .pos p ∈ l → Derated (l.foldl raise s) p → (l.foldl raise s).freeCapacity = 0 := by
  induction l generalizing s done with
  | nil => exact fun p hp => h p (hp.resolve_right List.not_mem_nil)
  | cons r l ih =>
    intro p hp
    refine ih (r :: done) (raise_evens r done h) p ?_
    rcases hp with hp | hp
    · exact .inl (List.mem_cons_of_mem _ hp)
    · rcases List.mem_cons.1 hp with e | hp
      · exact .inl (e ▸ List.mem_cons_self)
      · exact .inr hp

theorem raises_raiseDerated (s : State) : Raises s (raiseDerated s) := by
  rw [raiseDerated_eq]
  exact foldl_keep (keep := Raises s) (fun u r _ hu => hu.trans (raises_raise u r)) (.refl s)

theorem raiseDerated_evened (order : SoundOrder s) : Evened (raiseDerated s) := by
  intro p derated
  have held := (order.ordered (.pos p)).2 ((raises_raiseDerated s).begun p derated.1)
  rw [raiseDerated_eq] at derated ⊢
  exact raise_foldl s.cooling.order [] (fun _ k => nomatch k) p (.inr held) derated

/-! ### Waiting fills are served -/

/-- A fill that waits is given what is free of its demand, and leaves the list. -/
def serveFill (p : PosId) (s : State) : State :=
  grantFill p (min (s.grantOf (.pos p)).demand s.freeCapacity) (dropWait (.pos p) (budgetChanged .served s))

/-- A grant whose billing may be told. -/
theorem grantFill_setGrant (p : PosId) (k : Nat) (s : State) : Booked (setGrant (.pos p) k s) (grantFill p k s) := by
  unfold grantFill
  dsimp only
  split
  · obtain ⟨w, e⟩ := modRecord_eq p (fun r => { r with flags := { r.flags with derated := true } }) (setGrant (.pos p) k s)
    unfold tellDerated
    rw [e]
    exact booked_of rfl rfl rfl
  · exact booked_of rfl rfl rfl

theorem dropWait_head {w : CoolWait} {l : List CoolWait} (wait : s.cooling.wait = w :: l) (once : (s.cooling.wait.map (·.who)).Nodup) :
    (dropWait w.who s).cooling.wait = l := by
  rw [wait, List.map_cons, List.nodup_cons] at once
  have list : (dropWait w.who s).cooling.wait = (w :: l).filter (fun v => v.who != w.who) := by
    rw [← wait]
    rfl
  rw [list, List.filter_cons_of_neg (by simp), List.filter_eq_self]
  intro v hv
  rw [bne_iff_ne]
  exact fun e => once.1 (List.mem_map.2 ⟨v, hv, e⟩)

/-- What the service of the head of the wait list leaves: no grant of a fill falls. -/
structure Serves1 (l : List CoolWait) (s t : State) : Prop where
  ledger : Ledger t
  evened : Evened t
  wait : t.cooling.wait = l
  grants : ∀ p, (s.grantOf (.pos p)).grant ≤ (t.grantOf (.pos p)).grant

theorem serves_fill {w : CoolWait} {l : List CoolWait} (h : Ledger s) (even : Evened s) (wait : s.cooling.wait = w :: l)
    (who : w.who = .pos p) (fits : (s.grantOf (.pos p)).floor ≤ s.freeCapacity) :
    Serves1 l s (serveFill p s) ∧ ((serveFill p s).grantOf (.pos p)).floor ≤ ((serveFill p s).grantOf (.pos p)).grant := by
  obtain ⟨none, floor⟩ := h.waiting w (by rw [wait]; exact List.mem_cons_self)
  rw [who] at none floor
  have begun : Ledger (budgetChanged .served s) := h.booked (booked_of rfl rfl rfl)
  have left : (dropWait (.pos p) (budgetChanged .served s)).cooling.wait = l := by
    rw [← who]
    exact dropWait_head (s := budgetChanged .served s) wait h.once
  have out (v : CoolWait) (hv : v ∈ l) : v.who ≠ .pos p := fun e => by
    have once := h.once
    rw [wait, List.map_cons, List.nodup_cons] at once
    exact once.1 (List.mem_map.2 ⟨v, hv, e.trans who.symm⟩)
  have dropped := ledger_dropWait begun (.pos p)
  have grant (r : Requester) : (dropWait (.pos p) (budgetChanged .served s)).grantOf r = s.grantOf r := by cases r <;> rfl
  have free : (dropWait (.pos p) (budgetChanged .served s)).freeCapacity = s.freeCapacity := rfl
  have fillFloor := h.fillFloors p
  unfold serveFill
  generalize hk : min (s.grantOf (.pos p)).demand s.freeCapacity = k
  generalize dropWait (.pos p) (budgetChanged .served s) = u at *
  have booked := grantFill_setGrant p k u
  generalize grantFill p k u = t at booked
  have served : Ledger (setGrant (.pos p) k u) := ledger_setGrant dropped (by rw [grant]; omega) (fun c e => nomatch e)
    (.inr (by rw [left]; exact out))
  have given (q : PosId) : (t.grantOf (.pos q)).grant = if q = p then k else (s.grantOf (.pos q)).grant := by
    rw [booked.grant, setGrant_grantOf, grant]
    simp
  have asks (q : PosId) : (t.grantOf (.pos q)).demand = (s.grantOf (.pos q)).demand ∧
      (t.grantOf (.pos q)).floor = (s.grantOf (.pos q)).floor := by
    rw [(booked.asks _).1, (booked.asks _).2, (setGrant_asks ..).1, (setGrant_asks ..).2, grant]
    exact ⟨rfl, rfl⟩
  have rest : t.freeCapacity = s.freeCapacity - k := by
    rw [booked.free, setGrant_free, grant, none]
    unfold State.freeCapacity at free ⊢
    omega
  refine ⟨⟨served.booked booked, fun q derated => ?_, by rw [booked.wait, setGrant_wait]; exact left, fun q => ?_⟩, ?_⟩
  · rw [rest]
    obtain ⟨above, below⟩ := derated
    rw [given, (asks q).1] at below
    rw [given] at above
    by_cases e : q = p
    · subst e
      rw [if_pos rfl] at below
      omega
    · rw [if_neg e] at below above
      have zero := even q ⟨above, below⟩
      omega
  · rw [given]
    split
    next e =>
      rw [e, none]
      exact Nat.zero_le k
    · exact Nat.le_refl _
  · rw [(asks p).2, given, if_pos rfl]
    omega

/-- What the service of fills leaves. -/
structure FillsServed (s : State) (r : State × List PosId) : Prop where
  ledger : Ledger r.1
  evened : Evened r.1
  grants : ∀ p, (s.grantOf (.pos p)).grant ≤ (r.1.grantOf (.pos p)).grant
  floors : ∀ p ∈ r.2, (r.1.grantOf (.pos p)).floor ≤ (r.1.grantOf (.pos p)).grant
  head : ∀ w l, r.1.cooling.wait = w :: l → isFill w.who = true → r.1.freeCapacity < (r.1.grantOf w.who).floor

theorem serveFills_serves (l : List CoolWait) (h : Ledger s) (even : Evened s) (wait : s.cooling.wait = l) :
    FillsServed s (serveFills l s) := by
  have stop (head : ∀ w m, s.cooling.wait = w :: m → isFill w.who = true → s.freeCapacity < (s.grantOf w.who).floor) :
      FillsServed s (s, []) := ⟨h, even, fun _ => Nat.le_refl _, fun p hp => (nomatch hp), head⟩
  induction l generalizing s with
  | nil => exact stop fun w m e => by rw [wait] at e; cases e
  | cons w l ih =>
    unfold serveFills
    split
    next c who =>
      refine stop fun v m e fill => ?_
      rw [wait] at e
      obtain ⟨rfl, -⟩ := List.cons.inj e
      rw [who] at fill
      cases fill
    next p who =>
      dsimp only
      split
      next fits =>
        obtain ⟨served, floor⟩ := serves_fill h even wait who fits
        change FillsServed s ((serveFills l (serveFill p s)).1, p :: (serveFills l (serveFill p s)).2)
        generalize serveFill p s = u at *
        obtain ⟨ledger, even, left, grants⟩ := served
        have rest := ih ledger even left fun head => ⟨ledger, even, fun _ => Nat.le_refl _, fun p hp => (nomatch hp), head⟩
        refine ⟨rest.ledger, rest.evened, fun q => Nat.le_trans (grants q) (rest.grants q), fun q hq => ?_, rest.head⟩
        rcases List.mem_cons.1 hq with rfl | hq
        · have asks := (asks_of_steady (steady_serveFills l u) (.pos q)).2
          rw [asks]
          exact Nat.le_trans floor (rest.grants q)
        · exact rest.floors q hq
      next fits =>
        refine stop fun v m e _ => ?_
        rw [wait] at e
        obtain ⟨rfl, -⟩ := List.cons.inj e
        rw [who]
        exact Nat.lt_of_not_le fits

end Sys2Proof.Machine
end

section
/-! SUPPORT. What a whole redistribution keeps of the cooling budget, with the hand-backs of compressors (R85, R114 to R116). -/

namespace Sys2Proof.Machine

variable {p q : PosId} {a b : BankId} {c n : CompId} {r : Requester} {s t u : State} {x y : Untold}
  {fs ps sh : List PosId} {cs : List CompId} {g : Option PosId}

/-! ### Waiting compressors are served -/

/-- A compressor that waits is given its demand, and leaves the list. -/
def serveComp (c : CompId) (s : State) : State :=
  setGrant (.comp c) (s.grantOf (.comp c)).demand (dropWait (.comp c) (budgetChanged .served s))

/-- Less is free than a fill at the head of the wait list asks for. -/
def FillsStop (s : State) : Prop :=
  ∀ w l, s.cooling.wait = w :: l → isFill w.who = true → s.freeCapacity < (s.grantOf w.who).floor

/-- No fill stands behind a compressor. -/
theorem Ledger.behind {w v : CoolWait} {l m : List CoolWait} (h : Ledger s) (wait : s.cooling.wait = w :: l) (who : w.who = .comp c)
    (next : l = v :: m) : isFill v.who = false := by
  have first := h.fillsFirst
  rw [wait, List.filter_cons_of_neg (by rw [who]; simp [isFill]), List.filter_cons_of_pos (by rw [who]; rfl)] at first
  by_contra fill
  have listed : v ∈ l.filter (fun w => isFill w.who) :=
    List.mem_filter.2 ⟨by rw [next]; exact List.mem_cons_self, Bool.eq_true_of_not_eq_false fill⟩
  cases hl : l.filter (fun w => isFill w.who) with
  | nil =>
    rw [hl] at listed
    cases listed
  | cons u k =>
    rw [hl] at first
    obtain ⟨same, -⟩ := List.cons.inj first
    have fills : u ∈ l.filter (fun w => isFill w.who) := by rw [hl]; exact List.mem_cons_self
    have fills := (List.mem_filter.1 fills).2
    rw [← same, who] at fills
    cases fills

theorem serves_comp {w : CoolWait} {l : List CoolWait} (h : Ledger s) (even : Evened s) (wait : s.cooling.wait = w :: l)
    (who : w.who = .comp c) (fits : (s.grantOf (.comp c)).demand ≤ s.freeCapacity) :
    Serves1 l s (serveComp c s) ∧ FillsStop (serveComp c s) := by
  obtain ⟨none, floor⟩ := h.waiting w (by rw [wait]; exact List.mem_cons_self)
  rw [who] at none floor
  rw [h.compFloors] at floor
  have begun : Ledger (budgetChanged .served s) := h.booked (booked_of rfl rfl rfl)
  have left : (dropWait (.comp c) (budgetChanged .served s)).cooling.wait = l := by
    rw [← who]
    exact dropWait_head (s := budgetChanged .served s) wait h.once
  have out (v : CoolWait) (hv : v ∈ l) : v.who ≠ .comp c := fun e => by
    have once := h.once
    rw [wait, List.map_cons, List.nodup_cons] at once
    exact once.1 (List.mem_map.2 ⟨v, hv, e.trans who.symm⟩)
  have dropped := ledger_dropWait begun (.comp c)
  have grant (r : Requester) : (dropWait (.comp c) (budgetChanged .served s)).grantOf r = s.grantOf r := by cases r <;> rfl
  unfold serveComp
  generalize dropWait (.comp c) (budgetChanged .served s) = u at *
  have list : (setGrant (.comp c) (s.grantOf (.comp c)).demand u).cooling.wait = l := by rw [setGrant_wait]; exact left
  have fills (q : PosId) : (setGrant (.comp c) (s.grantOf (.comp c)).demand u).grantOf (.pos q) = s.grantOf (.pos q) :=
    (setGrant_grantOf_ne (by simp) _ u).trans (grant _)
  refine ⟨⟨ledger_setGrant dropped (by rw [grant]) (fun n e => .inr (by rw [grant])) (.inr (by rw [left]; exact out)),
    fun q derated => ?_, list, fun q => by rw [fills]⟩, fun v m e fill => ?_⟩
  · rw [Derated, fills] at derated
    have zero := even q derated
    omega
  · rw [list] at e
    rw [h.behind wait who e] at fill
    cases fill

/-- What the service of compressors leaves. -/
structure CompsServed (s : State) (r : State × List CompId) : Prop where
  ledger : Ledger r.1
  evened : Evened r.1
  grants : ∀ p, (s.grantOf (.pos p)).grant ≤ (r.1.grantOf (.pos p)).grant
  head : ∀ w l, r.1.cooling.wait = w :: l → r.1.freeCapacity < (r.1.grantOf w.who).floor

theorem serveComps_serves (l : List CoolWait) (h : Ledger s) (even : Evened s) (stop : FillsStop s) (wait : s.cooling.wait = l) :
    CompsServed s (serveComps l s) := by
  have stops (head : ∀ w m, s.cooling.wait = w :: m → s.freeCapacity < (s.grantOf w.who).floor) : CompsServed s (s, []) :=
    ⟨h, even, fun _ => Nat.le_refl _, head⟩
  induction l generalizing s with
  | nil => exact stops fun w m e => by rw [wait] at e; cases e
  | cons w l ih =>
    unfold serveComps
    split
    next p who =>
      refine stops fun v m e => ?_
      rw [wait] at e
      obtain ⟨rfl, -⟩ := List.cons.inj e
      exact stop w l wait (by rw [who]; rfl)
    next c who =>
      dsimp only
      split
      next fits =>
        obtain ⟨served, stop⟩ := serves_comp h even wait who fits
        change CompsServed s ((serveComps l (serveComp c s)).1, c :: (serveComps l (serveComp c s)).2)
        generalize serveComp c s = u at *
        obtain ⟨ledger, even, left, grants⟩ := served
        have rest := ih ledger even stop left fun head => ⟨ledger, even, fun _ => Nat.le_refl _, head⟩
        exact ⟨rest.ledger, rest.evened, fun q => Nat.le_trans (grants q) (rest.grants q), rest.head⟩
      next fits =>
        refine stops fun v m e => ?_
        rw [wait] at e
        obtain ⟨rfl, -⟩ := List.cons.inj e
        rw [who, h.compFloors]
        exact Nat.lt_of_not_le fits

/-! ### The passes together -/

theorem serveFills_places (l : List CoolWait) (s : State) : (serveFills l s).1.positions = s.positions ∧
    (serveFills l s).1.comps = s.comps ∧ (serveFills l s).1.drawList = s.drawList := by
  induction l generalizing s with
  | nil => exact ⟨rfl, rfl, rfl⟩
  | cons w l ih =>
    unfold serveFills
    split
    · exact ⟨rfl, rfl, rfl⟩
    next p _ =>
      dsimp only
      split
      · have given : ∀ k v, (grantFill p k v).positions = v.positions ∧ (grantFill p k v).comps = v.comps ∧
            (grantFill p k v).drawList = v.drawList := fun k v => by
          unfold grantFill
          dsimp only
          split
          · obtain ⟨w, e⟩ := modRecord_eq p (fun r => { r with flags := { r.flags with derated := true } }) (setGrant (.pos p) k v)
            unfold tellDerated
            rw [e]
            exact ⟨rfl, rfl, rfl⟩
          · exact ⟨rfl, rfl, rfl⟩
        obtain ⟨hp, hc, hd⟩ := given (min (s.grantOf (.pos p)).demand s.freeCapacity) (dropWait (.pos p) (budgetChanged .served s))
        obtain ⟨kp, kc, kd⟩ := ih (grantFill p (min (s.grantOf (.pos p)).demand s.freeCapacity)
          (dropWait (.pos p) (budgetChanged .served s)))
        exact ⟨kp.trans hp, kc.trans hc, kd.trans hd⟩
      · exact ⟨rfl, rfl, rfl⟩

theorem serveComps_places (l : List CoolWait) (s : State) : (serveComps l s).1.positions = s.positions ∧
    (serveComps l s).1.comps = s.comps ∧ (serveComps l s).1.drawList = s.drawList := by
  induction l generalizing s with
  | nil => exact ⟨rfl, rfl, rfl⟩
  | cons w l ih =>
    unfold serveComps
    split
    · exact ⟨rfl, rfl, rfl⟩
    next c _ =>
      dsimp only
      split
      · exact ih _
      · exact ⟨rfl, rfl, rfl⟩

theorem redistributePasses_places (s : State) : (redistributePasses s).1.positions = s.positions ∧
    (redistributePasses s).1.comps = s.comps ∧ (redistributePasses s).1.drawList = s.drawList := by
  unfold redistributePasses
  split
  · exact ⟨rfl, rfl, rfl⟩
  · dsimp only
    have raised : (raiseDerated s).positions = s.positions ∧ (raiseDerated s).comps = s.comps ∧
        (raiseDerated s).drawList = s.drawList := by
      rw [(raiseDerated_rest s).1]
      exact ⟨rfl, rfl, rfl⟩
    generalize raiseDerated s = u at *
    obtain ⟨hp, hc, hd⟩ := raised
    obtain ⟨kp, kc, kd⟩ := serveFills_places u.cooling.wait u
    generalize serveFills u.cooling.wait u = r at *
    obtain ⟨mp, mc, md⟩ := serveComps_places r.1.cooling.wait r.1
    exact ⟨mp.trans (kp.trans hp), mc.trans (kc.trans hc), md.trans (kd.trans hd)⟩

/-- After the passes the budget is balanced, and the fills served hold their floor. -/
theorem budget_redistributePasses (k : Sound ⟨[], [], sh, g⟩ s) (h : Ledger s) (f : Streams ⟨[], [], sh, g⟩ s) :
    Budget ⟨(redistributePasses s).2.1, (redistributePasses s).2.2, sh, g⟩ (redistributePasses s).1 := by
  have moves := moves_redistributePasses (s := s) .refl
  obtain ⟨places, -, draws⟩ := redistributePasses_places s
  cases hl : s.esd.latched with
  | true =>
    have same : redistributePasses s = (s, [], []) := if_pos hl
    rw [same]
    exact ⟨h, ⟨f.flowing, f.drawing, f.served⟩, ⟨fun l => absurd (hl.symm.trans l) (by decide), fun l => absurd (hl.symm.trans l) (by decide)⟩⟩
  | false =>
    have passed : redistributePasses s =
        let s := raiseDerated s
        let r2 := serveFills s.cooling.wait s
        let r3 := serveComps r2.1.cooling.wait r2.1
        (r3.1, r2.2, r3.2) := by
      unfold redistributePasses
      rw [if_neg (by rw [hl]; decide)]
    have raised := raises_raiseDerated s
    have fills := serveFills_serves (raiseDerated s).cooling.wait (raised.ledger h) (raiseDerated_evened k.order) rfl
    have comps := serveComps_serves (serveFills (raiseDerated s).cooling.wait (raiseDerated s)).1.cooling.wait fills.ledger fills.evened
      fills.head rfl
    have steady := steady_serveComps (serveFills (raiseDerated s).cooling.wait (raiseDerated s)).1.cooling.wait
      (serveFills (raiseDerated s).cooling.wait (raiseDerated s)).1
    have all := steady_redistributePasses s
    rw [passed] at moves places draws all ⊢
    dsimp only at moves places draws all ⊢
    generalize serveFills (raiseDerated s).cooling.wait (raiseDerated s) = r2 at *
    generalize serveComps r2.1.cooling.wait r2.1 = r3 at *
    have grants (q : PosId) := Nat.le_trans (Nat.le_trans (raised.grants q) (fills.grants q)) (comps.grants q)
    have streams : Streams ⟨[], [], sh, g⟩ r3.1 := f.placed places all grants (fun q => by rw [Draws, draws]; exact id) moves.lost
    refine ⟨comps.ledger, ⟨streams.flowing, streams.drawing, fun p hp k _ _ => ?_⟩, ⟨fun _ p some less => comps.evened p ⟨some, less⟩,
      fun _ => comps.head⟩⟩
    rw [(asks_of_steady steady _).2]
    exact Nat.le_trans (fills.floors p hp) (comps.grants p)

/-! ### The holders told (R116) -/

/-- After the fills and while the compressors are told: a hand-back unsettles the budget, and takes a compressor out of
COOLING_WAIT. -/
structure Handed (w : Nat) (r : State × Bool) : Prop where
  ledger : Ledger r.1
  streams : Streams .none r.1
  balanced : r.2 = false → Balanced r.1
  le : r.1.coolingWaiters ≤ w
  fewer : r.2 = true → r.1.coolingWaiters < w

theorem coolingWaiters_of (h : t.comps = s.comps) : t.coolingWaiters = s.coolingWaiters := by
  have comp (c : CompId) : t.comp c = s.comp c := by rw [State.comp, h]; rfl
  unfold State.coolingWaiters
  simp only [comp]

/-- One compressor fewer waits. -/
theorem coolingWaiters_fewer (waits : (s.comp c).state = .coolingWait) (left : (t.comp c).state ≠ .coolingWait)
    (others : ∀ n, n ≠ c → t.comp n = s.comp n) : t.coolingWaiters < s.coolingWaiters := by
  have fewer := filter_length_succ_le allComps (fun c => (t.comp c).state == .coolingWait) (fun c => (s.comp c).state == .coolingWait)
    c (by decide) (mem_allComps c) (by simpa using left) (by simpa using waits) fun n _ hn => by
      by_cases e : n = c
      · subst e
        exact absurd (eq_of_beq hn) left
      · rwa [others n e] at hn
  exact fewer

theorem startRefill_handed (k : Sound ⟨fs, c :: cs, sh, g⟩ s) (h : Ledger s) (f : Streams .none s) {w : Nat} (back : Bool)
    (balanced : back = false → Balanced s) (le : s.coolingWaiters ≤ w) :
    Handed w ((startRefill c s).1, back || (startRefill c s).2) := by
  have waits := k.comps.served c List.mem_cons_self
  have steady := steady_startRefill c s
  cases hf : s.queue.find? (assignable s) with
  | some e =>
    obtain ⟨l, ports, eq, waiters⟩ := startRefill_takes (c := c) hf
    have first := congrArg Prod.fst eq
    have flag : (startRefill c s).2 = false := congrArg Prod.snd eq
    generalize (startRefill c s).1 = t at *
    have own : t.comp c = (s.comp c).filling e s.clock := by
      rw [first]
      exact State.setComp_comp (s.setBank e.bank _) c _
    have others (n : CompId) (hn : n ≠ c) : t.comp n = s.comp n := by
      rw [first]
      exact State.setComp_comp_ne _ _ _ _ hn
    have booked : Booked s t := by
      refine ⟨by rw [first]; rfl, fun r => by rw [first]; cases r <;> rfl, fun r => by rw [first]; cases r <;> exact ⟨rfl, rfl⟩,
        by rw [first]; rfl, configured_of_steady steady, fun n => ?_, by rw [first]; rfl⟩
      by_cases e : n = c
      · subst e
        rw [waits]
        exact fun _ => CompState.noConfusion
      · rw [others n e]
        exact id
    have fewer := coolingWaiters_fewer (t := t) waits (by rw [own]; exact CompState.noConfusion) others
    rw [flag, Bool.or_false]
    refine ⟨h.booked booked, f.placed (by rw [first]; rfl) steady (fun q => Nat.le_of_eq (booked.grant _).symm) (fun q ⟨w, hw, pos⟩ => ?_)
      (by rw [first]; rfl), fun flat => (balanced flat).booked booked, by dsimp only; omega, fun _ => by dsimp only; omega⟩
    rw [first] at hw
    obtain ⟨v, hv, same, -⟩ := waiters w hw
    exact ⟨v, hv, same.trans pos⟩
  | none =>
    obtain ⟨ports, v, eq, lost⟩ := startRefill_returns (c := c) hf
    have first := congrArg Prod.fst eq
    have flag : (startRefill c s).2 = true := congrArg Prod.snd eq
    have given : Ledger (setGrant (.comp c) 0 s) := ledger_setGrant h (Nat.zero_le _) (fun _ _ => .inl rfl) (.inl rfl)
    have fills (q : PosId) : (setGrant (.comp c) 0 s).grantOf (.pos q) = s.grantOf (.pos q) := rfl
    have comps : (setGrant (.comp c) 0 s).comps = s.comps := rfl
    have places : (setGrant (.comp c) 0 s).positions = s.positions := rfl
    have draws : (setGrant (.comp c) 0 s).drawList = s.drawList := rfl
    generalize (startRefill c s).1 = t at *
    have own : t.comp c = { s.comp c with requestTime := none, state := .ready } := by
      rw [first]
      exact State.setComp_comp _ c _
    have others (n : CompId) (hn : n ≠ c) : t.comp n = s.comp n := by
      rw [first]
      exact State.setComp_comp_ne _ _ _ _ hn
    generalize setGrant (.comp c) 0 s = w0 at *
    have comp (n : CompId) : w0.comp n = s.comp n := by rw [State.comp, comps]; rfl
    have booked : Booked w0 t := by
      refine ⟨by rw [first]; rfl, fun r => by rw [first]; cases r <;> rfl, fun r => by rw [first]; cases r <;> exact ⟨rfl, rfl⟩,
        by rw [first]; rfl, fun n => (configured_of_steady steady n).trans (by rw [comp]), fun n => ?_, by rw [first]; rfl⟩
      rw [comp]
      by_cases e : n = c
      · subst e
        rw [waits]
        exact fun _ => CompState.noConfusion
      · rw [others n e]
        exact id
    have fewer := coolingWaiters_fewer (t := t) waits (by rw [own]; exact CompState.noConfusion) others
    rw [flag, Bool.or_true]
    refine ⟨given.booked booked, f.placed (by rw [first]; exact places) steady (fun q => ?_) (fun q => ?_) (by rw [first]; exact lost),
      fun k => (nomatch k), by dsimp only; omega, fun _ => by dsimp only; omega⟩
    · rw [booked.grant, fills]
    · rintro ⟨w, hw, pos⟩
      rw [first] at hw
      exact ⟨w, draws ▸ hw, pos⟩

end Sys2Proof.Machine
end

section
/-! SUPPORT. What a whole redistribution, and the grants and places given up, keep of the cooling budget (R27, R85, R114 to R116). -/

namespace Sys2Proof.Machine

variable {p q : PosId} {a b : BankId} {c n : CompId} {r : Requester} {s t u : State} {x y : Untold}
  {fs ps sh : List PosId} {cs : List CompId} {g : Option PosId} {w : Nat}

theorem Streams.none_of (h : Streams x s) (none : x.shed = []) : Streams .none s :=
  ⟨fun p hp => h.flowing p (by rw [none]; exact hp), fun p hp => h.drawing p (by rw [none]; exact hp),
    fun p hp => absurd hp List.not_mem_nil⟩

theorem Budget.none_of (h : Budget x s) (none : x.shed = []) : Budget .none s := ⟨h.ledger, h.streams.none_of none, h.balanced⟩

theorem Streams.of_none (h : Streams .none s) (fills : x.fills = []) : Streams x s :=
  ⟨fun p _ => h.flowing p List.not_mem_nil, fun p _ => h.drawing p List.not_mem_nil, fun p hp => by rw [fills] at hp; cases hp⟩

theorem Budget.of_none (h : Budget .none s) (fills : x.fills = []) : Budget x s := ⟨h.ledger, h.streams.of_none fills, h.balanced⟩

/-! ### The holders told (R116) -/

theorem checksCD_comps (p : PosId) (s : State) : (checksCD p s).comps = s.comps := by
  have asked : (drawRequest p .ramp none s).comps = s.comps := by
    unfold drawRequest
    split
    · rw [(grantBank_apart p _ s).2.2]
    · rfl
  have held (reason : HoldReason) (u : State) : (enterHold p reason u).comps = u.comps := (enterHold_rest p reason u).2.2.1
  unfold checksCD
  dsimp only
  split
  · exact held _ _
  · split
    · exact asked
    · exact (held _ _).trans asked

theorem budget_tellFills (h : Budget ⟨fs, cs, sh, g⟩ s) : Budget ⟨[], cs, sh, g⟩ (fs.foldl (fun s p => checksCD p s) s) ∧
    (fs.foldl (fun s p => checksCD p s) s).comps = s.comps := by
  induction fs generalizing s with
  | nil => exact ⟨h, rfl⟩
  | cons p fs ih =>
    obtain ⟨ledger, streams, balanced⟩ := budget_checksCD h (.inr (h.streams.served p List.mem_cons_self))
    obtain ⟨told, comps⟩ := ih ⟨ledger, ⟨streams.flowing, streams.drawing, fun q hq => streams.served q (List.mem_cons_of_mem _ hq)⟩,
      balanced⟩
    exact ⟨told, comps.trans (checksCD_comps p s)⟩

theorem handed_tellComps {k : State × Bool} (sound : Sound ⟨[], cs, [], g⟩ k.1) (h : Handed w k) :
    Handed w (cs.foldl (fun r c => ((startRefill c r.1).1, r.2 || (startRefill c r.1).2)) k) := by
  induction cs generalizing k with
  | nil => exact h
  | cons c cs ih =>
    exact ih (k := ((startRefill c k.1).1, k.2 || (startRefill c k.1).2)) (sound_startRefill sound)
      (startRefill_handed sound h.ledger h.streams k.2 h.balanced h.le)

theorem handed_tellServed (sound : Sound ⟨fs, cs, [], g⟩ s) (h : Budget ⟨fs, cs, [], g⟩ s) :
    Handed s.coolingWaiters (tellServed fs cs s) := by
  obtain ⟨told, comps⟩ := budget_tellFills h
  refine handed_tellComps (sound_tellFills sound) ⟨told.ledger, told.streams.none_of rfl, fun _ => told.balanced, ?_,
    fun k => nomatch k⟩
  exact Nat.le_of_eq (coolingWaiters_of comps)

theorem coolingWaiters_le (s : State) : s.coolingWaiters < 3 :=
  Nat.lt_succ_of_le (List.length_filter_le _ allComps)

/-- The rounds are enough: each that is followed by another takes a compressor out of COOLING_WAIT. -/
theorem budget_redistributeN (k : Nat) (rounds : s.coolingWaiters < k) (sound : Sound ⟨[], [], [], g⟩ s)
    (hg : ∀ p, g = some p → ¬ Cools s p) (h : Ledger s) (f : Streams .none s) : Budget .none (redistributeN k s) := by
  induction k generalizing s with
  | zero => exact absurd rounds (Nat.not_lt_zero _)
  | succ k ih =>
    have passes := sound_redistributePasses sound hg
    have told := sound_tellServed passes
    have passed := budget_redistributePasses sound h (f.of_none rfl)
    have handed := handed_tellServed passes passed
    have waiters := coolingWaiters_of (redistributePasses_places s).2.1
    have still (p : PosId) (hp : g = some p) : ¬ Cools (tellServed (redistributePasses s).2.1 (redistributePasses s).2.2
        (redistributePasses s).1).1 p := by
      obtain ⟨passed, untold⟩ := spares_redistributePasses (hg p hp)
      exact mt (passed.trans (spares_tellServed untold _)).cools (hg p hp)
    unfold redistributeN
    dsimp only
    split
    next back =>
      have fewer := handed.fewer back
      exact ih (by omega) told still handed.ledger handed.streams
    next done => exact ⟨handed.ledger, handed.streams, handed.balanced (Bool.eq_false_of_not_eq_true done)⟩

theorem budget_redistribute (sound : Sound ⟨[], [], [], g⟩ s) (hg : ∀ p, g = some p → ¬ Cools s p) (h : Ledger s)
    (f : Streams .none s) : Budget .none (redistribute s) :=
  budget_redistributeN 3 (coolingWaiters_le s) sound hg h f

/-! ### Grants and places given up (R114) -/

/-- A fill that gives its grant up does not flow. -/
theorem streams_setGrant_zero (h : Streams .none s)
    (hr : ∀ p, r = .pos p → ¬ ((s.pos p).state = .ramp ∨ (s.pos p).state = .hold) ∧ ¬ Draws s p) : Streams .none (setGrant r 0 s) := by
  obtain ⟨positions, -, -, draws, -, evt⟩ := setGrant_lists r 0 s
  have pos (q : PosId) : (setGrant r 0 s).pos q = s.pos q := by rw [State.pos, positions]; rfl
  have float (q : PosId) (hq : r ≠ .pos q) (f : Afloat s q) : Afloat (setGrant r 0 s) q := by
    refine f.of (by rw [pos]) (setGrant_asks ..).2 (Nat.le_of_eq ?_)
    rw [setGrant_grantOf_ne (fun e => hq e.symm)]
  refine ⟨fun q _ flows => ?_, fun q _ d pulse lost => ?_, fun q hq => absurd hq List.not_mem_nil⟩
  · rw [pos] at flows
    refine float q (fun e => (hr q e).1 (flows.imp_right And.left)) (h.flowing q List.not_mem_nil flows)
  · rw [pos] at pulse
    rw [evt] at lost
    have d : Draws s q := by rwa [Draws, draws] at d
    exact float q (fun e => (hr q e).2 d) (h.drawing q List.not_mem_nil d pulse lost)

theorem budget_releaseGrant (sound : Sound ⟨[], [], [], g⟩ s) (hg : ∀ p, g = some p → ¬ Cools s p) (h : Budget .none s) (r : Requester)
    (hr : ∀ p, r = .pos p → ¬ ((s.pos p).state = .ramp ∨ (s.pos p).state = .hold) ∧ ¬ Draws s p) : Budget .none (releaseGrant r s) := by
  unfold releaseGrant
  split
  · exact h
  · have begun := h.unmoved (unmoved_budgetChanged s .release) rfl
    refine budget_redistribute (sound_setGrant_zero (sound.unmoved (unmoved_budgetChanged s .release)) r) (fun p hp => ?_)
      (ledger_setGrant begun.ledger (Nat.zero_le _) (fun _ _ => .inl rfl) (.inl rfl)) (streams_setGrant_zero begun.streams hr)
    rw [Cools, setGrant_wait]
    exact hg p hp

theorem Streams.dropWait (h : Streams x s) (r : Requester) : Streams x (dropWait r s) := by
  refine h.placed rfl rfl (fun q => ?_) (fun _ => id) rfl
  exact Nat.le_refl _

theorem budget_departWait (sound : Sound ⟨[], [], [], g⟩ s) (h : Budget .none s) (r : Requester)
    (hg : ∀ p, g = some p → ¬ Cools (Machine.dropWait r s) p) : Budget .none (departWait r s) := by
  unfold departWait
  split
  · have begun := h.unmoved (unmoved_budgetChanged s .departed) rfl
    exact budget_redistribute (sound_dropWait (sound.unmoved (unmoved_budgetChanged s .departed)) r) hg
      (ledger_dropWait begun.ledger r) (begun.streams.dropWait r)
  · exact h

/-! ### The end of a fill (R27) -/

theorem budget_endMarks (h : Budget .none s) (reason : EndReason) : Budget .none (endMarks p reason s) := by
  obtain ⟨w, e⟩ := endMarks_eq p reason s
  have own := endMarks_pos p reason s
  have gone := endMarks_not_draws p reason s
  have others (q : PosId) (hq : q ≠ p) : (endMarks p reason s).pos q = s.pos q := (spares_endMarks hq reason s).pos
  have draws (q : PosId) (hq : Draws (endMarks p reason s) q) : Draws s q := by
    rw [e] at hq
    obtain ⟨v, hv, same⟩ := hq
    exact ⟨v, (List.mem_filter.1 hv).1, same⟩
  have booked : Booked s (endMarks p reason s) := booked_of (by rw [e]; rfl) (by rw [e]; rfl) (by rw [e]; rfl)
  have lost : (endMarks p reason s).evt.plantLost = s.evt.plantLost := by rw [e]; rfl
  generalize endMarks p reason s = t at *
  refine h.booked booked (h.streams.change p (fun q hq => by rw [others q hq]; exact ⟨rfl, rfl⟩)
    (fun q hq => booked.afloat (by rw [others q hq])) (fun q _ => draws q) lost (fun k => absurd k List.not_mem_nil) fun _ k => ?_)
  rw [own] at k
  rcases k with k | ⟨k, -⟩ | ⟨k, -⟩
  · cases k
  · cases k
  · exact absurd k gone

theorem budget_endReleases (sound : Sound ⟨[], [], [], some p⟩ s) (h : Budget .none s) (hd : ¬ Draws s p)
    (hp : ¬ ((s.pos p).state = .ramp ∨ (s.pos p).state = .hold)) : Budget .none (endReleases p s) := by
  have released := (budget_releaseBank sound (h.of_none rfl) p).none_of rfl
  have freed := sound_releaseBank sound p
  have one := spares_releaseBank hd p
  have dropped : Spares p (releaseBank p s) (departWait (.pos p) (releaseBank p s)) := spares_departWait (not_cools_dropWait p _)
  have departed := budget_departWait freed released (.pos p) fun q hq => by
    obtain rfl := Option.some.inj hq
    exact not_cools_dropWait p _
  have out : Sound ⟨[], [], [], some p⟩ (departWait (.pos p) (releaseBank p s)) := by
    unfold departWait
    split
    · refine sound_redistributeN 3 (sound_dropWait (freed.unmoved (unmoved_budgetChanged _ .departed)) _) fun q hq => ?_
      obtain rfl := Option.some.inj hq
      exact not_cools_dropWait p _
    · exact freed
  refine budget_releaseGrant out (fun q hq => ?_) departed _ fun q hq => ?_
  · obtain rfl := Option.some.inj hq
    exact departWait_not_cools p _
  · obtain rfl := Requester.pos.inj hq
    have all := one.trans dropped
    rw [all.pos, State.modPos_pos]
    exact ⟨hp, mt all.draws hd⟩

theorem budget_endFill (sound : Sound .none s) (h : Budget .none s) (p : PosId) (reason : EndReason) :
    Budget .none (endFill p reason s) := by
  cases he : endable (s.pos p).state with
  | false => rwa [endFill_of_not_endable he]
  | true =>
    rw [endFill_eq he]
    have ended := budget_endReleases (sound_endMarks (p := p) sound reason) (budget_endMarks h reason) (endMarks_not_draws p reason s)
      (by rw [endMarks_pos]; exact fun k => k.elim (fun e => nomatch e) fun e => nomatch e)
    generalize endReleases p (endMarks p reason s) = v at ended
    obtain ⟨ports, w, gs, l, e⟩ := endTells_eq p (s.pos p) v
    rw [e]
    exact ended.unmoved ((unmoved_modPos v p Position.settling fun _ => ⟨rfl, rfl, rfl⟩).trans
      (unmoved_of rfl rfl rfl rfl rfl rfl)) rfl

end Sys2Proof.Machine
end

section
/-! SUPPORT. What the ends of refills, and banks that leave service, keep of the cooling budget (R19, R22, R67, R82, R83, R86 to
R90). -/

namespace Sys2Proof.Machine

variable {p q : PosId} {a b : BankId} {c n : CompId} {r : Requester} {s t u : State} {x y : Untold} {e : QueueEntry}

/-! ### Compressors that stop -/

theorem booked_modComp (s : State) (c : CompId) (f : Compressor → Compressor) (hc : (f (s.comp c)).configured = (s.comp c).configured)
    (up : (f (s.comp c)).state ≠ .unavailable → (s.comp c).state ≠ .unavailable) : Booked s (s.modComp c f) where
  wait := rfl
  grant _ := rfl
  asks _ := ⟨rfl, rfl⟩
  capacity := rfl
  configured n := by
    by_cases e : n = c
    · subst e
      rw [State.modComp_comp]
      exact hc
    · rw [State.modComp_comp_ne _ _ _ _ e]
  up n := by
    by_cases e : n = c
    · subst e
      rw [State.modComp_comp]
      exact up
    · rw [State.modComp_comp_ne _ _ _ _ e]
      exact id
  esd := rfl

theorem streams_modComp (h : Streams x s) (c : CompId) (f : Compressor → Compressor) : Streams x (s.modComp c f) :=
  h.still (fun _ => ⟨rfl, rfl⟩) (fun _ => id) (fun _ => id) rfl

theorem budget_modComp (h : Budget x s) (c : CompId) (f : Compressor → Compressor)
    (hc : (f (s.comp c)).configured = (s.comp c).configured)
    (up : (f (s.comp c)).state ≠ .unavailable → (s.comp c).state ≠ .unavailable) : Budget x (s.modComp c f) :=
  h.booked (booked_modComp s c f hc up) (streams_modComp h.streams c f)

/-- A compressor that runs stops and gives its grant back. -/
theorem budget_stopAndRelease (sound : Sound x s) (h : Budget x s) (hc : (s.comp c).state = .running) (unheld : Unheld c s)
    {next : CompState} (hn : next ≠ .running) (hx : x = .none ∨ (s.grantOf (.comp c)).grant = 0) :
    Budget x (stopAndRelease c next s) := by
  obtain ⟨out, unserved⟩ := sound.still hc
  have up : (s.comp c).state ≠ .unavailable := by rw [hc]; decide
  unfold stopAndRelease releaseGrant
  by_cases hg : (s.grantOf (.comp c)).grant = 0
  · rw [if_pos (by exact hg)]
    exact budget_modComp h c _ rfl fun _ => up
  · obtain rfl := hx.resolve_right hg
    rw [if_neg (by exact hg)]
    have begun := h.unmoved (unmoved_budgetChanged s .release) rfl
    have given := sound_setGrant_zero (sound.unmoved (unmoved_budgetChanged s .release)) (.comp c)
    have zeroed : Ledger (setGrant (.comp c) 0 (budgetChanged .release s)) :=
      ledger_setGrant begun.ledger (Nat.zero_le _) (fun _ _ => .inl rfl) (.inl rfl)
    have flows : Streams .none (setGrant (.comp c) 0 (budgetChanged .release s)) :=
      streams_setGrant_zero begun.streams fun p k => nomatch k
    refine budget_redistribute (g := none) ?_ (fun _ k => nomatch k) ?_ ?_
    · exact sound_modComp (s := setGrant (.comp c) 0 (budgetChanged .release s)) given (mt (setGrant_waits ..).1 out) unserved
        (by rw [setGrant_grantOf, if_pos rfl]) unheld
        (fun x => { x with state := next, bank := none, entryHeld := none, refillStart := none }) hn rfl rfl
    · exact zeroed.booked (booked_modComp (setGrant (.comp c) 0 (budgetChanged .release s)) c
        (fun x => { x with state := next, bank := none, entryHeld := none, refillStart := none }) rfl fun _ => up)
    · exact streams_modComp flows c (fun x => { x with state := next, bank := none, entryHeld := none, refillStart := none })

theorem budget_refillEnds (sound : Sound x s) (h : Budget x s) (hc : (s.comp c).state = .running) (unheld : Unheld c s)
    {next : CompState} (hn : next ≠ .running) (hx : x = .none ∨ (s.grantOf (.comp c)).grant = 0) (cause : CompCause) :
    Budget x (refillEnds c cause next s) := by
  have stopped := budget_stopAndRelease sound h hc unheld hn hx
  have still := sound_stopAndRelease sound hc unheld hn hx
  refine Budget.unmoved ?_ (sends_postNotice _ _ _ _ _).unmoved (sends_postNotice _ _ _ _ _).esd
  split
  · exact budget_assignmentPass still stopped
  · exact stopped

theorem budget_freed (sound : Sound x s) (h : Budget x s) (b : BankId) : Budget x (freed b s) := by
  unfold freed
  split
  next k => exact budget_toIdle sound h (by rw [eq_of_beq k]; decide)
  · exact h

theorem budget_completeRefill (sound : Sound .none s) (h : Budget .none s) (c : CompId) (stop : StopCause) (cause : CompCause) :
    Budget .none (completeRefill c stop cause s) := by
  cases hb : (s.comp c).bank with
  | none =>
    have same : completeRefill c stop cause s = s := by
      unfold completeRefill
      rw [hb]
    rwa [same]
  | some b =>
    rw [completeRefill_ends hb]
    have posted := sound.unmoved (unmoved_postDirective s plantPort (.refillStop c b stop))
    have runs := posted.runs (c := c) hb
    have rests := rests_freed (n := c) (by rw [runs]; decide) b
    exact budget_refillEnds (sound_freed posted b) (budget_freed posted (h.unmoved (unmoved_postDirective s _ _) rfl) b)
      (by rw [rests.comp]; exact runs) (unheld_freed posted runs hb) (by decide) (.inl rfl) cause

theorem budget_backToQueue (h : Budget x s) (b : BankId) (e : QueueEntry) : Budget x (backToQueue b e s) := by
  unfold backToQueue
  split
  · exact (budget_offerPass (budget_moveBank h b .idle) [b]).unmoved (unmoved_queue _ _) rfl
  · exact h

theorem budget_withdrawRefill (sound : Sound x s) (h : Budget x s) (c : CompId) (stop : StopCause) (cause : CompCause)
    {next : CompState} (hn : next ≠ .running) (hx : x = .none ∨ (s.grantOf (.comp c)).grant = 0) :
    Budget x (withdrawRefill c stop cause next s) := by
  cases hb : (s.comp c).bank with
  | none =>
    have same : withdrawRefill c stop cause next s = s := by
      unfold withdrawRefill
      rw [hb]
    rwa [same]
  | some b =>
    cases he : (s.comp c).entryHeld with
    | none =>
      have same : withdrawRefill c stop cause next s = s := by
        unfold withdrawRefill
        rw [hb, he]
      rwa [same]
    | some e =>
      rw [withdrawRefill_ends hb he]
      have posted := sound.unmoved (unmoved_postDirective s plantPort (.refillStop c b stop))
      have runs := posted.runs (c := c) hb
      have rests : Rests c _ (backToQueue b e (postDirective plantPort (.refillStop c b stop) s)) := rests_backToQueue b e _
      exact budget_refillEnds (sound_backToQueue posted b e)
        (budget_backToQueue (h.unmoved (unmoved_postDirective s plantPort (.refillStop c b stop)) rfl) b e)
        (by rw [rests.comp]; exact runs) (unheld_backToQueue posted hb e) hn (hx.imp_right fun k => by rw [rests.grant]; exact k) cause

/-! ### Compressors that leave the wait list (R82, R83, R89, R90) -/

theorem budget_leaveCoolingWait (sound : Sound .none s) (h : Budget .none s) (hc : (s.comp c).state = .coolingWait)
    {next : CompState} (hn : next ≠ .running) (cause : CompCause) : Budget .none (leaveCoolingWait c next cause s) := by
  have flushed := sound.unmoved (unmoved_flushWaitNotice s c)
  have told : Budget .none (flushWaitNotice c s) := h.unmoved (unmoved_flushWaitNotice s c) (moves_flushWaitNotice c .refl).esd
  have waits : ((flushWaitNotice c s).comp c).state = .coolingWait := ((unmoved_flushWaitNotice s c).comps c).1.trans hc
  have state : ((flushWaitNotice c s).comp c).state ≠ .running := by rw [waits]; decide
  have grant : ((flushWaitNotice c s).grantOf (.comp c)).grant = 0 := by
    by_contra k
    exact state ((flushed.comps.refills c k).resolve_right List.not_mem_nil)
  obtain ⟨bank, entry⟩ := flushed.comps.resting c state
  have unheld : Unheld c (flushWaitNotice c s) := flushed.unheld fun b k => by
    rw [bank] at k
    cases k
  unfold leaveCoolingWait
  dsimp only
  generalize flushWaitNotice c s = w at *
  have up : (w.comp c).state ≠ .unavailable := by rw [waits]; decide
  have posted : Unmoved (w.modComp c (fun x => { x with state := next, requestTime := none }))
      (postCompState c cause (w.modComp c (fun x => { x with state := next, requestTime := none }))) :=
    (sends_postNotice _ _ _ _ _).unmoved
  have esd : (postCompState c cause (w.modComp c (fun x => { x with state := next, requestTime := none }))).esd = w.esd :=
    (sends_postNotice _ _ _ _ _).esd
  have changed := budget_modComp told c (fun x => { x with state := next, requestTime := none }) rfl fun _ => up
  have sent := changed.unmoved posted esd
  unfold departWait
  split
  · have left : Sound .none ((dropWait (.comp c) w).modComp c (fun x => { x with state := next, requestTime := none })) :=
      sound_modComp (sound_dropWait flushed (.comp c)) (not_waits_dropWait c w) List.not_mem_nil grant unheld _ hn bank entry
    have begun := sent.unmoved (unmoved_budgetChanged _ .departed) rfl
    exact budget_redistribute (g := none) (left.unmoved ((posted.trans (unmoved_budgetChanged _ .departed)).dropWait (.comp c)))
      (fun _ k => nomatch k) (ledger_dropWait begun.ledger _) (begun.streams.dropWait _)
  · exact sent

theorem budget_matchQueue (k : Nat) (sound : Sound .none s) (h : Budget .none s) : Budget .none (matchQueue k s) := by
  induction k generalizing s with
  | zero => exact h
  | succ k ih =>
    unfold matchQueue
    split
    · split
      next c hc =>
        have waits := (sound.comps.waiting c (lastWaitingComp_waits hc)).1
        exact ih (sound_leaveCoolingWait sound waits (next := .ready) (by decide) .queueShort)
          (budget_leaveCoolingWait sound h waits (next := .ready) (by decide) .queueShort)
      · exact h
    · exact h

theorem budget_dequeue (sound : Sound .none s) (h : Budget .none s) (b : BankId) : Budget .none (dequeue b s) := by
  unfold dequeue
  split
  · exact budget_matchQueue 2 (sound.unmoved (unmoved_queue s _)) (h.unmoved (unmoved_queue s _) rfl)
  · exact h

/-! ### Banks that leave service (R67) -/

theorem budget_vacateBank (sound : Sound x s) (h : Budget x s) (b : BankId) (st : BankState) : Budget x (vacateBank b st s) :=
  h.frees (frees_vacateBank sound b st) (steady_vacateBank b st s) (moves_vacateBank b st .refl).esd

/-- A fill whose bank has gone asks for another. -/
theorem budget_asksAgain (h : Budget .none s) (hp : (s.pos p).state = .ramp) (x : Option BankId) :
    Budget .none (if ((drawRequest p .ramp x s).pos p).bank.isSome then drawRequest p .ramp x s
      else enterHold p .bank (drawRequest p .ramp x s)) := by
  have float := h.streams.flowing p List.not_mem_nil (.inl hp)
  have asked := budget_drawRequest h (.inr (.inr float)) .ramp x
  split
  · exact asked
  · exact budget_enterHold asked .bank (.inr (.inl (float.stand (steady_drawRequest ..) (drawRequest_cools ..))))

theorem budget_withdrawPosition (h : Budget .none s) (p : PosId) : Budget .none (withdrawPosition p s) := by
  have left := budget_unbanked h p
  have state : ((s.modPos p (fun x => { x with bank := none })).pos p).state = (s.pos p).state := by rw [State.modPos_pos]
  unfold withdrawPosition
  dsimp only
  generalize s.modPos p (fun x => { x with bank := none }) = u at *
  split
  next k =>
    have moved := (unmoved_modPos u p (fun x => { x with pulseState := some .waiting, phaseTimer := none })
      fun _ => ⟨rfl, rfl, rfl⟩).trans (unmoved_sendValve _ p)
    have waits := left.unmoved moved rfl
    exact budget_drawRequest waits (.inr (.inl ((moved.pos p).1.trans (state.trans k)))) .pulse none
  next k =>
    have ended := unmoved_endSegment p .bankWithdrawn u
    obtain ⟨w, e⟩ := endSegment_eq p .bankWithdrawn u
    exact budget_asksAgain (left.unmoved ended (by rw [e])) ((ended.pos p).1.trans (state.trans k)) none
  · exact left

theorem budget_loseBank (sound : Sound .none s) (h : Budget .none s) (hc : (s.comp c).state = .running) (unheld : Unheld c s) :
    Budget .none (loseBank c s) := budget_refillEnds sound h hc unheld (next := .ready) (by decide) (.inl rfl) .bankLost

theorem budget_tellBankLeft (sound : Sound .none s) (h : Budget .none s) (b : BankId) (old : Bank)
    (hc : ∀ c, old.state = .refilling → old.holder = some (.comp c) → (s.comp c).state = .running ∧ Unheld c s) :
    Budget .none (tellBankLeft b old s) := by
  unfold tellBankLeft
  split
  next p _ _ => exact budget_dequeue (sound_withdrawPosition sound p) (budget_withdrawPosition h p) b
  next c refilling holder =>
    obtain ⟨runs, unheld⟩ := hc c refilling holder
    have posted := unmoved_postDirective s plantPort (.refillStop c b .bankLost)
    exact budget_dequeue (sound_loseBank (sound.unmoved posted) runs unheld)
      (budget_loseBank (sound.unmoved posted) (h.unmoved posted rfl) runs unheld) b
  · exact budget_dequeue sound h b

theorem budget_bankLeaves (sound : Sound .none s) (h : Budget .none s) (b : BankId) (st : BankState) :
    Budget .none (bankLeaves b st s) := by
  have frees := frees_vacateBank sound b st
  refine budget_tellBankLeft (sound.frees frees) (budget_vacateBank sound h b st) b _ fun c _ holder => ?_
  have held := (sound.banks.refilled b c holder).2
  have comp : (vacateBank b st s).comp c = s.comp c := by rw [State.comp, frees.comps]; rfl
  refine ⟨by rw [comp]; exact sound.runs held, (sound.frees frees).unheld fun a ha => ?_⟩
  rw [comp, held] at ha
  obtain rfl := Option.some.inj ha
  rw [frees.holder]
  exact fun k => nomatch k

end Sys2Proof.Machine
end

section
/-! SUPPORT. What holds from RAMP and a whole shedding keep of the cooling budget (R23, R24, R117, R118). -/

namespace Sys2Proof.Machine

variable {p q : PosId} {a b : BankId} {c n : CompId} {r : Requester} {s t u : State} {x y : Untold}
  {fs ps sh : List PosId} {cs : List CompId} {g : Option PosId}

/-! ### Holds from RAMP -/

theorem endSegment_esd (p : PosId) (c : SegmentEnd) (s : State) : (endSegment p c s).esd = s.esd := by
  obtain ⟨w, e⟩ := endSegment_eq p c s
  rw [e]

/-- A hold begins of a fill that was shed, or that holds its floor. -/
theorem budget_holdFromRamp (sound : Sound x s) (h : Budget x s) (hp : p ∈ x.shed ∨ p ∈ x.fills) (reason : HoldReason) :
    Budget x (holdFromRamp p reason s) := by
  have ended := unmoved_endSegment p .hold s
  have released := budget_releaseBank (sound.unmoved ended) (h.unmoved ended (endSegment_esd p .hold s)) p
  exact budget_enterHold released reason (hp.imp_right fun k => .inl (released.streams.served p k))

theorem Streams.held (h : Streams ⟨fs, cs, p :: ps, g⟩ s) (state : (s.pos p).state = .hold)
    (reason : (s.pos p).holdReason = some .cooling) (draws : Draws s p → s.evt.plantLost = true) : Streams ⟨fs, cs, ps, g⟩ s := by
  have out (q : PosId) (e : q ≠ p) (hq : q ∉ ps) : q ∉ p :: ps := fun k => (List.mem_cons.1 k).elim e hq
  refine ⟨fun q hq flows => ?_, fun q hq d pulse linked => ?_, h.served⟩
  · refine h.flowing q (out q (fun e => ?_) hq) flows
    rw [e, state, reason] at flows
    rcases flows with k | ⟨-, k⟩
    · cases k
    · exact k rfl
  · refine h.drawing q (out q (fun e => ?_) hq) d pulse linked
    rw [draws (e ▸ d)] at linked
    cases linked

theorem budget_holdByShedding (sound : Sound ⟨fs, cs, p :: ps, g⟩ s) (h : Budget ⟨fs, cs, p :: ps, g⟩ s) :
    Budget ⟨fs, cs, ps, g⟩ (holdByShedding p s) := by
  unfold holdByShedding
  rcases sound.fills.shed p List.mem_cons_self with hold | ⟨ramp, apart⟩
  · rw [hold]
    dsimp only
    have out := h.unmoved (unmoved_undraw s (fun w => w.pos != p)) rfl
    obtain ⟨ledger, streams, balanced⟩ := budget_enterHold (p := p) out .cooling (.inl List.mem_cons_self)
    have gone : ¬ Draws (enterHold p .cooling { s with drawList := s.drawList.filter (fun w => w.pos != p) }) p := by
      rintro ⟨w, hw, e⟩
      rw [(enterHold_rest p .cooling _).2.2.2.2.1] at hw
      have kept := (List.mem_filter.1 hw).2
      rw [e] at kept
      simp at kept
    exact ⟨ledger, streams.held (by rw [enterHold_pos]; rfl) (by rw [enterHold_pos]; rfl) fun k => absurd k gone, balanced⟩
  · rw [ramp]
    dsimp only
    obtain ⟨ledger, streams, balanced⟩ := budget_holdFromRamp sound h (.inl List.mem_cons_self) .cooling
    refine ⟨ledger, streams.held (by rw [holdFromRamp, enterHold_pos]; rfl) (by rw [holdFromRamp, enterHold_pos]; rfl) fun k => ?_,
      balanced⟩
    have ended := unmoved_endSegment p .hold s
    have lost : (holdFromRamp p .cooling s).evt.plantLost = s.evt.plantLost := by
      unfold holdFromRamp
      rw [(enterHold_rest p .cooling _).2.2.2.2.2, releaseBank_lost, ended.lost]
    rw [lost]
    by_cases draws : Draws s p
    · exact apart draws
    · exact absurd k (holdFromRamp_out draws .cooling)

theorem budget_holdEach (sound : Sound ⟨fs, cs, ps, g⟩ s) (h : Budget ⟨fs, cs, ps, g⟩ s) :
    Budget ⟨fs, cs, [], g⟩ (ps.foldl (fun s p => holdByShedding p s) s) := by
  induction ps generalizing s with
  | nil => exact h
  | cons p ps ih => exact ih (sound_holdByShedding sound) (budget_holdByShedding sound h)

theorem budget_withdrawEach (l : List CompId) (once : l.Nodup) (sound : Sound x s) (h : Budget x s)
    (hl : ∀ c ∈ l, (s.comp c).state = .running ∧ (s.grantOf (.comp c)).grant = 0) :
    Budget x (l.foldl (fun s c => withdrawRefill c .shed .shed .ready s) s) := by
  induction l generalizing s with
  | nil => exact h
  | cons c l ih =>
    obtain ⟨apart, once⟩ := List.nodup_cons.1 once
    obtain ⟨runs, grant⟩ := hl c List.mem_cons_self
    refine ih once (sound_withdrawRefill sound c .shed .shed (next := .ready) (by decide) (.inr grant))
      (budget_withdrawRefill sound h c .shed .shed (next := .ready) (by decide) (.inr grant)) fun n hn => ?_
    obtain ⟨runs', grant'⟩ := hl n (List.mem_cons_of_mem _ hn)
    have rests : Rests n s (withdrawRefill c .shed .shed .ready s) :=
      rests_withdrawRefill (by rintro rfl; exact apart hn) (by rw [runs']; decide) grant _ _ _
    rw [rests.comp, rests.grant]
    exact ⟨runs', grant'⟩

/-! ### The table passes (R117) -/

theorem booked_tellDerated (p : PosId) (s : State) : Booked s (tellDerated p s) := by
  obtain ⟨w, e⟩ := modRecord_eq p (fun r => { r with flags := { r.flags with derated := true } }) s
  unfold tellDerated
  rw [e]
  exact booked_of rfl rfl rfl

/-- What the table passes leave: demands, and the grants of fills above their floors. -/
structure Tables (s t : State) : Prop where
  ledger : Ledger s → Ledger t
  asks : ∀ r, (t.grantOf r).demand = (s.grantOf r).demand ∧ (t.grantOf r).floor = (s.grantOf r).floor
  floors : ∀ p, (s.grantOf (.pos p)).floor ≤ (s.grantOf (.pos p)).grant → (t.grantOf (.pos p)).floor ≤ (t.grantOf (.pos p)).grant

theorem Tables.refl (s : State) : Tables s s := ⟨id, fun _ => ⟨rfl, rfl⟩, fun _ => id⟩

theorem Tables.trans (h : Tables s t) (k : Tables t u) : Tables s u :=
  ⟨k.ledger ∘ h.ledger, fun r => ⟨(k.asks r).1.trans (h.asks r).1, (k.asks r).2.trans (h.asks r).2⟩, fun p => k.floors p ∘ h.floors p⟩

theorem Booked.tables (h : Booked s t) : Tables s t :=
  ⟨fun k => k.booked h, h.asks, fun p => by rw [(h.asks _).2, h.grant]; exact id⟩

theorem tables_shedComps (l : List Requester) (s : State) : Tables s (shedComps l s).1 := by
  induction l generalizing s with
  | nil => exact .refl s
  | cons r l ih =>
    cases r with
    | pos p => exact ih s
    | comp c =>
      unfold shedComps
      split
      · refine Tables.trans ⟨fun h => ledger_setGrant h (Nat.zero_le _) (fun _ _ => .inl rfl) (.inl rfl), fun r => setGrant_asks ..,
          fun p hp => ?_⟩ (ih _)
        rw [(setGrant_asks ..).2, setGrant_grantOf_ne (by simp)]
        exact hp
      · exact .refl s

theorem tables_shedCuts (l : List Requester) (s : State) : Tables s (shedCuts l s) := by
  induction l generalizing s with
  | nil => exact .refl s
  | cons r l ih =>
    cases r with
    | comp c => exact ih s
    | pos p =>
      unfold shedCuts
      dsimp only
      split
      next k =>
        obtain ⟨-, above⟩ := k
        refine Tables.trans (Tables.trans ?_ (booked_tellDerated p _).tables) (ih _)
        refine ⟨fun h => ledger_setGrant h (Nat.le_trans (Nat.sub_le _ _) (h.grants _)) (fun c e => nomatch e) (.inr fun w hw e => ?_),
          fun r => setGrant_asks .., fun q hq => ?_⟩
        · have none := (h.waiting w hw).1
          rw [e] at none
          omega
        · rw [(setGrant_asks ..).2, setGrant_grantOf]
          split
          next e =>
            rw [e]
            omega
          · exact hq
      · exact ih s

theorem shedHolds_asks (l : List Requester) (s : State) (r : Requester) : ((shedHolds l s).1.grantOf r).demand = (s.grantOf r).demand ∧
    ((shedHolds l s).1.grantOf r).floor = (s.grantOf r).floor := by
  induction l generalizing s with
  | nil => exact ⟨rfl, rfl⟩
  | cons o l ih =>
    cases o with
    | comp c => exact ih s
    | pos p =>
      unfold shedHolds
      split
      · obtain ⟨demand, floor⟩ := ih (setGrant (.pos p) 0 s)
        rw [(setGrant_asks ..).1] at demand
        rw [(setGrant_asks ..).2] at floor
        exact ⟨demand, floor⟩
      · exact ⟨rfl, rfl⟩

theorem ledger_shedHolds (l : List Requester) (h : Ledger s) : Ledger (shedHolds l s).1 := by
  induction l generalizing s with
  | nil => exact h
  | cons o l ih =>
    cases o with
    | comp c => exact ih h
    | pos p =>
      unfold shedHolds
      split
      · exact ih (ledger_setGrant h (Nat.zero_le _) (fun _ _ => .inl rfl) (.inl rfl))
      · exact h

/-- The fills shed hold nothing, the others what they held; none is shed twice. -/
theorem shedHolds_list (l : List Requester) (s : State) : ((shedHolds l s).2.map Requester.pos).Sublist l ∧
    (∀ p ∈ (shedHolds l s).2, ((shedHolds l s).1.grantOf (.pos p)).grant = 0) ∧
    ∀ p, p ∉ (shedHolds l s).2 → ((shedHolds l s).1.grantOf (.pos p)).grant = (s.grantOf (.pos p)).grant := by
  induction l generalizing s with
  | nil => exact ⟨.slnil, fun p hp => (nomatch hp), fun _ _ => rfl⟩
  | cons r l ih =>
    cases r with
    | comp c => exact ⟨(ih s).1.cons _, (ih s).2⟩
    | pos p =>
      unfold shedHolds
      split
      · obtain ⟨sub, zero, kept⟩ := ih (setGrant (.pos p) 0 s)
        refine ⟨sub.cons_cons _, fun q hq => ?_, fun q hq => ?_⟩
        · rcases List.mem_cons.1 hq with rfl | hq
          · have falls := (shedHolds_falls l (setGrant (.pos q) 0 s)).1.grants (.pos q)
            rw [setGrant_grantOf, if_pos rfl] at falls
            exact Nat.le_zero.1 falls
          · exact zero q hq
        · have apart : q ≠ p := fun e => hq (e ▸ List.mem_cons_self)
          rw [kept q fun k => hq (List.mem_cons_of_mem _ k), setGrant_grantOf_ne (by simpa using apart)]
      · exact ⟨List.nil_sublist _, fun p hp => (nomatch hp), fun _ _ => rfl⟩

/-- What the tables of a shedding leave of the budget. -/
structure TabledBudget (s : State) (k : State × List CompId × List PosId) : Prop where
  ledger : Ledger k.1
  streams : Streams ⟨[], [], k.2.2, none⟩ k.1
  asks : ∀ p, (k.1.grantOf (.pos p)).demand = (s.grantOf (.pos p)).demand
  once : k.2.2.Nodup
  zero : ∀ p ∈ k.2.2, (k.1.grantOf (.pos p)).grant = 0

theorem tabledBudget_shedTables (sound : Sound .none s) (h : Ledger s) (f : Streams .none s) : TabledBudget s (shedTables s) := by
  have moved := (tabled_shedTables sound).moved
  unfold shedTables at moved ⊢
  dsimp only at moved ⊢
  have comps := tables_shedComps s.cooling.order.reverse s
  have order := (sound_shedComps s.cooling.order.reverse sound)
  generalize shedComps s.cooling.order.reverse s = r1 at *
  have cuts := comps.trans (tables_shedCuts r1.1.cooling.order.reverse r1.1)
  have order := sound_shedCuts r1.1.cooling.order.reverse order
  generalize shedCuts r1.1.cooling.order.reverse r1.1 = s2 at *
  obtain ⟨listed, zero, kept⟩ := shedHolds_list s2.cooling.order.reverse s2
  have asks := shedHolds_asks s2.cooling.order.reverse s2
  have ledger := ledger_shedHolds s2.cooling.order.reverse (cuts.ledger h)
  generalize shedHolds s2.cooling.order.reverse s2 = r3 at *
  have float (p : PosId) (hp : p ∉ r3.2) (k : Afloat s p) : Afloat r3.1 p := fun c hc some => by
    rw [moved.pos] at hc
    rw [(asks _).2, kept p hp]
    exact cuts.floors p (k c hc some)
  refine ⟨ledger, ⟨fun p hp => ?_, fun p hp => ?_, fun p hp => absurd hp List.not_mem_nil⟩,
    fun p => (asks _).1.trans (cuts.asks _).1, List.Nodup.of_map _ (listed.nodup (List.nodup_reverse.2 order.order.once)), zero⟩
  · rw [moved.pos]
    exact fun k => float p hp (f.flowing p List.not_mem_nil k)
  · rw [moved.draws, moved.pos, moved.evt]
    exact fun d pulse linked => float p hp (f.drawing p List.not_mem_nil d pulse linked)

/-! ### The fills shed join the list -/

theorem Ledger.jumped {group : List CoolWait} (h : Ledger s) (fills : ∀ w ∈ group, isFill w.who = true)
    (once : (group.map (·.who)).Nodup) (apart : ∀ w ∈ group, ∀ v ∈ s.cooling.wait, w.who ≠ v.who)
    (some : ∀ w ∈ group, (s.grantOf w.who).grant = 0 ∧ 0 < (s.grantOf w.who).floor) : Ledger (s.jumped group) := by
  have grants (r : Requester) : (s.jumped group).grantOf r = s.grantOf r := by cases r <;> rfl
  have wait : (s.jumped group).cooling.wait = group ++ s.cooling.wait := rfl
  refine ⟨h.fillFloors, h.compFloors, fun r => by rw [grants]; exact h.grants r, h.whole, h.asking, h.available, fun w hw => ?_, ?_, ?_⟩
  · rw [grants]
    rw [wait] at hw
    exact (List.mem_append.1 hw).elim (some w) (h.waiting w)
  · rw [wait, List.map_append, List.nodup_append]
    refine ⟨once, h.once, fun a ha b hb => ?_⟩
    obtain ⟨w, hw, rfl⟩ := List.mem_map.1 ha
    obtain ⟨v, hv, rfl⟩ := List.mem_map.1 hb
    exact apart w hw v hv
  · have all : group.filter (fun w => isFill w.who) = group := List.filter_eq_self.2 fills
    have none : group.filter (fun w => !isFill w.who) = [] := List.filter_eq_nil_iff.2 fun w hw => by simp [fills w hw]
    rw [wait, List.filter_append, List.filter_append, all, none, List.nil_append, List.append_assoc, ← h.fillsFirst]

theorem TabledBudget.jumped {k : State × List CompId × List PosId} (h : TabledBudget s k) (before : Ledger s) (tabled : Tabled s k) :
    Ledger (k.1.jumped (shedGroup k)) := by
  have shed := shedGroup_mem (k := k)
  have who : (shedGroup k).map (·.who) = k.2.2.reverse.map Requester.pos := by
    unfold shedGroup
    rw [List.map_map]
    rfl
  refine h.ledger.jumped (fun w hw => ?_) ?_ (fun w hw v hv e => ?_) fun w hw => ?_
  · obtain ⟨p, -, e⟩ := shed w hw
    rw [e]
    rfl
  · rw [who]
    exact (List.nodup_reverse.2 h.once).map fun p q => Requester.pos.inj
  · obtain ⟨p, hp, same⟩ := shed w hw
    rw [tabled.moved.wait] at hv
    have none := (before.waiting v hv).1
    rw [← e, same] at none
    exact tabled.fills p hp none
  · obtain ⟨p, hp, same⟩ := shed w hw
    rw [same]
    refine ⟨h.zero p hp, ?_⟩
    have some := tabled.fills p hp
    have most := before.grants (.pos p)
    rw [h.ledger.fillFloors, h.asks]
    omega

theorem budget_shedShares {k : State × List CompId × List PosId} (sound : Sound .none s) (h : TabledBudget s k) (before : Ledger s)
    (tabled : Tabled s k) (apart : ∀ p, (s.pos p).state = .ramp → Draws s p → s.evt.plantLost = true) :
    Budget ⟨(shedShares k).2.1, (shedShares k).2.2, k.2.2, none⟩ (shedShares k).1 := by
  have ledger := h.jumped before tabled
  have streams : Streams ⟨[], [], k.2.2, none⟩ (k.1.jumped (shedGroup k)) := h.streams.placed rfl rfl (fun _ => Nat.le_refl _) (fun _ => id) rfl
  have listed : Sound ⟨[], [], k.2.2, none⟩ (k.1.jumped (shedGroup k)) := tabled.jumped sound apart
  unfold shedShares
  generalize k.1.jumped (shedGroup k) = v at *
  unfold shares
  split
  · exact budget_redistributePasses listed ledger streams
  next full =>
    have full : v.freeCapacity = 0 := Nat.eq_zero_of_not_pos full
    refine ⟨ledger, streams, fun _ _ _ _ => full, fun _ w l hw => ?_⟩
    rw [full]
    exact (ledger.waiting w (by rw [hw]; exact List.mem_cons_self)).2

/-- The capacity lies below the grants (R117, R118). -/
theorem budget_shed (sound : Sound .none s) (h : Ledger s) (f : Streams .none s)
    (apart : ∀ p, (s.pos p).state = .ramp → Draws s p → s.evt.plantLost = true) : Budget .none (shed s) := by
  have begun := sound.unmoved (unmoved_budgetChanged s .shed)
  have booked := (unmoved_budgetChanged s .shed).booked rfl
  have ledger := h.booked booked
  have tables := tabledBudget_shedTables begun ledger (f.unmoved (unmoved_budgetChanged s .shed))
  have tabled := tabled_shedTables begun
  rw [shed_eq]
  dsimp only
  generalize shedTables (budgetChanged .shed s) = k at *
  have shared := budget_shedShares begun tables ledger tabled apart
  obtain ⟨passed, stopped⟩ := tabled.shared begun apart
  have withdrawn := budget_withdrawEach k.2.1 tabled.once passed shared stopped
  have left := tabled.withdrawn begun apart
  have told : Sound .none (shedTold k.2.1 k.2.2 (shedShares k)).1 := sound_tellServed (sound_holdEach left)
  have handed := handed_tellServed (sound_holdEach left) (budget_holdEach left withdrawn)
  unfold handBack
  split
  · exact budget_redistribute told (fun _ k => nomatch k) handed.ledger handed.streams
  next done => exact ⟨handed.ledger, handed.streams, handed.balanced (Bool.eq_false_of_not_eq_true done)⟩

end Sys2Proof.Machine
end

section
/-! SUPPORT. The laws of requesters and holders between events, with the cooling budget where it is asked for (R27, R59, R69 to
R73, R82 to R90, R109 to R118). -/

namespace Sys2Proof.Machine

variable {β : Prop} {p q : PosId} {a b : BankId} {c n : CompId} {r : Requester} {s t u : State}

/-- The laws of requesters and holders, and where `β` holds the cooling budget. -/
structure Fair (β : Prop) (s : State) : Prop where
  sound : Sound .none s
  budget : β → Budget .none s

theorem Fair.unmoved (h : Fair β s) (k : Unmoved s t) (esd : t.esd = s.esd) : Fair β t :=
  ⟨h.sound.unmoved k, fun b => (h.budget b).unmoved k esd⟩

theorem Fair.sends (h : Fair β s) (k : Sends s t) : Fair β t := h.unmoved k.unmoved k.esd

theorem Fair.flowing (h : Fair β s) (flows : (s.pos p).state = .ramp ∨ (s.pos p).state = .hold ∧ (s.pos p).holdReason ≠ some .cooling)
    (b : β) : Afloat s p := (h.budget b).streams.flowing p List.not_mem_nil flows

/-! ### Cascades -/

theorem fair_endFill (h : Fair β s) (p : PosId) (reason : EndReason) : Fair β (endFill p reason s) :=
  ⟨sound_endFill h.sound p reason, fun b => budget_endFill h.sound (h.budget b) p reason⟩

theorem fair_offerPass (h : Fair β s) (l : List BankId) : Fair β (offerPass l s) :=
  ⟨sound_offerPass h.sound l, fun b => budget_offerPass (h.budget b) l⟩

theorem fair_assignmentPass (h : Fair β s) : Fair β (assignmentPass s) :=
  ⟨sound_assignmentPass h.sound, fun b => budget_assignmentPass h.sound (h.budget b)⟩

/-- A redistribution evens the budget out, whatever the capacity was before. -/
theorem fair_redistribute (h : Sound .none s) (k : β → Ledger s ∧ Streams .none s) : Fair β (redistribute s) :=
  ⟨sound_redistributeN 3 h fun _ k => (nomatch k), fun b => budget_redistribute h (fun _ k => nomatch k) (k b).1 (k b).2⟩

theorem fair_shed (h : Sound .none s) (k : β → Ledger s ∧ Streams .none s)
    (apart : ∀ p, (s.pos p).state = .ramp → Draws s p → s.evt.plantLost = true) : Fair β (shed s) :=
  ⟨sound_shed h apart, fun b => budget_shed h (k b).1 (k b).2 apart⟩

theorem fair_bankIdle (h : Fair β s) (b : BankId) : Fair β (bankIdle b s) :=
  ⟨sound_bankIdle h.sound b, fun k => budget_bankIdle h.sound (h.budget k) b⟩

theorem fair_releaseBank (h : Fair β s) (p : PosId) : Fair β (releaseBank p s) :=
  ⟨sound_releaseBank h.sound p, fun b => budget_releaseBank h.sound (h.budget b) p⟩

theorem fair_moveBank (h : Fair β s) (hb : ∀ q, (s.pos q).bank ≠ some b) (st : BankState) : Fair β (moveBank b st none s) :=
  ⟨sound_moveBank h.sound hb st, fun k => budget_moveBank (h.budget k) b st⟩

theorem fair_vacateBank (h : Fair β s) (b : BankId) (st : BankState) : Fair β (vacateBank b st s) :=
  ⟨sound_vacateBank h.sound b st, fun k => budget_vacateBank h.sound (h.budget k) b st⟩

theorem fair_dequeue (h : Fair β s) (b : BankId) : Fair β (dequeue b s) :=
  ⟨sound_dequeue h.sound b, fun k => budget_dequeue h.sound (h.budget k) b⟩

theorem fair_bankLeaves (h : Fair β s) (b : BankId) (st : BankState) : Fair β (bankLeaves b st s) :=
  ⟨sound_bankLeaves h.sound b st, fun k => budget_bankLeaves h.sound (h.budget k) b st⟩

theorem fair_tellBankLeft (h : Fair β s) (b : BankId) (old : Bank)
    (hc : ∀ c, old.state = .refilling → old.holder = some (.comp c) → (s.comp c).state = .running ∧ Unheld c s) :
    Fair β (tellBankLeft b old s) :=
  ⟨sound_tellBankLeft h.sound b old hc, fun k => budget_tellBankLeft h.sound (h.budget k) b old hc⟩

theorem fair_completeRefill (h : Fair β s) (c : CompId) (stop : StopCause) (cause : CompCause) : Fair β (completeRefill c stop cause s) :=
  ⟨sound_completeRefill h.sound c stop cause, fun b => budget_completeRefill h.sound (h.budget b) c stop cause⟩

theorem fair_withdrawRefill (h : Fair β s) (c : CompId) (stop : StopCause) (cause : CompCause) {next : CompState}
    (hn : next ≠ .running) : Fair β (withdrawRefill c stop cause next s) :=
  ⟨sound_withdrawRefill h.sound c stop cause hn (.inl rfl), fun b => budget_withdrawRefill h.sound (h.budget b) c stop cause hn (.inl rfl)⟩

theorem fair_leaveCoolingWait (h : Fair β s) (hc : (s.comp c).state = .coolingWait) {next : CompState} (hn : next ≠ .running)
    (cause : CompCause) : Fair β (leaveCoolingWait c next cause s) :=
  ⟨sound_leaveCoolingWait h.sound hc hn cause, fun b => budget_leaveCoolingWait h.sound (h.budget b) hc hn cause⟩

/-! ### One fill -/

theorem fair_drawRequest (h : Fair β s) (he : endable (s.pos p).state = true) (hc : ¬ Cools s p)
    (float : β → (s.pos p).state = .pulse ∨ Afloat s p) (k : DrawKind) (e : Option BankId) : Fair β (drawRequest p k e s) :=
  ⟨sound_drawRequest h.sound he hc (fun k => nomatch k) k e, fun b => budget_drawRequest (h.budget b) (.inr (float b)) k e⟩

theorem fair_enterHold (h : Fair β s) (reason : HoldReason) (hc : Cools s p → reason = .cooling) (float : β → Afloat s p) :
    Fair β (enterHold p reason s) :=
  ⟨sound_enterHold h.sound reason fun k => .inl (hc k), fun b => budget_enterHold (h.budget b) reason (.inr (.inl (float b)))⟩

/-- A fill that asks for a bank flows on it or is held for one. -/
theorem fair_asksElse (h : Fair β s) (he : endable (s.pos p).state = true) (hc : ¬ Cools s p) (float : β → Afloat s p)
    (e : Option BankId) : Fair β (if ((drawRequest p .ramp e s).pos p).bank.isSome then drawRequest p .ramp e s
      else enterHold p .bank (drawRequest p .ramp e s)) := by
  have asked := fair_drawRequest h he hc (fun b => .inr (float b)) .ramp e
  split
  · exact asked
  · refine fair_enterHold asked .bank (fun k => ?_) fun b => (float b).stand (steady_drawRequest ..) (drawRequest_cools ..)
    rw [Cools, drawRequest_cools] at k
    exact absurd k hc

theorem fair_checksCD (h : Fair β s) (he : endable (s.pos p).state = true) (hc : ¬ Cools s p) (float : β → Afloat s p) :
    Fair β (checksCD p s) :=
  ⟨sound_checksCD h.sound he hc fun k => (nomatch k), fun b => budget_checksCD (h.budget b) (.inr (float b))⟩

/-- A fill that flows is no less served while a bank is released. -/
theorem Fair.serves (h : Fair β s) (ramp : (s.pos p).state = .ramp) : Sound ⟨[p], [], [], none⟩ s ∧ (β → Budget ⟨[p], [], [], none⟩ s) := by
  refine ⟨h.sound.serve (fs := []) (.inl ramp) (not_cools_of h.sound (by rw [ramp]; decide)), fun b => ?_⟩
  obtain ⟨ledger, streams, balanced⟩ := h.budget b
  refine ⟨ledger, ⟨streams.flowing, streams.drawing, fun q hq => ?_⟩, balanced⟩
  rw [List.mem_singleton.1 hq]
  exact h.flowing (.inl ramp) b

theorem afloat_releaseBank (h : Fair β s) (ramp : (s.pos p).state = .ramp) (b : β) : Afloat (releaseBank p s) p := by
  obtain ⟨sound, budget⟩ := h.serves ramp
  exact (budget_releaseBank sound (budget b) p).streams.served p List.mem_cons_self

theorem fair_holdFromRamp (h : Fair β s) (ramp : (s.pos p).state = .ramp) (reason : HoldReason) : Fair β (holdFromRamp p reason s) := by
  refine ⟨sound_holdFromRamp h.sound reason fun k => absurd k (not_cools_of h.sound (by rw [ramp]; decide)), fun b => ?_⟩
  obtain ⟨sound, budget⟩ := h.serves ramp
  exact (budget_holdFromRamp sound (budget b) (.inr List.mem_cons_self) reason).none_of rfl

/-! ### Settings of the budget -/

/-- A compressor changes, one that is available being configured with a demand. -/
theorem budget_recomp (h : Budget .none s) (c : CompId) (f : Compressor → Compressor)
    (asks : (f (s.comp c)).configured = true → 0 < (s.grantOf (.comp c)).demand)
    (available : (f (s.comp c)).state ≠ .unavailable → (f (s.comp c)).configured = true) : Budget .none (s.modComp c f) := by
  have own := s.modComp_comp c f
  have others (n : CompId) (hn : n ≠ c) : (s.modComp c f).comp n = s.comp n := State.modComp_comp_ne _ _ _ _ hn
  refine ⟨⟨h.ledger.fillFloors, h.ledger.compFloors, h.ledger.grants, h.ledger.whole, fun n => ?_, fun n => ?_, h.ledger.waiting,
    h.ledger.once, h.ledger.fillsFirst⟩, streams_modComp h.streams c f, ⟨h.balanced.derated, h.balanced.head⟩⟩
  · by_cases e : n = c
    · subst e
      rw [own]
      exact asks
    · rw [others n e]
      exact h.ledger.asking n
  · by_cases e : n = c
    · subst e
      rw [own]
      exact available
    · rw [others n e]
      exact h.ledger.available n

theorem Sound.recooled (h : Sound .none s) (hp : t.positions = s.positions) (hc : t.comps = s.comps) (hb : t.banks = s.banks)
    (hd : t.drawList = s.drawList) (he : t.evt = s.evt) (wait : t.cooling.wait = s.cooling.wait)
    (order : t.cooling.order = s.cooling.order) (grant : ∀ r, (t.grantOf r).grant = (s.grantOf r).grant) : Sound .none t where
  comps := h.comps.still (fun c => by rw [State.comp, hc]; rfl) (fun c k => .inl (by rwa [grant] at k))
    (fun c => by rw [CompWaits, wait]; exact id) (by rw [WaitLaw, wait]; exact h.comps.onceWaits)
  fills := h.fills.fewer (fun q => by rw [State.pos, hp]; exact ⟨rfl, rfl⟩) (fun q k => .inl (by rwa [grant] at k))
    (fun q => by rw [Cools, wait]; exact id) (fun q => by rw [Draws, hd]; exact id) (by rw [he])
  order := h.order.still order grant
  banks := h.banks.same hp hc hb

theorem sound_setGrantOf (h : Sound .none s) (r : Requester) (e : GrantEntry) (he : e.grant = (s.grantOf r).grant) :
    Sound .none (s.setGrantOf r e) := by
  refine h.recooled (by simp) (by simp) (by simp) (by simp) (by simp) (by simp) (by simp) (fun q => setGrantOf_grant r q e he)

/-- Demand and floor of a requester that neither holds a grant nor waits. -/
theorem budget_setGrantOf (h : Budget .none s) (e : GrantEntry) (he : e.grant = (s.grantOf r).grant) (none : (s.grantOf r).grant = 0)
    (out : ∀ w ∈ s.cooling.wait, w.who ≠ r) (fill : ∀ p, r = .pos p → e.floor = (e.demand + 3) / 4 ∧
      (s.pos p).state ≠ .ramp ∧ (s.pos p).state ≠ .hold ∧ (Draws s p → (s.pos p).state = .pulse))
    (comp : ∀ c, r = .comp c → e.floor = e.demand ∧ 0 < e.demand) : Budget .none (s.setGrantOf r e) := by
  have own := s.setGrantOf_grantOf r e
  have others (q : Requester) (hq : q ≠ r) : (s.setGrantOf r e).grantOf q = s.grantOf q := State.setGrantOf_grantOf_ne _ _ _ _ hq
  have grant := fun q => setGrantOf_grant r q e he
  have positions : (s.setGrantOf r e).positions = s.positions := by simp
  have comps : (s.setGrantOf r e).comps = s.comps := by simp
  have draws : (s.setGrantOf r e).drawList = s.drawList := by simp
  have wait : (s.setGrantOf r e).cooling.wait = s.cooling.wait := by simp
  have evt : (s.setGrantOf r e).evt = s.evt := by simp
  have esd : (s.setGrantOf r e).esd = s.esd := by simp
  have free : (s.setGrantOf r e).freeCapacity = s.freeCapacity := by
    unfold State.freeCapacity State.sumGrants
    simp only [grant, State.setGrantOf_cooling_capacity]
  generalize s.setGrantOf r e = t at *
  have pos (q : PosId) : t.pos q = s.pos q := by rw [State.pos, positions]; rfl
  have compAt (n : CompId) : t.comp n = s.comp n := by rw [State.comp, comps]; rfl
  have float (q : PosId) (hq : r ≠ .pos q) (f : Afloat s q) : Afloat t q :=
    f.of (by rw [pos]) (by rw [others _ fun e => hq e.symm]) (Nat.le_of_eq (grant _).symm)
  refine ⟨⟨fun q => ?_, fun n => ?_, fun q => ?_, fun n => ?_, fun n => ?_, fun n => ?_, fun w hw => ?_, ?_, ?_⟩,
    ⟨fun q _ flows => ?_, fun q _ d pulse linked => ?_, fun q hq => absurd hq List.not_mem_nil⟩, ⟨fun l q some less => ?_, fun l w m hw => ?_⟩⟩
  · by_cases k : Requester.pos q = r
    · rw [k, own]
      exact (fill q k.symm).1
    · rw [others _ k]
      exact h.ledger.fillFloors q
  · by_cases k : Requester.comp n = r
    · rw [k, own]
      exact (comp n k.symm).1
    · rw [others _ k]
      exact h.ledger.compFloors n
  · by_cases k : q = r
    · rw [grant, k, none]
      exact Nat.zero_le _
    · rw [others _ k]
      exact h.ledger.grants q
  · by_cases k : Requester.comp n = r
    · rw [grant, k]
      exact .inl none
    · rw [others _ k]
      exact h.ledger.whole n
  · rw [compAt]
    by_cases k : Requester.comp n = r
    · rw [k, own]
      exact fun _ => (comp n k.symm).2
    · rw [others _ k]
      exact h.ledger.asking n
  · rw [compAt]
    exact h.ledger.available n
  · rw [wait] at hw
    rw [others _ (out w hw)]
    exact h.ledger.waiting w hw
  · rw [wait]
    exact h.ledger.once
  · rw [wait]
    exact h.ledger.fillsFirst
  · rw [pos] at flows
    refine float q (fun k => ?_) (h.streams.flowing q List.not_mem_nil flows)
    obtain ⟨-, ramp, hold, -⟩ := fill q k
    exact flows.elim ramp fun e => hold e.1
  · rw [Draws, draws] at d
    rw [pos] at pulse
    rw [evt] at linked
    exact float q (fun k => pulse ((fill q k).2.2.2 d)) (h.streams.drawing q List.not_mem_nil d pulse linked)
  · rw [esd] at l
    rw [free]
    rw [grant] at some
    have apart : Requester.pos q ≠ r := fun k => some (by rw [k, none])
    rw [others _ apart] at less
    exact h.balanced.derated l q some less
  · rw [esd] at l
    rw [free]
    rw [wait] at hw
    rw [others _ (out w (by rw [hw]; exact List.mem_cons_self))]
    exact h.balanced.head l w m hw

theorem ledger_setCapacity (h : Ledger s) (v : Nat) (f : Bool) : Ledger (setCapacity v f s) where
  fillFloors := h.fillFloors
  compFloors := h.compFloors
  grants r := by
    have le := h.grants r
    cases r <;> exact le
  whole := h.whole
  asking := h.asking
  available := h.available
  waiting w hw := by
    have some := h.waiting w hw
    cases e : w.who <;> rw [e] at some <;> exact some
  once := h.once
  fillsFirst := h.fillsFirst

theorem streams_setCapacity (h : Streams .none s) (v : Nat) (f : Bool) : Streams .none (setCapacity v f s) :=
  h.still (fun _ => ⟨rfl, rfl⟩) (fun _ => id) (fun _ => id) rfl

theorem sound_setCapacity (h : Sound .none s) (v : Nat) (f : Bool) : Sound .none (setCapacity v f s) :=
  h.recooled rfl rfl rfl rfl rfl rfl rfl fun r => by cases r <;> rfl

/-- The capacity falls, and grants are within it or will be shed. -/
theorem budget_setCapacity (h : Budget .none s) {v : Nat} (le : v ≤ s.cooling.capacity) (f : Bool) : Budget .none (setCapacity v f s) := by
  have grants (r : Requester) : (setCapacity v f s).grantOf r = s.grantOf r := by cases r <;> rfl
  have free : (setCapacity v f s).freeCapacity ≤ s.freeCapacity := Nat.sub_le_sub_right le _
  refine ⟨(ledger_setCapacity h.ledger v f), streams_setCapacity h.streams v f, ⟨fun l q some less => ?_, fun l w m hw => ?_⟩⟩
  · exact Nat.le_zero.1 (Nat.le_trans free (Nat.le_of_eq (h.balanced.derated l q some less)))
  · rw [grants]
    exact Nat.lt_of_le_of_lt free (h.balanced.head l w m hw)

end Sys2Proof.Machine
end

section
/-! SUPPORT. What a fill that asks for cooling makes of the budget: a share at once, or a place behind the last fill that waits
(R111, R112). -/

namespace Sys2Proof.Machine

variable {p q : PosId} {r : Requester} {s t u : State}

theorem Ledger.first_fill (h : Ledger s) {w : CoolWait} (hw : w ∈ s.cooling.wait) (fill : isFill w.who = true) :
    ∃ v l, s.cooling.wait = v :: l ∧ ∃ m, s.cooling.wait.filter (fun w => isFill w.who) = v :: m := by
  cases fills : s.cooling.wait.filter (fun w => isFill w.who) with
  | nil => exact absurd fill (List.filter_eq_nil_iff.1 fills w hw)
  | cons v m =>
    have first := h.fillsFirst
    rw [fills] at first
    exact ⟨v, _, first, m, rfl⟩

/-- A fill without a grant joins the list. -/
theorem budget_queuing (h : Budget .none s) (out : ∀ w ∈ s.cooling.wait, w.who ≠ .pos p) (none : (s.grantOf (.pos p)).grant = 0)
    (some : 0 < (s.grantOf (.pos p)).floor) (waits : fillWaits s p) : Budget .none (s.queuing p) := by
  have wait : (s.queuing p).cooling.wait = s.cooling.wait.filter (fun w => isFill w.who) ++ [⟨.pos p, s.clock⟩] ++
    s.cooling.wait.filter (fun w => !isFill w.who) := rfl
  have grants (r : Requester) : (s.queuing p).grantOf r = s.grantOf r := by cases r <;> rfl
  have free : (s.queuing p).freeCapacity = s.freeCapacity := rfl
  have comp (c : CompId) : (s.queuing p).comp c = s.comp c := rfl
  have esd : (s.queuing p).esd = s.esd := rfl
  have streams : Streams .none (s.queuing p) := h.streams.still (fun _ => ⟨rfl, rfl⟩) (fun _ => id) (fun _ => id) rfl
  generalize s.queuing p = t at *
  have fills : t.cooling.wait.filter (fun w => isFill w.who) =
      s.cooling.wait.filter (fun w => isFill w.who) ++ [⟨.pos p, s.clock⟩] := by
    rw [wait, List.filter_append, List.filter_append, List.filter_filter, List.filter_filter]
    simp [isFill]
  have comps : t.cooling.wait.filter (fun w => !isFill w.who) = s.cooling.wait.filter (fun w => !isFill w.who) := by
    rw [wait, List.filter_append, List.filter_append, List.filter_filter, List.filter_filter]
    simp [isFill]
  have mem (w : CoolWait) (hw : w ∈ t.cooling.wait) : w ∈ s.cooling.wait ∨ w = ⟨.pos p, s.clock⟩ := by
    rw [wait] at hw
    rcases List.mem_append.1 hw with hw | hw
    · exact (List.mem_append.1 hw).imp (fun k => (List.mem_filter.1 k).1) List.mem_singleton.1
    · exact .inl (List.mem_filter.1 hw).1
  refine ⟨⟨fun q => ?_, fun n => ?_, fun q => ?_, fun n => ?_, fun n => ?_, fun n => ?_, fun w hw => ?_, ?_, ?_⟩, streams,
    ⟨fun l q some less => ?_, fun l w m hw => ?_⟩⟩
  · rw [grants]; exact h.ledger.fillFloors q
  · rw [grants]; exact h.ledger.compFloors n
  · rw [grants]; exact h.ledger.grants q
  · rw [grants]; exact h.ledger.whole n
  · rw [grants, comp]; exact h.ledger.asking n
  · rw [comp]; exact h.ledger.available n
  · rw [grants]
    rcases mem w hw with hw | rfl
    · exact h.ledger.waiting w hw
    · exact ⟨none, some⟩
  · have before := h.ledger.once
    have apart : Requester.pos p ∉ s.cooling.wait.map (·.who) := fun k => by
      obtain ⟨w, hw, who⟩ := List.mem_map.1 k
      exact out w hw who
    have perm : t.cooling.wait.Perm (⟨.pos p, s.clock⟩ :: s.cooling.wait) := by
      have split := h.ledger.fillsFirst
      rw [wait, List.append_assoc]
      refine List.perm_middle.trans (List.Perm.cons _ ?_)
      exact List.Perm.of_eq split.symm
    rw [(perm.map (·.who)).nodup_iff, List.map_cons]
    exact List.nodup_cons.2 ⟨apart, before⟩
  · rw [fills, comps]
    exact wait
  · rw [grants] at some less
    rw [esd] at l
    rw [free]
    exact h.balanced.derated l q some less
  · rw [esd] at l
    rw [grants, free]
    rcases waits with ⟨v, hv, fill⟩ | above
    · obtain ⟨first, rest, list, tail, kept⟩ := h.ledger.first_fill hv fill
      rw [wait, kept, List.cons_append, List.cons_append] at hw
      obtain ⟨rfl, -⟩ := List.cons.inj hw
      exact h.balanced.head l first rest list
    · cases list : s.cooling.wait.filter (fun w => isFill w.who) with
      | nil =>
        rw [wait, list] at hw
        obtain ⟨rfl, -⟩ := List.cons.inj hw
        exact above
      | cons first tail =>
        have split := h.ledger.fillsFirst
        rw [list] at split
        rw [wait, list, List.cons_append, List.cons_append] at hw
        obtain ⟨rfl, -⟩ := List.cons.inj hw
        exact h.balanced.head l first _ split

/-- A fill without a grant is served at once. -/
theorem budget_served (h : Budget .none s) (out : ∀ w ∈ s.cooling.wait, w.who ≠ .pos p) (none : (s.grantOf (.pos p)).grant = 0)
    (some : 0 < (s.grantOf (.pos p)).floor) (fits : (s.grantOf (.pos p)).floor ≤ s.freeCapacity) :
    Budget .none (s.served p) ∧ ((s.served p).grantOf (.pos p)).floor ≤ ((s.served p).grantOf (.pos p)).grant := by
  have begun := h.unmoved (unmoved_budgetChanged s .served) rfl
  have grant (r : Requester) : (budgetChanged .served s).grantOf r = s.grantOf r := by cases r <;> rfl
  have free : (budgetChanged .served s).freeCapacity = s.freeCapacity := rfl
  have wait : (budgetChanged .served s).cooling.wait = s.cooling.wait := rfl
  have positions := (grantFill_still p (min (s.grantOf (.pos p)).demand s.freeCapacity) (budgetChanged .served s)).1
  have fillFloor := h.ledger.fillFloors p
  have still : (s.served p).esd = s.esd ∧ (s.served p).evt.plantLost = s.evt.plantLost ∧ (s.served p).drawList = s.drawList := by
    obtain ⟨w, e⟩ := served_eq p s
    rw [e]
    exact ⟨rfl, rfl, rfl⟩
  obtain ⟨esd, lost, draws⟩ := still
  have begunLost : (budgetChanged .served s).evt.plantLost = s.evt.plantLost := rfl
  have begunDraws : (budgetChanged .served s).drawList = s.drawList := rfl
  unfold State.served at *
  generalize hk : min (s.grantOf (.pos p)).demand s.freeCapacity = k at *
  generalize budgetChanged .served s = v at *
  have booked := grantFill_setGrant p k v
  have steady : (grantFill p k v).steady = v.steady := steady_grantFill p k v
  have set : Ledger (setGrant (.pos p) k v) := ledger_setGrant begun.ledger (by rw [grant]; omega) (fun c e => nomatch e)
    (.inr (by rw [wait]; exact out))
  have rest : (grantFill p k v).freeCapacity = s.freeCapacity - k := by
    rw [booked.free, setGrant_free, grant, none, ← free]
    unfold State.freeCapacity
    omega
  have given (q : PosId) : ((grantFill p k v).grantOf (.pos q)).grant = if q = p then k else (s.grantOf (.pos q)).grant := by
    rw [booked.grant, setGrant_grantOf, grant]
    simp
  have asks (r : Requester) : ((grantFill p k v).grantOf r).demand = (s.grantOf r).demand ∧
      ((grantFill p k v).grantOf r).floor = (s.grantOf r).floor := by
    rw [(booked.asks _).1, (booked.asks _).2, (setGrant_asks ..).1, (setGrant_asks ..).2, grant]
    exact ⟨rfl, rfl⟩
  have list : (grantFill p k v).cooling.wait = s.cooling.wait := by rw [booked.wait, setGrant_wait, wait]
  generalize grantFill p k v = t at *
  refine ⟨⟨set.booked booked, begun.streams.placed positions steady (fun q => ?_) (fun q => ?_) ?_, fun l q above below => ?_,
    fun l w m hw => ?_⟩, ?_⟩
  · rw [given, grant]
    split
    next e =>
      rw [e, none]
      exact Nat.zero_le _
    · exact Nat.le_refl _
  · rw [Draws, Draws, draws, begunDraws]
    exact id
  · rw [lost, begunLost]
  · rw [rest]
    rw [given] at above below
    rw [(asks _).1] at below
    by_cases e : q = p
    · subst e
      rw [if_pos rfl] at below
      omega
    · rw [if_neg e] at above below
      rw [esd] at l
      have zero := h.balanced.derated l q above below
      omega
  · rw [esd] at l
    rw [list] at hw
    rw [rest, (asks _).2]
    exact Nat.lt_of_le_of_lt (Nat.sub_le _ _) (h.balanced.head l w m hw)
  · rw [(asks _).2, given, if_pos rfl]
    omega

end Sys2Proof.Machine
end

section
/-! SUPPORT. The laws of requesters and holders with what the ESD latch adds: while it is set no fill is under way and no
compressor runs, waits or holds a grant, so no cascade does anything (R29, R71, R84, R89, R115, R119, R120, R159). -/

namespace Sys2Proof.Machine

variable {β : Prop} {p q : PosId} {a b : BankId} {c n : CompId} {s t u : State} {x y : Untold}

/-- No fill is under way, every compressor is at rest and without a grant. -/
structure Hushed (s : State) : Prop where
  fills : ∀ p, endable (s.pos p).state = false
  comps : ∀ c, ((s.comp c).state = .ready ∨ (s.comp c).state = .unavailable) ∧ (s.grantOf (.comp c)).grant = 0

/-- The laws of O56 with the holders of banks they rest on, and where `β` holds those of O55. -/
structure Ruled (β : Prop) (s : State) : Prop where
  fair : Fair β s
  hush : s.esd.latched = true → Hushed s

theorem Ruled.sound (h : Ruled β s) : Sound .none s := h.fair.sound

theorem Ruled.of_laws (he : EsdLaw s) (hc : CompLaw s) (hw : WaitLaw s) (hg : GrantLaw s) (hh : HolderLaw s)
    (hb : β → BudgetLaw s) : Ruled β s :=
  ⟨⟨.of_laws he hc hw hg hh, fun b => .of_law (hb b) hh⟩, fun l => ⟨he.noFill l, he.noRefill l⟩⟩

theorem Ruled.esdLaw (h : Ruled β s) : EsdLaw s where
  drawers w hw := (h.sound.fills.drawing w.pos ⟨w, hw, rfl⟩).1
  coolers p hp := by rw [(h.sound.grantLaw.waiters p hp).1]; rfl
  granted p hp := by rcases h.sound.grantLaw.fills p hp with k | k <;> rw [k] <;> rfl
  noFill l := (h.hush l).fills
  noRefill l := (h.hush l).comps

theorem Ruled.laws (h : Ruled β s) : EsdLaw s ∧ CompLaw s ∧ WaitLaw s ∧ GrantLaw s :=
  ⟨h.esdLaw, h.sound.compLaw, h.sound.comps.onceWaits, h.sound.grantLaw⟩

theorem Hushed.not_draws (h : Hushed s) (k : Sound .none s) (p : PosId) : ¬ Draws s p := fun d => by
  have under := (k.fills.drawing p d).1
  rw [h.fills p] at under
  cases under

theorem Hushed.no_bank (h : Hushed s) (k : Sound .none s) (c : CompId) : (s.comp c).bank = none :=
  (k.comps.resting c (by rcases (h.comps c).1 with e | e <;> rw [e] <;> decide)).1

theorem Hushed.no_grant (h : Hushed s) (k : Sound .none s) (r : Requester) : (s.grantOf r).grant = 0 := by
  cases r with
  | comp c => exact (h.comps c).2
  | pos p =>
    by_contra g
    have none := h.fills p
    rcases k.grantLaw.fills p g with e | e
    · rw [e] at none
      cases none
    · rw [e] at none
      cases none

/-- From `s` to `t` no fill begins, and no compressor leaves its rest. -/
structure Hushes (s t : State) : Prop where
  fills : ∀ p, endable (t.pos p).state = true → endable (s.pos p).state = true
  comps : ∀ c, (t.comp c).state = (s.comp c).state ∨ (t.comp c).state = .ready ∨ (t.comp c).state = .unavailable
  grants : ∀ c, (s.grantOf (.comp c)).grant = 0 → (t.grantOf (.comp c)).grant = 0

theorem Hushes.refl (s : State) : Hushes s s := ⟨fun _ => id, fun _ => .inl rfl, fun _ => id⟩

theorem Hushes.trans (h : Hushes s t) (k : Hushes t u) : Hushes s u := by
  refine ⟨fun p => h.fills p ∘ k.fills p, fun c => ?_, fun c => k.grants c ∘ h.grants c⟩
  rcases k.comps c with e | e
  · rw [e]
    exact h.comps c
  · exact .inr e

theorem Hushed.hushes (h : Hushed s) (k : Hushes s t) : Hushed t := by
  refine ⟨fun p => ?_, fun c => ⟨?_, k.grants c (h.comps c).2⟩⟩
  · by_contra under
    have before := k.fills p (Bool.eq_true_of_not_eq_false under)
    rw [h.fills p] at before
    cases before
  · rcases k.comps c with e | e
    · rw [e]
      exact (h.comps c).1
    · exact e

theorem Unmoved.hushes (h : Unmoved s t) : Hushes s t :=
  ⟨fun p => by rw [(h.pos p).1]; exact id, fun c => .inl (h.comps c).1, fun c => by rw [h.grant]; exact id⟩

/-- A change that keeps the laws, and the rest while the latch is set. -/
theorem Ruled.step {α : Prop} (h : Ruled α s) (esd : t.esd = s.esd) (fair : Fair β t)
    (hushes : s.esd.latched = true → Hushed s → Hushes s t) : Ruled β t :=
  ⟨fair, fun l => by
    rw [esd] at l
    exact (h.hush l).hushes (hushes l (h.hush l))⟩

theorem Ruled.unmoved (h : Ruled β s) (k : Unmoved s t) (esd : t.esd = s.esd) : Ruled β t :=
  h.step esd (h.fair.unmoved k esd) fun _ _ => k.hushes

theorem Ruled.sends (h : Ruled β s) (k : Sends s t) : Ruled β t := h.unmoved k.unmoved k.esd

theorem Ruled.ite (c : Prop) [Decidable c] (ht : c → Ruled β t) (hu : ¬ c → Ruled β u) : Ruled β (if c then t else u) := by
  split
  next k => exact ht k
  next k => exact hu k

/-! ### Cascades -/

theorem Ruled.moves {α : Prop} (h : Ruled α s) (k : Moves s t) (fair : Fair β t) (hushes : s.esd.latched = true → Hushed s → Hushes s t) :
    Ruled β t := h.step k.esd fair hushes

theorem ruled_endFill (h : Ruled β s) (p : PosId) (reason : EndReason) : Ruled β (endFill p reason s) := by
  refine h.moves (moves_endFill p reason .refl) (fair_endFill h.fair p reason) fun _ k => ?_
  rw [endFill_of_not_endable (k.fills p)]
  exact .refl s

theorem ruled_offerPass (h : Ruled β s) (l : List BankId) : Ruled β (offerPass l s) := by
  refine h.moves (moves_offerPass l .refl) (fair_offerPass h.fair l) fun k _ => ?_
  rw [offerPass_latched l k]
  exact .refl s

theorem ruled_assignmentPass (h : Ruled β s) : Ruled β (assignmentPass s) := by
  refine h.moves (moves_assignmentPass .refl) (fair_assignmentPass h.fair) fun k _ => ?_
  rw [assignmentPass_latched k]
  exact .refl s

theorem ruled_redistribute {α : Prop} (h : Ruled α s) (k : β → Ledger s ∧ Streams .none s) : Ruled β (redistribute s) := by
  refine h.moves (moves_redistribute .refl) (fair_redistribute h.sound k) fun k _ => ?_
  rw [redistribute_latched k]
  exact .refl s

theorem ruled_bankIdle (h : Ruled β s) (b : BankId) : Ruled β (bankIdle b s) := by
  refine h.moves (moves_bankIdle b .refl) (fair_bankIdle h.fair b) fun k _ => ?_
  obtain ⟨l, e⟩ := bankIdle_latched k b
  rw [e]
  exact (unmoved_queue s l).hushes

theorem Frees.hushes (k : Frees b s t) : Hushes s t := by
  refine ⟨fun q => by rw [(k.pos q).1]; exact id, fun c => .inl (by rw [State.comp, k.comps]; rfl), fun c => ?_⟩
  rw [State.grantOf, State.grantOf, k.cooling]
  exact id

theorem matchQueue_hushed (h : Hushed s) (n : Nat) : matchQueue n s = s := by
  have none : s.coolingWaiters = 0 := by
    rw [State.coolingWaiters, List.length_eq_zero_iff, List.filter_eq_nil_iff]
    intro c _
    rcases (h.comps c).1 with e | e <;> rw [e] <;> decide
  cases n with
  | zero => rfl
  | succ n =>
    unfold matchQueue
    rw [none, if_neg (Nat.not_lt_zero _)]

theorem dequeue_hushed (h : Hushed s) (b : BankId) : Hushes s (dequeue b s) := by
  unfold dequeue
  split
  · have queued := unmoved_queue s (s.queue.filter (fun e => e.bank != b))
    rw [matchQueue_hushed (h.hushes queued.hushes)]
    exact queued.hushes
  · exact .refl s

theorem ruled_dequeue (h : Ruled β s) (b : BankId) : Ruled β (dequeue b s) :=
  h.moves (moves_dequeue b .refl) (fair_dequeue h.fair b) fun _ k => dequeue_hushed k b

theorem withdrawPosition_hushed (h : Hushed s) (p : PosId) : Hushes s (withdrawPosition p s) := by
  have left : Hushes s (s.modPos p (fun x => { x with bank := none })) := by
    refine ⟨fun q => ?_, fun _ => .inl rfl, fun _ => id⟩
    by_cases e : q = p
    · subst e
      rw [State.modPos_pos]
      exact id
    · rw [State.modPos_pos_ne _ _ _ _ e]
      exact id
  have none := h.fills p
  unfold withdrawPosition
  dsimp only
  split
  next k => rw [k] at none; cases none
  next k => rw [k] at none; cases none
  · exact left

theorem ruled_bankLeaves (h : Ruled β s) (b : BankId) (st : BankState) : Ruled β (bankLeaves b st s) := by
  refine h.moves (moves_bankLeaves b st .refl) (fair_bankLeaves h.fair b st) fun _ k => ?_
  have frees := frees_vacateBank h.sound b st
  have quiet := k.hushes frees.hushes
  refine frees.hushes.trans ?_
  unfold bankLeaves tellBankLeft
  split
  next p _ _ => exact (withdrawPosition_hushed quiet p).trans (dequeue_hushed (quiet.hushes (withdrawPosition_hushed quiet p)) b)
  next c _ holder =>
    have held := (h.sound.banks.refilled b c holder).2
    rw [k.no_bank h.sound c] at held
    cases held
  · exact dequeue_hushed quiet b

theorem ruled_completeRefill (h : Ruled β s) (c : CompId) (stop : StopCause) (cause : CompCause) :
    Ruled β (completeRefill c stop cause s) := by
  refine h.moves (moves_completeRefill c stop cause .refl) (fair_completeRefill h.fair c stop cause) fun _ k => ?_
  unfold completeRefill
  rw [k.no_bank h.sound c]
  exact .refl s

theorem ruled_withdrawRefill (h : Ruled β s) (c : CompId) (stop : StopCause) (cause : CompCause) {next : CompState}
    (hn : next ≠ .running) : Ruled β (withdrawRefill c stop cause next s) := by
  refine h.moves (moves_withdrawRefill c stop cause next .refl) (fair_withdrawRefill h.fair c stop cause hn)
    fun _ k => ?_
  unfold withdrawRefill
  rw [k.no_bank h.sound c]
  exact .refl s

theorem Hushed.not_waiting (h : Hushed s) (c : CompId) : (s.comp c).state ≠ .coolingWait := by
  rcases (h.comps c).1 with e | e <;> rw [e] <;> decide

theorem ruled_leaveCoolingWait (h : Ruled β s) (hc : (s.comp c).state = .coolingWait) {next : CompState} (hn : next ≠ .running)
    (cause : CompCause) : Ruled β (leaveCoolingWait c next cause s) :=
  h.moves (moves_leaveCoolingWait c next cause .refl) (fair_leaveCoolingWait h.fair hc hn cause)
    fun _ k => absurd hc (k.not_waiting c)

/-- A compressor at rest changes between READY and UNAVAILABLE. -/
theorem ruled_modComp (h : Ruled β s) (hc : (s.comp c).state = .ready ∨ (s.comp c).state = .unavailable) (f : Compressor → Compressor)
    (hf : (f (s.comp c)).state = .ready ∨ (f (s.comp c)).state = .unavailable) (hb : (f (s.comp c)).bank = (s.comp c).bank)
    (he : (f (s.comp c)).entryHeld = (s.comp c).entryHeld)
    (asks : β → (f (s.comp c)).configured = true → 0 < (s.grantOf (.comp c)).demand)
    (available : β → (f (s.comp c)).state ≠ .unavailable → (f (s.comp c)).configured = true) : Ruled β (s.modComp c f) := by
  have idle : (s.comp c).state ≠ .running := by rcases hc with e | e <;> rw [e] <;> decide
  have notWaits : (s.comp c).state ≠ .coolingWait := by rcases hc with e | e <;> rw [e] <;> decide
  obtain ⟨bank, entry⟩ := h.sound.comps.resting c idle
  have grant : (s.grantOf (.comp c)).grant = 0 := by
    by_contra k
    exact idle ((h.sound.comps.refills c k).resolve_right List.not_mem_nil)
  refine h.step rfl ⟨sound_modComp h.sound (fun k => notWaits (h.sound.comps.waiting c k).1) List.not_mem_nil grant
    (h.sound.unheld fun b k => by rw [bank] at k; cases k) f (by rcases hf with e | e <;> rw [e] <;> decide) (hb.trans bank)
    (he.trans entry), fun k => budget_recomp (h.fair.budget k) c f (asks k) (available k)⟩ fun _ k => ⟨fun _ => id, fun n => ?_, fun _ => id⟩
  by_cases e : n = c
  · subst e
    rw [State.modComp_comp]
    exact .inr hf
  · exact .inl (by rw [State.modComp_comp_ne _ _ _ _ e])

theorem sumGrants_hushed (h : Hushed s) (k : Sound .none s) : s.sumGrants = 0 := by
  simp [State.sumGrants, h.no_grant k]

theorem ruled_shed {α : Prop} (h : Ruled α s) (k : β → Ledger s ∧ Streams .none s)
    (apart : ∀ p, (s.pos p).state = .ramp → Draws s p → s.evt.plantLost = true)
    (above : 0 < s.sumGrants) : Ruled β (shed s) := by
  refine h.moves (moves_shed .refl) (fair_shed h.sound k apart) fun _ k => ?_
  rw [sumGrants_hushed k h.sound] at above
  exact absurd above (Nat.lt_irrefl 0)

end Sys2Proof.Machine
end

section
/-! SUPPORT. What changes at one position keep of the laws of requesters and holders: requests of islands and the till, the
timers of a position, the meter and the ramp generator (chapters 01, 02, 07). -/

namespace Sys2Proof.Machine

variable {β : Prop} {p q : PosId} {a b : BankId} {c n : CompId} {r : Requester} {s t u : State} {x y : Untold}

theorem esd_of_fixed (h : t.fixed = s.fixed) : t.esd = s.esd := congrArg (fun x => x.2.2.2.1) h

/-- A fill is under way, so the latch is not set. -/
theorem Ruled.under (h : Ruled β s) (hp : endable (s.pos p).state = true) (fair : Fair β t) (esd : t.esd = s.esd) : Ruled β t := by
  refine h.step esd fair fun _ k => ?_
  rw [k.fills p] at hp
  cases hp

theorem Sound.not_cools (h : Sound .none s) (hp : (s.pos p).state ≠ .hold ∨ (s.pos p).holdReason ≠ some .cooling) : ¬ Cools s p := fun k => by
  obtain ⟨hold, reason⟩ := h.grantLaw.waiters p k
  rcases hp with e | e
  · exact e hold
  · exact e reason

/-! ### One position, neither in RAMP nor in HOLD -/

theorem sound_modPos (h : Sound .none s) (hr : (s.pos p).state ≠ .ramp) (hh : (s.pos p).state ≠ .hold) (f : Position → Position)
    (bank : ∀ b, (f (s.pos p)).bank = some b → (s.pos p).bank = some b)
    (draws : Draws s p → endable (f (s.pos p)).state = true) : Sound .none (s.modPos p f) := by
  have others (q : PosId) (hq : q ≠ p) : (s.modPos p f).pos q = s.pos q := State.modPos_pos_ne _ _ _ _ hq
  have cools : ¬ Cools s p := not_cools_of h hh
  refine ⟨h.comps.same rfl rfl, h.fills.change p (fun q hq => by rw [others q hq]; exact ⟨rfl, rfl⟩) rfl rfl (fun k => ?_)
    (fun k => absurd k List.not_mem_nil) (fun k => absurd k List.not_mem_nil) (fun k => absurd k cools) (fun q hq => .inr hq)
    (fun d => ⟨by rw [State.modPos_pos]; exact draws d, fun k => absurd k cools⟩), h.order.same rfl, fun q b hq => ?_,
    h.banks.refilled⟩
  · rcases h.grantLaw.fills p k with e | e
    · exact absurd e hr
    · exact absurd e hh
  · refine h.banks.fills q b ?_
    by_cases e : q = p
    · subst e
      rw [State.modPos_pos] at hq
      exact bank b hq
    · rwa [others q e] at hq

/-- A position takes a state in which no fill flows. -/
theorem budget_modPos (h : Budget .none s) (f : Position → Position) (hr : (f (s.pos p)).state ≠ .ramp)
    (hh : (f (s.pos p)).state ≠ .hold) (draws : Draws s p → (f (s.pos p)).state = .pulse) : Budget .none (s.modPos p f) := by
  have others (q : PosId) (hq : q ≠ p) : (s.modPos p f).pos q = s.pos q := State.modPos_pos_ne _ _ _ _ hq
  have booked : Booked s (s.modPos p f) := booked_of rfl rfl rfl
  refine h.booked booked (h.streams.change p (fun q hq => by rw [others q hq]; exact ⟨rfl, rfl⟩)
    (fun q hq => booked.afloat (by rw [others q hq])) (fun _ _ => id) rfl (fun k => absurd k List.not_mem_nil) fun _ k => ?_)
  rw [State.modPos_pos] at k
  rcases k with k | ⟨k, -⟩ | ⟨d, k, -⟩
  · exact absurd k hr
  · exact absurd k hh
  · exact absurd (draws d) k

theorem not_moving {x : PosState} (h : endable x = false) : x ≠ .ramp ∧ x ≠ .hold := by
  constructor <;> intro e <;> rw [e] at h <;> cases h

theorem not_flowing (h : endable (s.pos p).state = false) : (s.pos p).state ≠ .ramp ∧ (s.pos p).state ≠ .hold := not_moving h

/-- A position with no fill under way changes, and begins none. -/
theorem ruled_modPos (h : Ruled β s) (before : endable (s.pos p).state = false) (f : Position → Position)
    (after : endable (f (s.pos p)).state = false) (bank : ∀ b, (f (s.pos p)).bank = some b → (s.pos p).bank = some b) :
    Ruled β (s.modPos p f) := by
  obtain ⟨hr, hh⟩ := not_flowing before
  have out (d : Draws s p) : False := by
    have under := (h.sound.fills.drawing p d).1
    rw [before] at under
    cases under
  obtain ⟨hr', hh'⟩ := not_moving after
  refine h.step rfl ⟨sound_modPos h.sound hr hh f bank fun d => (out d).elim, fun b => budget_modPos (h.fair.budget b) f hr' hh'
    fun d => (out d).elim⟩ fun _ _ => ⟨fun q k => ?_, fun _ => .inl rfl, fun _ => id⟩
  · by_cases e : q = p
    · subst e
      rw [State.modPos_pos, after] at k
      cases k
    · rwa [State.modPos_pos_ne _ _ _ _ e] at k

theorem esd_setGrantOf (s : State) (r : Requester) (e : GrantEntry) : (s.setGrantOf r e).esd = s.esd := by cases r <;> rfl

/-- Demand and floor of a requester at rest. -/
theorem ruled_setGrantOf (h : Ruled β s) (e : GrantEntry) (he : e.grant = (s.grantOf r).grant) (none : (s.grantOf r).grant = 0)
    (out : ∀ w ∈ s.cooling.wait, w.who ≠ r) (fill : ∀ p, r = .pos p → e.floor = (e.demand + 3) / 4 ∧
      (s.pos p).state ≠ .ramp ∧ (s.pos p).state ≠ .hold ∧ (Draws s p → (s.pos p).state = .pulse))
    (comp : ∀ c, r = .comp c → e.floor = e.demand ∧ 0 < e.demand) : Ruled β (s.setGrantOf r e) := by
  refine h.step (esd_setGrantOf s r e) ⟨sound_setGrantOf h.sound r e he, fun b => budget_setGrantOf (h.fair.budget b) e he none out fill
    comp⟩ fun _ _ => ⟨fun q => ?_, fun n => .inl ?_, fun n => ?_⟩
  · rw [State.setGrantOf_pos]
    exact id
  · rw [State.setGrantOf_comp]
  · rw [setGrantOf_grant _ _ _ he]
    exact id

theorem Sound.idle_grant (h : Sound .none s) (hp : (s.pos p).state ≠ .ramp ∧ (s.pos p).state ≠ .hold) :
    (s.grantOf (.pos p)).grant = 0 := by
  by_contra k
  exact (h.grantLaw.fills p k).elim hp.1 hp.2

theorem ruled_makeUnavailable (h : Ruled β s) (before : endable (s.pos p).state = false) : Ruled β (makeUnavailable p s) := by
  have reset := ruled_modPos h before (fun x => { Position.initial with lane := x.lane }) rfl fun b k => nomatch k
  have left := reset.unmoved (unmoved_undraw _ (fun w => w.pos != p)) rfl
  have state : ((s.modPos p (fun x => { Position.initial with lane := x.lane })).pos p).state = .unavailable := by
    rw [State.modPos_pos]
    rfl
  unfold makeUnavailable
  dsimp only
  generalize s.modPos p (fun x => { Position.initial with lane := x.lane }) = v at *
  have own : (({ v with drawList := v.drawList.filter (fun w => w.pos != p) } : State).pos p).state = .unavailable := state
  change Ruled β (State.setGrantOf { v with drawList := v.drawList.filter (fun w => w.pos != p) } (.pos p) _)
  generalize ({ v with drawList := v.drawList.filter (fun w => w.pos != p) } : State) = u at *
  have rests : (u.pos p).state ≠ .ramp ∧ (u.pos p).state ≠ .hold := by
    rw [own]
    decide
  refine ruled_setGrantOf left { u.grantOf (.pos p) with demand := 0, floor := 0 } rfl (left.sound.idle_grant rests)
    (fun w hw who => not_cools_of left.sound rests.2 ⟨w, hw, who⟩) (fun q e => ?_) fun c e => nomatch e
  obtain rfl := Requester.pos.inj e
  refine ⟨(by decide : 0 = (0 + 3) / 4), rests.1, rests.2, fun d => ?_⟩
  have under := (left.sound.fills.drawing p d).1
  rw [own] at under
  cases under

theorem ruled_removeAuthorization (h : Ruled β s) (p : PosId) (why : AuthEnd) : Ruled β (removeAuthorization p why s) := by
  have removed := h.unmoved (unmoved_modPos s p (fun x => { x with authorization := none, phaseTimer := none })
    fun _ => ⟨rfl, rfl, rfl⟩) rfl
  exact removed.sends (sends_postNotice _ _ _ _ _)

theorem removed_state (p : PosId) (why : AuthEnd) (s : State) : ((removeAuthorization p why s).pos p).state = (s.pos p).state := by
  unfold removeAuthorization
  dsimp only
  rw [postNotice_pos, State.modPos_pos]

theorem ruled_loseAuthorization (h : Ruled β s) (p : PosId) (why : AuthEnd) : Ruled β (loseAuthorization p why s) := by
  have removed := ruled_removeAuthorization h p why
  have state := removed_state p why s
  unfold loseAuthorization
  split
  next k => exact ruled_modPos removed (by rw [state, k]; rfl) _ rfl fun _ => id
  next k => exact ruled_modPos removed (by rw [state, k]; rfl) _ rfl fun _ => id
  · exact h

/-! ### Requests of islands and the till about a position -/

theorem Ruled.sendValve (h : Ruled β s) (p : PosId) : Ruled β (sendValve p s) := h.unmoved (unmoved_sendValve s p) rfl

theorem ruled_openPosition (h : Ruled β s) (hose high nozzle : Byte) (p : PosId) : Ruled β (openPosition hose high nozzle p s).1 := by
  unfold openPosition
  split
  · exact h
  next k =>
    split
    · exact h
    · split
      · dsimp only
        refine (ruled_modPos h (by rw [Decidable.not_not.1 k]; rfl) _ ?_ fun _ => id).sendValve p
        dsimp only
        split <;> rfl
      · exact h

theorem ruled_removed_unavailable (h : Ruled β s) (why : AuthEnd) (before : endable (s.pos p).state = false) :
    Ruled β (makeUnavailable p (removeAuthorization p why s)) :=
  ruled_makeUnavailable (ruled_removeAuthorization h p why) (by rw [removed_state]; exact before)

theorem ruled_closePosition (h : Ruled β s) (p : PosId) : Ruled β (closePosition p s).1 := by
  unfold closePosition
  split
  · exact h
  next k => exact ruled_makeUnavailable h (by rw [k]; rfl)
  next k => exact ruled_makeUnavailable h (by rw [k]; rfl)
  next k => exact ruled_removed_unavailable h .closed (by rw [k]; rfl)
  next k => exact ruled_removed_unavailable h .closed (by rw [k]; rfl)
  iterate 5 exact h
  · exact h.unmoved (unmoved_modPos s p (fun x => { x with closePending := some .close }) fun _ => ⟨rfl, rfl, rfl⟩) rfl

theorem ruled_moveNozzle (h : Ruled β s) (p : PosId) (n : Nozzle) : Ruled β (moveNozzle p n s) := by
  have moved := h.unmoved (unmoved_modPos s p (fun x => { x with nozzle := n }) fun _ => ⟨rfl, rfl, rfl⟩) rfl
  have state : ((s.modPos p (fun x => { x with nozzle := n })).pos p).state = (s.pos p).state := by rw [State.modPos_pos]
  unfold moveNozzle
  dsimp only
  generalize s.modPos p (fun x => { x with nozzle := n }) = u at *
  split
  next k => exact ruled_modPos moved (by rw [state, k]; rfl) _ rfl fun _ => id
  next k => exact ruled_modPos moved (by rw [state, k]; rfl) _ rfl fun _ => id
  next k => exact ruled_modPos moved (by rw [state, k]; rfl) _ rfl fun _ => id
  next k => exact ruled_modPos moved (by rw [state, k]; rfl) _ rfl fun _ => id
  next k =>
    split
    · exact ruled_makeUnavailable moved (by rw [state, k]; rfl)
    · exact ruled_modPos moved (by rw [state, k]; rfl) _ rfl fun _ => id
  · exact ruled_endFill moved p _
  · exact moved

theorem ruled_setNozzle (h : Ruled β s) (code : Byte) (p : PosId) : Ruled β (setNozzle code p s).1 := by
  unfold setNozzle
  split
  · exact h
  · split
    · exact h
    · exact Ruled.ite _ (fun _ => h) fun _ => ruled_moveNozzle h p _

theorem ruled_stopPosition (h : Ruled β s) (p : PosId) : Ruled β (stopPosition p s).1 := by
  unfold stopPosition
  split
  · exact ruled_endFill h p _
  · split
    · exact h
    · exact h

theorem draws_found {w : DrawWait} (h : s.drawList.find? (fun w => w.pos == p) = some w) : Draws s p := by
  have own := List.find?_some h
  exact ⟨w, List.mem_of_find?_eq_some h, eq_of_beq own⟩

/-- Between events a position that waits for a bank does not wait for cooling. -/
theorem Sound.drawer (h : Sound .none s) (linked : s.evt.plantLost = false) (hd : Draws s p) : ¬ Cools s p := fun k => by
  rcases (h.fills.drawing p hd).2 k with e | e
  · cases e
  · rw [linked] at e
    cases e

theorem ruled_retestWaiter (h : Ruled β s) (p : PosId) : Ruled β (retestWaiter p s) := by
  have esd : (retestWaiter p s).esd = s.esd := (moves_retestWaiter p .refl).esd
  unfold retestWaiter at esd ⊢
  split
  · exact h
  next w found =>
    rw [found] at esd
    dsimp only at esd
    have draws := draws_found found
    have under := (h.sound.fills.drawing p draws).1
    split
    next b best =>
      rw [best] at esd
      have serves := bestBank_eligible best
      have linked := eligible_linked serves
      refine h.under under ⟨sound_grantBank h.sound (eligible_idle serves).1
        ⟨under, fun k => absurd k (h.sound.drawer linked draws)⟩, fun k => ?_⟩ esd
      refine budget_grantBank (h.fair.budget k) (.inr ?_) b
      by_cases pulse : (s.pos p).state = .pulse
      · exact .inl pulse
      · exact .inr ((h.fair.budget k).streams.drawing p List.not_mem_nil draws pulse linked)
    · exact h

theorem ruled_overpressureTrip (h : Ruled β s) (p : PosId) : Ruled β (overpressureTrip p s) := by
  unfold overpressureTrip
  split
  · split
    · have ended := ruled_endFill h p .overpressure
      dsimp only
      generalize endFill p .overpressure s = u at *
      have tripped : Ruled β { u with tripped := u.tripped.set p true } := ended.unmoved (unmoved_of rfl rfl rfl rfl rfl rfl) rfl
      exact Ruled.ite _ (fun _ => ended) fun _ => tripped.sends (sends_postNotice _ _ _ _ _)
    · exact h
  · exact h

theorem ruled_reportPressure (h : Ruled β s) (v : Nat) (p : PosId) :
    Ruled β (reportPressure v p s).1 := by
  unfold reportPressure
  dsimp only
  split
  · exact h
  · have held := h.unmoved (unmoved_modPos s p (fun x => { x with
        pressure := some ⟨(clampPressure v).1, s.clock⟩
        sensorRange := (clampPressure v).2
        staleWatch := if endable x.state then some 2000 else x.staleWatch }) fun _ => ⟨rfl, rfl, rfl⟩) rfl
    exact ruled_overpressureTrip (Ruled.ite _ (fun _ => held) fun _ => ruled_retestWaiter held p) p

theorem ruled_reportVehicle (h : Ruled β s) (r : Option VehicleReport) (p : PosId) : Ruled β (reportVehicle r p s).1 := by
  have moved (f : Position → RampGenerator) : Ruled β (s.modPos p (fun x => { x with ramp := f x })) :=
    h.unmoved (unmoved_modPos s p _ fun _ => ⟨rfl, rfl, rfl⟩) rfl
  unfold reportVehicle
  split
  · exact h
  · split
    · have dropped := moved fun x => { x.ramp with drops := satSucc x.ramp.drops }
      exact dropped
    next r =>
      have pushed := moved fun x => { x.ramp.push r with lastValid := some ⟨r, s.clock⟩ }
      exact pushed

theorem ruled_authorizePosition (h : Ruled β s) (tag : Tag) (classes kind : Byte) (v : Nat) (p : PosId) :
    Ruled β (authorizePosition tag classes kind v p s).1 := by
  unfold authorizePosition
  dsimp only
  split
  · exact h
  · split
    · exact h
    next k =>
      split
      · split
        · exact h
        · split
          · exact h
          next set preset _ _ _ _ =>
            refine ruled_modPos h ?_ (fun x => { x with
              authorization := some ⟨tag, set, preset, true⟩
              phaseTimer := some 180000
              state := if x.state == .idle then .waitNozzle else .ready }) ?_ fun _ => id
            · by_cases idle : (s.pos p).state = .idle
              · rw [idle]
                rfl
              · have waits : (s.pos p).state = .waitAuth := by
                  by_contra e
                  exact k ⟨idle, e⟩
                rw [waits]
                rfl
            · dsimp only
              split <;> rfl
      · exact h

theorem ruled_cancelPosition (h : Ruled β s) (tag : Tag) (p : PosId) : Ruled β (cancelPosition tag p s).1 := by
  unfold cancelPosition
  split
  iterate 4 exact h
  iterate 2
    split
    · exact ruled_loseAuthorization h p _
    · exact h
  all_goals
    split
    · exact ruled_endFill h p _
    · exact h

theorem ruled_attachLane (h : Ruled β s) (lane : Byte) (p : PosId) : Ruled β (attachLane lane p s).1 := by
  unfold attachLane
  split
  · exact h
  next l _ =>
    split
    · exact h
    · exact h.unmoved (unmoved_modPos s p (fun x => { x with lane := some l }) fun _ => ⟨rfl, rfl, rfl⟩) rfl

/-! ### START (R18) -/

theorem unmoved_warmTest (s : State) (l : LaneId) : Unmoved s (warmTest l s) := by
  unfold warmTest
  split
  · split
    · exact unmoved_modLane s l _
    · exact unmoved_modLane s l _
  · exact .refl s

theorem unmoved_warmTestOf (s : State) (l : Option LaneId) : Unmoved s (warmTestOf l s) := by
  cases l with
  | none => exact .refl s
  | some l => exact unmoved_warmTest s l

theorem unmoved_checkpoint (s : State) (p : PosId) (also : List RecWrite) : Unmoved s (checkpoint p also s) := by
  have marked : Unmoved s (modRecord p (fun r => { r with checkpointMass := (s.chan p).mass }) s) := unmoved_modRecord s p _
  unfold checkpoint
  dsimp only
  generalize modRecord p (fun r => { r with checkpointMass := (s.chan p).mass }) s = u at marked
  split
  · exact marked
  · exact marked.trans (unmoved_of rfl rfl rfl rfl rfl rfl)

theorem esd_modRecord (p : PosId) (f : TxnRecord → TxnRecord) (s : State) : (modRecord p f s).esd = s.esd := by
  obtain ⟨w, e⟩ := modRecord_eq p f s
  rw [e]

theorem esd_checkpoint (p : PosId) (also : List RecWrite) (s : State) : (checkpoint p also s).esd = s.esd := by
  unfold checkpoint
  dsimp only
  split
  · exact esd_modRecord p _ s
  · exact esd_modRecord p _ s

theorem esd_warmTest (l : LaneId) (s : State) : (warmTest l s).esd = s.esd := by
  unfold warmTest
  split
  · split <;> rfl
  · rfl

theorem esd_warmTestOf (l : Option LaneId) (s : State) : (warmTestOf l s).esd = s.esd := by
  cases l with
  | none => rfl
  | some l => exact esd_warmTest l s

/-- The bookkeeping of START (R18). -/
theorem fair_started (h : Fair β s) (ready : (s.pos p).state = .ready) (k : ClassId) (t : Tariff) (a : Authorization)
    (i : SlotId) : Fair β (s.started p k t a i) ∧ ((s.started p k t a i).pos p).state = .pulse := by
  have booked : Unmoved s (({ s with
      work := { s.work with
        slots := s.work.slots.set i (.txn (openingRecord s.work.nextNumber p k a (startMode s.clock (s.pos p).ramp) t.price s.stamp))
        nextNumber := s.work.nextNumber + 1 }
      tripped := s.tripped.set p false } : State).setChan p { Channel.initial with lastPulse := (s.chan p).lastPulse }) :=
    unmoved_of rfl rfl rfl rfl rfl rfl
  have esd : (({ s with
      work := { s.work with
        slots := s.work.slots.set i (.txn (openingRecord s.work.nextNumber p k a (startMode s.clock (s.pos p).ramp) t.price s.stamp))
        nextNumber := s.work.nextNumber + 1 }
      tripped := s.tripped.set p false } : State).setChan p { Channel.initial with lastPulse := (s.chan p).lastPulse }).esd = s.esd := rfl
  unfold State.started
  dsimp only
  have before := (booked.pos p).1.trans ready
  have start := h.unmoved booked esd
  generalize State.setChan _ p _ = u at *
  generalize hx : ({ s.pos p with
    state := .pulse, pulseState := some .waiting, cls := some k, mode := some (startMode s.clock (s.pos p).ramp)
    transaction := some s.work.nextNumber, startTime := some s.clock, endReason := none, holdReason := none
    authorization := some { a with reservation := false }
    phaseTimer := none, periodTimer := some 1000, staleWatch := some 2000
    ramp := { RampGenerator.initial with
      startEntry := s.rampEntry k (bandOf s.clock s.ambient)
      lastValid := (s.pos p).ramp.lastValid } } : Position) = x
  have pulse : x.state = .pulse := by rw [← hx]
  have bank : x.bank = (s.pos p).bank := by rw [← hx]
  have opened : Fair β (u.setPos p x) := by
    refine ⟨sound_modPos start.sound (p := p) (by rw [before]; decide) (by rw [before]; decide) (fun _ => x) (fun b hb => ?_)
      fun _ => by rw [pulse]; rfl, fun b => budget_modPos (p := p) (start.budget b) (fun _ => x) (by rw [pulse]; decide)
      (by rw [pulse]; decide) fun _ => pulse⟩
    rwa [bank, ← (booked.pos p).2.2] at hb
  have own : ((u.setPos p x).pos p).state = .pulse := by rw [State.setPos_pos, pulse]
  have entry : (s.grantOf (.pos p)).grant = ((u.setPos p x).grantOf (.pos p)).grant := (booked.grant (.pos p)).symm
  have rests : ((u.setPos p x).pos p).state ≠ .ramp ∧ ((u.setPos p x).pos p).state ≠ .hold := by
    rw [own]
    decide
  generalize u.setPos p x = v at *
  refine ⟨⟨sound_setGrantOf opened.sound (.pos p) { s.grantOf (.pos p) with demand := fillDemand s p k, floor := demandFloor (fillDemand s p k) }
    entry, fun b => ?_⟩, by rw [State.setGrantOf_pos]; exact own⟩
  refine budget_setGrantOf (opened.budget b) { s.grantOf (.pos p) with
    demand := fillDemand s p k, floor := demandFloor (fillDemand s p k) } entry (opened.sound.idle_grant rests)
    (fun w hw who => not_cools_of opened.sound rests.2 ⟨w, hw, who⟩) (fun q e => ?_) fun c e => nomatch e
  obtain rfl := Requester.pos.inj e
  exact ⟨rfl, rests.1, rests.2, fun _ => own⟩

theorem fair_startFill (h : Fair β s) (ready : (s.pos p).state = .ready) (k : ClassId) (t : Tariff) (a : Authorization)
    (i : SlotId) : Fair β (startFill p k t a i s) := by
  obtain ⟨started, pulse⟩ := fair_started h ready k t a i
  rw [startFill_eq]
  dsimp only
  generalize s.started p k t a i = u at *
  have asked := fair_drawRequest started (by rw [pulse]; rfl) (not_cools_of started.sound (by rw [pulse]; decide))
    (fun _ => .inl pulse) .pulse none
  generalize drawRequest p .pulse none u = v at *
  have told : Unmoved v (fillStateWith p [.nextNumber (s.work.nextNumber + 1)] v) :=
    (sends_postNotice _ _ _ _ _).unmoved.trans (unmoved_checkpoint _ p _)
  have esd : (fillStateWith p [.nextNumber (s.work.nextNumber + 1)] v).esd = v.esd :=
    (esd_checkpoint p _ _).trans (sends_postNotice _ _ _ _ _).esd
  exact asked.unmoved (told.trans (unmoved_warmTestOf _ _)) ((esd_warmTestOf _ _).trans esd)

theorem ruled_startPosition (h : Ruled β s) (p : PosId) : Ruled β (startPosition p s).1 := by
  have esd := esd_of_fixed (answers_startPosition p s).owned.fixed
  unfold startPosition at esd ⊢
  split
  · exact h
  next k t checked =>
    have ready := startCheck_chosen_ready checked
    have unlatched : s.esd.latched ≠ true := fun l => by
      unfold startCheck at checked
      rw [if_pos l] at checked
      cases checked
    rw [checked] at esd
    dsimp only at esd ⊢
    split
    next a i authorized free =>
      rw [authorized, free] at esd
      refine ⟨fair_startFill h.fair ready k t a i, fun l => absurd ?_ unlatched⟩
      rwa [esd] at l
    · exact h

end Sys2Proof.Machine
end

section
/-! SUPPORT. What the timers of a fill, the meter and the ramp generator keep of the laws of requesters and holders
(R10, R19 to R25, R40 to R53, R112, R126 to R136). -/

namespace Sys2Proof.Machine

variable {β : Prop} {p q : PosId} {a b : BankId} {c n : CompId} {s t u : State} {x y : Untold}

/-- Between events a position waits for a bank in PULSE, waiting, or in HOLD(BANK). -/
theorem HolderLaw.not_draws (h : HolderLaw s) (hp : (s.pos p).state = .pulse → (s.pos p).pulseState ≠ some .waiting)
    (hh : (s.pos p).state = .hold → (s.pos p).holdReason ≠ some .bank) : ¬ Draws s p := by
  rintro ⟨w, hw, rfl⟩
  obtain ⟨-, kind⟩ := h.drawers w hw
  split at kind
  · exact hp kind.1 kind.2
  · exact hh kind.1 kind.2

theorem Unmoved.modPos (h : Unmoved s t) (p : PosId) (f : Position → Position)
    (hf : ∀ x, (f x).state = x.state ∧ (f x).holdReason = x.holdReason ∧ (f x).bank = x.bank)
    (hc : ∀ x, (f x).cls = x.cls := by exact fun _ => rfl) : Unmoved s (t.modPos p f) := h.trans (unmoved_modPos t p f hf hc)

/-! ### The pulse and the leak check (R19 to R21) -/

theorem unmoved_taken (p : PosId) (v : Nat) (s : State) : Unmoved s (s.taken p v) := by
  have held : Unmoved s (s.setPos p { s.pos p with initialPressure := some v, phaseTimer := none }) :=
    unmoved_modPos s p (fun x => { x with initialPressure := some v, phaseTimer := none }) fun _ => ⟨rfl, rfl, rfl⟩
  exact held.trans (unmoved_modRecord _ p _)

theorem esd_taken (p : PosId) (v : Nat) (s : State) : (s.taken p v).esd = s.esd := esd_modRecord p _ _

theorem esd_fillState (p : PosId) (s : State) : (fillState p s).esd = s.esd := (moves_fillState p .refl).esd

theorem fair_pulseExpired (h : Fair β s) (pulse : (s.pos p).state = .pulse) (hd : ¬ Draws s p) (k : ClassId) :
    Fair β (pulseExpired p k s) := by
  rw [pulseExpired_eq]
  have taken := unmoved_taken p (heldPressure (s.pos p)) s
  have held := h.unmoved taken (esd_taken p _ s)
  have state := (taken.pos p).1.trans pulse
  have draws : ¬ Draws (s.taken p (heldPressure (s.pos p))) p := fun k => hd (taken.draws p k)
  generalize s.taken p (heldPressure (s.pos p)) = u at *
  split
  · exact fair_endFill held p _
  · have released := fair_releaseBank held p
    have spared := spares_releaseBank draws p
    have own : ((releaseBank p u).pos p).state = .pulse := by
      rw [spared.pos, State.modPos_pos]
      exact state
    have out : ¬ Draws (releaseBank p u) p := fun d => draws (spared.draws d)
    generalize releaseBank p u = v at *
    have checking : Fair β (v.modPos p Position.leakChecking) :=
      ⟨sound_modPos released.sound (by rw [own]; decide) (by rw [own]; decide) _ (fun _ => id) fun _ => rfl,
        fun b => budget_modPos (released.budget b) _ (fun k => nomatch k) (fun k => nomatch k) fun d => absurd d out⟩
    exact ((checking.unmoved (unmoved_modChan _ p _) rfl).unmoved (unmoved_sendValve _ p) rfl).unmoved (unmoved_fillState _ p)
      (esd_fillState p _)

/-- A fill whose new state is not yet settled. -/
theorem Sound.loosen (h : Sound .none s) (p : PosId) : Sound ⟨[], [], [], some p⟩ s := by
  refine ⟨⟨h.comps.waiting, h.comps.served, h.comps.onceServed, h.comps.onceWaits, h.comps.running, h.comps.resting,
    h.comps.refills⟩, ⟨fun q hq => ?_, fun q hq => ?_, h.fills.served, h.fills.shed, h.fills.drawing⟩, h.order, h.banks⟩
  · rcases h.grantLaw.fills q hq with e | e
    · exact .inl e
    · exact .inr (.inl e)
  · exact ⟨.inl (h.grantLaw.waiters q hq), List.not_mem_nil⟩

theorem Sound.settled (h : Sound ⟨[], [], [], some p⟩ s)
    (grants : (s.grantOf (.pos p)).grant ≠ 0 → (s.pos p).state = .ramp ∨ (s.pos p).state = .hold)
    (cools : Cools s p → (s.pos p).state = .hold ∧ (s.pos p).holdReason = some .cooling) : Sound .none s := by
  refine ⟨⟨h.comps.waiting, h.comps.served, h.comps.onceServed, h.comps.onceWaits, h.comps.running, h.comps.resting,
    h.comps.refills⟩, ⟨fun q hq => ?_, fun q hq => ?_, h.fills.served, h.fills.shed, h.fills.drawing⟩, h.order, h.banks⟩
  · rcases h.fills.granted q hq with e | e | e
    · exact .inl e
    · exact .inr (.inl e)
    · obtain rfl := Option.some.inj e
      exact (grants hq).imp_right .inl
  · obtain ⟨holds, untold⟩ := h.fills.cooling q hq
    refine ⟨.inl ?_, untold⟩
    rcases holds with e | e | e
    · exact e
    · cases e
    · obtain rfl := Option.some.inj e
      exact cools hq

theorem checksCD_flows (hb : (s.pos p).bank = none) (hp : (s.pos p).state ≠ .pulse) :
    ((checksCD p s).pos p).state = .ramp ∨ ((checksCD p s).pos p).state = .hold := by
  rw [checksCD_eq hb hp]
  split
  · rw [enterHold_pos]
    exact .inr rfl
  · split
    next b _ =>
      rcases (grantBank_own p b s).1 with ⟨e, -⟩ | ⟨-, e⟩
      · exact absurd e hp
      · exact .inl e
    · rw [enterHold_pos]
      exact .inr rfl

/-- Checks (c) and (d) settle a fill that does not wait for cooling. -/
theorem sound_checksCD_settled (h : Sound ⟨[], [], [], some p⟩ s) (he : endable (s.pos p).state = true) (hc : ¬ Cools s p)
    (hb : (s.pos p).bank = none) (hp : (s.pos p).state ≠ .pulse) : Sound .none (checksCD p s) := by
  refine (sound_checksCD h he hc fun k => absurd k List.not_mem_nil).settled (fun _ => checksCD_flows hb hp) fun k => ?_
  rw [Cools, checksCD_cooling hb hp] at k
  exact absurd k hc

theorem queuing_cools (s : State) (p q : PosId) : Cools (s.queuing p) q ↔ Cools s q ∨ q = p := by
  have wait : (s.queuing p).cooling.wait = s.cooling.wait.filter (fun w => isFill w.who) ++ [⟨.pos p, s.clock⟩] ++
    s.cooling.wait.filter (fun w => !isFill w.who) := rfl
  rw [Cools, wait]
  constructor
  · rintro ⟨w, hw, who⟩
    rcases List.mem_append.1 hw with hw | hw
    · rcases List.mem_append.1 hw with hw | hw
      · exact .inl ⟨w, (List.mem_filter.1 hw).1, who⟩
      · rw [List.mem_singleton.1 hw] at who
        exact .inr (Requester.pos.inj who).symm
    · exact .inl ⟨w, (List.mem_filter.1 hw).1, who⟩
  · rintro (⟨w, hw, who⟩ | rfl)
    · refine ⟨w, List.mem_append_left _ (List.mem_append_left _ (List.mem_filter.2 ⟨hw, by rw [who]; rfl⟩)), who⟩
    · exact ⟨_, List.mem_append_left _ (List.mem_append_right _ (List.mem_singleton.2 rfl)), rfl⟩

theorem queuing_compWaits (s : State) (p : PosId) (c : CompId) : CompWaits (s.queuing p) c ↔ CompWaits s c := by
  have wait : (s.queuing p).cooling.wait = s.cooling.wait.filter (fun w => isFill w.who) ++ [⟨.pos p, s.clock⟩] ++
    s.cooling.wait.filter (fun w => !isFill w.who) := rfl
  rw [CompWaits, wait]
  constructor
  · rintro ⟨w, hw, who⟩
    rcases List.mem_append.1 hw with hw | hw
    · rcases List.mem_append.1 hw with hw | hw
      · exact ⟨w, (List.mem_filter.1 hw).1, who⟩
      · rw [List.mem_singleton.1 hw] at who
        cases who
    · exact ⟨w, (List.mem_filter.1 hw).1, who⟩
  · rintro ⟨w, hw, who⟩
    exact ⟨w, List.mem_append_right _ (List.mem_filter.2 ⟨hw, by rw [who]; rfl⟩), who⟩

/-- A fill joins the cooling wait list behind the last fill (R111, R112). -/
theorem sound_queuing (h : Sound .none s) (hd : ¬ Draws s p) : Sound ⟨[], [], [], some p⟩ (s.queuing p) := by
  have law : WaitLaw (s.queuing p) := by
    have wait : (s.queuing p).cooling.wait = s.cooling.wait.filter (fun w => isFill w.who) ++ [⟨.pos p, s.clock⟩] ++
      s.cooling.wait.filter (fun w => !isFill w.who) := rfl
    have none : (s.cooling.wait.filter (fun w => isFill w.who)).filter (fun w => !isFill w.who) = [] := by
      rw [List.filter_filter, List.filter_eq_nil_iff]
      intro w _
      cases isFill w.who <;> decide
    have own : [(⟨.pos p, s.clock⟩ : CoolWait)].filter (fun w => !isFill w.who) = [] := rfl
    rw [WaitLaw, wait, List.filter_append, List.filter_append, none, own, List.filter_filter]
    have once := h.comps.onceWaits
    rw [WaitLaw] at once
    simpa using once
  have loose := h.loosen p
  have cools := queuing_cools s p
  have waits := queuing_compWaits s p
  have positions : (s.queuing p).positions = s.positions := rfl
  have comps : (s.queuing p).comps = s.comps := rfl
  have banks : (s.queuing p).banks = s.banks := rfl
  have list : (s.queuing p).drawList = s.drawList := rfl
  have order : (s.queuing p).cooling.order = s.cooling.order := rfl
  have grants (r : Requester) : (s.queuing p).grantOf r = s.grantOf r := by cases r <;> rfl
  have lost : (s.queuing p).evt.plantLost = s.evt.plantLost := rfl
  generalize s.queuing p = t at *
  have pos (q : PosId) : t.pos q = s.pos q := by rw [State.pos, positions]; rfl
  have draws (q : PosId) : Draws t q ↔ Draws s q := by rw [Draws, Draws, list]
  refine ⟨loose.comps.still (fun c => by rw [State.comp, comps]; rfl) (fun c k => .inl (by rwa [grants] at k))
    (fun c => (waits c).1) law, ⟨fun q hq => ?_, fun q hq => ⟨?_, List.not_mem_nil⟩, fun q hq => absurd hq List.not_mem_nil,
    fun q hq => absurd hq List.not_mem_nil, fun q hq => ?_⟩, loose.order.still order fun r => by rw [grants],
    loose.banks.same positions comps banks⟩
  · rw [grants] at hq
    rw [pos]
    exact loose.fills.granted q hq
  · rw [pos]
    rcases (cools q).1 hq with k | rfl
    · exact (loose.fills.cooling q k).1
    · exact .inr (.inr rfl)
  · have before := (draws q).1 hq
    rw [pos, lost]
    refine ⟨(loose.fills.drawing q before).1, fun k => (loose.fills.drawing q before).2 (((cools q).1 k).resolve_right ?_)⟩
    rintro rfl
    exact hd before

theorem unmoved_fixTarget (p : PosId) (k : ClassId) (s : State) : Unmoved s (fixTarget p k s) :=
  unmoved_modPos s p _ fun _ => ⟨rfl, rfl, rfl⟩

/-- A fill that neither waits nor holds a grant asks for cooling, and is held or checked further. -/
theorem fair_asksCooling (h : Fair β s) (leak : (s.pos p).state = .leakCheck) (hd : ¬ Draws s p) (hb : (s.pos p).bank = none)
    (short : (s.grantOf (.pos p)).grant < (s.grantOf (.pos p)).floor) :
    Fair β (if (fillAsks p s).2 then checksCD p (fillAsks p s).1 else enterHold p .cooling (fillAsks p s).1) := by
  have cools : ¬ Cools s p := not_cools_of h.sound (by rw [leak]; decide)
  have out (w : CoolWait) (hw : w ∈ s.cooling.wait) : w.who ≠ .pos p := fun who => cools ⟨w, hw, who⟩
  have none := h.sound.idle_grant (p := p) (by rw [leak]; decide)
  by_cases waits : fillWaits s p
  · rw [fillAsks_waits waits]
    have joined := sound_queuing h.sound hd
    have entered := sound_enterHold (p := p) joined .cooling fun _ => .inl rfl
    exact ⟨entered.settled (fun _ => .inr (by rw [enterHold_pos]; rfl)) fun _ => by rw [enterHold_pos]; exact ⟨rfl, rfl⟩,
      fun b => budget_enterHold (budget_queuing (h.budget b) out none (by omega) waits) .cooling (.inr (.inr ⟨rfl, hd⟩))⟩
  · rw [fillAsks_served waits]
    have fits : (s.grantOf (.pos p)).floor ≤ s.freeCapacity := by
      by_contra above
      exact waits (.inr (Nat.lt_of_not_le above))
    have served : Sound ⟨[], [], [], some p⟩ (s.served p) :=
      sound_grantFill ((h.sound.loosen p).unmoved (unmoved_budgetChanged s .served)) (.inr (.inr rfl)) _
    obtain ⟨positions, wait⟩ := grantFill_still p (min (s.grantOf (.pos p)).demand s.freeCapacity) (budgetChanged .served s)
    have pos : (s.served p).pos p = s.pos p := congrArg (fun v => v[p]) positions
    have apart : ¬ Cools (s.served p) p := by
      rw [Cools, State.served, wait]
      exact cools
    refine ⟨sound_checksCD_settled served (by rw [pos, leak]; rfl) apart (by rw [pos]; exact hb) (by rw [pos, leak]; decide), fun b => ?_⟩
    obtain ⟨budget, floor⟩ := budget_served (h.budget b) out none (by omega) fits
    exact budget_checksCD budget (.inr fun _ _ _ => floor)

/-- The checks of a fill whose leak test has passed (R21). -/
theorem fair_rampEntryChecks (h : Fair β s) (leak : (s.pos p).state = .leakCheck) (hd : ¬ Draws s p)
    (hb : (s.pos p).bank = none) : Fair β (rampEntryChecks p s) := by
  cases hk : (s.pos p).cls with
  | none =>
    unfold rampEntryChecks
    rw [hk]
    exact h
  | some k =>
    rw [rampEntryChecks_eq hk]
    have fixed := unmoved_fixTarget p k s
    have held := h.unmoved fixed rfl
    have state := (fixed.pos p).1.trans leak
    have bank := (fixed.pos p).2.2.trans hb
    have cls := (fixed.cls p).trans hk
    have draws : ¬ Draws (fixTarget p k s) p := fun k => hd (fixed.draws p k)
    generalize fixTarget p k s = u at *
    split
    · exact fair_endFill held p _
    · split
      next asks =>
        obtain ⟨-, short⟩ := Bool.and_eq_true_iff.1 asks
        exact fair_asksCooling held state draws bank (of_decide_eq_true short)
      next enough =>
        refine ⟨sound_checksCD_settled (held.sound.loosen p) (by rw [state]; rfl) (not_cools_of held.sound (by rw [state]; decide)) bank
          (by rw [state]; decide), fun b => budget_checksCD (held.budget b) (.inr fun m hm some => ?_)⟩
        rw [cls] at hm
        obtain rfl := Option.some.inj hm
        by_contra below
        exact enough (Bool.and_eq_true_iff.2 ⟨bne_iff_ne.2 some, decide_eq_true (Nat.lt_of_not_le below)⟩)

/-! ### The ramp generator (R40 to R53) -/

theorem fair_switchBank (h : Fair β s) (ramp : (s.pos p).state = .ramp) (cause : SegmentEnd) :
    Fair β (switchBank p cause s) := by
  unfold switchBank
  split
  · exact h
  next b _ =>
    dsimp only
    have ended := unmoved_endSegment p cause s
    have before := h.unmoved ended (endSegment_esd p cause s)
    have state := (ended.pos p).1.trans ramp
    have released := fair_releaseBank before p
    have float := afloat_releaseBank before state
    have under : endable ((releaseBank p (endSegment p cause s)).pos p).state = true :=
      lives_releaseBank p _ p (by rw [state]; rfl)
    have cools : ¬ Cools (releaseBank p (endSegment p cause s)) p := fun k =>
      not_cools_of h.sound (p := p) (by rw [ramp]; decide) ((ended.cools p).1 (releaseBank_cools p k))
    generalize releaseBank p (endSegment p cause s) = u at *
    generalize (if (u.bank b).state == .idle then some b else none) = x
    exact fair_asksElse released under cools float x

theorem fair_setPointStage (h : Fair β s) (k : ClassId) (b : BankId) : Fair β (setPointStage p k b s) := by
  unfold setPointStage
  refine h.unmoved (Unmoved.trans ?_ (unmoved_sendValve _ p)) rfl
  exact unmoved_modPos s p _ fun _ => ⟨rfl, rfl, rfl⟩

theorem fair_switchStage (h : Fair β s) (ramp : (s.pos p).state = .ramp) (k : ClassId) (b : BankId) (mass : Nat) :
    Fair β (switchStage p k b mass s) := by
  have counted (v : Nat) : Unmoved s (s.modPos p (fun x => { x with ramp := { x.ramp with lowFlow := v } })) :=
    unmoved_modPos s p _ fun _ => ⟨rfl, rfl, rfl⟩
  have each (v : Nat) : Fair β (if 2 ≤ v then
        switchBank p .switchFlow (s.modPos p (fun x => { x with ramp := { x.ramp with lowFlow := 0 } }))
      else setPointStage p k b (s.modPos p (fun x => { x with ramp := { x.ramp with lowFlow := v } }))) := by
    split
    · exact fair_switchBank (h.unmoved (counted 0) rfl) (((counted 0).pos p).1.trans ramp) _
    · exact fair_setPointStage (h.unmoved (counted v) rfl) k b
  unfold switchStage
  dsimp only
  split
  · exact fair_switchBank (h.unmoved (counted 0) rfl) (((counted 0).pos p).1.trans ramp) _
  · exact each _

theorem fair_stages3to5 (h : Fair β s) (ramp : (s.pos p).state = .ramp) (k : ClassId) (b : BankId) (mass : Nat) :
    Fair β (stages3to5 p k b mass s) := by
  unfold stages3to5
  dsimp only
  split
  · exact fair_endFill h p _
  · exact fair_switchStage h ramp k b mass

theorem fair_stages2to5 (h : Fair β s) (ramp : (s.pos p).state = .ramp) (k : ClassId) (b : BankId) (mass : Nat) :
    Fair β (stages2to5 p k b mass s) := by
  unfold stages2to5
  dsimp only
  split
  next r _ _ =>
    have set : Unmoved s (s.modPos p (fun x => { x with ramp := { x.ramp with
        pTarget := some (max (commTarget k r.temperature) ((s.pos p).ramp.pSet.getD 0)) } })) :=
      unmoved_modPos s p _ fun _ => ⟨rfl, rfl, rfl⟩
    split
    · exact fair_endFill (h.unmoved set rfl) p _
    · exact fair_stages3to5 (h.unmoved set rfl) ((set.pos p).1.trans ramp) k b mass
  · exact fair_stages3to5 h ramp k b mass

/-- A degrade ends the fill, or leaves its state (R52). -/
theorem fair_degrade (h : Fair β s) (he : endable (s.pos p).state = true) : Fair β (degrade p s) ∧
    (((degrade p s).pos p).state = .ending ∨ ((degrade p s).pos p).state = (s.pos p).state ∧
      ((degrade p s).pos p).holdReason = (s.pos p).holdReason) := by
  unfold degrade
  dsimp only
  generalize (decide (((s.pos p).ramp.inUse.map (·.pnc)).getD 0 < (s.pos p).ramp.pSet.getD 0)) = above
  generalize (if above = true then (s.pos p).ramp.pSet.getD 0 else ((s.pos p).ramp.inUse.map (·.pnc)).getD 0) = target
  have set : Unmoved s (s.modPos p (fun x => { x with
      mode := some .noncomm
      ramp := { x.ramp with degraded := true, pTarget := some target } })) := unmoved_modPos s p _ fun _ => ⟨rfl, rfl, rfl⟩
  have marked := set.trans (unmoved_modRecord (s.modPos p (fun x => { x with
      mode := some .noncomm
      ramp := { x.ramp with degraded := true, pTarget := some target } })) p
    (fun r => { r with flags := { r.flags with degraded := true } }))
  have esd : (modRecord p (fun r => { r with flags := { r.flags with degraded := true } }) (s.modPos p (fun x => { x with
      mode := some .noncomm
      ramp := { x.ramp with degraded := true, pTarget := some target } }))).esd = s.esd := esd_modRecord p _ _
  generalize modRecord p _ (s.modPos p _) = u at marked esd
  have sent (v : State) : Sends v (postDegraded p v) := sends_postNotice _ _ _ _ _
  have posted (v : State) : Unmoved v (postDegraded p v) := (sent v).unmoved
  split
  · have ended := endFill_ended (s := u) (p := p) .targetReached (by rw [(marked.pos p).1]; exact he)
    refine ⟨(fair_endFill (h.unmoved marked esd) p _).sends (sent _), .inl ?_⟩
    rw [((posted _).pos p).1, ended.position]
  · have all := marked.trans (posted u)
    exact ⟨h.unmoved all ((sent u).esd.trans esd), .inr ⟨(all.pos p).1, (all.pos p).2.1⟩⟩

theorem unmoved_consumeAt (p : PosId) (s : State) : Unmoved s (consumeAt p s) := unmoved_modPos s p _ fun _ => ⟨rfl, rfl, rfl⟩

theorem fair_rampStep (h : Fair β s) (ramp : (s.pos p).state = .ramp) (k : ClassId) (b : BankId) (mass : Nat) :
    Fair β (rampStep p k b mass s) := by
  have consumed := unmoved_consumeAt p s
  have held := h.unmoved consumed rfl
  have state := (consumed.pos p).1.trans ramp
  unfold rampStep
  dsimp only
  generalize consumeAt p s = u at *
  split
  · exact fair_endFill held p _
  · have degraded := (fair_degrade (p := p) held (by rw [state]; rfl)).1
    generalize degrade p u = v at *
    split
    next k => exact fair_stages2to5 degraded (eq_of_beq k) _ b mass
    · exact degraded
  · exact fair_holdFromRamp held state .vehicle
  · exact fair_stages2to5 held state k b mass
  · exact fair_stages2to5 held state k b mass

theorem fair_vehicleUpdate (h : Fair β s) (hold : (s.pos p).state = .hold) (reason : (s.pos p).holdReason = some .vehicle) :
    Fair β (vehicleUpdate p s) := by
  have consumed := unmoved_consumeAt p s
  have held := h.unmoved consumed rfl
  have state := (consumed.pos p).1.trans hold
  have why := (consumed.pos p).2.1.trans reason
  unfold vehicleUpdate
  dsimp only
  generalize consumeAt p s = u at *
  have resumes (v : State) (hv : Fair β v) (hs : (v.pos p).state = .hold) (hr : (v.pos p).holdReason = some .vehicle) :
      Fair β (checksCD p v) :=
    fair_checksCD hv (by rw [hs]; rfl) (hv.sound.not_cools (.inr (by rw [hr]; decide)))
      (hv.flowing (.inr ⟨hs, by rw [hr]; decide⟩))
  split
  · exact fair_endFill held p _
  · obtain ⟨degraded, after⟩ := fair_degrade (p := p) held (by rw [state]; rfl)
    generalize degrade p u = v at *
    split
    next k =>
      have same := eq_of_beq k
      rcases after with e | ⟨-, e⟩
      · rw [e] at same
        cases same
      · exact resumes v degraded same (e.trans why)
    · exact degraded
  · exact resumes u held state why
  · exact held
  · exact held

/-! ### The meter (R126 to R136) -/

theorem unmoved_meterTake (p : PosId) (s : State) : Unmoved s (meterTake p s) := by
  have taken : Unmoved s (s.modChan p (fun c => c.take (s.cal p))) := unmoved_modChan s p _
  unfold meterTake
  dsimp only
  exact unmoved_ite _ (taken.trans (unmoved_modRecord _ p _)) taken

theorem unmoved_tellCreep (p : PosId) (s : State) : Unmoved s (tellCreep p s) := by
  unfold tellCreep
  exact unmoved_ite _ ((unmoved_modChan s p (fun c => { c with creep := true })).trans (unmoved_modRecord _ p _)) (.refl s)

theorem esd_meterTake (p : PosId) (s : State) : (meterTake p s).esd = s.esd := by
  unfold meterTake
  dsimp only
  split
  · rw [esd_modRecord]
    rfl
  · rfl

theorem esd_tellCreep (p : PosId) (s : State) : (tellCreep p s).esd = s.esd := by
  unfold tellCreep
  split
  · rw [esd_modRecord]
    rfl
  · rfl

theorem ruled_meterFaults (h : Ruled β s) (p : PosId) (before : Channel) : Ruled β (meterFaults p before s) := by
  have ends (u : State) (hu : Ruled β u) (c : Prop) [Decidable c] (reason : EndReason) :
      Ruled β (if c then endFill p reason u else u) := Ruled.ite c (fun _ => ruled_endFill hu p reason) fun _ => hu
  unfold meterFaults
  dsimp only
  have overflown := ends _ (ends s h ((before.accumulate (s.cal p)).exceeds = true) .massSaturated) (before.overflow = true) .meterFault
  refine ends _ ?_ _ _
  revert overflown
  generalize (if before.overflow = true then endFill p .meterFault (if (before.accumulate (s.cal p)).exceeds = true then
    endFill p .massSaturated s else s) else if (before.accumulate (s.cal p)).exceeds = true then endFill p .massSaturated s
    else s) = u
  intro overflown
  unfold creepTest
  split
  · exact ends u overflown _ _
  · exact overflown.unmoved (unmoved_tellCreep p u) (esd_tellCreep p u)
  · exact overflown.unmoved (unmoved_tellCreep p u) (esd_tellCreep p u)
  · exact overflown

theorem ruled_meterBill (h : Ruled β s) (p : PosId) : Ruled β (meterBill p s) := by
  have billed : Ruled β (modRecord p (fun r => r.update (s.chan p).mass) s) := h.unmoved (unmoved_modRecord s p _) (esd_modRecord p _ s)
  unfold meterBill
  dsimp only
  exact Ruled.ite _ (fun _ => ruled_endFill billed p _) fun _ => billed

theorem ruled_meterCross (h : Ruled β s) (p : PosId) (old : Nat) : Ruled β (meterCross p old s) :=
  Ruled.ite _ (fun _ => h.unmoved (unmoved_checkpoint s p []) (esd_checkpoint p [] s)) fun _ => h

theorem unmoved_setDrawn (p : PosId) (s : State) : Unmoved s (setDrawn p s) := by
  unfold setDrawn
  split
  · exact unmoved_ite _ (unmoved_modBank s _ _ fun _ => ⟨rfl, rfl⟩) (.refl s)
  · exact .refl s

theorem esd_setDrawn (p : PosId) (s : State) : (setDrawn p s).esd = s.esd := by
  unfold setDrawn
  split
  · split <;> rfl
  · rfl

theorem ruled_meterComplete (h : Ruled β s) (p : PosId) : Ruled β (meterComplete p s) := by
  have drawn := h.unmoved (unmoved_setDrawn p s) (esd_setDrawn p s)
  unfold meterComplete
  dsimp only
  generalize setDrawn p s = u at *
  refine Ruled.unmoved (s := _) ?_ (unmoved_modPos _ p _ fun _ => ⟨rfl, rfl, rfl⟩) rfl
  split
  next b k ramp _ cls =>
    exact drawn.under (by rw [ramp]; rfl) (fair_rampStep drawn.fair ramp k b _) (esd_of_fixed (owned_rampStep b _ cls).fixed)
  next hold reason =>
    exact drawn.under (by rw [hold]; rfl) (fair_vehicleUpdate drawn.fair hold reason) (esd_of_fixed (owned_vehicleUpdate p u).fixed)
  · exact drawn

theorem ruled_meterUpdate (h : Ruled β s) (p : PosId) : Ruled β (meterUpdate p s) := by
  have taken := h.unmoved (unmoved_meterTake p s) (esd_meterTake p s)
  exact ruled_meterComplete (ruled_meterCross (ruled_meterBill (ruled_meterFaults taken p _) p) p _) p

end Sys2Proof.Machine
end

section
/-! SUPPORT. What the close of a fill, lanes, banks, compressors and the capacity keep of the laws of requesters and holders
(R28, R56 to R67, R80 to R87, R93 to R105, R107). -/

namespace Sys2Proof.Machine

variable {β : Prop} {p q : PosId} {a b : BankId} {c n : CompId} {l : LaneId} {s t u : State}

/-! ### The close (R28) -/

theorem unmoved_closingUpdate (p : PosId) (s : State) : Unmoved s (closingUpdate p s) := by
  have metered := (unmoved_meterTake p s).trans (unmoved_tellCreep p _)
  unfold closingUpdate
  dsimp only
  generalize tellCreep p (meterTake p s) = u at metered
  have billed := metered.trans (unmoved_modRecord u p (fun r => r.update (u.chan p).mass))
  generalize modRecord p _ u = v at billed
  have weighed : Unmoved v (setPrevious p v) := unmoved_modPos v p _ fun _ => ⟨rfl, rfl, rfl⟩
  exact (billed.trans weighed).trans (unmoved_modChan _ p _)

theorem unmoved_closeTransaction (p : PosId) (s : State) : Unmoved s (closeTransaction p s) := by
  unfold closeTransaction
  split
  · exact .refl s
  · split
    · exact .refl s
    · exact unmoved_of rfl rfl rfl rfl rfl rfl

theorem esd_closingUpdate (p : PosId) (s : State) : (closingUpdate p s).esd = s.esd := esd_of_fixed (owned_closingUpdate p s).fixed

theorem esd_closeTransaction (p : PosId) (s : State) : (closeTransaction p s).esd = s.esd := by
  unfold closeTransaction
  split
  · rfl
  · split
    · rfl
    · rfl

theorem endable_closedState (x : Position) : endable (closedState x) = false := by
  unfold closedState
  split
  · rfl
  · split <;> rfl

theorem ruled_leaveFill (h : Ruled β s) (ending : (s.pos p).state = .ending) {next : PosState} (idle : endable next = false)
    (tag : Tag) : Ruled β (leaveFill p next tag s) := by
  have closed := ruled_modPos h (p := p) (by rw [ending]; rfl) (Position.closed next) idle fun _ => id
  have own : ((s.modPos p (Position.closed next)).pos p).state = next := by rw [State.modPos_pos]; rfl
  unfold leaveFill
  dsimp only
  generalize s.modPos p (Position.closed next) = u at *
  have posted : Sends u (postFillState p tag u) := sends_postNotice _ _ _ _ _
  have kept : ((postFillState p tag u).pos p).state = next := (posted.unmoved.pos p).1.trans own
  have told := closed.sends posted
  exact Ruled.ite _ (fun _ => ruled_makeUnavailable told (by rw [kept]; exact idle)) fun _ => told

theorem ruled_closeFill (h : Ruled β s) (ending : (s.pos p).state = .ending) : Ruled β (closeFill p s) := by
  have closed := (unmoved_closingUpdate p s).trans (unmoved_closeTransaction p _)
  have held : Ruled β (closeTransaction p (closingUpdate p s)) :=
    h.unmoved closed ((esd_closeTransaction p _).trans (esd_closingUpdate p s))
  have state := (closed.pos p).1.trans ending
  rw [closeFill_eq]
  generalize closeTransaction p (closingUpdate p s) = u at *
  exact ruled_leaveFill held state (endable_closedState _) _

/-! ### Lanes (R93 to R105) -/

theorem Ruled.modLane (h : Ruled β s) (l : LaneId) (f : Lane → Lane) : Ruled β (s.modLane l f) :=
  h.unmoved (unmoved_modLane s l f) rfl

theorem Ruled.postLane (h : Ruled β s) (l : LaneId) (cause : LaneCause) : Ruled β (postLaneState l cause s) :=
  h.sends (sends_postNotice _ _ _ _ _)

theorem Ruled.warmTest (h : Ruled β s) (l : LaneId) : Ruled β (warmTest l s) := h.unmoved (unmoved_warmTest s l) (esd_warmTest l s)

theorem Ruled.foldl {α : Type} (l : List α) (f : State → α → State) (hf : ∀ s a, Ruled β s → Ruled β (f s a)) (h : Ruled β s) :
    Ruled β (l.foldl f s) := foldl_keep (keep := Ruled β) (fun u a _ hu => hf u a hu) h

theorem ruled_laneLeavesReady (h : Ruled β s) (l : LaneId) (next : LaneState) (cause : LaneCause) :
    Ruled β (laneLeavesReady l next cause s) := by
  have stopped := h.modLane l (fun x => { x with staleWatch := none, warmTimer := none })
  have lost := stopped.foldl allPositions (fun s p => if counted s l p then endFill p .laneLost s else s)
    fun u p hu => Ruled.ite _ (fun _ => ruled_endFill hu p _) fun _ => hu
  exact (lost.modLane l _).postLane l cause

theorem ruled_enablePresent (h : Ruled β s) (l : LaneId) : Ruled β (enablePresent l s) := by
  unfold enablePresent
  dsimp only
  exact Ruled.ite _ (fun _ => Ruled.ite _ (fun _ => (h.modLane l _).postLane l _) fun _ => (h.modLane l _).postLane l _) fun _ => h

theorem ruled_enableWithdrawn (h : Ruled β s) (l : LaneId) : Ruled β (enableWithdrawn l s) := by
  unfold enableWithdrawn
  split
  · exact h
  · exact (h.modLane l _).postLane l _
  · exact ruled_laneLeavesReady h l _ _
  · exact (h.modLane l _).postLane l _

theorem ruled_setPlantEnable (h : Ruled β s) (l : LaneId) (v : Bool) : Ruled β (setPlantEnable l v s) := by
  have set := h.modLane l (fun x => { x with plantEnable := v })
  unfold setPlantEnable
  exact Ruled.ite _ (fun _ => h) fun _ => Ruled.ite _ (fun _ => ruled_enablePresent set l) fun _ => ruled_enableWithdrawn set l

theorem ruled_setIslandEnable (h : Ruled β s) (l : LaneId) (v : Bool) : Ruled β (setIslandEnable l v s) := by
  have set := h.modLane l (fun x => { x with islandEnable := v })
  unfold setIslandEnable
  exact Ruled.ite _ (fun _ => h) fun _ => Ruled.ite _ (fun _ => ruled_enablePresent set l) fun _ => ruled_enableWithdrawn set l

theorem ruled_laneEnable (h : Ruled β s) (port : PortId) (l : LaneId) (v : Byte) : Ruled β (laneEnable port l v s).1 := by
  unfold laneEnable
  split
  · exact h
  · split
    · exact h
    · split
      · split
        · exact h
        · exact ruled_setIslandEnable h l _
      · exact ruled_setPlantEnable h l _

theorem ruled_applyLaneConfig (h : Ruled β s) (g : LaneConfig) (m : ClassSet) (l : LaneId) : Ruled β (applyLaneConfig g m l s) := by
  have set := h.modLane l (fun x => { x with
    config := some g, classMap := m ||| 1#6, warmHold := (s.lane l).warmHold &&& (m ||| 1#6) })
  unfold applyLaneConfig
  dsimp only
  generalize s.modLane l _ = u at *
  have told : Ruled β (if (s.lane l).warmHold &&& (m ||| 1#6) = (s.lane l).warmHold then u
      else Machine.warmTest l (postLaneState l .configured u)) :=
    Ruled.ite _ (fun _ => set) fun _ => (set.postLane l _).warmTest l
  exact Ruled.ite _ (fun _ => ruled_setIslandEnable told l _) fun _ => told

theorem ruled_configureLane (h : Ruled β s) (owner : Byte) (k : Nat) (m : Byte) (l : LaneId) :
    Ruled β (configureLane owner k m l s).1 := by
  unfold configureLane
  split
  · split
    · exact h
    · split
      · exact h
      · exact ruled_applyLaneConfig h _ _ l
  · exact h

/-- A fill held for another cause than cooling resolves its hold. -/
theorem ruled_resolves (h : Ruled β s) (hold : (s.pos p).state = .hold) (reason : (s.pos p).holdReason ≠ some .cooling) :
    Ruled β (checksCD p s) :=
  h.under (p := p) (by rw [hold]; rfl) (fair_checksCD h.fair (by rw [hold]; rfl) (h.sound.not_cools (.inr reason))
    (h.fair.flowing (.inr ⟨hold, reason⟩)))
    (moves_checksCD p .refl).esd

theorem ruled_tellLifted (h : Ruled β s) (l : LaneId) (m : ClassSet) (p : PosId) : Ruled β (tellLifted l m s p) := by
  unfold tellLifted
  dsimp only
  refine Ruled.ite _ (fun k => ?_) fun _ => h
  simp only [Bool.and_eq_true, beq_iff_eq] at k
  obtain ⟨⟨⟨-, hold⟩, reason⟩, -⟩ := k
  exact ruled_resolves h hold (by rw [reason]; decide)

theorem ruled_liftTest (h : Ruled β s) (l : LaneId) (v : Int) : Ruled β (liftTest l v s) := by
  unfold liftTest
  dsimp only
  refine Ruled.ite _ (fun _ => h) fun _ => ?_
  exact ((h.modLane l _).foldl allPositions _ fun u p hu => ruled_tellLifted hu l _ p).postLane l _

theorem ruled_laneReportFurther (h : Ruled β s) (l : LaneId) (v : Int) (clamped : Bool) : Ruled β (laneReportFurther l v clamped s) := by
  unfold laneReportFurther
  split
  · exact h
  · exact h
  · exact Ruled.ite _ (fun _ => (h.modLane l _).postLane l _) fun _ => h
  · exact (ruled_liftTest (h.modLane l _) l v).warmTest l

theorem ruled_clearLaneFault (h : Ruled β s) (l : LaneId) : Ruled β (clearLaneFault l s).1 := by
  have cleared := h.modLane l (fun x => { x with faultPulldown := false, faultStale := false })
  unfold clearLaneFault
  dsimp only
  generalize s.modLane l _ = u at *
  split
  · have off := (cleared.modLane l (fun x => { x with state := .off })).postLane l .cleared
    exact Ruled.ite _ (fun _ => (off.modLane l _).postLane l _) fun _ => off
  all_goals exact Ruled.ite _ (fun _ => cleared.postLane l _) fun _ => cleared

theorem ruled_tellWarm (h : Ruled β s) (l : LaneId) (m : ClassSet) (p : PosId) : Ruled β (tellWarm l m s p) := by
  have held (hold : (s.pos p).state = .hold) (reason : (s.pos p).holdReason ≠ some .cooling) :
      Ruled β (enterHold p .laneWarm { s with drawList := s.drawList.filter (fun w => w.pos != p) }) := by
    have left := h.fair.unmoved (unmoved_undraw s (fun w => w.pos != p)) rfl
    refine h.under (p := p) (by rw [hold]; rfl) (fair_enterHold left .laneWarm (fun k => ?_) (left.flowing (.inr ⟨hold, reason⟩)))
      (moves_enterHold p _ (moves_drawList _ .refl)).esd
    exact absurd k (h.sound.not_cools (.inr reason))
  unfold tellWarm
  dsimp only
  refine Ruled.ite _ (fun _ => ?_) fun _ => h
  split
  next ramp =>
    exact h.under (p := p) (by rw [ramp]; rfl) (fair_holdFromRamp h.fair ramp .laneWarm) (moves_holdFromRamp p _ .refl).esd
  next hold reason => exact held hold (by rw [reason]; decide)
  next hold reason => exact held hold (by rw [reason]; decide)
  · exact h

theorem ruled_warmExpired (h : Ruled β s) (l : LaneId) : Ruled β (warmExpired l s) := by
  have marked := h.modLane l (fun x => { x with warmTimer := none, warmHold := x.warmHold ||| warmClasses s l })
  unfold warmExpired
  dsimp only
  exact Ruled.ite _ (fun _ => marked) fun _ =>
    ((marked.foldl allPositions _ fun u p hu => ruled_tellWarm hu l _ p).postLane l _).warmTest l

/-! ### Banks (R56 to R67, R80) -/

theorem Ruled.modBank (h : Ruled β s) (b : BankId) (f : Bank → Bank) (hf : ∀ x, (f x).state = x.state ∧ (f x).holder = x.holder) :
    Ruled β (s.modBank b f) := h.unmoved (unmoved_modBank s b f hf) rfl

theorem Ruled.queue (h : Ruled β s) (l : List QueueEntry) : Ruled β { s with queue := l } := h.unmoved (unmoved_queue s l) rfl

theorem ruled_setStation (h : Ruled β s) (m w k : Nat) : Ruled β (setStation m w k s).1 := by
  have set : Ruled β { s with margin := m, switchMass := w, creepLimit := k } := h.unmoved (unmoved_of rfl rfl rfl rfl rfl rfl) rfl
  unfold setStation
  split
  · exact h
  · exact Ruled.ite _ (fun _ => ruled_offerPass set _) fun _ => set

theorem ruled_reconfigureQueue (h : Ruled β s) (b : BankId) (g : BankConfig) : Ruled β (reconfigureQueue b g s) := by
  have asked (u : State) (hu : Ruled β u) (v : Nat) : Ruled β (if u.queued b then (if g.target ≤ v then dequeue b u else u)
      else if v ≤ g.threshold then enqueue b .lowPressure u else u) :=
    Ruled.ite _ (fun _ => Ruled.ite _ (fun _ => ruled_dequeue hu b) fun _ => hu) fun _ =>
      Ruled.ite _ (fun _ => hu.queue _) fun _ => hu
  have passes (u : State) (hu : Ruled β u) : Ruled β (if u.queue == s.queue then u else assignmentPass u) :=
    Ruled.ite _ (fun _ => hu) fun _ => ruled_assignmentPass hu
  unfold reconfigureQueue
  dsimp only
  cases s.queue.find? (fun e => e.bank == b) <;> cases (s.bank b).report.map (·.pressure)
  case none.none => exact passes s h
  case none.some v => exact passes _ (asked s h v)
  case some.none e => exact passes _ ((h.queue _).queue _)
  case some.some e v => exact passes _ (asked _ ((h.queue _).queue _) v)

theorem ruled_configureBank (h : Ruled β s) (tier : Byte) (m k g : Nat) (b : BankId) : Ruled β (configureBank tier m k g b s).1 := by
  unfold configureBank
  split
  · exact h
  next t _ =>
    split
    · exact h
    · dsimp only
      split
      · exact h
      · have set := h.modBank b (fun x => { x with config := some ⟨t, m, k, g⟩ }) fun _ => ⟨rfl, rfl⟩
        exact Ruled.ite _ (fun _ => ruled_reconfigureQueue (ruled_offerPass set _) b _) fun _ => set

theorem ruled_setTierWindow (h : Ruled β s) (tier : Byte) (x y : Nat) : Ruled β (setTierWindow tier x y s).1 := by
  have set (t : Tier) (w : Option TierWindow) : Ruled β (s.setWindow t w) := by
    cases t <;> exact h.unmoved (unmoved_of rfl rfl rfl rfl rfl rfl) rfl
  unfold setTierWindow
  split
  · exact h
  · dsimp only
    split
    · exact h
    · exact Ruled.ite _ (fun _ => ruled_offerPass (set _ _) _) fun _ => set _ _

/-- A bank that no fill holds takes a state without a holder, and is told when it is IDLE. -/
theorem ruled_moveBank (h : Ruled β s) (hb : (s.bank b).state ≠ .drawing) (st : BankState) : Ruled β (moveBank b st none s) := by
  have free := h.sound.no_fill hb
  exact h.moves (moves_moveBank b st none .refl) (fair_moveBank h.fair free st) fun _ _ => (frees_moveBank free st).hushes

theorem ruled_bringOnline (h : Ruled β s) (b : BankId) : Ruled β (bringOnline b s).1 := by
  unfold bringOnline
  split
  · exact h
  · split
    · exact h
    next k =>
      split
      · exact h
      · have state := Decidable.not_not.1 k
        have set := h.modBank b (fun x => { x with staleWatch := some 5000, causes := testedCauses (s.bank b) }) fun _ => ⟨rfl, rfl⟩
        have own : ((s.modBank b (fun x => { x with staleWatch := some 5000, causes := testedCauses (s.bank b) })).bank b).state ≠
            .drawing := by
          rw [State.modBank_bank, state]
          decide
        exact Ruled.ite _ (fun _ => ruled_bankIdle (ruled_moveBank set own _) b) fun _ => ruled_moveBank set own _

theorem ruled_takeOffline (h : Ruled β s) (b : BankId) : Ruled β (takeOffline b s).1 := by
  unfold takeOffline
  split
  · exact h
  · exact ruled_bankLeaves (h.modBank b (fun x => { x with staleWatch := none, causes := { x.causes with stale := false } })
      fun _ => ⟨rfl, rfl⟩) b _

theorem Ruled.postBank (h : Ruled β s) (b : BankId) : Ruled β (postBankState b s) := h.sends (sends_postBankState b s)

theorem ruled_causesGrown (h : Ruled β s) (b : BankId) : Ruled β (causesGrown b s) := by
  unfold causesGrown
  split
  · exact h.postBank b
  · exact h.postBank b
  all_goals exact ruled_bankLeaves h b _

theorem ruled_causesShrunk (h : Ruled β s) (b : BankId) : Ruled β (causesShrunk b s) := by
  unfold causesShrunk
  split
  next k => exact Ruled.ite _ (fun _ => ruled_bankIdle (ruled_moveBank h (by rw [k]; decide) _) b) fun _ => h.postBank b
  · exact h.postBank b
  all_goals exact h

theorem ruled_lockBank (h : Ruled β s) (b : BankId) : Ruled β (lockBank b s).1 := by
  unfold lockBank
  split
  · exact h
  · exact ruled_causesGrown (h.modBank b (fun x => { x with causes := { x.causes with plantLock := true } }) fun _ => ⟨rfl, rfl⟩) b

theorem ruled_unlockBank (h : Ruled β s) (code : Byte) (b : BankId) : Ruled β (unlockBank code b s).1 := by
  unfold unlockBank
  split
  · exact h
  next named _ =>
    have set (v : Option Nat) : Ruled β (s.modBank b (fun x => { x with
        causes := (s.bank b).causes.without named, staleWatch := if ((s.bank b).causes.stale && named.stale &&
          (s.bank b).state != .offline) = true then some 5000 else x.staleWatch })) := h.modBank b _ fun _ => ⟨rfl, rfl⟩
    exact Ruled.ite _ (fun _ => set none) fun _ => ruled_causesShrunk (set none) b

theorem ruled_tellReport (h : Ruled β s) (b : BankId) : Ruled β (tellReport b s) := by
  unfold tellReport
  split
  · exact Ruled.ite _ (fun _ => Ruled.ite _ (fun _ => ruled_dequeue h b) fun _ => h) fun _ =>
      Ruled.ite _ (fun _ => ruled_assignmentPass (h.queue _)) fun _ => h
  · exact h

theorem ruled_reportFurther (h : Ruled β s) (b : BankId) (differs : Bool) : Ruled β (reportFurther b differs s) := by
  unfold reportFurther
  split
  · exact ruled_tellReport (Ruled.ite _ (fun _ => ruled_offerPass h _) fun _ => h) b
  · split
    · exact Ruled.ite _ (fun _ => ruled_completeRefill h _ _ _) fun _ => h
    · exact h
  all_goals exact h

theorem ruled_testReport (h : Ruled β s) (b : BankId) (differs : Bool) : Ruled β (testReport b differs s) := by
  have tested := h.modBank b (fun x => { x with staleWatch := some 5000, causes := testedCauses (s.bank b) }) fun _ => ⟨rfl, rfl⟩
  unfold testReport
  exact ruled_reportFurther (Ruled.ite _ (fun _ => tested) fun _ => Ruled.ite _ (fun _ => ruled_causesShrunk tested b)
    fun _ => ruled_causesGrown tested b) b differs

theorem ruled_reportBank (h : Ruled β s) (v : Nat) (w : Int) (b : BankId) : Ruled β (reportBank v w b s).1 := by
  have held := h.modBank b (fun x => { x with report := some ⟨(clampPressure v).1, (clampTemp w).1, s.clock⟩
                                              sensorRange := (clampPressure v).2 || (clampTemp w).2 }) fun _ => ⟨rfl, rfl⟩
  exact Ruled.ite _ (fun _ => held) fun _ => ruled_testReport held b _

theorem ruled_bankStale (h : Ruled β s) (b : BankId) : Ruled β (bankStale b s) := by
  have stale := h.modBank b (fun x => { x with staleWatch := none, causes := { x.causes with stale := true } }) fun _ => ⟨rfl, rfl⟩
  unfold bankStale
  dsimp only
  exact Ruled.ite _ (fun _ => stale) fun _ => ruled_causesGrown stale b

/-! ### Compressors (R81 to R87) -/

theorem ruled_fst_ite {α : Type} (c : Prop) [Decidable c] {r k : State × α} (hr : Ruled β r.1) (hk : Ruled β k.1) :
    Ruled β (if c then r else k).1 := by
  split
  · exact hr
  · exact hk


theorem ruled_requestRefill (h : Ruled β s) (b : BankId) : Ruled β (requestRefill b s).1 := by
  unfold requestRefill
  dsimp only
  split
  · exact h
  · split
    · exact h
    · split
      · exact h
      · have queued : Ruled β (if (s.bank b).state = .idle then assignmentPass (enqueue b .plantRequest s)
            else enqueue b .plantRequest s) := Ruled.ite _ (fun _ => ruled_assignmentPass (h.queue _)) fun _ => h.queue _
        generalize (if (s.bank b).state = .idle then assignmentPass (enqueue b .plantRequest s)
          else enqueue b .plantRequest s) = u at *
        exact ruled_fst_ite _ h queued

theorem ruled_withdrawRequest (h : Ruled β s) (next : Byte) (c : CompId) : Ruled β (withdrawRequest next c s).1 := by
  unfold withdrawRequest
  split
  · exact h
  · split
    · exact h
    · refine ruled_withdrawRefill h c _ _ ?_
      split <;> decide

theorem Sound.rest_waits (h : Sound .none s) (hc : (s.comp c).state = .ready ∨ (s.comp c).state = .unavailable) : ¬ CompWaits s c := fun k => by
  have waits := (h.comps.waiting c k).1
  rcases hc with e | e <;> rw [e] at waits <;> cases waits

theorem Sound.rest_grant (h : Sound .none s) (hc : (s.comp c).state = .ready ∨ (s.comp c).state = .unavailable) :
    (s.grantOf (.comp c)).grant = 0 := by
  by_contra k
  have runs := (h.comps.refills c k).resolve_right List.not_mem_nil
  rcases hc with e | e <;> rw [e] at runs <;> cases runs

/-- A READY compressor goes out of service. -/
theorem ruled_stops (h : Ruled β s) (hc : (s.comp c).state = .ready) : Ruled β (s.modComp c (fun x => { x with state := .unavailable })) :=
  ruled_modComp h (.inl hc) _ (.inr rfl) rfl rfl (fun b => (h.fair.budget b).ledger.asking c) fun _ k => absurd rfl k

theorem ruled_configureComp (h : Ruled β s) (v : Nat) (c : CompId) : Ruled β (configureComp v c s).1 := by
  unfold configureComp
  split
  · exact h
  · split
    · exact h
    next within k =>
      have within : 0 < v := Nat.pos_of_ne_zero fun e => within (.inl (by omega))
      have rests : (s.comp c).state = .ready ∨ (s.comp c).state = .unavailable := by
        cases hs : (s.comp c).state with
        | ready => exact .inl rfl
        | unavailable => exact .inr rfl
        | coolingWait => exact absurd (.inl hs) k
        | running => exact absurd (.inr hs) k
      have set := ruled_setGrantOf h { s.grantOf (.comp c) with demand := v, floor := v } rfl (h.sound.rest_grant rests)
        (fun w hw who => h.sound.rest_waits rests ⟨w, hw, who⟩) (fun p e => nomatch e) fun n e => ⟨rfl, within⟩
      have comp : (s.setGrantOf (.comp c) { s.grantOf (.comp c) with demand := v, floor := v }).comp c = s.comp c :=
        State.setGrantOf_comp ..
      have own := s.setGrantOf_grantOf (.comp c) { s.grantOf (.comp c) with demand := v, floor := v }
      generalize s.setGrantOf (.comp c) { s.grantOf (.comp c) with demand := v, floor := v } = u at *
      rw [← comp] at rests
      exact ruled_modComp set rests (fun x => { x with configured := true }) rests rfl rfl (fun _ _ => by rw [own]; exact within)
        fun _ _ => rfl

theorem ruled_readyComp (h : Ruled β s) (c : CompId) : Ruled β (readyComp c s).1 := by
  unfold readyComp
  split
  · exact h
  · split
    · exact h
    · split
      next set k =>
        have set : (s.comp c).configured = true := by simpa using set
        have ready := ruled_modComp h (.inr k) (fun x => { x with state := .ready }) (.inl rfl) rfl rfl
          (fun b _ => (h.fair.budget b).ledger.asking c set) fun _ _ => set
        exact ruled_assignmentPass (ready.sends (sends_postNotice _ _ _ _ _))
      · exact h

theorem ruled_unavailableComp (h : Ruled β s) (c : CompId) : Ruled β (unavailableComp c s).1 := by
  unfold unavailableComp
  split
  · exact h
  next k =>
    exact (ruled_stops h k).sends (sends_postNotice _ _ _ _ _)
  next k => exact ruled_leaveCoolingWait h k (by decide) _
  · exact ruled_withdrawRefill h c _ _ (by decide)

theorem ruled_refillDone (h : Ruled β s) (c : CompId) : Ruled β (refillDone c s).1 := by
  unfold refillDone
  split
  · exact h
  · exact ruled_completeRefill h c _ _

/-! ### The capacity (R107) -/

/-- The capacity falls. -/
theorem ruled_setCapacity (h : Ruled β s) {v : Nat} (le : β → v ≤ s.cooling.capacity) (f : Bool) : Ruled β (setCapacity v f s) :=
  h.step rfl ⟨sound_setCapacity h.sound v f, fun b => budget_setCapacity (h.fair.budget b) (le b) f⟩
    fun _ _ => ⟨fun _ => id, fun _ => .inl rfl, fun _ => id⟩

theorem coolingReply_fst (b : Bool) (s : State) : (coolingReply b s).1 = s := rfl

theorem ruled_reportCapacity (h : Ruled β s) (apart : ∀ p, (s.pos p).state = .ramp → ¬ Draws s p) (v : Nat) :
    Ruled β (reportCapacity v s).1 := by
  unfold reportCapacity
  dsimp only
  generalize clampCapacity v = c
  have set : Ruled False (setCapacity c.1 c.2 s) :=
    h.step rfl ⟨sound_setCapacity h.sound _ _, False.elim⟩ fun _ _ => ⟨fun _ => id, fun _ => .inl rfl, fun _ => id⟩
  have table (b : β) : Ledger (setCapacity c.1 c.2 s) ∧ Streams .none (setCapacity c.1 c.2 s) :=
    ⟨ledger_setCapacity (h.fair.budget b).ledger _ _, streams_setCapacity (h.fair.budget b).streams _ _⟩
  have falls (le : c.1 ≤ s.cooling.capacity) : Ruled β (setCapacity c.1 c.2 s) := ruled_setCapacity h (fun _ => le) c.2
  have apart (p : PosId) (ramp : ((setCapacity c.1 c.2 s).pos p).state = .ramp) : ¬ Draws (setCapacity c.1 c.2 s) p := apart p ramp
  generalize setCapacity c.1 c.2 s = u at *
  have told (k : CoolingCause) : Ruled False (budgetChanged k u) := set.unmoved (unmoved_budgetChanged u k) rfl
  have tables (k : CoolingCause) (b : β) : Ledger (budgetChanged k u) ∧ Streams .none (budgetChanged k u) :=
    ⟨(table b).1.booked ((unmoved_budgetChanged u k).booked rfl), (table b).2.unmoved (unmoved_budgetChanged u k)⟩
  split
  next above =>
    rw [coolingReply_fst]
    have sum : (budgetChanged .shed u).sumGrants = u.sumGrants := rfl
    exact ruled_shed (told .shed) (tables .shed) (fun p ramp draws => absurd draws (apart p ramp)) (by rw [sum]; omega)
  · split
    next same =>
      rw [coolingReply_fst]
      exact falls (Nat.le_of_eq same)
    · rw [coolingReply_fst]
      exact Ruled.ite _ (fun _ => ruled_redistribute (told .report) (tables .report)) fun rises =>
        (falls (Nat.le_of_not_lt rises)).unmoved (unmoved_budgetChanged u .report) rfl

end Sys2Proof.Machine
end

section
/-! SUPPORT. What the losses of ports and the ESD latch keep of the laws of requesters and holders (R29, R77, R89, R90, R105,
R120, R121, R159, R165 to R167). -/

namespace Sys2Proof.Machine

variable {β : Prop} {p q : PosId} {a b : BankId} {c n : CompId} {l : LaneId} {s t u : State}

/-! ### The loss of an island (R165) -/

theorem ruled_islandLossAt (h : Ruled β s) (p : PosId) : Ruled β (islandLossAt p s) := by
  have marked : Ruled β (s.modPos p (fun x => { x with closePending := some .linkLost })) :=
    h.unmoved (unmoved_modPos s p (fun x => { x with closePending := some .linkLost }) fun _ => ⟨rfl, rfl, rfl⟩) rfl
  unfold islandLossAt
  cases hs : (s.pos p).state with
  | pulse | leakCheck | ramp | hold => exact ruled_endFill marked p _
  | ending => exact marked
  | waitNozzle | ready => exact ruled_removed_unavailable h .linkLost (by rw [hs]; rfl)
  | idle | waitAuth | finished => exact ruled_makeUnavailable h (by rw [hs]; rfl)
  | unavailable => exact h

theorem ruled_islandLanesLost (h : Ruled β s) (port : PortId) : Ruled β (islandLanesLost port s) := by
  unfold islandLanesLost
  exact h.foldl allLanes _ fun u l hu => Ruled.ite _ (fun _ => ruled_setIslandEnable hu l false) fun _ => hu

theorem ruled_islandLossAction (h : Ruled β s) (port : PortId) (a : LossAction) : Ruled β (islandLossAction port s a) := by
  unfold islandLossAction
  split
  · exact ruled_islandLossAt h _
  · exact ruled_islandLanesLost h port
  all_goals exact h

/-! ### The loss of the plant (R77, R90, R121, R166) -/

theorem Ruled.table (h : Ruled β s) (b : β) : Ledger s ∧ Streams .none s := ⟨(h.fair.budget b).ledger, (h.fair.budget b).streams⟩

theorem ruled_capacityLost (h : Ruled β s) (lost : s.evt.plantLost = true) : Ruled β (capacityLost s) := by
  have set : Ruled β (setCapacity 0 false s) := ruled_setCapacity h (fun _ => Nat.zero_le _) false
  have still : (setCapacity 0 false s).evt.plantLost = true := lost
  unfold capacityLost
  dsimp only
  generalize setCapacity 0 false s = u at *
  have told : Ruled β (if decide (s.cooling.capacity ≠ 0) then budgetChanged .plantLost u else u) :=
    Ruled.ite _ (fun _ => set.unmoved (unmoved_budgetChanged _ _) rfl) fun _ => set
  have still : (if decide (s.cooling.capacity ≠ 0) then budgetChanged .plantLost u else u).evt.plantLost = true :=
    (unmoved_ite _ (unmoved_budgetChanged u .plantLost) (.refl u)).lost.trans still
  generalize (if decide (s.cooling.capacity ≠ 0) then budgetChanged .plantLost u else u) = v at *
  exact Ruled.ite _ (fun k => ruled_shed told told.table (fun _ _ _ => still) k) fun _ => told

theorem ruled_compressorLost (h : Ruled β s) (c : CompId) : Ruled β (compressorLost s c) := by
  unfold compressorLost
  split
  · exact ruled_withdrawRefill h c _ _ (by decide)
  next k => exact ruled_leaveCoolingWait h k (by decide) _
  next k =>
    exact (ruled_stops h k).sends (sends_postNotice _ _ _ _ _)
  · exact h

/-- A bank leaves service or stays out of it, and nobody is told yet. -/
structure Shuts (β : Prop) (b : BankId) (s t : State) : Prop where
  ruled : Ruled β t
  others : ∀ a, a ≠ b → t.bank a = s.bank a
  out : ¬ Serving (t.bank b)
  comps : t.comps = s.comps

theorem shuts_lockStale (h : Ruled β s) (b : BankId) : Shuts β b s (lockStale s b) := by
  have others (a : BankId) (ha : a ≠ b) : (s.modBank b (fun x => { x with causes := { x.causes with stale := true } })).bank a =
      s.bank a := State.modBank_bank_ne _ _ _ _ ha
  have own : ((s.modBank b (fun x => { x with causes := { x.causes with stale := true } })).bank b).state = (s.bank b).state := by
    rw [State.modBank_bank]
  have marked := h.modBank b (fun x => { x with causes := { x.causes with stale := true } }) fun _ => ⟨rfl, rfl⟩
  have comps : (s.modBank b (fun x => { x with causes := { x.causes with stale := true } })).comps = s.comps := rfl
  unfold lockStale
  dsimp only
  generalize s.modBank b (fun x => { x with causes := { x.causes with stale := true } }) = u at *
  have vacated : Shuts β b s (vacateBank b .locked u) := by
    have frees := frees_vacateBank marked.sound b .locked
    refine ⟨marked.moves (moves_vacateBank b .locked .refl) (fair_vacateBank marked.fair b .locked) fun _ _ => frees.hushes,
      fun a ha => (frees.others a ha).trans (others a ha), ?_, frees.comps.trans comps⟩
    rw [vacateBank_bank]
    exact fun k => k.2 rfl
  have posted : postBankState b u = { u with ports := (postBankState b u).ports } := (sends_postBankState b u).rest
  split
  next k => exact ⟨h, fun _ _ => rfl, fun serves => serves.1 k, rfl⟩
  next k =>
    have locked (v : State) (hv : (v.bank b).state = .locked) : ¬ Serving (v.bank b) := fun serves => serves.2 hv
    split
    · exact ⟨h, fun _ _ => rfl, locked s k, rfl⟩
    · refine ⟨marked.postBank b, fun a ha => ?_, ?_, ?_⟩
      · rw [posted]
        exact others a ha
      · rw [posted]
        exact locked u (own.trans k)
      · rw [posted]
        exact comps
  all_goals exact vacated

/-- Every bank is out of service, and no compressor has changed. -/
theorem shut_lockStale (l : List BankId) (h : Ruled β s) : Ruled β (l.foldl lockStale s) ∧
    (∀ b, b ∈ l ∨ ¬ Serving (s.bank b) → ¬ Serving ((l.foldl lockStale s).bank b)) ∧ (l.foldl lockStale s).comps = s.comps := by
  induction l generalizing s with
  | nil => exact ⟨h, fun b hb => hb.resolve_left List.not_mem_nil, rfl⟩
  | cons a l ih =>
    have shuts := shuts_lockStale h a
    obtain ⟨ruled, out, comps⟩ := ih shuts.ruled
    refine ⟨ruled, fun b hb => out b ?_, comps.trans shuts.comps⟩
    by_cases e : b = a
    · subst e
      exact .inr shuts.out
    · rw [shuts.others b e]
      exact hb.imp_left fun k => (List.mem_cons.1 k).resolve_left e

theorem Sound.unheld_of_out (h : Sound .none s) (out : ∀ b, ¬ Serving (s.bank b)) (c : CompId) : Unheld c s := fun b k => by
  refine out b ?_
  rw [Serving, (h.banks.refilled b c k).1]
  decide

/-! ### Compressors that run on while another bank's holder is told -/

theorem rests_withdrawPosition (p : PosId) (s : State) : Rests n s (withdrawPosition p s) := by
  have left : Rests n s (s.modPos p (fun x => { x with bank := none })) := rests_modPos s p _
  unfold withdrawPosition
  dsimp only
  generalize s.modPos p (fun x => { x with bank := none }) = u at *
  split
  · exact left.trans (((rests_modPos u p _).trans (rests_postDirective _ _ _)).trans (rests_drawRequest _ p .pulse none))
  · have ended : Rests n u (endSegment p .bankWithdrawn u) := by
      obtain ⟨w, e⟩ := endSegment_eq p .bankWithdrawn u
      rw [e]
      exact rests_of rfl rfl
    have asked := left.trans (ended.trans (rests_drawRequest _ p .ramp none))
    exact rests_ite _ asked (asked.trans (rests_enterHold _ p .bank))
  · exact left

theorem rests_matchQueue (k : Nat) (out : ¬ CompWaits s n) : Rests n s (matchQueue k s) := by
  induction k generalizing s with
  | zero => exact .refl n s
  | succ k ih =>
    unfold matchQueue
    split
    · split
      next c last =>
        have apart : n ≠ c := by
          rintro rfl
          exact out (lastWaitingComp_waits last)
        have called : Rests n s (postCompState c .queueShort
            ((flushWaitNotice c s).modComp c (fun x => { x with state := .ready, requestTime := none }))) :=
          ((rests_flushWaitNotice s c).trans (rests_modComp _ apart _)).trans (rests_postCompState _ c _)
        dsimp only
        generalize postCompState c .queueShort _ = u at *
        have left := called.trans (rests_departWait (r := .comp c) (s := u) fun k =>
          mt called.waits out ((rests_dropWait (n := n) u (.comp c)).waits k))
        exact left.trans (ih (mt left.waits out))
      · exact .refl n s
    · exact .refl n s

theorem rests_dequeue (b : BankId) (out : ¬ CompWaits s n) : Rests n s (dequeue b s) := by
  refine rests_ite _ ?_ (.refl n s)
  have queued : Rests n s { s with queue := s.queue.filter (fun e => e.bank != b) } := rests_queue s _
  exact queued.trans (rests_matchQueue 2 (mt queued.waits out))

theorem rests_loseBank (hn : n ≠ c) (ready : (s.comp n).state ≠ .ready) (out : ¬ CompWaits s n) : Rests n s (loseBank c s) := by
  have stopped : Rests n s (stopRunning c .ready s) := rests_modComp s hn _
  have released := stopped.trans (rests_releaseGrant (r := .comp c) (mt stopped.waits out) fun e => hn (Requester.comp.inj e).symm)
  unfold loseBank
  dsimp only
  generalize releaseGrant (.comp c) (stopRunning c .ready s) = u at *
  exact (released.trans (rests_assignmentPass (by rw [released.comp]; exact ready))).trans (rests_postNotice _ _ _ _ _)

theorem rests_tellBankLeft (b : BankId) (old : Bank) (hn : ∀ c, old.holder = some (.comp c) → n ≠ c)
    (ready : (s.comp n).state ≠ .ready) (out : ¬ CompWaits s n) : Rests n s (tellBankLeft b old s) := by
  unfold tellBankLeft
  split
  next p _ _ =>
    have left : Rests n s (withdrawPosition p s) := rests_withdrawPosition p s
    exact left.trans (rests_dequeue b (mt left.waits out))
  next c _ holder =>
    have posted : Rests n s (postDirective plantPort (.refillStop c b .bankLost) s) := rests_postDirective s _ _
    have left := posted.trans (rests_loseBank (hn c holder) (by rw [posted.comp]; exact ready) (mt posted.waits out))
    exact left.trans (rests_dequeue b (mt left.waits out))
  · exact rests_dequeue b out

/-- The holder of a bank that left service is told. -/
theorem ruled_tellBankLeft (h : Ruled β s) (b : BankId) (old : Bank)
    (hc : ∀ c, old.state = .refilling → old.holder = some (.comp c) → (s.comp c).state = .running ∧ Unheld c s) :
    Ruled β (tellBankLeft b old s) := by
  refine h.moves (moves_tellBankLeft b old .refl) (fair_tellBankLeft h.fair b old hc) fun _ k => ?_
  unfold tellBankLeft
  split
  next p _ _ => exact (withdrawPosition_hushed k p).trans (dequeue_hushed (k.hushes (withdrawPosition_hushed k p)) b)
  next c refilling holder =>
    have runs := (hc c refilling holder).1
    rcases (k.comps c).1 with e | e <;> rw [runs] at e <;> cases e
  · exact dequeue_hushed k b

/-- The holders of the banks in `l` are told, of whom the compressors still run. -/
theorem ruled_tellBanks (old : BankId → Bank) (apart : ∀ a b c, (old a).holder = some (.comp c) → (old b).holder = some (.comp c) → a = b)
    (l : List BankId) (once : l.Nodup) (h : Ruled β s) (out : ∀ b, ¬ Serving (s.bank b))
    (runs : ∀ b ∈ l, ∀ c, (old b).holder = some (.comp c) → (s.comp c).state = .running) :
    Ruled β (l.foldl (fun t b => if inService (old b) then tellBankLeft b (old b) t else t) s) := by
  induction l generalizing s with
  | nil => exact h
  | cons b l ih =>
    obtain ⟨fresh, once⟩ := List.nodup_cons.1 once
    have later (a : BankId) (ha : a ∈ l) (c : CompId) (hc : (old a).holder = some (.comp c)) := runs a (List.mem_cons_of_mem _ ha) c hc
    rw [List.foldl_cons]
    by_cases serves : inService (old b) = true
    · rw [if_pos serves]
      refine ih once (ruled_tellBankLeft h b (old b) fun c _ hc => ⟨runs b List.mem_cons_self c hc, h.sound.unheld_of_out out c⟩)
        (fun a => ?_) fun a ha c hc => ?_
      · have told := yields_tellBankLeft b (old b) s
        have idle : (s.bank a).state ≠ .idle := fun e => out a (Serving.of_idle e)
        rw [told.bank a idle]
        exact out a
      · have state := later a ha c hc
        have rests : Rests c s (tellBankLeft b (old b) s) := rests_tellBankLeft b (old b)
          (fun n hn e => fresh (by subst e; rw [apart b a c hn hc]; exact ha)) (by rw [state]; decide)
          fun k => by
            have waits := (h.sound.comps.waiting c k).1
            rw [state] at waits
            cases waits
        rw [rests.comp]
        exact state
    · rw [if_neg serves]
      exact ih once h out later

theorem ruled_banksLinkLost (h : Ruled β s) : Ruled β (banksLinkLost s) := by
  obtain ⟨ruled, out, comps⟩ := shut_lockStale allBanks h
  have held (b : BankId) (c : CompId) (hc : (s.bank b).holder = some (.comp c)) := (h.sound.banks.refilled b c hc).2
  refine ruled_tellBanks s.bank (fun a b c ha hb => ?_) allBanks (by decide) ruled (fun b => out b (.inl (mem_allBanks b)))
    fun b _ c hc => ?_
  · exact Option.some.inj ((held a c ha).symm.trans (held b c hb))
  · rw [State.comp, comps]
    exact h.sound.runs (held b c hc)

end Sys2Proof.Machine
end

section
/-! SUPPORT. What the teardown of a port and the setting and clearing of the ESD latch keep of the laws of requesters and
holders (R29, R89, R120, R158 to R160, R164 to R167). -/

namespace Sys2Proof.Machine

variable {β : Prop} {p q : PosId} {a b : BankId} {c n : CompId} {l : LaneId} {s t u : State}

/-! ### Teardown (R164 to R167) -/

/-- Between the actions of the loss of the plant. -/
structure Losing (β : Prop) (s : State) : Prop where
  ruled : Ruled β s
  lost : s.evt.plantLost = true

theorem Losing.moves (h : Losing β s) (k : Moves s t) (ruled : Ruled β t) : Losing β t := ⟨ruled, k.lost.trans h.lost⟩

theorem moves_shedGone (h : Moves s t) : Moves s (if 0 < t.sumGrants then shed t else t) := moves_ite _ (moves_shed h) h

theorem capacityLost_lost (s : State) : (capacityLost s).evt.plantLost = s.evt.plantLost := by
  have set : (setCapacity 0 false s).evt.plantLost = s.evt.plantLost := rfl
  unfold capacityLost
  dsimp only
  generalize setCapacity 0 false s = u at *
  have told : Moves u (if decide (s.cooling.capacity ≠ 0) then budgetChanged .plantLost u else u) :=
    moves_ite _ (moves_budgetChanged _ .refl) .refl
  exact (moves_shedGone told).lost.trans set

theorem losing_plantLossAction (h : Losing β s) (a : LossAction) : Losing β (plantLossAction s a) := by
  unfold plantLossAction
  split
  · exact h.moves (moves_endFill _ _ .refl) (ruled_endFill h.ruled _ _)
  · exact h.moves (moves_foldl _ _ (fun _ l => moves_setPlantEnable l _ .refl) s)
      (h.ruled.foldl allLanes _ fun u l hu => ruled_setPlantEnable hu l false)
  · exact ⟨ruled_capacityLost h.ruled h.lost, (capacityLost_lost s).trans h.lost⟩
  · exact h.moves (moves_foldl _ _ moves_compressorLost s) (h.ruled.foldl allComps _ fun u c hu => ruled_compressorLost hu c)
  · exact h.moves (moves_banksLinkLost s) (ruled_banksLinkLost h.ruled)

theorem unmoved_permuted (l : List LossAction) (s : State) : Unmoved s (s.permute l).1 := unmoved_of rfl rfl rfl rfl rfl rfl

/-- The model's choice of an order moves nothing, so what every action keeps the whole keeps. -/
theorem takeActions_keeps {keep : State → Prop} (actions : List LossAction) (f : State → LossAction → State)
    (start : keep (s.permute actions).1) (hf : ∀ u a, keep u → keep (f u a)) : keep (takeActions actions f s) :=
  foldl_keep (fun u a _ hu => hf u a hu) start

/-- The laws say nothing of the event under way but while fills are shed. -/
theorem Ruled.loses (h : Ruled β s) (apart : ∀ p, Draws s p → ¬ Cools s p) : Ruled β (plantLossBegins s) where
  fair := ⟨⟨h.sound.comps.same rfl rfl, ⟨h.sound.fills.granted, h.sound.fills.cooling, h.sound.fills.served,
    fun p hp => absurd hp List.not_mem_nil, fun p hp => ⟨(h.sound.fills.drawing p hp).1, fun k => absurd k (apart p hp)⟩⟩, h.sound.order.same rfl,
    ⟨h.sound.banks.fills, h.sound.banks.refilled⟩⟩, fun b => (h.fair.budget b).booked (booked_of rfl rfl rfl)
    ⟨(h.fair.budget b).streams.flowing, fun _ _ _ _ k => (nomatch k), fun p hp => absurd hp List.not_mem_nil⟩⟩
  hush l := ⟨(h.hush l).fills, (h.hush l).comps⟩

theorem ruled_teardown (h : Ruled β s) (apart : ∀ p, Draws s p → ¬ Cools s p) (port : PortId) : Ruled β (teardown port s) := by
  unfold teardown
  split
  · exact takeActions_keeps (keep := Ruled β) _ _ (h.unmoved (unmoved_permuted _ s) rfl)
      fun u a hu => ruled_islandLossAction hu port a
  · have begun := h.loses apart
    have lost : (plantLossBegins s).evt.plantLost = true := rfl
    generalize plantLossBegins s = u at *
    have named : Unmoved u (budgetCause .plantLost u) := unmoved_of rfl rfl rfl rfl rfl rfl
    have starts : Losing β (budgetCause .plantLost u) := ⟨begun.unmoved named rfl, named.lost.trans lost⟩
    generalize budgetCause .plantLost u = v at *
    have permuted := unmoved_permuted (allPositions.map .position ++ [.lanes, .cooling, .refill, .banks]) v
    exact (takeActions_keeps (keep := Losing β) _ _ ⟨starts.ruled.unmoved permuted rfl, permuted.lost.trans starts.lost⟩
      fun u a hu => losing_plantLossAction hu a).ruled
  · exact h

theorem unmoved_modPort (n : PortId) (f : Port → Port) (s : State) : Unmoved s (s.modPort n f) :=
  unmoved_of rfl rfl rfl rfl rfl rfl

theorem ruled_intervalExpired (h : Ruled β s) (apart : ∀ p, Draws s p → ¬ Cools s p) (port : PortId) :
    Ruled β (intervalExpired port s) := by
  have told (f : Port → Port) (k : NoticeKind) : Sends (s.modPort port f) (postPortNotice k port (s.modPort port f)) :=
    sends_postNotice _ _ _ _ _
  have marked (f : Port → Port) (k : NoticeKind) : Unmoved s (postPortNotice k port (s.modPort port f)) :=
    (unmoved_modPort port f s).trans (told f k).unmoved
  have ruled (f : Port → Port) (k : NoticeKind) : Ruled β (postPortNotice k port (s.modPort port f)) :=
    h.unmoved (marked f k) (told f k).esd
  unfold intervalExpired
  refine Ruled.ite _ (fun _ => ruled _ _) fun _ => ruled_teardown (ruled _ _) (fun p hp hc => ?_) port
  exact apart p ((marked _ _).draws p hp) (((marked _ _).cools p).1 hc)

/-! ### The ESD latch (R29, R89, R120, R159) -/

theorem fair_loseAuthorization (h : Fair β s) (p : PosId) (why : AuthEnd) : Fair β (loseAuthorization p why s) := by
  have removed : Fair β (removeAuthorization p why s) :=
    (h.unmoved (unmoved_modPos s p (fun x => { x with authorization := none, phaseTimer := none })
      fun _ => ⟨rfl, rfl, rfl⟩) rfl).sends (sends_postNotice _ _ _ _ _)
  have state := removed_state p why s
  have idle (k : endable (s.pos p).state = false) (f : Position → Position) (hf : ∀ x, (f x).bank = x.bank)
      (he : ∀ x, endable (f x).state = false) : Fair β ((removeAuthorization p why s).modPos p f) := by
    have before : endable ((removeAuthorization p why s).pos p).state = false := by rw [state]; exact k
    have out (d : Draws (removeAuthorization p why s) p) : False := by
      have under := (removed.sound.fills.drawing p d).1
      rw [before] at under
      cases under
    exact ⟨sound_modPos removed.sound (not_flowing before).1 (not_flowing before).2 f (fun b hb => by rwa [hf] at hb)
      fun d => (out d).elim, fun b => budget_modPos (removed.budget b) f (not_moving (he _)).1 (not_moving (he _)).2
      fun d => (out d).elim⟩
  unfold loseAuthorization
  split
  next k => exact idle (by rw [k]; rfl) _ (fun _ => rfl) fun _ => rfl
  next k => exact idle (by rw [k]; rfl) _ (fun _ => rfl) fun _ => rfl
  · exact h

/-- While the latch is set nothing need be even. -/
theorem Budget.latched {x : Untold} (ledger : Ledger s) (streams : Streams x s) (latched : s.esd.latched = true) : Budget x s :=
  ⟨ledger, streams, fun l => absurd (latched.symm.trans l) (by decide), fun l => absurd (latched.symm.trans l) (by decide)⟩

theorem fair_grantGone (h : Fair β s) (latched : s.esd.latched = true) (c : CompId) :
    Fair β (setGrant (.comp c) 0 (budgetChanged .esd s)) := by
  have begun := h.unmoved (unmoved_budgetChanged s .esd) rfl
  refine ⟨sound_setGrant_zero begun.sound (.comp c), fun b => .latched (ledger_setGrant (begun.budget b).ledger (Nat.zero_le _)
    (fun _ _ => .inl rfl) (.inl rfl)) (streams_setGrant_zero (begun.budget b).streams fun p k => (nomatch k)) latched⟩

theorem fair_esdAction (h : Fair β s) (latched : s.esd.latched = true) (a : LossAction) : Fair β (esdAction s a) := by
  unfold esdAction
  split
  · unfold esdAt
    split
    · exact fair_loseAuthorization h _ _
    · exact fair_loseAuthorization h _ _
    · exact fair_endFill h _ _
  · refine foldl_keep (keep := Fair β) (fun u c _ hu => ?_) h
    unfold compressorEsd
    split
    · exact fair_withdrawRefill hu c _ _ (by decide)
    next k => exact fair_leaveCoolingWait hu k (by decide) _
    · exact hu
    · exact hu
  · refine (foldl_keep (keep := fun u => Fair β u ∧ u.esd.latched = true) (fun u c _ hu => ?_) ⟨h, latched⟩).1
    split
    · exact hu
    · exact ⟨fair_grantGone hu.1 hu.2 c, hu.2⟩
  · exact h
  · exact h

theorem Position.quelled_idle (x : Position) : endable x.quelled.state = false := by
  cases he : endable x.state with
  | true =>
    rw [Position.quelled_of_endable he]
    rfl
  | false =>
    unfold Position.quelled
    cases hs : x.state with
    | waitNozzle | ready => rfl
    | pulse | leakCheck | ramp | hold => rw [hs] at he; cases he
    | unavailable | idle | waitAuth | ending | finished => exact he

/-- The table of the budget where the cooling unit and the compressors stand. -/
theorem Ledger.reset (h : Ledger s) (hk : t.cooling = s.cooling) (hc : t.comps = s.comps) : Ledger t := by
  have grant (r : Requester) : t.grantOf r = s.grantOf r := by cases r <;> rw [State.grantOf, State.grantOf, hk]
  have comp (c : CompId) : t.comp c = s.comp c := by rw [State.comp, hc]; rfl
  refine ⟨fun p => ?_, fun c => ?_, fun r => ?_, fun c => ?_, fun c => ?_, fun c => ?_, fun w hw => ?_, ?_, ?_⟩
  · rw [grant]; exact h.fillFloors p
  · rw [grant]; exact h.compFloors c
  · rw [grant]; exact h.grants r
  · rw [grant]; exact h.whole c
  · rw [grant, comp]; exact h.asking c
  · rw [comp]; exact h.available c
  · rw [grant]; rw [hk] at hw; exact h.waiting w hw
  · rw [hk]; exact h.once
  · rw [hk]; exact h.fillsFirst

theorem ruled_setEsd (h : Ruled β s) : Ruled β (setEsd s) := by
  have edged := setEsd_edged s
  refine ⟨?_, fun _ => ⟨fun p => ?_, fun c => ⟨?_, edged.grant c⟩⟩⟩
  · have still : Unmoved s (setLatch true .edge s) := unmoved_of rfl rfl rfl rfl rfl rfl
    have latched : Fair β (setLatch true .edge s) := ⟨h.sound.unmoved still, fun b =>
      .latched ((h.fair.budget b).ledger.reset rfl rfl) ((h.fair.budget b).streams.unmoved still) rfl⟩
    have posted : Fair β (postEsd (setLatch true .edge s)) := latched.sends (sends_postNotice _ _ _ _ _)
    have set : (postEsd (setLatch true .edge s)).esd.latched = true :=
      congrArg EsdLatch.latched (sends_postNotice _ _ _ _ (setLatch true .edge s)).esd
    unfold setEsd
    dsimp only
    generalize postEsd (setLatch true .edge s) = u at *
    have named : Fair β (budgetCause .esd u) := posted.unmoved (unmoved_of rfl rfl rfl rfl rfl rfl) rfl
    refine (takeActions_keeps (keep := fun v => Fair β v ∧ v.esd.latched = true) _ _
      ⟨named.unmoved (unmoved_permuted _ _) rfl, set⟩ fun v a hv => ⟨fair_esdAction hv.1 hv.2 a, ?_⟩).1
    rw [esd_of_fixed (owned_esdAction v a).fixed]
    exact hv.2
  · rw [edged.pos]
    exact Position.quelled_idle _
  · rw [edged.comp c (h.sound.comps.running c)]
    unfold Compressor.stopped
    split
    · exact .inr rfl
    · exact .inl rfl

/-- Nobody waits while the latch is set, so it may be cleared. -/
theorem Hushed.no_wait (h : Hushed s) (k : Sound .none s) : s.cooling.wait = [] := by
  rw [List.eq_nil_iff_forall_not_mem]
  intro w listed
  cases who : w.who with
  | pos p =>
    have holds := (k.grantLaw.waiters p ⟨w, listed, who⟩).1
    have none := h.fills p
    rw [holds] at none
    cases none
  | comp c => exact absurd (k.comps.waiting c ⟨w, listed, who⟩).1 (h.not_waiting c)

theorem Hushed.balanced (h : Hushed s) (k : Sound .none s) : Balanced s := by
  refine ⟨fun _ p some => absurd (h.no_grant k (.pos p)) some, fun _ w l hw => ?_⟩
  rw [h.no_wait k] at hw
  cases hw

theorem ruled_clearEsd (h : Ruled β s) : Ruled β (clearEsd s).1 := by
  have still : Unmoved s (setLatch false .cleared s) := unmoved_of rfl rfl rfl rfl rfl rfl
  unfold clearEsd
  refine ruled_fst_ite _ h (Ruled.ite _ (fun latched => ?_) fun _ => h)
  have sound := h.sound.unmoved still
  have hushed := (h.hush latched).hushes still.hushes
  have cleared : Ruled β (setLatch false .cleared s) := ⟨⟨sound, fun b => ⟨(h.fair.budget b).ledger.reset rfl rfl,
    (h.fair.budget b).streams.unmoved still, hushed.balanced sound⟩⟩, fun k => (nomatch k)⟩
  generalize setLatch false .cleared s = u at *
  have passed := ruled_assignmentPass cleared
  generalize assignmentPass u = v at *
  have posted : Ruled β (postEsd v) := passed.sends (sends_postNotice _ _ _ _ _)
  exact posted.unmoved (unmoved_of rfl rfl rfl rfl rfl rfl) rfl

end Sys2Proof.Machine
end

section
/-! SUPPORT. Every step keeps the laws of requesters under the ESD latch (R29, R59, R70, R84 to R90, R110, R111, R114, R119,
R120, R159). -/

namespace Sys2Proof.Machine

variable {β : Prop} {p q : PosId} {a b : BankId} {c n : CompId} {l : LaneId} {s t u : State}

/-! ### Every request -/

/-- What a command starts from: the laws of requesters and of holders. -/
structure Opens (β : Prop) (s : State) : Prop where
  ruled : Ruled β s
  holders : HolderLaw s

/-- Between events a drawer waits for a bank alone, not for cooling (R70, R111). -/
theorem Opens.drawer (h : Opens β s) (p : PosId) (hp : Draws s p) : ¬ Cools s p := fun cools => by
  obtain ⟨hold, reason⟩ := h.ruled.sound.grantLaw.waiters p cools
  refine h.holders.not_draws ?_ ?_ hp
  · rw [hold]
    exact fun k => nomatch k
  · rw [reason]
    exact fun _ k => nomatch k

theorem Opens.apart (h : Opens β s) (p : PosId) (hp : (s.pos p).state = .ramp) : ¬ Draws s p :=
  h.holders.not_draws (fun k => by rw [hp] at k; cases k) fun k => by rw [hp] at k; cases k

theorem ruled_reportLane (h : Ruled β s) (v : Int) (l : LaneId) : Ruled β (reportLane v l s).1 :=
  ruled_laneReportFurther (h.modLane l _) l _ _

section
variable {f : PosId → State → State × Answer} {g : BankId → State → State × Answer} {k : CompId → State → State × Answer}
  {m : LaneId → State → State × Answer}

theorem ruled_forPosition (h : Ruled β s) (x : Byte) (hf : ∀ p, Ruled β (f p s).1) : Ruled β (forPosition x f s).1 := by
  unfold forPosition
  split
  · exact hf _
  · exact h

theorem ruled_forOwn (h : Ruled β s) (port : PortId) (x : Byte) (hf : ∀ p, Ruled β (f p s).1) : Ruled β (forOwn port x f s).1 := by
  unfold forOwn
  split
  · exact ruled_fst_ite _ (hf _) h
  · exact h

theorem ruled_forBank (h : Ruled β s) (x : Byte) (hg : ∀ b, Ruled β (g b s).1) : Ruled β (forBank x g s).1 := by
  unfold forBank
  split
  · exact hg _
  · exact h

theorem ruled_forComp (h : Ruled β s) (x : Byte) (hk : ∀ c, Ruled β (k c s).1) : Ruled β (forComp x k s).1 := by
  unfold forComp
  split
  · exact hk _
  · exact h

theorem ruled_forLane (h : Ruled β s) (x : Byte) (hm : ∀ l, Ruled β (m l s).1) : Ruled β (forLane x m s).1 := by
  unfold forLane
  split
  · exact hm _
  · exact h

end

/-- A change of settings, store and links alone. -/
theorem Ruled.apartFrom (h : Ruled β s) (hp : t.positions = s.positions) (hc : t.comps = s.comps) (hb : t.banks = s.banks)
    (hd : t.drawList = s.drawList) (hk : t.cooling = s.cooling) (he : t.evt = s.evt) (hl : t.esd = s.esd) : Ruled β t :=
  h.unmoved (unmoved_of hp hc hb hd hk (by rw [he])) hl

theorem ruled_loadRampRow (h : Ruled β s) (x : Byte) (bands : List Byte) : Ruled β (loadRampRow x bands s).1 := by
  unfold loadRampRow
  split
  · exact h
  · split
    · exact h
    · split
      · exact h
      · exact h.apartFrom rfl rfl rfl rfl rfl rfl rfl

theorem ruled_writeCalibration (h : Ruled β s) (w f : Nat) (p : PosId) : Ruled β (writeCalibration w f p s).1 := by
  unfold writeCalibration
  split
  · exact h
  · split
    · exact h
    · split
      · exact h
      · dsimp only
        split
        · exact h
        · exact h.apartFrom rfl rfl rfl rfl rfl rfl rfl

theorem ruled_setTimeOfDay (h : Ruled β s) (day second : Nat) : Ruled β (setTimeOfDay day second s).1 := by
  unfold setTimeOfDay
  split
  · exact h
  · exact h.apartFrom rfl rfl rfl rfl rfl rfl rfl

theorem ruled_readRecord (h : Ruled β s) (number : Nat) : Ruled β (readRecord number s).1 := by
  unfold readRecord
  dsimp only
  split
  · exact h
  · split
    · exact h
    · exact ruled_fst_ite _ h h

theorem ruled_releaseRecord (h : Ruled β s) (number : Nat) : Ruled β (releaseRecord number s).1 := by
  unfold releaseRecord
  split
  · exact h
  · split
    · exact h
    · split
      · exact h
      · split
        · exact h
        · exact h.apartFrom rfl rfl rfl rfl rfl rfl rfl

theorem ruled_takeSnapshot (h : Ruled β s) : Ruled β (takeSnapshot s).1 := by
  unfold takeSnapshot
  split
  · exact h
  · exact h.apartFrom rfl rfl rfl rfl rfl rfl rfl

theorem Ruled.modPort (h : Ruled β s) (n : PortId) (f : Port → Port) : Ruled β (s.modPort n f) := h.unmoved (unmoved_modPort n f s) rfl

theorem ruled_setInterval (h : Ruled β s) (port : PortId) (v : Nat) : Ruled β (setInterval port v s).1 :=
  ruled_fst_ite _ (h.apartFrom rfl rfl rfl rfl rfl rfl rfl) h

theorem ruled_setNotices (h : Ruled β s) (port : PortId) (mask x y : Byte) : Ruled β (setNotices port mask x y s).1 := by
  unfold setNotices
  split
  · exact h
  · split
    · exact h.apartFrom rfl rfl rfl rfl rfl rfl rfl
    · exact h

/-- Every owning rule keeps the laws. -/
theorem ruled_ownerOf (h : Opens β s) (i : Instr) : Ruled β (ownerOf i s).1 := by
  have hr := h.ruled
  cases i
  case statusQuery | countersRead | snapshotRead => exact hr
  case countersClear => exact hr.apartFrom rfl rfl rfl rfl rfl rfl rfl
  case totalsSnapshot => exact ruled_takeSnapshot hr
  case totalsRead => exact ruled_fst_ite _ hr hr
  case unknownKind => exact hr
  case esdClear => exact ruled_clearEsd hr
  case goodFrame | badCheckFrame | badLengthFragment | frameGap | frameSent | authorizationLifeExpiry |
    pulseExpiry | leakCheckExpiry | holdLimitExpiry | settleExpiry | periodExpiry | sensorStaleWatchExpiry |
    bankStaleWatchExpiry | pullDownTimerExpiry | laneStaleWatchExpiry | warmTimerExpiry |
    settleGateTimerExpiry | oneSecondTimerExpiry | intervalTimerExpiry | writeGroupCompletion | pulseEdge |
    esdNFallingEdge | esdNRisingEdge | calEnChange | powerApplied | powerLoss | resetNAsserted |
    resetNReleased | startUpSequence | startUpServe | syncByte | brStrapsChange =>
    exact hr
  all_goals
    unfold ownerOf
    dsimp only
    split
    rotate_left
    · exact hr
  · exact ruled_forOwn hr _ _ fun p => ruled_openPosition hr _ _ _ p
  · exact ruled_forOwn hr _ _ fun p => ruled_closePosition hr p
  · exact ruled_forOwn hr _ _ fun p => ruled_setNozzle hr _ p
  · exact ruled_forOwn hr _ _ fun p => ruled_startPosition hr p
  · exact ruled_forOwn hr _ _ fun p => ruled_stopPosition hr p
  · exact ruled_forOwn hr _ _ fun p => ruled_reportPressure hr _ p
  · exact ruled_forOwn hr _ _ fun p => ruled_reportVehicle hr _ p
  · split
    · exact hr
    · exact ruled_laneEnable hr _ _ _
  · exact ruled_setStation hr _ _ _
  · exact ruled_forBank hr _ fun b => ruled_configureBank hr _ _ _ _ b
  · exact ruled_setTierWindow hr _ _ _
  · exact ruled_forBank hr _ fun b => ruled_bringOnline hr b
  · exact ruled_forBank hr _ fun b => ruled_takeOffline hr b
  · exact ruled_forBank hr _ fun b => ruled_lockBank hr b
  · exact ruled_forBank hr _ fun b => ruled_unlockBank hr _ b
  · exact ruled_forBank hr _ fun b => ruled_reportBank hr _ _ b
  · exact ruled_forBank hr _ fun b => ruled_requestRefill hr b
  · exact ruled_forComp hr _ fun c => ruled_withdrawRequest hr _ c
  · exact ruled_forComp hr _ fun c => ruled_configureComp hr _ c
  · exact ruled_forComp hr _ fun c => ruled_readyComp hr c
  · exact ruled_forComp hr _ fun c => ruled_unavailableComp hr c
  · exact ruled_forComp hr _ fun c => ruled_refillDone hr c
  · exact ruled_forLane hr _ fun l => ruled_configureLane hr _ _ _ l
  · exact ruled_forLane hr _ fun l => ruled_reportLane hr _ l
  · exact ruled_forLane hr _ fun l => ruled_clearLaneFault hr l
  · exact ruled_reportCapacity hr h.apart _
  · exact hr.apartFrom rfl rfl rfl rfl rfl rfl rfl
  · exact ruled_forPosition hr _ fun p => ruled_attachLane hr _ p
  · exact ruled_loadRampRow hr _ _
  · exact ruled_forPosition hr _ fun p => ruled_writeCalibration hr _ _ p
  · exact ruled_forPosition hr _ fun p => ruled_authorizePosition hr _ _ _ _ p
  · exact ruled_forPosition hr _ fun p => ruled_cancelPosition hr _ p
  · split
    · exact hr
    · split
      · exact hr
      · exact hr.apartFrom rfl rfl rfl rfl rfl rfl rfl
  · split
    · exact hr
    · exact hr
  · exact ruled_setTimeOfDay hr _ _
  · exact ruled_readRecord hr _
  · exact ruled_releaseRecord hr _
  · exact ruled_forPosition hr _ fun _ => hr
  · exact ruled_setInterval hr _ _
  · exact ruled_setNotices hr _ _ _ _

/-! ### Every event -/

theorem ruled_goodFrame (h : Ruled β s) (port : PortId) (body : List Byte) : Ruled β (goodFrame port body s) := by
  unfold goodFrame
  dsimp only
  exact (Ruled.ite _ (fun _ => (h.modPort port _).sends (sends_postNotice _ _ _ _ _)) fun _ => h.modPort port _).modPort port _

/-- Every effect of an event keeps the laws. -/
theorem ruled_effectOf {i : Instr} {f : State → State} (hi : effectOf i = some f) (h : Opens β s) : Ruled β (f s) := by
  have hr := h.ruled
  cases i
  all_goals simp only [effectOf, reduceCtorEq, Option.some.injEq] at hi
  all_goals subst hi
  case goodFrame => exact ruled_goodFrame hr _ _
  case badCheckFrame | frameGap | frameSent | syncByte => exact hr.modPort _ _
  case badLengthFragment => exact Ruled.ite _ (fun _ => hr.modPort _ _) fun _ => hr
  case authorizationLifeExpiry p => exact Ruled.ite _ (fun _ => ruled_loseAuthorization hr p _) fun _ => hr
  case pulseExpiry p =>
    dsimp only
    split
    next k pulse pulsing _ =>
      refine Ruled.ite _ (fun _ => ?_) fun _ => hr
      exact hr.under (p := p) (by rw [pulse]; rfl) (fair_pulseExpired hr.fair pulse
        (h.holders.not_draws (fun _ => by rw [pulsing]; decide) fun k => by rw [pulse] at k; cases k) k)
        (esd_of_fixed (owned_pulseExpired p k s).fixed)
    · exact hr
  case leakCheckExpiry p =>
    have stopped := hr.unmoved (unmoved_modPos s p (fun x => { x with phaseTimer := none }) fun _ => ⟨rfl, rfl, rfl⟩) rfl
    refine Ruled.ite _ (fun k => ?_) fun _ => hr
    obtain ⟨leak, -⟩ := Bool.and_eq_true_iff.1 k
    have leak := eq_of_beq leak
    refine Ruled.ite _ (fun _ => ruled_endFill stopped p _) fun _ => ?_
    have state : ((s.modPos p (fun x => { x with phaseTimer := none })).pos p).state = .leakCheck := by
      rw [State.modPos_pos]
      exact leak
    have bank : ((s.modPos p (fun x => { x with phaseTimer := none })).pos p).bank = none := by
      rw [State.modPos_pos, Option.eq_none_iff_forall_ne_some]
      intro b hb
      rcases (h.holders.fills p b hb).1 with e | e <;> rw [leak] at e <;> cases e
    exact stopped.under (p := p) (by rw [state]; rfl) (fair_rampEntryChecks stopped.fair state
      (h.holders.not_draws (fun k => by rw [leak] at k; cases k) fun k => by rw [leak] at k; cases k) bank)
      (esd_of_fixed (owned_rampEntryChecks p _).fixed)
  case holdLimitExpiry p => exact Ruled.ite _ (fun _ => ruled_endFill hr p _) fun _ => hr
  case settleExpiry p =>
    refine Ruled.ite _ (fun k => ?_) fun _ => hr
    exact ruled_closeFill hr (eq_of_beq (Bool.and_eq_true_iff.1 k).1)
  case periodExpiry p =>
    exact Ruled.ite _ (fun _ => ruled_meterUpdate (hr.unmoved (unmoved_modPos s p (fun x => { x with periodTimer := some 1000 })
      fun _ => ⟨rfl, rfl, rfl⟩) rfl) p) fun _ => hr
  case sensorStaleWatchExpiry p => exact Ruled.ite _ (fun _ => ruled_endFill hr p _) fun _ => hr
  case bankStaleWatchExpiry b => exact Ruled.ite _ (fun _ => ruled_bankStale hr b) fun _ => hr
  case pullDownTimerExpiry l => exact Ruled.ite _ (fun _ => (hr.modLane l _).postLane l _) fun _ => hr
  case laneStaleWatchExpiry l => exact Ruled.ite _ (fun _ => ruled_laneLeavesReady (hr.modLane l _) l _ _) fun _ => hr
  case warmTimerExpiry l => exact Ruled.ite _ (fun _ => ruled_warmExpired hr l) fun _ => hr
  case settleGateTimerExpiry p => exact Ruled.ite _ (fun _ => hr.unmoved (unmoved_modChan s p _) rfl) fun _ => hr
  case intervalTimerExpiry port => exact Ruled.ite _ (fun _ => ruled_intervalExpired hr h.drawer port) fun _ => hr

/-! ### The end of an event -/

/-- The laws of requesters, and where `β` holds those of the budget. -/
def Orderly (β : Prop) (s : State) : Prop := EsdLaw s ∧ CompLaw s ∧ WaitLaw s ∧ GrantLaw s ∧ (β → BudgetLaw s)

theorem BudgetLaw.like (h : BudgetLaw s) (pos : ∀ p, (t.pos p).state = (s.pos p).state ∧ (t.pos p).holdReason = (s.pos p).holdReason ∧
    (t.pos p).cls = (s.pos p).cls) (hc : t.comps = s.comps) (hk : t.cooling = s.cooling) : BudgetLaw t := by
  have grant (r : Requester) : t.grantOf r = s.grantOf r := by cases r <;> rw [State.grantOf, State.grantOf, hk]
  have comp (c : CompId) : t.comp c = s.comp c := by rw [State.comp, hc]; rfl
  have sum : t.sumGrants = s.sumGrants := by unfold State.sumGrants; simp only [grant]
  refine ⟨fun r => ?_, fun r => ?_, fun c => ?_, fun p k hk hc flows => ?_, fun c => ?_, fun w hw => ?_, ?_, ?_, fun p => ?_,
    fun w l hw => ?_⟩
  · rw [grant]; exact h.floors r
  · rw [grant]; exact h.grants r
  · rw [grant]; exact h.whole c
  · obtain ⟨state, reason, cls⟩ := pos p
    rw [state, reason] at flows
    rw [cls] at hk
    rw [grant]
    exact h.flowing p k hk hc flows
  · rw [grant, comp]; exact h.asking c
  · rw [hk] at hw
    rw [grant]
    exact h.waiting w hw
  · rw [hk]; exact h.once
  · rw [hk]; exact h.fillsFirst
  · rw [grant, hk, sum]; exact h.derated p
  · rw [hk] at hw
    rw [grant, hk, sum]
    exact h.head w l hw

/-- The budget between events, where the latch is not set by the passes, where it is because nobody takes part. -/
theorem Ruled.budgetLaw (h : Ruled β s) (b : β) : BudgetLaw s := by
  obtain ⟨ledger, streams, balanced⟩ := h.fair.budget b
  cases l : s.esd.latched with
  | false => exact ledger.laws streams (balanced.derated l) (balanced.head l)
  | true =>
    have hushed := h.hush l
    exact ledger.laws streams (fun p some => absurd (hushed.no_grant h.sound (.pos p)) some)
      fun w m hw => absurd hw (by rw [hushed.no_wait h.sound]; exact List.cons_ne_nil w m |>.symm)

theorem Ruled.orderly (h : Ruled β s) : Orderly β s := by
  obtain ⟨esd, comp, wait, grant⟩ := h.laws
  exact ⟨esd, comp, wait, grant, h.budgetLaw⟩

theorem Orderly.trails (h : Orderly β s) (k : Trails s t) : Orderly β t := by
  obtain ⟨esd, comp, wait, grant, budget⟩ := h
  rw [k.rest]
  exact ⟨⟨esd.drawers, esd.coolers, esd.granted, esd.noFill, esd.noRefill⟩, ⟨comp.running, comp.resting, comp.waiting⟩, wait,
    ⟨grant.ordered, grant.once, grant.fills, grant.refills, grant.waiters⟩,
    fun b => (budget b).like (fun _ => ⟨rfl, rfl, rfl⟩) rfl rfl⟩

theorem orderly_takeEvent (f : State → State) (h : Opens β s) (hf : Ruled β (f s)) : Orderly β (takeEvent f s) := by
  unfold takeEvent
  split
  · exact Orderly.trails hf.orderly (trails_endEvent _)
  · exact h.ruled.orderly

theorem Opens.dropFrame (h : Opens β s) (port : PortId) : Opens β (dropFrame port s) :=
  ⟨h.ruled.modPort port _, ⟨h.holders.fills, h.holders.refills, h.holders.drawn, h.holders.refilled, h.holders.drawers⟩⟩

theorem orderly_takeRequest (i : Instr) (port : PortId) (kind : Byte) (args : List Byte) (h : Opens β s) :
    Orderly β (takeRequest kind port args (ownerOf i) s) := by
  have dropped := h.dropFrame port
  unfold takeRequest
  split
  · dsimp only
    split
    · exact Orderly.trails dropped.ruled.orderly (trails_answered ..)
    · exact Orderly.trails (ruled_ownerOf dropped i).orderly (trails_answered ..)
  · exact h.ruled.orderly

/-! ### Power, reset and start-up -/

/-- Positions, banks, compressors and cooling at their reset values, nobody waiting. -/
structure Bare (s : State) : Prop where
  positions : s.positions = Vector.replicate 8 .initial
  comps : s.comps = Vector.replicate 2 .initial
  banks : s.banks = Vector.replicate 12 .initial
  cooling : s.cooling = .initial
  drawList : s.drawList = []

theorem Bare.orderly (h : Bare s) : Orderly β s := by
  have entry (r : Requester) : s.grantOf r = .initial := by cases r <;> simp [State.grantOf, h.cooling, Cooling.initial]
  have pos (p : PosId) : s.pos p = .initial := by simp [State.pos, h.positions]
  have comp (c : CompId) : s.comp c = .initial := by simp [State.comp, h.comps]
  have grant (r : Requester) : (s.grantOf r).grant = 0 := by
    cases r <;> simp [State.grantOf, h.cooling, Cooling.initial, GrantEntry.initial]
  have wait : s.cooling.wait = [] := by rw [h.cooling]; rfl
  have order : s.cooling.order = [] := by rw [h.cooling]; rfl
  have nobody (r : Requester) : ¬ ∃ w ∈ s.cooling.wait, w.who = r := by simp [wait]
  refine ⟨⟨?_, fun p k => absurd k (nobody _), fun p k => absurd (grant _) k, fun _ p => ?_, fun _ c => ⟨.inr ?_, grant _⟩⟩,
    ⟨fun c k => ?_, fun c _ => ?_, fun c k => absurd k (nobody _)⟩, ?_,
    ⟨fun r => ?_, ?_, fun p k => absurd (grant _) k, fun c k => absurd (grant _) k, fun p k => absurd k (nobody _)⟩,
    fun _ => ⟨fun r => ?_, fun r => ?_, fun c => .inl (grant _), fun p k hk => ?_, fun c => ⟨fun k => ?_, fun k => ?_⟩,
      fun w hw => ?_, ?_, ?_, fun p k => absurd (grant _) k, fun w l hw => ?_⟩⟩
  · rw [h.drawList]
    exact fun w k => nomatch k
  · rw [pos]
    rfl
  · rw [comp]
    rfl
  · rw [comp] at k
    cases k
  · rw [comp]
    exact ⟨rfl, rfl⟩
  · rw [WaitLaw, wait]
    exact List.nodup_nil
  · rw [order, grant]
    simp
  · rw [order]
    exact List.nodup_nil
  · rw [entry]
    cases r <;> rfl
  · rw [grant]
    exact Nat.zero_le _
  · rw [pos] at hk
    cases hk
  · rw [comp] at k
    cases k
  · rw [comp] at k
    exact absurd rfl k
  · rw [wait] at hw
    cases hw
  · rw [wait]
    exact List.nodup_nil
  · rw [wait]
    rfl
  · rw [wait] at hw
    cases hw

theorem Bare.trails (h : Bare s) (k : Trails s t) : Bare t := by
  rw [k.rest]
  exact ⟨h.positions, h.comps, h.banks, h.cooling, h.drawList⟩

theorem bare_recoverSlot (h : Bare s) (i : SlotId) : Bare (recoverSlot i s) := by
  unfold recoverSlot
  split
  · exact h
  next r _ =>
    have closed : Bare (closeSlot i (r.recover s.stamp) s) := ⟨h.positions, h.comps, h.banks, h.cooling, h.drawList⟩
    exact closed.trails (sends_postNotice ..).trails

theorem orderly_startUpStages (s : State) : Orderly β (startUpStages s) := by
  have reset : Bare { s.volatileReset with work := s.store } := ⟨rfl, rfl, rfl, rfl, rfl⟩
  have recovered := foldl_keep (keep := Bare) (l := openSlots s.store) (fun u i _ hu => bare_recoverSlot hu i) reset
  have written (u : State) (h : Bare u) : Bare (writeCause u) := ⟨h.positions, h.comps, h.banks, h.cooling, h.drawList⟩
  have read (u : State) (h : Bare u) : Bare (readLines u) := by
    unfold readLines
    dsimp only
    split
    · exact ⟨h.positions, h.comps, h.banks, h.cooling, h.drawList⟩
    · have latched : Bare (setLatch true .startLow { u with rate := u.pins.rate }) :=
        ⟨h.positions, h.comps, h.banks, h.cooling, h.drawList⟩
      exact latched.trails (trails_postEsd _)
  have ready := read _ (written _ recovered)
  have served : Bare (startUpStages s) := ⟨ready.positions, ready.comps, ready.banks, ready.cooling, ready.drawList⟩
  exact served.orderly

/-! ### The events that have a way of their own -/

theorem Orderly.same (h : Orderly β s) (hp : t.positions = s.positions) (hc : t.comps = s.comps) (hd : t.drawList = s.drawList)
    (hk : t.cooling = s.cooling) (hl : t.esd = s.esd) : Orderly β t := by
  have pos (p : PosId) : t.pos p = s.pos p := by rw [State.pos, hp]; rfl
  have comp (c : CompId) : t.comp c = s.comp c := by rw [State.comp, hc]; rfl
  have grant (r : Requester) : t.grantOf r = s.grantOf r := by cases r <;> rw [State.grantOf, State.grantOf, hk]
  obtain ⟨esd, running, wait, granted, budget⟩ := h
  refine ⟨⟨?_, ?_, ?_, ?_, ?_⟩, ⟨?_, ?_, ?_⟩, ?_, ⟨?_, ?_, ?_, ?_, ?_⟩, fun b => (budget b).like (fun p => ?_) hc hk⟩
  · simp only [pos, hd]; exact esd.drawers
  · simp only [pos, hk]; exact esd.coolers
  · simp only [pos, grant]; exact esd.granted
  · simp only [pos, hl]; exact esd.noFill
  · simp only [comp, grant, hl]; exact esd.noRefill
  · simp only [comp]; exact running.running
  · simp only [comp]; exact running.resting
  · simp only [comp, hk]; exact running.waiting
  · rw [WaitLaw, hk]; exact wait
  · simp only [grant, hk]; exact granted.ordered
  · rw [hk]; exact granted.once
  · simp only [pos, grant]; exact granted.fills
  · simp only [comp, grant]; exact granted.refills
  · simp only [pos, hk]; exact granted.waiters
  · rw [pos]; exact ⟨rfl, rfl, rfl⟩

theorem orderly_completeGroup (h : Orderly β s) (r : RecId) : Orderly β (completeGroup r s) := by
  unfold completeGroup
  split
  · exact h
  · refine foldl_keep (keep := Orderly β) (fun u n _ hu => hu.same rfl rfl rfl rfl rfl) ?_
    exact h.same rfl rfl rfl rfl rfl

theorem orderly_special {i : Instr} (hi : isSpecial i = true) (h : Opens β s) (hx : exec i s = .next t) : Orderly β t := by
  have kept := h.ruled.orderly
  have same (u : State) (h1 : u.positions = s.positions) (h2 : u.comps = s.comps) (h3 : u.drawList = s.drawList)
      (h4 : u.cooling = s.cooling) (h5 : u.esd = s.esd) : Orderly β u := Orderly.same kept h1 h2 h3 h4 h5
  cases i
  all_goals simp only [isSpecial, Bool.false_eq_true] at hi
  all_goals obtain rfl := Host.Outcome.next.inj hx
  case oneSecondTimerExpiry =>
    have ticked : Orderly β { s with oneSecond := some 1000, tod := s.tod.tick } := same _ rfl rfl rfl rfl rfl
    split
    · dsimp only
      split
      · exact ticked.trails (trails_endEvent _)
      · exact ticked
    · exact kept
  case writeGroupCompletion r =>
    split
    · exact kept
    · split
      · exact (orderly_completeGroup kept r).trails (trails_endEvent _)
      · exact orderly_completeGroup kept r
  case pulseEdge p =>
    have edge : Orderly β (s.modChan p (fun c => c.edge s.clock)) := same _ rfl rfl rfl rfl rfl
    split
    · exact edge.trails (trails_endEvent _)
    · exact edge
    · exact edge
    · exact kept
    · exact kept
  case esdNFallingEdge =>
    have low : Ruled β { s with pins := { s.pins with esdN := false } } := h.ruled.apartFrom rfl rfl rfl rfl rfl rfl rfl
    generalize ({ s with pins := { s.pins with esdN := false } } : State) = u at *
    unfold takeEvent
    split
    · exact Orderly.trails (Ruled.ite _ (fun _ => low) fun _ => ruled_setEsd low).orderly (trails_endEvent _)
    · exact low.orderly
  case powerApplied =>
    dsimp only
    split
    · exact Bare.orderly ⟨rfl, rfl, rfl, rfl, rfl⟩
    · exact kept
  case powerLoss =>
    dsimp only
    split
    · exact kept
    · exact Bare.orderly ⟨rfl, rfl, rfl, rfl, rfl⟩
  case startUpSequence =>
    split
    · exact orderly_startUpStages s
    · exact kept
  case startUpServe =>
    split
    · exact same _ rfl rfl rfl rfl rfl
    · exact kept
  all_goals exact same _ rfl rfl rfl rfl rfl

/-- Every command keeps the laws. -/
theorem exec_orderly {i : Instr} (h : Opens β s) (hx : exec i s = .next t) : Orderly β t := by
  rcases command_cases i with ⟨port, kind, args, hb⟩ | ⟨f, hf⟩ | hi
  · rw [exec_request hb] at hx
    split at hx
    · cases hx
    · exact Host.Outcome.next.inj hx ▸ orderly_takeRequest i port kind args h
  · rw [exec_effect hf] at hx
    exact Host.Outcome.next.inj hx ▸ orderly_takeEvent f h (ruled_effectOf hf h)
  · exact orderly_special hi h hx

/-! ### A step -/

theorem orderly_tickBlocks (h : Orderly β s) : Orderly β s.tickBlocks := by
  have pos (p : PosId) : (s.tickBlocks.pos p).state = (s.pos p).state ∧
      (s.tickBlocks.pos p).holdReason = (s.pos p).holdReason ∧ (s.tickBlocks.pos p).cls = (s.pos p).cls := by
    simp [State.pos, State.tickBlocks, Position.tick]
  obtain ⟨esd, running, wait, granted, budget⟩ := h
  refine ⟨⟨?_, ?_, ?_, ?_, esd.noRefill⟩, ⟨running.running, running.resting, running.waiting⟩, wait,
    ⟨granted.ordered, granted.once, ?_, granted.refills, ?_⟩, fun b => (budget b).like pos rfl rfl⟩
  · simp only [pos]; exact esd.drawers
  · simp only [pos]; exact esd.coolers
  · simp only [pos]; exact esd.granted
  · simp only [pos]; exact esd.noFill
  · simp only [pos]; exact granted.fills
  · simp only [pos]; exact granted.waiters

theorem orderly_tick (h : Orderly β s) : Orderly β s.tick := by
  have aged : Orderly β { s with
      clock := s.clock + 1
      queue := orderQueue (s.clock + 1) s.queue
      oneSecond := tickTimer s.oneSecond
      groups := s.groups.map (fun g => { g with left := g.left - 1 }) } := h.same rfl rfl rfl rfl rfl
  unfold State.tick
  split
  · exact h
  · dsimp only
    split
    · exact orderly_tickBlocks aged
    · exact aged

/-- Every step keeps the laws, with the budget where it holds before. -/
theorem step_orderly (h : step s = .next t) (holders : HolderLaw s) (kept : Orderly β s) : Orderly β t := by
  obtain ⟨esd, comp, wait, grant, budget⟩ := kept
  unfold step at h
  split at h
  · obtain rfl := Host.Outcome.next.inj h
    unfold idle
    split
    · exact orderly_tick ⟨esd, comp, wait, grant, budget⟩
    · exact Orderly.same ⟨esd, comp, wait, grant, budget⟩ rfl rfl rfl rfl rfl
  next i rest _ =>
    have ruled : Ruled β s := .of_laws esd comp wait grant holders budget
    have starts : Opens β { s with pending := rest } := ⟨ruled.apartFrom rfl rfl rfl rfl rfl rfl rfl,
      ⟨holders.fills, holders.refills, holders.drawn, holders.refilled, holders.drawers⟩⟩
    exact exec_orderly starts h

/-- Settles O56: the laws are kept through every cascade, what is served, shed or ended but not yet told being said apart. -/
theorem stepKeepsTheEsdLatchInForce : Obligations.StepKeepsTheEsdLatchInForce := by
  intro s t h esd comp wait grant holders
  obtain ⟨esd, comp, wait, grant, -⟩ := step_orderly (β := False) h holders ⟨esd, comp, wait, grant, False.elim⟩
  exact ⟨esd, comp, wait, grant⟩

/-- Settles O55: the grants are within the capacity after every cascade, and the table, the floors of what flows and the
wait list are kept through each, so that its last pass leaves nothing free that a derated fill or the head of the list
could take. -/
theorem stepKeepsGrantsWithinCapacity : Obligations.StepKeepsGrantsWithinCapacity := by
  intro s t h cooling
  refine ⟨(step_keeps h).cooling cooling, fun _ holders esd comp wait grant budget => ?_⟩
  obtain ⟨-, -, -, -, law⟩ := step_orderly (β := True) h holders ⟨esd, comp, wait, grant, fun _ => budget⟩
  exact law trivial

end Sys2Proof.Machine
end

section
/-! SUPPORT. What cascades leave of the fills, compressors and banks that they are not about: ends of fills, enables
withdrawn, refills withdrawn, shedding (R27, R67, R87, R101, R117, R118). -/

namespace Sys2Proof.Machine

variable {p q : PosId} {a b : BankId} {c n : CompId} {l : LaneId} {s t u : State} {x y : Untold}

/-! ### Banks in service and out of it -/

/-- From `s` to `t` banks in service stay in it, and those out of it stand. -/
structure Staffs (s t : State) : Prop where
  out : ∀ b, ¬ Serving (s.bank b) → t.bank b = s.bank b
  serving : ∀ b, Serving (s.bank b) → Serving (t.bank b)

theorem Staffs.refl (s : State) : Staffs s s := ⟨fun _ _ => rfl, fun _ => id⟩

theorem Staffs.trans (h : Staffs s t) (k : Staffs t u) : Staffs s u := by
  refine ⟨fun b hb => ?_, fun b => k.serving b ∘ h.serving b⟩
  have same := h.out b hb
  exact (k.out b (by rwa [same])).trans same

theorem Stays.staffs (h : Stays s t) : Staffs s t := ⟨fun b hb => h.stands b fun e => hb (Serving.of_idle e), h.serving⟩

theorem Cedes.staffs (h : Cedes s t) : Staffs s t := h.stays.staffs

theorem staffs_of (h : t.banks = s.banks) : Staffs s t := by
  have bank (b : BankId) : t.bank b = s.bank b := by rw [State.bank, h]; rfl
  exact ⟨fun b _ => bank b, fun b => by rw [bank]; exact id⟩

theorem Sends.staffs (h : Sends s t) : Staffs s t := staffs_of (by rw [h.rest])

/-- A bank in service comes to IDLE. -/
theorem staffs_moveBank (hb : Serving (s.bank b)) : Staffs s (moveBank b .idle none s) := by
  obtain ⟨-, others, -⟩ := moveBank_rest b .idle s
  refine ⟨fun a ha => others a fun e => ha (e ▸ hb), fun a ha => ?_⟩
  by_cases e : a = b
  · subst e
    rw [moveBank_bank]
    exact Serving.of_idle rfl
  · rwa [others a e]

theorem staffs_releaseBank (h : Sound x s) (p : PosId) : Staffs s (releaseBank p s) := by
  unfold releaseBank
  split
  · exact .refl s
  next b hb =>
    have held : Serving (s.bank b) := by
      rw [Serving, (h.banks.fills p b hb).1]
      exact ⟨BankState.noConfusion, BankState.noConfusion⟩
    have left : Staffs s (s.modPos p (fun x => { x with bank := none })) := staffs_of rfl
    exact (left.trans (staffs_moveBank held)).trans (bankIdle_stays b _).staffs

theorem staffs_holdFromRamp (h : Sound x s) (p : PosId) (reason : HoldReason) : Staffs s (holdFromRamp p reason s) := by
  have ended := unmoved_endSegment p .hold s
  have banks : Staffs s (endSegment p .hold s) := by
    obtain ⟨w, e⟩ := endSegment_eq p .hold s
    rw [e]
    exact staffs_of rfl
  exact (banks.trans (staffs_releaseBank (h.unmoved ended) p)).trans (cedes_enterHold p reason _).staffs

theorem staffs_backToQueue (b : BankId) (e : QueueEntry) (s : State) : Staffs s (backToQueue b e s) := by
  unfold backToQueue
  split
  next k =>
    have refilling : Serving (s.bank b) := by
      rw [Serving, eq_of_beq k]
      exact ⟨BankState.noConfusion, BankState.noConfusion⟩
    have offered := (offers_offerPass [b] (moveBank b .idle none s)).cedes.staffs
    exact ((staffs_moveBank refilling).trans offered).trans (staffs_of rfl)
  · exact .refl s

/-! ### Fills and compressors -/

/-- From `s` to `t` the fills of `P` that wait for nothing are spared, and the compressors of `C` rest that are not READY and
wait for nothing. -/
structure Beside (P : PosId → Prop) (C : CompId → Prop) (s t : State) : Prop where
  spares : ∀ q, P q → ¬ Waits s q → Spares q s t
  rests : ∀ n, C n → (s.comp n).state ≠ .ready → ¬ CompWaits s n → Rests n s t

section
variable {P P' : PosId → Prop} {C C' : CompId → Prop}

theorem Beside.refl (s : State) : Beside P C s s := ⟨fun q _ _ => .refl q s, fun n _ _ _ => .refl n s⟩

theorem Beside.trans (h : Beside P C s t) (k : Beside P C t u) : Beside P C s u := by
  refine ⟨fun q hq out => ?_, fun n hn ready out => ?_⟩
  · have spares := h.spares q hq out
    exact spares.trans (k.spares q hq (spares.waits out))
  · have rests := h.rests n hn ready out
    exact rests.trans (k.rests n hn (by rw [rests.comp]; exact ready) (mt rests.waits out))

theorem Beside.mono (h : Beside P C s t) (hp : ∀ q, P' q → P q) (hc : ∀ n, C' n → C n) : Beside P' C' s t :=
  ⟨fun q hq => h.spares q (hp q hq), fun n hn => h.rests n (hc n hn)⟩

theorem beside_ite (h : Prop) [Decidable h] (ht : Beside P C s t) (hu : Beside P C s u) : Beside P C s (if h then t else u) := by
  split
  · exact ht
  · exact hu

theorem beside_foldl {α : Type} (l : List α) (f : State → α → State) (hf : ∀ s a, Beside P C s (f s a)) (s : State) :
    Beside P C s (l.foldl f s) := foldl_keep (keep := Beside P C s) (fun u a _ hu => hu.trans (hf u a)) (.refl s)

end

/-- A compressor rests while a fill gives up its bank. -/
theorem rests_releaseBank (ready : (s.comp n).state ≠ .ready) (p : PosId) : Rests n s (releaseBank p s) := by
  unfold releaseBank
  split
  · exact .refl n s
  next b _ =>
    have left : Rests n s (s.modPos p (fun x => { x with bank := none })) := rests_modPos s p _
    exact left.trans (rests_toIdle (by rw [left.comp]; exact ready) b)

theorem rests_endFill (ready : (s.comp n).state ≠ .ready) (out : ¬ CompWaits s n) (p : PosId) (reason : EndReason) :
    Rests n s (endFill p reason s) := by
  cases hp : endable (s.pos p).state with
  | false =>
    rw [endFill_of_not_endable hp]
    exact .refl n s
  | true =>
    rw [endFill_eq hp]
    have marked : Rests n s (endMarks p reason s) := rests_endMarks p reason s
    have released := marked.trans (rests_releaseBank (by rw [marked.comp]; exact ready) p)
    have departed := released.trans (rests_departWait (r := .pos p) fun k =>
      out (released.waits ((rests_dropWait _ (.pos p)).waits k)))
    have given := departed.trans (rests_releaseGrant (r := .pos p) (mt departed.waits out) (by simp))
    exact given.trans (rests_endTells p _ _)

/-- The end of a fill. -/
theorem beside_endFill (p : PosId) (reason : EndReason) (s : State) : Beside (· ≠ p) (fun _ => True) s (endFill p reason s) :=
  ⟨fun _ hq out => spares_endFill hq out reason, fun _ _ ready out => rests_endFill ready out p reason⟩

theorem staffs_endFill (h : Sound .none s) (p : PosId) (reason : EndReason) : Staffs s (endFill p reason s) := by
  cases hp : endable (s.pos p).state with
  | false =>
    rw [endFill_of_not_endable hp]
    exact .refl s
  | true =>
    rw [endFill_eq hp]
    have marked : Staffs s (endMarks p reason s) := by
      obtain ⟨w, e⟩ := endMarks_eq p reason s
      rw [e]
      exact staffs_of rfl
    have released := staffs_releaseBank (sound_endMarks (p := p) h reason) p
    have told (v : State) : Staffs v (endTells p (s.pos p) v) := by
      obtain ⟨x, w, g, l, e⟩ := endTells_eq p (s.pos p) v
      rw [e]
      exact staffs_of rfl
    exact (((marked.trans released).trans (cedes_departWait _ _).staffs).trans (cedes_releaseGrant _ _).staffs).trans (told _)

/-! ### Refills withdrawn -/

theorem rests_refillEnds (hn : n ≠ c) (ready : (s.comp n).state ≠ .ready) (out : ¬ CompWaits s n) (cause : CompCause)
    (next : CompState) : Rests n s (refillEnds c cause next s) := by
  have stopped : Rests n s (stopRunning c next s) := rests_modComp s hn _
  have released : Rests n s (stopAndRelease c next s) :=
    stopped.trans (rests_releaseGrant (r := .comp c) (mt stopped.waits out) fun e => hn (Requester.comp.inj e).symm)
  unfold refillEnds
  generalize stopAndRelease c next s = u at *
  have passed := released.trans (rests_ite (next == .ready) (rests_assignmentPass (by rw [released.comp]; exact ready)) (.refl n u))
  exact passed.trans (rests_postNotice _ _ _ _ _)

theorem lives_backToQueue (b : BankId) (e : QueueEntry) (s : State) : Lives s (backToQueue b e s) := by
  have moved : Lives s (moveBank b .idle none s) := lives_moveBank s b _ _
  exact lives_ite _ ((moved.trans (offers_offerPass [b] _).lives).trans (lives_of rfl)) (.refl s)

theorem lives_refillEnds (c : CompId) (cause : CompCause) (next : CompState) (s : State) : Lives s (refillEnds c cause next s) := by
  have stopped : Lives s (stopRunning c next s) := lives_of rfl
  have released : Lives s (stopAndRelease c next s) := stopped.trans (lives_releaseGrant (.comp c) _)
  unfold refillEnds
  generalize stopAndRelease c next s = u at *
  exact (released.trans (lives_ite _ (lives_assignmentPass u) (.refl u))).trans (lives_postNotice _ _ _ _ _)

/-- What a refill withdrawn leaves: nothing of another compressor, of a fill that does not wait, of banks out of service. -/
structure Aloof (c : CompId) (s t : State) : Prop where
  beside : Beside (fun _ => True) (· ≠ c) s t
  staffs : Staffs s t
  lives : Lives s t

theorem Aloof.refl (c : CompId) (s : State) : Aloof c s s := ⟨.refl s, .refl s, .refl s⟩

theorem aloof_refillEnds (c : CompId) (cause : CompCause) (next : CompState) (s : State) : Aloof c s (refillEnds c cause next s) :=
  ⟨⟨fun _ _ out => spares_refillEnds (not_cools out) c cause next, fun _ hn ready out => rests_refillEnds hn ready out cause next⟩,
    (cedes_refillEnds c cause next s).staffs, lives_refillEnds c cause next s⟩

theorem aloof_withdrawRefill (c : CompId) (stop : StopCause) (cause : CompCause) (next : CompState) (s : State) :
    Aloof c s (withdrawRefill c stop cause next s) := by
  cases hb : (s.comp c).bank with
  | none =>
    unfold withdrawRefill
    rw [hb]
    exact .refl c s
  | some b =>
    cases he : (s.comp c).entryHeld with
    | none =>
      unfold withdrawRefill
      rw [hb, he]
      exact .refl c s
    | some e =>
      rw [withdrawRefill_ends hb he]
      have directed (q : PosId) : Spares q s (postDirective plantPort (.refillStop c b stop) s) := spares_postDirective _ _
      have posted (n : CompId) : Rests n s (postDirective plantPort (.refillStop c b stop) s) := rests_postDirective _ _ _
      have banks : Staffs s (postDirective plantPort (.refillStop c b stop) s) := staffs_of rfl
      have fills : Lives s (postDirective plantPort (.refillStop c b stop) s) := lives_of rfl
      generalize postDirective plantPort (.refillStop c b stop) s = u at *
      have back : Beside (fun _ => True) (· ≠ c) s (backToQueue b e u) :=
        ⟨fun q _ out => (directed q).trans (spares_backToQueue (not_draws ((directed q).waits out)) b e),
          fun n _ _ _ => (posted n).trans (rests_backToQueue b e u)⟩
      have ends := aloof_refillEnds c cause next (backToQueue b e u)
      exact ⟨back.trans ends.beside, (banks.trans (staffs_backToQueue b e u)).trans ends.staffs,
        (fills.trans (lives_backToQueue b e u)).trans ends.lives⟩

theorem rests_leaveCoolingWait (hn : n ≠ c) (out : ¬ CompWaits s n) (next : CompState) (cause : CompCause) :
    Rests n s (leaveCoolingWait c next cause s) := by
  have posted : Rests n s (postCompState c cause ((flushWaitNotice c s).modComp c
      (fun x => { x with state := next, requestTime := none }))) :=
    ((rests_flushWaitNotice s c).trans (rests_modComp _ hn _)).trans (rests_postCompState _ c cause)
  unfold leaveCoolingWait
  dsimp only
  generalize postCompState c cause _ = u at *
  exact posted.trans (rests_departWait (r := .comp c) fun k => out (posted.waits ((rests_dropWait u (.comp c)).waits k)))

theorem aloof_leaveCoolingWait (c : CompId) (next : CompState) (cause : CompCause) (s : State) :
    Aloof c s (leaveCoolingWait c next cause s) := by
  have banks : Staffs s (leaveCoolingWait c next cause s) := by
    have flushed := (cedes_flushWaitNotice s c).staffs
    have called := flushed.trans (cedes_modComp _ c (fun x => { x with state := next, requestTime := none })).staffs
    have posted (v : State) : Staffs v (postCompState c cause v) := (sends_postNotice _ _ _ _ v).staffs
    exact (called.trans (posted _)).trans (cedes_departWait (.comp c) _).staffs
  have fills : Lives s (leaveCoolingWait c next cause s) := by
    obtain ⟨x, v, e, -⟩ := flushWaitNotice_eq c s
    have flushed : Lives s ((flushWaitNotice c s).modComp c (fun x => { x with state := next, requestTime := none })) := by
      rw [e]
      exact lives_of rfl
    exact (flushed.trans (lives_postNotice _ _ _ _ _)).trans (lives_departWait (.comp c) _)
  exact ⟨⟨fun _ _ out => spares_leaveCoolingWait (not_cools out) c next cause,
    fun _ hn _ out => rests_leaveCoolingWait hn out next cause⟩, banks, fills⟩

/-! ### Enables withdrawn (R95, R101) -/

theorem beside_loseFills (l : LaneId) (s : State) : Beside (fun _ => False) (fun _ => True) s (loseFills l s) :=
  beside_foldl _ _ (fun u p => beside_ite _ ((beside_endFill p .laneLost u).mono (fun _ k => k.elim) fun _ => id) (.refl u)) s

/-- A fill under way stays so, or has ended with its lane. -/
theorem loseFills_lives (l : LaneId) (s : State) (p : PosId) (h : endable (s.pos p).state = true) :
    endable ((loseFills l s).pos p).state = true ∨ Gone .laneLost (loseFills l s) p := by
  cases hc : counted s l p with
  | true => exact .inr ((loseFills_lost l s p).1 hc)
  | false =>
    have lane (u : State) (k : u.steady = s.steady) : counted u l p = true → counted s l p = true := fun hu => by
      obtain ⟨-, rest⟩ := (counted_iff l).1 hu
      refine (counted_iff l).2 ⟨h, ?_⟩
      rw [← pos_steady_of k]
      exact rest
    refine .inl (foldl_keep (f := loseFill l) (keep := fun u => endable (u.pos p).state = true ∧ u.steady = s.steady)
      (fun u q _ hu => ?_) ⟨h, rfl⟩).1
    obtain ⟨under, steady⟩ := hu
    unfold loseFill
    split
    next k =>
      refine ⟨endFill_lives ?_ _ under, (steady_endFill ..).trans steady⟩
      rintro rfl
      have := lane u steady k
      rw [hc] at this
      cases this
    · exact ⟨under, steady⟩

/-- What an enable that takes a value leaves of compressors and banks, and of fills under way. -/
structure Spent (s t : State) : Prop where
  rests : ∀ n, (s.comp n).state ≠ .ready → ¬ CompWaits s n → Rests n s t
  staffs : Staffs s t
  lives : ∀ p, endable (s.pos p).state = true → endable (t.pos p).state = true ∨ Gone .laneLost t p

theorem Spent.refl (s : State) : Spent s s := ⟨fun n _ _ => .refl n s, .refl s, fun _ => .inl⟩

theorem spent_of (hp : t.positions = s.positions) (hc : t.comps = s.comps) (hk : t.cooling = s.cooling) (hb : t.banks = s.banks) :
    Spent s t := ⟨fun _ _ _ => rests_of hc hk, staffs_of hb, fun p h => .inl (by rw [State.pos, hp]; exact h)⟩

theorem staffs_loseFills (h : Ruled False s) (l : LaneId) : Staffs s (loseFills l s) := by
  refine (foldl_keep (f := loseFill l) (keep := fun u => Ruled False u ∧ Staffs s u) (fun u p _ hu => ?_) ⟨h, .refl s⟩).2
  obtain ⟨ruled, staffs⟩ := hu
  unfold loseFill
  split
  · exact ⟨ruled_endFill ruled p _, staffs.trans (staffs_endFill ruled.sound p _)⟩
  · exact ⟨ruled, staffs⟩

theorem spent_loseFills (h : Ruled False s) (l : LaneId) : Spent s (loseFills l s) :=
  ⟨fun n ready out => (beside_loseFills l s).rests n trivial ready out, staffs_loseFills h l, loseFills_lives l s⟩

/-- What follows a cascade and moves lanes, ports and notices alone. -/
theorem Spent.then (h : Spent s t) (hp : u.positions = t.positions) (hc : u.comps = t.comps) (hk : u.cooling = t.cooling)
    (hb : u.banks = t.banks) (hd : u.drawList = t.drawList) : Spent s u := by
  have pos (p : PosId) : u.pos p = t.pos p := by rw [State.pos, hp]; rfl
  refine ⟨fun n ready out => (h.rests n ready out).trans (rests_of hc hk), h.staffs.trans (staffs_of hb), fun p k => ?_⟩
  refine (h.lives p k).imp (fun e => by rwa [pos]) fun e => ⟨by rw [pos]; exact e.state, by rw [pos]; exact e.endReason, ?_⟩
  rw [Waits, hd, hk]
  exact e.waits

/-- What a change of lanes, ports and notices alone comes before. -/
theorem Spent.from (k : Spent t u) (hp : t.positions = s.positions) (hc : t.comps = s.comps) (hk : t.cooling = s.cooling)
    (hb : t.banks = s.banks) : Spent s u := by
  have rest : ∀ n, Rests n s t := fun n => rests_of hc hk
  refine ⟨fun n ready out => (rest n).trans (k.rests n (by rw [(rest n).comp]; exact ready) (mt (rest n).waits out)),
    (staffs_of hb).trans k.staffs, fun p h => k.lives p (by rw [State.pos, hp]; exact h)⟩

theorem spent_laneLeavesReady (h : Ruled False s) (l : LaneId) (next : LaneState) (cause : LaneCause) :
    Spent s (laneLeavesReady l next cause s) := by
  have stopped : Ruled False (s.setLane l { s.lane l with staleWatch := none, warmTimer := none }) :=
    h.modLane l (fun x => { x with staleWatch := none, warmTimer := none })
  have posted (v : State) : postLaneState l cause v = { v with ports := (postLaneState l cause v).ports } :=
    (sends_postNotice _ _ _ _ v).rest
  rw [laneLeavesReady_eq, posted]
  have lost := spent_loseFills stopped l
  refine Spent.from (t := s.setLane l { s.lane l with staleWatch := none, warmTimer := none }) ?_ rfl rfl rfl rfl
  generalize s.setLane l { s.lane l with staleWatch := none, warmTimer := none } = v at *
  generalize loseFills l v = u at *
  exact lost.then rfl rfl rfl rfl rfl

theorem spent_setEnable (h : Ruled False s) (plant : Bool) (l : LaneId) (v : Bool) : Spent s (setEnable plant l v s) := by
  have posted (cause : LaneCause) (u : State) : postLaneState l cause u = { u with ports := (postLaneState l cause u).ports } :=
    (sends_postNotice _ _ _ _ u).rest
  have lit (u : State) (f : Lane → Lane) (cause : LaneCause) : Spent u (postLaneState l cause (u.modLane l f)) := by
    rw [posted]
    exact spent_of rfl rfl rfl rfl
  have flagged : Ruled False (s.setLane l ((s.lane l).flagged plant v)) := h.modLane l (fun x => x.flagged plant v)
  have set {t : State} (k : Spent (s.setLane l ((s.lane l).flagged plant v)) t) : Spent s t := k.from rfl rfl rfl rfl
  unfold setEnable
  by_cases same : (if plant then (s.lane l).plantEnable else (s.lane l).islandEnable) = v
  · rw [if_pos same]
    exact .refl s
  rw [if_neg same]
  generalize s.setLane l ((s.lane l).flagged plant v) = u at *
  cases v with
  | true =>
    refine set ?_
    rw [if_pos rfl]
    unfold enablePresent
    dsimp only
    split
    · split
      · exact lit u _ _
      · exact lit u _ _
    · exact .refl u
  | false =>
    refine set ?_
    rw [if_neg Bool.false_ne_true]
    unfold enableWithdrawn
    split
    · exact .refl u
    · exact lit u _ _
    · exact spent_laneLeavesReady flagged l _ _
    · exact lit u _ _

end Sys2Proof.Machine
end

section
/-! SUPPORT. The loss of an island: what its actions make of its positions and lanes, and what they leave (R29, R105, R165). -/

namespace Sys2Proof.Machine

variable {p q : PosId} {a b : BankId} {c k : CompId} {l j : LaneId} {n : PortId} {s t u : State}

/-! ### What the losses of ports leave of the rest -/

/-- The state but for positions, lanes, banks and cooling, as cascades leave it. -/
def State.backdrop (s : State) : State := { s.steady with
  positions := Vector.replicate 8 .initial, lanes := Vector.replicate 4 .initial, banks := Vector.replicate 12 .initial
  cooling := .initial, freeCtr := 0 }

theorem backdrop_of_steady (h : t.steady = s.steady) : t.backdrop = s.backdrop := by
  unfold State.backdrop
  rw [h]

theorem bank_settings_of_steady (h : t.steady = s.steady) (b : BankId) : (t.bank b).steady = (s.bank b).steady := by
  have banks := congrArg (fun u : State => u.banks[b]) h
  simpa [State.steady, State.bank] using banks

theorem capacity_of_steady (h : t.steady = s.steady) : t.cooling.capacity = s.cooling.capacity :=
  (congrArg (fun u : State => u.cooling.capacity) h : t.steady.cooling.capacity = s.steady.cooling.capacity)

/-- What the loss of an island leaves beyond fills and lanes. -/
structure Backed (s t : State) : Prop where
  backdrop : t.backdrop = s.backdrop
  banks : ∀ b, (t.bank b).steady = (s.bank b).steady
  capacity : t.cooling.capacity = s.cooling.capacity

theorem Backed.refl (s : State) : Backed s s := ⟨rfl, fun _ => rfl, rfl⟩

theorem Backed.trans (h : Backed s t) (k : Backed t u) : Backed s u :=
  ⟨k.backdrop.trans h.backdrop, fun b => (k.banks b).trans (h.banks b), k.capacity.trans h.capacity⟩

theorem backed_of_steady (h : t.steady = s.steady) : Backed s t :=
  ⟨backdrop_of_steady h, bank_settings_of_steady h, capacity_of_steady h⟩

/-- The actions are taken once each, in some order. -/
theorem takeActions_eq {acts : List LossAction} (once : acts.Nodup) (f : State → LossAction → State) (s : State) :
    ∃ l : List LossAction, takeActions acts f s = l.foldl f (s.permute acts).1 ∧ l.Nodup ∧ ∀ a, a ∈ l ↔ a ∈ acts := by
  obtain ⟨-, perm⟩ := s.permute_spec acts
  exact ⟨_, rfl, perm.nodup_iff.2 once, fun a => perm.mem_iff⟩

/-! ### A position comes to UNAVAILABLE -/

theorem spares_setGrantOf (h : q ≠ p) (e : GrantEntry) : Spares q s (s.setGrantOf (.pos p) e) := by
  refine ⟨rfl, rfl, rfl, id, id, fun k => ?_, fun _ => id⟩
  rw [State.setGrantOf_grantOf_ne _ _ _ _ fun e => h (Requester.pos.inj e)]
  exact k

theorem spares_makeUnavailable (h : q ≠ p) : Spares q s (makeUnavailable p s) := by
  have reset : Spares q s (s.modPos p (fun x => { Position.initial with lane := x.lane })) := spares_modPos h _
  unfold makeUnavailable
  dsimp only
  generalize s.modPos p (fun x => { Position.initial with lane := x.lane }) = u at *
  have left : Spares q u { u with drawList := u.drawList.filter (fun w => w.pos != p) } := spares_drawList _ draws_filter
  exact (reset.trans left).trans (spares_setGrantOf h _)

theorem makeUnavailable_pos (p : PosId) (s : State) :
    (makeUnavailable p s).pos p = { Position.initial with lane := (s.pos p).lane } :=
  State.modPos_pos s p (fun x => { Position.initial with lane := x.lane })

theorem makeUnavailable_waits (h : ¬ Waits s p) : ¬ Waits (makeUnavailable p s) p := by
  rintro (⟨w, hw, e⟩ | ⟨w, hw, e⟩)
  · exact not_draws h ⟨w, (List.mem_filter.1 hw).1, e⟩
  · exact not_cools h ⟨w, hw, e⟩

theorem rests_makeUnavailable (p : PosId) (s : State) : Rests k s (makeUnavailable p s) := ⟨rfl, rfl, id⟩

theorem spares_removeAuthorization (h : q ≠ p) (why : AuthEnd) : Spares q s (removeAuthorization p why s) :=
  (spares_modPos h _).trans (spares_postNotice _ _ _ _)

theorem backed_removeAuthorization (p : PosId) (why : AuthEnd) (s : State) : Backed s (removeAuthorization p why s) := by
  have left : Backed s (s.modPos p (fun x => { x with authorization := none, phaseTimer := none })) :=
    ⟨rfl, fun _ => rfl, rfl⟩
  exact left.trans (backed_of_steady (steady_postNotice ..))

theorem removeAuthorization_rest (p : PosId) (why : AuthEnd) (s : State) : removeAuthorization p why s =
    { s.modPos p (fun x => { x with authorization := none, phaseTimer := none }) with
      ports := (removeAuthorization p why s).ports } := (sends_postNotice _ _ _ _ _).rest

theorem removeAuthorization_waits (why : AuthEnd) (h : ¬ Waits s p) : ¬ Waits (removeAuthorization p why s) p := by
  rw [removeAuthorization_rest]
  exact h

/-! ### One position of the island (R29) -/

/-- What the loss of an island makes of a position without a fill under way. -/
def Position.dropped (x : Position) : Position :=
  match x.state with
  | .ending => { x with closePending := some .linkLost }
  | .unavailable => x
  | _ => { Position.initial with lane := x.lane }

/-- A fill that the loss of its island has ended, or that had ended with its lane. -/
structure Cut (s : State) (p : PosId) : Prop where
  state : (s.pos p).state = .ending
  closing : (s.pos p).closePending = some .linkLost
  endReason : (s.pos p).endReason = some .linkLost ∨ (s.pos p).endReason = some .laneLost
  waits : ¬ Waits s p

theorem Cut.spares (h : Cut s p) (k : Spares p s t) : Cut t p :=
  ⟨by rw [k.pos]; exact h.state, by rw [k.pos]; exact h.closing, by rw [k.pos]; exact h.endReason, k.waits h.waits⟩

theorem islandLossAt_ending (h : (s.pos p).state = .ending) :
    islandLossAt p s = s.modPos p (fun x => { x with closePending := some .linkLost }) := by
  unfold islandLossAt
  rw [h]

theorem islandLossAt_endable (h : endable (s.pos p).state = true) :
    islandLossAt p s = endFill p .linkLost (s.modPos p (fun x => { x with closePending := some .linkLost })) := by
  unfold islandLossAt
  cases hs : (s.pos p).state with
  | pulse | leakCheck | ramp | hold => rfl
  | unavailable | idle | waitAuth | waitNozzle | ready | ending | finished => rw [hs] at h; cases h

theorem islandLossAt_cuts (h : endable (s.pos p).state = true ∨ Gone .laneLost s p) : Cut (islandLossAt p s) p := by
  rcases h with h | gone
  · rw [islandLossAt_endable h]
    have under : endable ((s.modPos p (fun x => { x with closePending := some .linkLost })).pos p).state = true := by
      rw [State.modPos_pos]
      exact h
    have marked : ((s.modPos p (fun x => { x with closePending := some .linkLost })).pos p).closePending = some .linkLost := by
      rw [State.modPos_pos]
    generalize s.modPos p (fun x => { x with closePending := some .linkLost }) = u at *
    have ended := endFill_ended .linkLost under
    exact ⟨by rw [ended.position], by rw [ended.position]; exact marked, .inl (by rw [ended.position]), ended.notWaiting⟩
  · rw [islandLossAt_ending gone.state]
    refine ⟨?_, ?_, .inr ?_, gone.waits⟩
    · rw [State.modPos_pos]
      exact gone.state
    · rw [State.modPos_pos]
    · rw [State.modPos_pos]
      exact gone.endReason

/-- A position without a fill under way, that waits for nothing. -/
theorem islandLossAt_drops (h : endable (s.pos p).state = false) (hw : ¬ Waits s p) :
    (islandLossAt p s).pos p = (s.pos p).dropped ∧ ¬ Waits (islandLossAt p s) p := by
  have removed : ((removeAuthorization p .linkLost s).pos p).lane = (s.pos p).lane := by
    have own := State.modPos_pos s p (fun x => { x with authorization := none, phaseTimer := none })
    have lane := congrArg Position.lane own
    rw [removeAuthorization_rest]
    exact lane
  have authorized : (makeUnavailable p (removeAuthorization p .linkLost s)).pos p =
      { Position.initial with lane := (s.pos p).lane } ∧ ¬ Waits (makeUnavailable p (removeAuthorization p .linkLost s)) p := by
    rw [makeUnavailable_pos, removed]
    exact ⟨rfl, makeUnavailable_waits (removeAuthorization_waits _ hw)⟩
  have unavailable : (makeUnavailable p s).pos p = { Position.initial with lane := (s.pos p).lane } ∧
      ¬ Waits (makeUnavailable p s) p := ⟨makeUnavailable_pos p s, makeUnavailable_waits hw⟩
  unfold islandLossAt Position.dropped
  cases hs : (s.pos p).state with
  | pulse | leakCheck | ramp | hold => rw [hs] at h; cases h
  | ending =>
    refine ⟨?_, hw⟩
    dsimp only
    rw [State.modPos_pos, hs]
  | waitNozzle | ready => exact authorized
  | idle | waitAuth | finished => exact unavailable
  | unavailable => exact ⟨rfl, hw⟩

/-- What the loss of an island at one position leaves of the rest. -/
theorem islandLossAt_beside (p : PosId) (s : State) : Beside (· ≠ p) (fun _ => True) s (islandLossAt p s) := by
  have marked : Beside (· ≠ p) (fun _ => True) s (s.modPos p (fun x => { x with closePending := some .linkLost })) :=
    ⟨fun _ hq _ => spares_modPos hq _, fun _ _ _ _ => rests_modPos s p _⟩
  have unavailable (u : State) : Beside (· ≠ p) (fun _ => True) u (makeUnavailable p u) :=
    ⟨fun _ hq _ => spares_makeUnavailable hq, fun _ _ _ _ => rests_makeUnavailable p u⟩
  have removed : Beside (· ≠ p) (fun _ => True) s (removeAuthorization p .linkLost s) :=
    ⟨fun _ hq _ => spares_removeAuthorization hq _, fun _ _ _ _ => (rests_modPos s p _).trans (rests_postNotice _ _ _ _ _)⟩
  unfold islandLossAt
  cases (s.pos p).state with
  | pulse | leakCheck | ramp | hold => exact marked.trans (beside_endFill p .linkLost _)
  | ending => exact marked
  | waitNozzle | ready => exact removed.trans (unavailable _)
  | idle | waitAuth | finished => exact unavailable s
  | unavailable => exact .refl s

theorem islandLossAt_staffs (h : Ruled False s) (p : PosId) : Staffs s (islandLossAt p s) := by
  have marked := h.unmoved (unmoved_modPos s p (fun x => { x with closePending := some .linkLost }) fun _ => ⟨rfl, rfl, rfl⟩) rfl
  have same : Staffs s (s.modPos p (fun x => { x with closePending := some .linkLost })) := staffs_of rfl
  have removed : Staffs s (removeAuthorization p .linkLost s) := staffs_of (by rw [removeAuthorization_rest]; rfl)
  unfold islandLossAt
  cases (s.pos p).state with
  | pulse | leakCheck | ramp | hold => exact same.trans (staffs_endFill marked.sound p .linkLost)
  | ending => exact same
  | waitNozzle | ready => exact removed.trans (staffs_of rfl)
  | idle | waitAuth | finished => exact staffs_of rfl
  | unavailable => exact .refl s

theorem islandLossAt_backed (p : PosId) (s : State) : Backed s (islandLossAt p s) ∧
    ∀ l, ((islandLossAt p s).lane l).steady = (s.lane l).steady := by
  have ended (u : State) : Backed u (endFill p .linkLost u) ∧ ∀ l, ((endFill p .linkLost u).lane l).steady = (u.lane l).steady :=
    ⟨backed_of_steady (steady_endFill ..), fun l => lane_steady_of (steady_endFill ..) l⟩
  have same : Backed s (s.modPos p (fun x => { x with closePending := some .linkLost })) := ⟨rfl, fun _ => rfl, rfl⟩
  have removed := backed_removeAuthorization p .linkLost s
  have lanes (l : LaneId) : ((removeAuthorization p .linkLost s).lane l).steady = (s.lane l).steady := by
    rw [removeAuthorization_rest]
    rfl
  have unavailable (u : State) : Backed u (makeUnavailable p u) := ⟨rfl, fun _ => rfl, rfl⟩
  unfold islandLossAt
  cases (s.pos p).state with
  | pulse | leakCheck | ramp | hold => exact ⟨same.trans (ended _).1, (ended _).2⟩
  | ending => exact ⟨same, fun _ => rfl⟩
  | waitNozzle | ready => exact ⟨removed.trans (unavailable _), lanes⟩
  | idle | waitAuth | finished => exact ⟨unavailable s, fun _ => rfl⟩
  | unavailable => exact ⟨.refl s, fun _ => rfl⟩

/-- A fill under way elsewhere stays so. -/
theorem islandLossAt_lives (h : q ≠ p) (hq : endable (s.pos q).state = true) :
    endable ((islandLossAt p s).pos q).state = true := by
  have marked : (s.modPos p (fun x => { x with closePending := some .linkLost })).pos q = s.pos q :=
    State.modPos_pos_ne _ _ _ _ h
  have unavailable (u : State) : (makeUnavailable p u).pos q = u.pos q := (spares_makeUnavailable h).pos
  have removed : (removeAuthorization p .linkLost s).pos q = s.pos q := (spares_removeAuthorization h _).pos
  unfold islandLossAt
  cases (s.pos p).state with
  | pulse | leakCheck | ramp | hold => exact endFill_lives h _ (by rwa [marked])
  | ending => rwa [marked]
  | waitNozzle | ready => rwa [unavailable, removed]
  | idle | waitAuth | finished => rwa [unavailable]
  | unavailable => exact hq

/-! ### A lane of the island (R105) -/

/-- A fill not counted, that waits for nothing, is spared while a lane takes an enable. -/
theorem spares_setEnable (hc : counted s l q = false) (hw : ¬ Waits s q) (plant v : Bool) :
    Spares q s (setEnable plant l v s) := by
  have flagged : Spares q s (s.setLane l ((s.lane l).flagged plant v)) := spares_modLane l (fun x => x.flagged plant v)
  have lit (u : State) (f : Lane → Lane) (cause : LaneCause) : Spares q u (postLaneState l cause (u.modLane l f)) :=
    (spares_modLane l f).trans (spares_postNotice _ _ _ _)
  unfold setEnable
  by_cases same : (if plant then (s.lane l).plantEnable else (s.lane l).islandEnable) = v
  · rw [if_pos same]
    exact .refl q s
  rw [if_neg same]
  rw [← counted_congr flagged.pos] at hc
  have out := flagged.waits hw
  generalize s.setLane l ((s.lane l).flagged plant v) = u at *
  refine flagged.trans ?_
  cases v with
  | true =>
    rw [if_pos rfl]
    unfold enablePresent
    dsimp only
    split
    · split
      · exact lit u _ _
      · exact lit u _ _
    · exact .refl q u
  | false =>
    rw [if_neg Bool.false_ne_true]
    unfold enableWithdrawn
    split
    · exact .refl q u
    · exact lit u _ _
    · exact (laneLeavesReady_lost l _ _ u q).2 hc out
    · exact lit u _ _

/-- A lane owned by a port. -/
def Owns (n : PortId) (s : State) (l : LaneId) : Prop := (s.lane l).config.map (·.owner.val) = some n.val

theorem Lane.enabled_off (x : Lane) (plant : Bool) : x.enabled plant false =
    if (if plant then x.plantEnable else x.islandEnable) = false then x else (x.flagged plant false).withdrawn := by
  rw [Lane.enabled_eq, if_neg Bool.false_ne_true]

theorem Lane.withdrawn_kept (x : Lane) : x.withdrawn.config = x.config ∧ x.withdrawn.islandEnable = x.islandEnable ∧
    x.withdrawn.plantEnable = x.plantEnable := by
  cases h : x.state <;> simp [Lane.withdrawn, Lane.left, h]

/-- An enable withdrawn, and owner and the other enable as they were. -/
theorem Lane.enabled_false (x : Lane) (plant : Bool) : (x.enabled plant false).config = x.config ∧
    (x.enabled plant false).plantEnable = (x.plantEnable && !plant) ∧
    (x.enabled plant false).islandEnable = (x.islandEnable && plant) := by
  obtain ⟨config, island, other⟩ := Lane.withdrawn_kept (x.flagged plant false)
  rw [Lane.enabled_off]
  cases plant with
  | true =>
    rw [if_pos rfl]
    split
    next k => simp [k]
    · rw [config, island, other]
      simp [Lane.flagged]
  | false =>
    rw [if_neg Bool.false_ne_true]
    split
    next k => simp [k]
    · rw [config, island, other]
      simp [Lane.flagged]

/-- What an enable withdrawn leaves of the lanes. -/
theorem setEnable_lanes (plant : Bool) (l : LaneId) (s : State) :
    (setEnable plant l false s).lane l = (s.lane l).enabled plant false ∧
    ∀ j, j ≠ l → ((setEnable plant l false s).lane j).steady = (s.lane j).steady := by
  obtain ⟨lit, -, -⟩ := setEnable_leaves plant l false s
  refine ⟨lit.lane, fun j hj => ?_⟩
  have lanes := lane_steady_of lit.steady j
  rwa [State.setLane_lane_ne _ _ _ _ hj] at lanes

theorem setEnable_backed (plant : Bool) (l : LaneId) (s : State) : Backed s (setEnable plant l false s) := by
  obtain ⟨lit, -, -⟩ := setEnable_leaves plant l false s
  have set : Backed s (s.setLane l ((s.lane l).enabled plant false)) := ⟨rfl, fun _ => rfl, rfl⟩
  exact set.trans (backed_of_steady lit.steady)

end Sys2Proof.Machine
end

section
/-! SUPPORT. The loss of an island, its actions taken in any order (R29, R105, R165). -/

namespace Sys2Proof.Machine

variable {p q : PosId} {a b : BankId} {c k : CompId} {l j : LaneId} {n : PortId} {s t u : State}

/-! ### The lanes of the island (R105) -/

/-- A lane loses the enable of the island that is lost. -/
def loseLane (n : PortId) (s : State) (l : LaneId) : State :=
  if (s.lane l).config.map (·.owner.val) == some n.val then setEnable false l false s else s

theorem islandLanesLost_eq (n : PortId) (s : State) : islandLanesLost n s = allLanes.foldl (loseLane n) s := by
  unfold islandLanesLost
  simp only [setIslandEnable_eq]
  rfl

/-- Lanes keep their owners, and those of others all but the warm timer. -/
def LanesKept (n : PortId) (s t : State) : Prop :=
  ∀ l, (t.lane l).config = (s.lane l).config ∧ (¬ Owns n s l → (t.lane l).steady = (s.lane l).steady)

theorem lanesKept_of (h : ∀ l, (t.lane l).steady = (s.lane l).steady) : LanesKept n s t :=
  fun l => ⟨(congrArg Lane.config (h l) : (t.lane l).steady.config = (s.lane l).steady.config), fun _ => h l⟩

theorem LanesKept.owns (h : LanesKept n s t) (l : LaneId) : Owns n t l ↔ Owns n s l := by rw [Owns, Owns, (h l).1]

theorem LanesKept.trans (h : LanesKept n s t) (k : LanesKept n t u) : LanesKept n s u :=
  fun l => ⟨(k l).1.trans (h l).1, fun own => ((k l).2 (mt (h.owns l).1 own)).trans ((h l).2 own)⟩

theorem loseLane_kept (n : PortId) (s : State) (l : LaneId) : LanesKept n s (loseLane n s l) := by
  unfold loseLane
  split
  next owned =>
    obtain ⟨lane, others⟩ := setEnable_lanes false l s
    intro j
    by_cases e : j = l
    · subst e
      rw [lane]
      exact ⟨((s.lane j).enabled_false false).1, fun k => absurd (eq_of_beq owned) k⟩
    · exact ⟨(congrArg Lane.config (others j e) : ((setEnable false l false s).lane j).steady.config = _), fun _ => others j e⟩
  · exact lanesKept_of fun _ => rfl

theorem loseLane_disables (h : Owns n s l) : ((loseLane n s l).lane l).islandEnable = false := by
  rw [loseLane, if_pos (beq_iff_eq.2 h), (setEnable_lanes false l s).1, ((s.lane l).enabled_false false).2.2, Bool.and_false]

theorem loseLane_others (h : j ≠ l) : ((loseLane n s l).lane j).islandEnable = (s.lane j).islandEnable := by
  unfold loseLane
  split
  · have same := (setEnable_lanes false l s).2 j h
    exact (congrArg Lane.islandEnable same : ((setEnable false l false s).lane j).steady.islandEnable = _)
  · rfl

/-- A fill counted in no lane of the island. -/
def Elsewhere (n : PortId) (s : State) (q : PosId) : Prop := ∀ l, Owns n s l → counted s l q = false

theorem loseLane_spares (hc : Owns n s l → counted s l q = false) (hw : ¬ Waits s q) : Spares q s (loseLane n s l) := by
  unfold loseLane
  split
  next owned => exact spares_setEnable (hc (eq_of_beq owned)) hw false false
  · exact .refl q s

theorem islandLanes_spares (hl : LanesKept n s u) (hs : Spares q s u) (hc : Elsewhere n s q) (hw : ¬ Waits s q) :
    Spares q s (islandLanesLost n u) := by
  rw [islandLanesLost_eq]
  refine (foldl_keep (keep := fun v => LanesKept n s v ∧ Spares q s v) (fun v l _ hv => ?_) ⟨hl, hs⟩).2
  obtain ⟨lanes, spares⟩ := hv
  refine ⟨lanes.trans (loseLane_kept n v l), spares.trans (loseLane_spares (fun own => ?_) (spares.waits hw))⟩
  rw [counted_congr spares.pos]
  exact hc l ((lanes.owns l).1 own)

/-- A fill under way that a lane of the island may have ended. -/
def Running (s : State) (p : PosId) : Prop := endable (s.pos p).state = true ∨ Gone .laneLost s p

theorem not_counted_of (h : endable (s.pos p).state = false) (l : LaneId) : counted s l p = false := by
  unfold counted
  rw [h, Bool.and_false, Bool.false_and]

theorem islandLanes_runs (h : Ruled False u) (hp : Running u p) : Running (islandLanesLost n u) p := by
  rw [islandLanesLost_eq]
  refine (foldl_keep (keep := fun v => Ruled False v ∧ Running v p) (fun v l _ hv => ?_) ⟨h, hp⟩).2
  obtain ⟨ruled, runs⟩ := hv
  unfold loseLane
  split
  · refine ⟨by rw [← setIslandEnable_eq]; exact ruled_setIslandEnable ruled l false, ?_⟩
    rcases runs with under | gone
    · exact (spent_setEnable ruled false l false).lives p under
    · exact .inr (gone.spares (spares_setEnable (not_counted_of (by rw [gone.state]; rfl) l) gone.waits false false))
  · exact ⟨ruled, runs⟩

theorem mem_allLanes (l : LaneId) : l ∈ allLanes := by revert l; decide

theorem islandLanes_disables (h : Owns n s l) : ((islandLanesLost n s).lane l).islandEnable = false := by
  rw [islandLanesLost_eq]
  exact foldl_once (f := loseLane n) (a := l) (keep := fun v => LanesKept n s v) (before := fun _ => True)
    (after := fun v => (v.lane l).islandEnable = false) (by decide) (mem_allLanes l)
    (fun v j _ hv => hv.trans (loseLane_kept n v j)) (fun _ _ _ _ _ _ => trivial)
    (fun v hv _ => loseLane_disables ((hv.owns l).2 h))
    (fun v j _ hj _ hv => by rw [loseLane_others (Ne.symm hj)]; exact hv) (lanesKept_of fun _ => rfl) trivial

/-! ### Between the actions -/

/-- What every action of the loss of an island keeps. -/
structure Dropping (n : PortId) (s t : State) : Prop where
  ruled : Ruled False t
  staffs : Staffs s t
  backed : Backed s t
  lanes : LanesKept n s t
  rests : Beside (fun _ => False) (fun _ => True) s t

theorem dropping_loseLane (h : Dropping n s u) (l : LaneId) : Dropping n s (loseLane n u l) := by
  have lanes := h.lanes.trans (loseLane_kept n u l)
  unfold loseLane at lanes ⊢
  split
  next owned =>
    rw [if_pos owned] at lanes
    have spent := spent_setEnable h.ruled false l false
    exact ⟨by rw [← setIslandEnable_eq]; exact ruled_setIslandEnable h.ruled l false, h.staffs.trans spent.staffs,
      h.backed.trans (setEnable_backed false l u), lanes,
      h.rests.trans ⟨fun _ k => k.elim, fun m _ ready out => spent.rests m ready out⟩⟩
  · exact h

theorem dropping_islandLossAction (h : Dropping n s u) (a : LossAction) : Dropping n s (islandLossAction n u a) := by
  unfold islandLossAction
  split
  next p =>
    obtain ⟨backed, lanes⟩ := islandLossAt_backed p u
    exact ⟨ruled_islandLossAt h.ruled p, h.staffs.trans (islandLossAt_staffs h.ruled p), h.backed.trans backed,
      h.lanes.trans (lanesKept_of lanes), h.rests.trans ((islandLossAt_beside p u).mono (fun _ k => k.elim) fun _ => id)⟩
  · rw [islandLanesLost_eq]
    exact foldl_keep (keep := Dropping n s) (fun v l _ hv => dropping_loseLane hv l) h
  all_goals exact h

/-- The actions of the loss of an island. -/
def islandActions (n : PortId) : List LossAction := ((allPositions.filter (fun p => islandPort p = n)).map .position) ++ [.lanes]

theorem islandActions_nodup : ∀ n, (islandActions n).Nodup := by decide

theorem mem_islandActions (n : PortId) : (∀ p, .position p ∈ islandActions n ↔ islandPort p = n) ∧ .lanes ∈ islandActions n := by
  refine ⟨fun p => ?_, by simp [islandActions]⟩
  simp [islandActions, mem_allPositions]

/-- An action of the loss of an island leaves a position that it is not about. -/
theorem islandLossAction_spares {a : LossAction} (hl : LanesKept n s u) (hs : Spares q s u) (ha : a ≠ .position q)
    (hc : Elsewhere n s q) (hw : ¬ Waits s q) : Spares q s (islandLossAction n u a) := by
  cases a with
  | position p =>
    have apart : q ≠ p := fun e => ha (by rw [e])
    exact hs.trans ((islandLossAt_beside p u).spares q apart (hs.waits hw))
  | lanes => exact islandLanes_spares hl hs hc hw
  | cooling | refill | banks => exact hs

/-- A fill under way stays so through the actions that are not about it, or ends with its lane. -/
theorem islandLossAction_runs {a : LossAction} (h : Ruled False u) (hp : Running u p) (ha : a ≠ .position p) :
    Running (islandLossAction n u a) p := by
  cases a with
  | position q =>
    have apart : p ≠ q := fun e => ha (by rw [e])
    rcases hp with under | gone
    · exact .inl (islandLossAt_lives apart under)
    · exact .inr (gone.spares ((islandLossAt_beside q u).spares p apart gone.waits))
  | lanes => exact islandLanes_runs h hp
  | cooling | refill | banks => exact hp

theorem islandLossAction_lane {a : LossAction} (h : (u.lane l).islandEnable = false) :
    ((islandLossAction n u a).lane l).islandEnable = false := by
  cases a with
  | position p =>
    have same := (islandLossAt_backed p u).2 l
    exact (congrArg Lane.islandEnable same : ((islandLossAt p u).lane l).steady.islandEnable = _).trans h
  | lanes =>
    change ((islandLanesLost n u).lane l).islandEnable = false
    rw [islandLanesLost_eq]
    refine foldl_keep (keep := fun v => (v.lane l).islandEnable = false) (fun v j _ hv => ?_) h
    by_cases e : l = j
    · subst e
      by_cases own : Owns n v l
      · exact loseLane_disables own
      · rw [loseLane, if_neg (mt eq_of_beq own)]
        exact hv
    · rw [loseLane_others e]
      exact hv
  | cooling | refill | banks => exact h

/-! ### The loss of an island -/

/-- What the loss of an island makes of the state. -/
structure IslandGone (n : PortId) (s t : State) : Prop where
  dropping : Dropping n s t
  cut : ∀ p, islandPort p = n → endable (s.pos p).state = true → Cut t p
  dropped : ∀ p, islandPort p = n → endable (s.pos p).state = false → t.pos p = (s.pos p).dropped
  disabled : ∀ l, Owns n s l → (t.lane l).islandEnable = false
  spares : ∀ q, islandPort q ≠ n → ¬ Waits s q → Elsewhere n s q → Spares q s t

theorem EsdLaw.not_waits (h : EsdLaw s) (hp : endable (s.pos p).state = false) : ¬ Waits s p := by
  rintro (⟨w, hw, rfl⟩ | cools)
  · rw [h.drawers w hw] at hp
    cases hp
  · rw [h.coolers p cools] at hp
    cases hp

theorem islandGone_fold (h : Dropping n s u) (hl : LanesKept n s u) (hs : ∀ q, Spares q s u) (ruled : Ruled False s) (l : List LossAction)
    (once : l.Nodup) (mem : ∀ a, a ∈ l ↔ a ∈ islandActions n) : IslandGone n s (l.foldl (islandLossAction n) u) := by
  have esd := ruled.esdLaw
  refine ⟨foldl_keep (keep := Dropping n s) (fun v a _ hv => dropping_islandLossAction hv a) h, fun p hp under => ?_,
    fun p hp idle => ?_, fun j own => ?_, fun q hq out apart => ?_⟩
  · exact foldl_once (f := islandLossAction n) (a := .position p) (keep := Dropping n s) (before := fun v => Running v p)
      (after := fun v => Cut v p) once ((mem _).2 (((mem_islandActions n).1 p).2 hp))
      (fun v a _ hv => dropping_islandLossAction hv a) (fun v a _ ha hv runs => islandLossAction_runs hv.ruled runs ha)
      (fun v _ runs => islandLossAt_cuts runs)
      (fun v a _ ha hv cut => cut.spares (islandLossAction_spares (s := v) (lanesKept_of fun _ => rfl) (.refl p v) ha
        (fun l _ => not_counted_of (by rw [cut.state]; rfl) l) cut.waits)) h (.inl (by rw [(hs p).pos]; exact under))
  · have out := esd.not_waits idle
    have apart : Elsewhere n s p := fun l _ => not_counted_of idle l
    exact (foldl_once (f := islandLossAction n) (a := .position p) (keep := Dropping n s) (before := fun v => Spares p s v)
      (after := fun v => v.pos p = (s.pos p).dropped ∧ ¬ Waits v p) once ((mem _).2 (((mem_islandActions n).1 p).2 hp))
      (fun v a _ hv => dropping_islandLossAction hv a)
      (fun v a _ ha hv spares => islandLossAction_spares hv.lanes spares ha apart out)
      (fun v _ spares => by
        rw [← spares.pos] at idle ⊢
        exact islandLossAt_drops idle (spares.waits out))
      (fun v a _ ha hv gone => by
        have still : endable (v.pos p).state = false := by
          rw [gone.1]
          unfold Position.dropped
          cases hs : (s.pos p).state with
          | pulse | leakCheck | ramp | hold => rw [hs] at idle; cases idle
          | unavailable => exact (congrArg endable hs).trans rfl
          | ending | waitNozzle | ready | idle | waitAuth | finished => rfl
        have spares := islandLossAction_spares (s := v) (n := n) (lanesKept_of fun _ => rfl) (.refl p v) ha
          (fun l _ => not_counted_of still l) gone.2
        rw [spares.pos]
        exact ⟨gone.1, spares.waits gone.2⟩) h (hs p)).1
  · exact foldl_once (f := islandLossAction n) (a := .lanes) (keep := Dropping n s) (before := fun _ => True)
      (after := fun v => (v.lane j).islandEnable = false) once ((mem _).2 (mem_islandActions n).2)
      (fun v a _ hv => dropping_islandLossAction hv a) (fun _ _ _ _ _ _ => trivial)
      (fun v hv _ => islandLanes_disables ((hv.lanes.owns j).2 own)) (fun v a _ _ _ off => islandLossAction_lane off) h trivial
  · refine (foldl_keep (keep := fun v => Dropping n s v ∧ Spares q s v) (fun v a ha hv => ?_) ⟨h, hs q⟩).2
    obtain ⟨dropping, spares⟩ := hv
    refine ⟨dropping_islandLossAction dropping a, islandLossAction_spares dropping.lanes spares ?_ apart out⟩
    rintro rfl
    exact hq (((mem_islandActions n).1 q).1 ((mem _).1 ha))

theorem islandGone_teardown (h : Ruled False s) (hn : portRole n = .island) : IslandGone n s (teardown n s) := by
  obtain ⟨l, eq, once, mem⟩ := takeActions_eq (islandActions_nodup n) (islandLossAction n) s
  have torn : teardown n s = takeActions (islandActions n) (islandLossAction n) s := by
    unfold teardown
    rw [hn]
    rfl
  rw [torn, eq]
  have ruled : Ruled False (s.permute (islandActions n)).1 := h.unmoved (unmoved_permuted _ s) rfl
  exact islandGone_fold (s := s) ⟨ruled, staffs_of rfl, ⟨rfl, fun _ => rfl, rfl⟩, lanesKept_of fun _ => rfl,
    ⟨fun _ k => k.elim, fun _ _ _ _ => rests_of rfl rfl⟩⟩ (lanesKept_of fun _ => rfl)
    (fun q => ⟨rfl, rfl, rfl, id, id, id, fun _ => id⟩) h l once mem

end Sys2Proof.Machine
end

section
/-! SUPPORT. What a shedding leaves of fills and compressors without a grant, of banks, and of fills under way (R117, R118). -/

namespace Sys2Proof.Machine

variable {p q : PosId} {a b : BankId} {c n : CompId} {s t u : State} {x y : Untold} {fs ps sh : List PosId} {cs : List CompId}
  {g : Option PosId}

/-! ### The table passes -/

/-- A pass over grants spares a fill that holds none. -/
theorem spares_shedComps (l : List Requester) (s : State) : Spares q s (shedComps l s).1 := by
  induction l generalizing s with
  | nil => exact .refl q s
  | cons r l ih =>
    cases r with
    | pos p => exact ih s
    | comp c =>
      unfold shedComps
      split
      · have taken : Spares q s (setGrant (.comp c) 0 s) := spares_setGrant fun _ _ => rfl
        exact taken.trans (ih _)
      · exact .refl q s

theorem spares_shedCuts (l : List Requester) (h : (s.grantOf (.pos q)).grant = 0) : Spares q s (shedCuts l s) := by
  induction l generalizing s with
  | nil => exact .refl q s
  | cons r l ih =>
    cases r with
    | comp c => exact ih h
    | pos p =>
      unfold shedCuts
      dsimp only
      split
      next k =>
        have apart : q ≠ p := by
          rintro rfl
          omega
        have cut : Spares q s (tellDerated p (setGrant (.pos p) ((s.grantOf (.pos p)).grant -
            min (s.sumGrants - s.cooling.capacity) ((s.grantOf (.pos p)).grant - (s.grantOf (.pos p)).floor)) s)) :=
          (spares_setGrant fun e => absurd (Requester.pos.inj e) (Ne.symm apart)).trans
            (spares_modRecord apart _ (fun _ => rfl) fun _ => rfl)
        exact cut.trans (ih (cut.grant h))
      · exact ih h

theorem spares_shedHolds (l : List Requester) (s : State) : Spares q s (shedHolds l s).1 := by
  induction l generalizing s with
  | nil => exact .refl q s
  | cons r l ih =>
    cases r with
    | comp c => exact ih s
    | pos p =>
      unfold shedHolds
      split
      · have taken : Spares q s (setGrant (.pos p) 0 s) := spares_setGrant fun _ _ => rfl
        exact taken.trans (ih _)
      · exact .refl q s

theorem rests_regrants (h : Regrants s t) (hg : t.grantOf (.comp n) = s.grantOf (.comp n)) : Rests n s t :=
  ⟨h.comp n, hg, by rw [CompWaits, h.wait]; exact id⟩

theorem shedComps_grant (l : List Requester) (hl : .comp n ∉ l) (s : State) :
    (shedComps l s).1.grantOf (.comp n) = s.grantOf (.comp n) := by
  induction l generalizing s with
  | nil => rfl
  | cons r l ih =>
    have apart : .comp n ≠ r := fun e => hl (e ▸ List.mem_cons_self)
    have ih := ih fun k => hl (List.mem_cons_of_mem _ k)
    cases r with
    | pos p => exact ih s
    | comp c =>
      unfold shedComps
      split
      · exact (ih _).trans (setGrant_grantOf_ne apart 0 s)
      · rfl

theorem modRecord_grantOf (p : PosId) (f : TxnRecord → TxnRecord) (s : State) (r : Requester) :
    (modRecord p f s).grantOf r = s.grantOf r := by
  obtain ⟨w, e⟩ := modRecord_eq p f s
  rw [e]
  cases r <;> rfl

theorem shedCuts_grant (l : List Requester) (s : State) : (shedCuts l s).grantOf (.comp n) = s.grantOf (.comp n) := by
  induction l generalizing s with
  | nil => rfl
  | cons r l ih =>
    cases r with
    | comp c => exact ih s
    | pos p =>
      unfold shedCuts
      dsimp only
      split
      · exact (ih _).trans ((modRecord_grantOf ..).trans (setGrant_grantOf_ne (by simp) _ s))
      · exact ih s

theorem shedHolds_grant (l : List Requester) (s : State) : (shedHolds l s).1.grantOf (.comp n) = s.grantOf (.comp n) := by
  induction l generalizing s with
  | nil => rfl
  | cons r l ih =>
    cases r with
    | comp c => exact ih s
    | pos p =>
      unfold shedHolds
      split
      · exact (ih _).trans (setGrant_grantOf_ne (by simp) 0 s)
      · rfl

theorem setGrant_banks (r : Requester) (k : Nat) (s : State) : (setGrant r k s).banks = s.banks := (setGrant_lists r k s).2.2.1

theorem shedComps_banks (l : List Requester) (s : State) : (shedComps l s).1.banks = s.banks := by
  induction l generalizing s with
  | nil => rfl
  | cons r l ih =>
    cases r with
    | pos p => exact ih s
    | comp c =>
      unfold shedComps
      split
      · exact (ih _).trans (setGrant_banks _ _ s)
      · rfl

theorem shedCuts_banks (l : List Requester) (s : State) : (shedCuts l s).banks = s.banks := by
  have told (p : PosId) (u : State) : (tellDerated p u).banks = u.banks := by
    unfold tellDerated
    obtain ⟨w, e⟩ := modRecord_eq p (fun r => { r with flags := { r.flags with derated := true } }) u
    rw [e]
  induction l generalizing s with
  | nil => rfl
  | cons r l ih =>
    cases r with
    | comp c => exact ih s
    | pos p =>
      unfold shedCuts
      dsimp only
      split
      · exact (ih _).trans ((told p _).trans (setGrant_banks _ _ s))
      · exact ih s

theorem shedHolds_banks (l : List Requester) (s : State) : (shedHolds l s).1.banks = s.banks := by
  induction l generalizing s with
  | nil => rfl
  | cons r l ih =>
    cases r with
    | comp c => exact ih s
    | pos p =>
      unfold shedHolds
      split
      · exact (ih _).trans (setGrant_banks _ _ s)
      · rfl

/-! ### The holders told -/

theorem rests_holdFromRamp (ready : (s.comp n).state ≠ .ready) (p : PosId) (reason : HoldReason) :
    Rests n s (holdFromRamp p reason s) := by
  have ended : Rests n s (endSegment p .hold s) := by
    obtain ⟨w, e⟩ := endSegment_eq p .hold s
    rw [e]
    exact rests_of rfl rfl
  have released := ended.trans (rests_releaseBank (by rw [ended.comp]; exact ready) p)
  exact released.trans (rests_enterHold _ p reason)

theorem lives_holdFromRamp (p : PosId) (reason : HoldReason) (s : State) : Lives s (holdFromRamp p reason s) := by
  have ended : Lives s (endSegment p .hold s) := by
    obtain ⟨w, e⟩ := endSegment_eq p .hold s
    rw [e]
    exact lives_of rfl
  exact (ended.trans (lives_releaseBank p _)).trans (lives_enterHold _ p reason)

theorem spares_holdByShedding (h : q ≠ p) (hd : ¬ Draws s q) : Spares q s (holdByShedding p s) := by
  unfold holdByShedding
  split
  · exact spares_holdFromRamp h hd .cooling
  · exact (spares_drawList _ draws_filter).trans (spares_enterHold h .cooling)
  · exact .refl q s

theorem rests_holdByShedding (ready : (s.comp n).state ≠ .ready) (p : PosId) : Rests n s (holdByShedding p s) := by
  have left : Rests n s { s with drawList := s.drawList.filter (fun w => w.pos != p) } := rests_of rfl rfl
  unfold holdByShedding
  split
  · exact rests_holdFromRamp ready p .cooling
  · exact left.trans (rests_enterHold _ p .cooling)
  · exact .refl n s

theorem lives_holdByShedding (p : PosId) (s : State) : Lives s (holdByShedding p s) := by
  have left : Lives s { s with drawList := s.drawList.filter (fun w => w.pos != p) } := lives_of rfl
  unfold holdByShedding
  split
  · exact lives_holdFromRamp p .cooling s
  · exact left.trans (lives_enterHold _ p .cooling)
  · exact .refl s

theorem staffs_holdByShedding (h : Sound x s) (p : PosId) : Staffs s (holdByShedding p s) := by
  have left : Staffs s { s with drawList := s.drawList.filter (fun w => w.pos != p) } := staffs_of rfl
  unfold holdByShedding
  split
  · exact staffs_holdFromRamp h p .cooling
  · exact left.trans (cedes_enterHold p .cooling _).staffs
  · exact .refl s

theorem staffs_holdEach (h : Sound ⟨fs, cs, ps, g⟩ s) : Staffs s (ps.foldl (fun s p => holdByShedding p s) s) := by
  induction ps generalizing s with
  | nil => exact .refl s
  | cons p ps ih => exact (staffs_holdByShedding h p).trans (ih (sound_holdByShedding h))

theorem handBack_staffs (t : State × Bool) : Staffs t.1 (handBack t) := by
  unfold handBack
  split
  · exact (cedes_redistributeN 3 t.1).staffs
  · exact .refl t.1

theorem handBack_lives (t : State × Bool) : Lives t.1 (handBack t) := by
  unfold handBack
  split
  · exact lives_redistributeN 3 t.1
  · exact .refl t.1

theorem handBack_spares (t : State × Bool) (h : ¬ Cools t.1 q) : Spares q t.1 (handBack t) := by
  unfold handBack
  split
  · exact spares_redistribute h
  · exact .refl q t.1

theorem handBack_rests (t : State × Bool) (h : ¬ CompWaits t.1 n) : Rests n t.1 (handBack t) := by
  unfold handBack
  split
  · exact rests_redistribute h
  · exact .refl n t.1

theorem shares_spares (h : ¬ Cools s q) : Spares q s (shares s).1 ∧ q ∉ (shares s).2.1 := by
  unfold shares
  split
  · exact spares_redistributePasses h
  · exact ⟨.refl q s, List.not_mem_nil⟩

theorem shares_rests (h : ¬ CompWaits s n) : Rests n s (shares s).1 ∧ n ∉ (shares s).2.2 := by
  unfold shares
  split
  · exact rests_redistributePasses h
  · exact ⟨.refl n s, List.not_mem_nil⟩

theorem shares_staffs (s : State) : Staffs s (shares s).1 := by
  unfold shares
  split
  · exact (cedes_redistributePasses s).staffs
  · exact .refl s

theorem shares_lives (s : State) : Lives s (shares s).1 := by
  unfold shares
  split
  · exact lives_redistributePasses s
  · exact .refl s

/-- The holders told spare a fill that is neither shed nor served. -/
theorem shedTold_spares (held : List CompId) (l : List PosId) (r : State × List PosId × List CompId) (hl : q ∉ l)
    (hr : q ∉ r.2.1) (out : ¬ Waits r.1 q) : Spares q r.1 (shedTold held l r).1 := by
  have withdrawn : Spares q r.1 (held.foldl (fun s c => withdrawRefill c .shed .shed .ready s) r.1) :=
    foldl_keep (keep := fun u => Spares q r.1 u) (fun u c _ hu =>
      hu.trans ((aloof_withdrawRefill c .shed .shed .ready u).beside.spares q trivial (hu.waits out))) (.refl q r.1)
  have told := foldl_keep (f := fun s p => holdByShedding p s) (keep := fun u => Spares q r.1 u) (l := l) (fun u p hp hu =>
    hu.trans (spares_holdByShedding (fun e => hl (e ▸ hp)) (not_draws (hu.waits out)))) withdrawn
  exact told.trans (spares_tellServed hr r.2.2)

theorem shedTold_rests (held : List CompId) (l : List PosId) (r : State × List PosId × List CompId) (hl : n ∉ held)
    (hr : n ∉ r.2.2) (ready : (r.1.comp n).state ≠ .ready) (out : ¬ CompWaits r.1 n) : Rests n r.1 (shedTold held l r).1 := by
  have withdrawn : Rests n r.1 (held.foldl (fun s c => withdrawRefill c .shed .shed .ready s) r.1) :=
    foldl_keep (keep := fun u => Rests n r.1 u) (fun u c hc hu =>
      hu.trans ((aloof_withdrawRefill c .shed .shed .ready u).beside.rests n (fun e => hl (e ▸ hc)) (by rw [hu.comp]; exact ready)
        (mt hu.waits out))) (.refl n r.1)
  have told := foldl_keep (f := fun s p => holdByShedding p s) (keep := fun u => Rests n r.1 u) (l := l) (fun u p _ hu =>
    hu.trans (rests_holdByShedding (by rw [hu.comp]; exact ready) p)) withdrawn
  exact told.trans (rests_tellServed hr r.2.1 _)

theorem shedTold_lives (held : List CompId) (l : List PosId) (r : State × List PosId × List CompId) :
    Lives r.1 (shedTold held l r).1 := by
  have withdrawn : Lives r.1 (held.foldl (fun s c => withdrawRefill c .shed .shed .ready s) r.1) :=
    lives_foldl held _ (fun u c => (aloof_withdrawRefill c .shed .shed .ready u).lives) r.1
  have told := withdrawn.trans (lives_foldl l _ (fun u p => lives_holdByShedding p u) _)
  exact told.trans (lives_tellServed r.2.1 r.2.2 _)

theorem shedTold_staffs (held : List CompId) (l : List PosId) (r : State × List PosId × List CompId)
    (h : Sound ⟨r.2.1, r.2.2, l, none⟩ (held.foldl (fun s c => withdrawRefill c .shed .shed .ready s) r.1)) :
    Staffs r.1 (shedTold held l r).1 := by
  have withdrawn : Staffs r.1 (held.foldl (fun s c => withdrawRefill c .shed .shed .ready s) r.1) :=
    foldl_keep (keep := fun u => Staffs r.1 u) (fun u c _ hu => hu.trans (aloof_withdrawRefill c .shed .shed .ready u).staffs)
      (.refl r.1)
  exact (withdrawn.trans (staffs_holdEach h)).trans (cedes_tellServed r.2.1 r.2.2 _).staffs

end Sys2Proof.Machine
end

section
/-! SUPPORT. The frame of a whole shedding, of the loss of the capacity and of the compressors (R90, R117, R118, R121). -/

namespace Sys2Proof.Machine

variable {p q : PosId} {a b : BankId} {c n : CompId} {s t u : State}

/-! ### A shedding (R117, R118) -/

theorem shedTables_banks (s : State) : (shedTables s).1.banks = s.banks :=
  (shedHolds_banks _ _).trans ((shedCuts_banks _ _).trans (shedComps_banks _ s))

theorem shedTables_spares (h : (s.grantOf (.pos q)).grant = 0) : Spares q s (shedTables s).1 := by
  have comps : Spares q s (shedComps s.cooling.order.reverse s).1 := spares_shedComps _ s
  exact (comps.trans (spares_shedCuts _ (comps.grant h))).trans (spares_shedHolds _ _)

theorem shedTables_rests (h : Sound .none s) (hn : (s.grantOf (.comp n)).grant = 0) : Rests n s (shedTables s).1 := by
  have apart : Requester.comp n ∉ s.cooling.order.reverse := fun k => (h.order.ordered _).1 (List.mem_reverse.1 k) hn
  refine rests_regrants (tabled_shedTables h).moved ?_
  exact (shedHolds_grant _ _).trans ((shedCuts_grant _ _).trans (shedComps_grant _ apart s))

theorem jumped_spares {k : State × List CompId × List PosId} (h : q ∉ k.2.2) : Spares q k.1 (k.1.jumped (shedGroup k)) :=
  spares_wait _ fun w hw who => by
    rcases List.mem_append.1 hw with hw | hw
    · obtain ⟨p, hp, rfl⟩ := List.mem_map.1 hw
      cases who
      exact absurd (List.mem_reverse.1 hp) h
    · exact ⟨w, hw, who⟩

theorem jumped_rests (k : State × List CompId × List PosId) : Rests n k.1 (k.1.jumped (shedGroup k)) := by
  refine ⟨rfl, rfl, ?_⟩
  rintro ⟨w, hw, who⟩
  rcases List.mem_append.1 hw with hw | hw
  · obtain ⟨p, hp, rfl⟩ := List.mem_map.1 hw
    cases who
  · exact ⟨w, hw, who⟩

/-- A shedding spares a fill that holds no grant and waits for nothing. -/
theorem spares_shed (h : Sound .none s) (hq : (s.grantOf (.pos q)).grant = 0) (out : ¬ Waits s q) : Spares q s (shed s) := by
  have begun : Spares q s (budgetChanged .shed s) := spares_budgetChanged _
  have sound := h.unmoved (unmoved_budgetChanged s .shed)
  have tables := shedTables_spares (begun.grant hq)
  have tabled := tabled_shedTables sound
  rw [shed_eq]
  dsimp only
  generalize budgetChanged .shed s = s0 at *
  generalize shedTables s0 = k at *
  have unshed : q ∉ k.2.2 := fun hk => tabled.fills q hk (begun.grant hq)
  have shared := shares_spares (s := k.1.jumped (shedGroup k)) (q := q)
  have jumped := (begun.trans tables).trans (jumped_spares unshed)
  obtain ⟨spares, unserved⟩ := shared (not_cools (jumped.waits out))
  have passed := jumped.trans spares
  have told := passed.trans (shedTold_spares k.2.1 k.2.2 (shedShares k) unshed unserved (passed.waits out))
  exact told.trans (handBack_spares _ (not_cools (told.waits out)))

/-- A shedding leaves a compressor that is not READY, holds no grant and does not wait. -/
theorem rests_shed (h : Sound .none s) (hn : (s.grantOf (.comp n)).grant = 0) (ready : (s.comp n).state ≠ .ready)
    (out : ¬ CompWaits s n) : Rests n s (shed s) := by
  have begun : Rests n s (budgetChanged .shed s) := rests_evt s _
  have sound := h.unmoved (unmoved_budgetChanged s .shed)
  have tables := shedTables_rests sound (n := n) (by rw [begun.grant]; exact hn)
  have tabled := tabled_shedTables sound
  rw [shed_eq]
  dsimp only
  generalize budgetChanged .shed s = s0 at *
  generalize shedTables s0 = k at *
  have unshed : n ∉ k.2.1 := fun hk => (tabled.comps n hk).1 (by rw [begun.grant]; exact hn)
  have jumped := (begun.trans tables).trans (jumped_rests k)
  obtain ⟨rests, unserved⟩ := shares_rests (mt jumped.waits out)
  have passed : Rests n s (shedShares k).1 := jumped.trans rests
  have told := passed.trans (shedTold_rests k.2.1 k.2.2 (shedShares k) unshed unserved (by rw [passed.comp]; exact ready)
    (mt passed.waits out))
  exact told.trans (handBack_rests _ (mt told.waits out))

theorem staffs_shed (h : Sound .none s) (apart : ∀ p, (s.pos p).state = .ramp → Draws s p → s.evt.plantLost = true) :
    Staffs s (shed s) := by
  have begun : Staffs s (budgetChanged .shed s) := staffs_of rfl
  have sound := h.unmoved (unmoved_budgetChanged s .shed)
  have told := (tabled_shedTables sound).withdrawn sound apart
  have tables := begun.trans (staffs_of (shedTables_banks (budgetChanged .shed s)))
  rw [shed_eq]
  dsimp only
  generalize shedTables (budgetChanged .shed s) = k at *
  have jumped : Staffs s (k.1.jumped (shedGroup k)) := tables.trans (staffs_of rfl)
  have shared := jumped.trans (shares_staffs _)
  exact (shared.trans (shedTold_staffs k.2.1 k.2.2 (shedShares k) told)).trans (handBack_staffs _)

theorem lives_shed (h : Sound .none s) : Lives s (shed s) := by
  have begun : Lives s (budgetChanged .shed s) := lives_of rfl
  have tabled := tabled_shedTables (h.unmoved (unmoved_budgetChanged s .shed))
  rw [shed_eq]
  dsimp only
  generalize shedTables (budgetChanged .shed s) = k at *
  have tables : Lives s k.1 := begun.trans (lives_of tabled.moved.positions)
  have jumped : Lives s (k.1.jumped (shedGroup k)) := tables.trans (lives_of rfl)
  exact ((jumped.trans (shares_lives _)).trans (shedTold_lives k.2.1 k.2.2 (shedShares k))).trans (handBack_lives _)

end Sys2Proof.Machine
end

section
/-! SUPPORT. What each action of the loss of the plant leaves of the rest (R77, R90, R101, R121, R166). -/

namespace Sys2Proof.Machine

variable {p q : PosId} {a b : BankId} {c n : CompId} {l : LaneId} {s t u : State} {Q : PosId → Prop}

/-- What an action of the loss of the plant leaves: fills of `Q` under way, but where their lane ended them. -/
structure Wrecks (Q : PosId → Prop) (s t : State) : Prop where
  spares : ∀ q, endable (s.pos q).state = false → (∀ b, (s.bank b).holder ≠ some (.pos q)) → Spares q s t
  gone : ∀ reason q, Gone reason s q → Gone reason t q
  lives : ∀ q, Q q → endable (s.pos q).state = true → Running t q
  down : ∀ n, (s.comp n).state = .unavailable → (t.comp n).state = .unavailable
  backdrop : t.backdrop = s.backdrop
  island : ∀ l, (t.lane l).islandEnable = (s.lane l).islandEnable
  plant : ∀ l, (s.lane l).plantEnable = false → (t.lane l).plantEnable = false
  capacity : s.cooling.capacity = 0 → t.cooling.capacity = 0

theorem Wrecks.refl (s : State) : Wrecks Q s s :=
  ⟨fun q _ _ => .refl q s, fun _ _ => id, fun _ _ => .inl, fun _ => id, rfl, fun _ => rfl, fun _ => id, id⟩

theorem Wrecks.trans (h : Wrecks Q s t) (k : Wrecks Q t u) : Wrecks Q s u where
  spares q idle free := by
    have spares := h.spares q idle free
    exact spares.trans (k.spares q (by rwa [spares.pos]) fun b hb => free b (spares.holder b hb))
  gone reason q := k.gone reason q ∘ h.gone reason q
  lives q hq under := (h.lives q hq under).elim (k.lives q hq) fun gone => .inr (k.gone _ q gone)
  down n := k.down n ∘ h.down n
  backdrop := k.backdrop.trans h.backdrop
  island l := (k.island l).trans (h.island l)
  plant l := k.plant l ∘ h.plant l
  capacity := k.capacity ∘ h.capacity

/-- The frame of an action that spares every position without a fill under way. -/
theorem Wrecks.of_spares (spares : ∀ q, endable (s.pos q).state = false → Spares q s t)
    (lives : ∀ q, Q q → endable (s.pos q).state = true → Running t q)
    (down : ∀ n, (s.comp n).state = .unavailable → (t.comp n).state = .unavailable) (steady : t.steady = s.steady) :
    Wrecks Q s t :=
  ⟨fun q idle _ => spares q idle, fun _ q gone => gone.spares (spares q (by rw [gone.state]; rfl)), lives, down,
    backdrop_of_steady steady,
    fun l => (congrArg Lane.islandEnable (lane_steady_of steady l) : (t.lane l).steady.islandEnable = _),
    fun l off => (congrArg Lane.plantEnable (lane_steady_of steady l) : (t.lane l).steady.plantEnable = _).trans off,
    fun zero => (capacity_of_steady steady).trans zero⟩

/-! ### Who waits for nothing, and holds nothing -/

theorem Ruled.idle_waits (h : Ruled False s) (hq : endable (s.pos q).state = false) : ¬ Waits s q := h.esdLaw.not_waits hq

theorem Ruled.idle_grant (h : Ruled False s) (hq : endable (s.pos q).state = false) : (s.grantOf (.pos q)).grant = 0 := by
  refine Decidable.byContradiction fun k => ?_
  rcases h.sound.fills.granted q k with e | e | e
  · rw [e] at hq
    cases hq
  · rw [e] at hq
    cases hq
  · cases e

theorem Ruled.down_waits (h : Ruled False s) (hn : (s.comp n).state = .unavailable) : ¬ CompWaits s n := fun k => by
  have waits := (h.sound.comps.waiting n k).1
  rw [hn] at waits
  cases waits

theorem Ruled.down_grant (h : Ruled False s) (hn : (s.comp n).state = .unavailable) : (s.grantOf (.comp n)).grant = 0 := by
  refine Decidable.byContradiction fun k => ?_
  rcases h.sound.comps.refills n k with e | e
  · rw [hn] at e
    cases e
  · cases e

theorem Rests.down (h : Rests n s t) (hn : (s.comp n).state = .unavailable) : (t.comp n).state = .unavailable := by
  rw [h.comp]
  exact hn

/-! ### Fills, lanes, cooling, compressors -/

theorem wrecks_endFill (h : Ruled False s) (p : PosId) (reason : EndReason) : Wrecks (· ≠ p) s (endFill p reason s) := by
  refine .of_spares (fun q idle => ?_) (fun q hq under => .inl (endFill_lives hq reason under))
    (fun n hn => (rests_endFill (by rw [hn]; decide) (h.down_waits hn) p reason).down hn) (steady_endFill ..)
  by_cases e : q = p
  · subst e
    rw [endFill_of_not_endable idle]
    exact .refl q s
  · exact spares_endFill e (h.idle_waits idle) reason

theorem setEnable_flags (l : LaneId) (s : State) : ((setEnable true l false s).lane l).plantEnable = false ∧
    ∀ j, ((setEnable true l false s).lane j).islandEnable = (s.lane j).islandEnable ∧
      ((s.lane j).plantEnable = false → ((setEnable true l false s).lane j).plantEnable = false) := by
  obtain ⟨lane, others⟩ := setEnable_lanes true l s
  obtain ⟨-, plant, island⟩ := (s.lane l).enabled_false true
  have off : ((setEnable true l false s).lane l).plantEnable = false := by
    rw [lane, plant, Bool.not_true, Bool.and_false]
  refine ⟨off, fun j => ?_⟩
  by_cases e : j = l
  · subst e
    exact ⟨by rw [lane, island, Bool.and_true], fun _ => off⟩
  · have same := others j e
    exact ⟨(congrArg Lane.islandEnable same : ((setEnable true l false s).lane j).steady.islandEnable = _),
      fun k => (congrArg Lane.plantEnable same : ((setEnable true l false s).lane j).steady.plantEnable = _).trans k⟩

theorem wrecks_setEnable (h : Ruled False s) (l : LaneId) : Wrecks Q s (setEnable true l false s) := by
  have spares (q : PosId) (idle : endable (s.pos q).state = false) : Spares q s (setEnable true l false s) :=
    spares_setEnable (not_counted_of idle l) (h.idle_waits idle) true false
  have spent := spent_setEnable h true l false
  have backed := setEnable_backed true l s
  obtain ⟨-, flags⟩ := setEnable_flags l s
  exact ⟨fun q idle _ => spares q idle, fun _ q gone => gone.spares (spares q (by rw [gone.state]; rfl)), fun q _ => spent.lives q,
    fun n hn => (spent.rests n (by rw [hn]; decide) (h.down_waits hn)).down hn, backed.backdrop, fun j => (flags j).1,
    fun j => (flags j).2, fun zero => backed.capacity.trans zero⟩

theorem wrecks_shed (h : Ruled False s) (apart : ∀ p, (s.pos p).state = .ramp → Draws s p → s.evt.plantLost = true) :
    Wrecks Q s (shed s) :=
  .of_spares (fun _ idle => spares_shed h.sound (h.idle_grant idle) (h.idle_waits idle))
    (fun q _ under => .inl (lives_shed h.sound q under))
    (fun _ hn => (rests_shed h.sound (h.down_grant hn) (by rw [hn]; decide) (h.down_waits hn)).down hn) (steady_shed s)

/-- The capacity is taken, and its grants are still to be shed. -/
def capacityTaken (s : State) : State :=
  if decide (s.cooling.capacity ≠ 0) then budgetChanged .plantLost (setCapacity 0 false s) else setCapacity 0 false s

theorem capacityLost_eq (s : State) :
    capacityLost s = if 0 < (capacityTaken s).sumGrants then shed (capacityTaken s) else capacityTaken s := rfl

theorem capacityTaken_lost (s : State) : (capacityTaken s).evt.plantLost = s.evt.plantLost := by
  unfold capacityTaken
  split <;> rfl

/-- What the taking of the capacity moves. -/
theorem capacityTaken_rest (s : State) : ∃ e, capacityTaken s =
    { s with cooling := { s.cooling with capacity := 0, sensorRange := false }, evt := e } := by
  unfold capacityTaken
  split
  · exact ⟨_, rfl⟩
  · exact ⟨s.evt, rfl⟩

theorem wrecks_capacityTaken (s : State) : Wrecks Q s (capacityTaken s) := by
  obtain ⟨e, eq⟩ := capacityTaken_rest s
  rw [eq]
  have spares (q : PosId) : Spares q s { s with cooling := { s.cooling with capacity := 0, sensorRange := false }, evt := e } :=
    ⟨rfl, rfl, rfl, id, id, id, fun _ => id⟩
  exact ⟨fun q _ _ => spares q, fun _ q gone => gone.spares (spares q), fun _ _ => .inl, fun _ => id, rfl, fun _ => rfl,
    fun _ => id, fun _ => rfl⟩

theorem capacityTaken_zero (s : State) : (capacityTaken s).cooling.capacity = 0 := by
  obtain ⟨e, eq⟩ := capacityTaken_rest s
  rw [eq]

theorem Losing.taken (h : Losing False s) : Losing False (capacityTaken s) := by
  refine ⟨?_, (capacityTaken_lost s).trans h.lost⟩
  have set := ruled_setCapacity h.ruled (fun _ => Nat.zero_le _) false
  exact Ruled.ite _ (fun _ => set.unmoved (unmoved_budgetChanged _ _) rfl) fun _ => set

theorem wrecks_capacityLost (h : Losing False s) : Wrecks Q s (capacityLost s) ∧ Staffs s (capacityLost s) ∧
    (capacityLost s).cooling.capacity = 0 := by
  have taken := h.taken
  have apart (p : PosId) (_ : ((capacityTaken s).pos p).state = .ramp) (_ : Draws (capacityTaken s) p) := taken.lost
  have banks : Staffs s (capacityTaken s) := by
    obtain ⟨e, eq⟩ := capacityTaken_rest s
    rw [eq]
    exact staffs_of rfl
  have wrecks := wrecks_capacityTaken (Q := Q) s
  have zero := capacityTaken_zero s
  rw [capacityLost_eq]
  generalize capacityTaken s = u at *
  split
  · exact ⟨wrecks.trans (wrecks_shed taken.ruled apart), banks.trans (staffs_shed taken.ruled.sound apart),
      (capacity_of_steady (steady_shed u)).trans zero⟩
  · exact ⟨wrecks, banks, zero⟩

theorem wrecks_aloof (h : Ruled False s) (hc : (s.comp c).state ≠ .unavailable) (k : Aloof c s t) (steady : t.steady = s.steady) :
    Wrecks Q s t := by
  refine .of_spares (fun q idle => k.beside.spares q trivial (h.idle_waits idle)) (fun q _ under => .inl (k.lives q under))
    (fun n hn => ?_) steady
  have apart : n ≠ c := by
    rintro rfl
    exact hc hn
  exact (k.beside.rests n apart (by rw [hn]; decide) (h.down_waits hn)).down hn

theorem wrecks_compressorLost (h : Ruled False s) (c : CompId) : Wrecks Q s (compressorLost s c) ∧ Staffs s (compressorLost s c) ∧
    ((compressorLost s c).comp c).state = .unavailable := by
  unfold compressorLost
  split
  next runs =>
    have aloof := aloof_withdrawRefill c .plantLost .plantLost .unavailable s
    refine ⟨wrecks_aloof h (by rw [runs]; decide) aloof (steady_withdrawRefill ..), aloof.staffs, ?_⟩
    obtain ⟨some, other⟩ := h.sound.comps.running c runs
    obtain ⟨b, hb⟩ := Option.isSome_iff_exists.1 some
    obtain ⟨e, he⟩ := Option.isSome_iff_exists.1 other
    rw [withdrawRefill_ends hb he]
    have kept : Rests c s (backToQueue b e (postDirective plantPort (.refillStop c b .plantLost) s)) :=
      (rests_postDirective s _ _).trans (rests_backToQueue b e _)
    have out : ¬ CompWaits s c := fun k => by
      have waits := (h.sound.comps.waiting c k).1
      rw [runs] at waits
      cases waits
    exact congrArg Compressor.state (refillEnds_unavailable (mt kept.waits out) .plantLost).2
  next waits =>
    have aloof := aloof_leaveCoolingWait c .unavailable .plantLost s
    exact ⟨wrecks_aloof h (by rw [waits]; decide) aloof (steady_leaveCoolingWait ..), aloof.staffs,
      congrArg Compressor.state (leaveCoolingWait_own s c .unavailable .plantLost).1⟩
  next ready =>
    have posted (v : State) : Sends v (postCompState c .plantLost v) := sends_postNotice _ _ _ _ v
    refine ⟨wrecks_aloof (c := c) h (by rw [ready]; decide) ⟨⟨fun q _ _ => (spares_modComp c _).trans (spares_postCompState ..),
      fun n hn _ _ => (rests_modComp s hn _).trans (rests_postCompState _ c _)⟩, ?_, ?_⟩ ?_, ?_, ?_⟩
    · rw [(posted _).rest]
      exact staffs_of rfl
    · rw [(posted _).rest]
      exact lives_of rfl
    · rw [steady_postCompState]
      exact steady_modComp _ _ _ fun _ => rfl
    · rw [(posted _).rest]
      exact staffs_of rfl
    · rw [(rests_postCompState _ c .plantLost).comp, State.modComp_comp]
  next down => exact ⟨.refl s, .refl s, down⟩

end Sys2Proof.Machine
end

section
/-! SUPPORT. The banks on the loss of the plant: each leaves service, and its holder is told (R67, R77). -/

namespace Sys2Proof.Machine

variable {p q : PosId} {a b : BankId} {c n : CompId} {l : LaneId} {s t u : State} {Q : PosId → Prop}

/-- What the loss of the banks leaves of positions and compressors. -/
structure Quits (s t : State) : Prop where
  spares : ∀ q, ¬ Waits s q → (∀ b, (s.bank b).holder ≠ some (.pos q)) → Spares q s t
  gone : ∀ reason q, Gone reason s q → Gone reason t q
  lives : Lives s t
  rests : ∀ n, (s.comp n).state = .unavailable → ¬ CompWaits s n → Rests n s t

theorem Quits.refl (s : State) : Quits s s := ⟨fun q _ _ => .refl q s, fun _ _ => id, .refl s, fun n _ _ => .refl n s⟩

/-- A position that has ended its fill gives up its bank. -/
theorem Gone.unbanked {reason : EndReason} (h : Gone reason s q) (p : PosId) :
    Gone reason (s.modPos p (fun x => { x with bank := none })) q := by
  have own : ∀ r, ((s.modPos p (fun x => { x with bank := none })).pos r).state = (s.pos r).state ∧
      ((s.modPos p (fun x => { x with bank := none })).pos r).endReason = (s.pos r).endReason := fun r => by
    by_cases e : r = p
    · subst e
      rw [State.modPos_pos]
      exact ⟨rfl, rfl⟩
    · rw [State.modPos_pos_ne _ _ _ _ e]
      exact ⟨rfl, rfl⟩
  exact ⟨(own q).1.trans h.state, (own q).2.trans h.endReason, h.waits⟩

/-! ### The banks leave service -/

theorem spares_vacateBank (hb : (s.bank b).holder ≠ some (.pos q)) (st : BankState) : Spares q s (vacateBank b st s) := by
  have moved : Spares q s (moveBank b st none s) := spares_moveBank b st (by simp)
  unfold vacateBank
  dsimp only
  split
  next p _ holder => exact moved.trans (spares_modPos (by rintro rfl; exact hb holder) _)
  · exact moved

theorem vacateBank_gone {reason : EndReason} (h : Gone reason s q) (b : BankId) (st : BankState) :
    Gone reason (vacateBank b st s) q := by
  have moved : Gone reason (moveBank b st none s) q := h.spares (spares_moveBank b st (by simp))
  unfold vacateBank
  dsimp only
  split
  · exact moved.unbanked _
  · exact moved

theorem lives_vacateBank (b : BankId) (st : BankState) (s : State) : Lives s (vacateBank b st s) := by
  have moved : Lives s (moveBank b st none s) := lives_moveBank s b st none
  unfold vacateBank
  dsimp only
  split
  · exact moved.trans (lives_modPos _ _ _ id)
  · exact moved

theorem rests_vacateBank (b : BankId) (st : BankState) (s : State) : Rests n s (vacateBank b st s) := by
  have moved : Rests n s (moveBank b st none s) := rests_moveBank s b st none
  unfold vacateBank
  dsimp only
  split
  · exact moved.trans (rests_modPos _ _ _)
  · exact moved

/-- The bank takes the cause STALE. -/
def staleBank (b : BankId) (s : State) : State := s.modBank b (fun x => { x with causes := { x.causes with stale := true } })

theorem spares_staleBank (b : BankId) : Spares q s (staleBank b s) := spares_modBank b _ id

theorem spares_lockStale (hb : (s.bank b).holder ≠ some (.pos q)) : Spares q s (lockStale s b) := by
  have marked : Spares q s (staleBank b s) := spares_staleBank b
  have free : ((staleBank b s).bank b).holder ≠ some (.pos q) := by
    rw [staleBank, State.modBank_bank]
    exact hb
  have vacated := marked.trans (spares_vacateBank free .locked)
  unfold lockStale
  split
  · exact .refl q s
  · split
    · exact .refl q s
    · exact marked.trans (spares_postNotice ..)
  all_goals exact vacated

theorem lockStale_gone {reason : EndReason} (h : Gone reason s q) (b : BankId) : Gone reason (lockStale s b) q := by
  have marked : Gone reason (staleBank b s) q := h.spares (spares_staleBank b)
  unfold lockStale
  split
  · exact h
  · split
    · exact h
    · exact marked.spares (spares_postNotice ..)
  all_goals exact vacateBank_gone marked b .locked

theorem lives_lockStale (b : BankId) (s : State) : Lives s (lockStale s b) := by
  have marked : Lives s (staleBank b s) := lives_of rfl
  unfold lockStale
  split
  · exact .refl s
  · split
    · exact .refl s
    · exact marked.trans (lives_postNotice _ _ _ _ _)
  all_goals exact marked.trans (lives_vacateBank b .locked _)

theorem rests_lockStale (b : BankId) (s : State) : Rests n s (lockStale s b) := by
  have marked : Rests n s (staleBank b s) := rests_of rfl rfl
  unfold lockStale
  split
  · exact .refl n s
  · split
    · exact .refl n s
    · exact marked.trans (rests_postNotice _ _ _ _ _)
  all_goals exact marked.trans (rests_vacateBank b .locked _)

theorem Quits.locks (h : Quits s u) (b : BankId) : Quits s (lockStale u b) where
  spares q out free := by
    have spares := h.spares q out free
    exact spares.trans (spares_lockStale fun hb => free b (spares.holder b hb))
  gone reason q hq := lockStale_gone (h.gone reason q hq) b
  lives := h.lives.trans (lives_lockStale b u)
  rests n down out := (h.rests n down out).trans (rests_lockStale b u)

/-- What the loss of the plant makes of a bank (R77). -/
def Shuttered (x y : Bank) : Prop :=
  if x.state = .offline then y = x
  else y.state = .locked ∧ y.causes.stale = true ∧ y.holder = none ∨ x.state = .locked ∧ y.state = .locked ∧ y.causes.stale = true

theorem lockStale_shutters (b : BankId) (s : State) : Shuttered (s.bank b) ((lockStale s b).bank b) := by
  have own : (staleBank b s).bank b = { s.bank b with causes := { (s.bank b).causes with stale := true } } :=
    State.modBank_bank ..
  have vacated : (vacateBank b .locked (staleBank b s)).bank b =
      { s.bank b with causes := { (s.bank b).causes with stale := true }, state := .locked, holder := none } := by
    rw [vacateBank_bank, own]
  have gone : ∀ y : Bank, y = { s.bank b with causes := { (s.bank b).causes with stale := true }, state := .locked, holder := none } →
      (s.bank b).state ≠ .offline → Shuttered (s.bank b) y := fun y e k => by
    rw [Shuttered, if_neg k, e]
    exact .inl ⟨rfl, rfl, rfl⟩
  unfold lockStale
  split
  next k =>
    rw [Shuttered, if_pos k]
  next k =>
    rw [Shuttered, if_neg (by rw [k]; decide)]
    split
    next stale => exact .inr ⟨k, k, stale⟩
    · refine .inr ⟨k, ?_⟩
      rw [(sends_postBankState b _).rest]
      change ((staleBank b s).bank b).state = .locked ∧ ((staleBank b s).bank b).causes.stale = true
      rw [own]
      exact ⟨k, rfl⟩
  all_goals
    next k => exact gone _ vacated (by rw [k]; decide)

/-! ### The holders are told -/

theorem lives_matchQueue (k : Nat) (s : State) : Lives s (matchQueue k s) := by
  induction k generalizing s with
  | zero => exact .refl s
  | succ k ih =>
    unfold matchQueue
    split
    · split
      next c _ =>
        have called : Lives s ((flushWaitNotice c s).modComp c (fun x => { x with state := .ready, requestTime := none })) := by
          obtain ⟨x, v, e, -⟩ := flushWaitNotice_eq c s
          rw [e]
          exact lives_of rfl
        exact ((called.trans (lives_postNotice _ _ _ _ _)).trans (lives_departWait (.comp c) _)).trans (ih _)
      · exact .refl s
    · exact .refl s

theorem lives_dequeue (b : BankId) (s : State) : Lives s (dequeue b s) := by
  have queued : Lives s { s with queue := s.queue.filter (fun e => e.bank != b) } := lives_of rfl
  unfold dequeue
  split
  · exact queued.trans (lives_matchQueue 2 _)
  · exact .refl s

theorem lives_withdrawPosition (p : PosId) (s : State) : Lives s (withdrawPosition p s) := by
  have left : Lives s (s.modPos p (fun x => { x with bank := none })) := lives_modPos _ _ _ id
  unfold withdrawPosition
  dsimp only
  generalize s.modPos p (fun x => { x with bank := none }) = u at *
  split
  · have waiting : Lives u (u.modPos p (fun x => { x with pulseState := some .waiting, phaseTimer := none })) :=
      lives_modPos _ _ _ id
    have directed (v : State) : Lives v (sendValve p v) := lives_of rfl
    exact ((left.trans waiting).trans (directed _)).trans (lives_drawRequest _ p .pulse none)
  · have ended : Lives u (endSegment p .bankWithdrawn u) := by
      obtain ⟨w, e⟩ := endSegment_eq p .bankWithdrawn u
      rw [e]
      exact lives_of rfl
    have asked := (left.trans ended).trans (lives_drawRequest _ p .ramp none)
    exact lives_ite _ asked (asked.trans (lives_enterHold _ p .bank))
  · exact left

theorem withdrawPosition_gone {reason : EndReason} (h : Gone reason s q) (p : PosId) : Gone reason (withdrawPosition p s) q := by
  by_cases e : q = p
  · subst e
    unfold withdrawPosition
    dsimp only
    rw [h.state]
    exact h.unbanked q
  · exact h.spares (spares_withdrawPosition e)

theorem lives_tellBankLeft (b : BankId) (old : Bank) (s : State) : Lives s (tellBankLeft b old s) := by
  unfold tellBankLeft
  split
  next p _ _ => exact (lives_withdrawPosition p s).trans (lives_dequeue b _)
  next c _ _ =>
    have posted : Lives s (postDirective plantPort (.refillStop c b .bankLost) s) := lives_of rfl
    exact (posted.trans (lives_refillEnds c .bankLost .ready _)).trans (lives_dequeue b _)
  · exact lives_dequeue b s

theorem tellBankLeft_gone {reason : EndReason} (h : Gone reason s q) (b : BankId) (old : Bank) :
    Gone reason (tellBankLeft b old s) q := by
  have dequeued {u : State} (k : Gone reason u q) : Gone reason (dequeue b u) q :=
    k.spares (spares_dequeue (not_cools k.waits) b)
  unfold tellBankLeft
  split
  · exact dequeued (withdrawPosition_gone h _)
  next c _ _ =>
    have posted := h.spares (spares_postDirective plantPort (.refillStop c b .bankLost))
    exact dequeued (posted.spares (spares_refillEnds (not_cools posted.waits) c .bankLost .ready))
  · exact dequeued h

theorem spares_tellBankLeft (out : ¬ Waits s q) {old : Bank} (hb : old.holder ≠ some (.pos q)) (b : BankId) :
    Spares q s (tellBankLeft b old s) := by
  unfold tellBankLeft
  split
  next p _ holder =>
    have asked : Spares q s (withdrawPosition p s) := spares_withdrawPosition (by rintro rfl; exact hb holder)
    exact asked.trans (spares_dequeue (not_cools (asked.waits out)) b)
  next c _ _ =>
    have sent : Spares q s (postDirective plantPort (.refillStop c b .bankLost) s) := spares_postDirective _ _
    have lost := sent.trans (spares_refillEnds (not_cools (sent.waits out)) c .bankLost .ready)
    exact lost.trans (spares_dequeue (not_cools (lost.waits out)) b)
  · exact spares_dequeue (not_cools out) b

theorem Quits.tells (h : Quits s u) (ruled : Ruled False s) (b : BankId) : Quits s (tellBankLeft b (s.bank b) u) where
  spares q out free := by
    have spares := h.spares q out free
    exact spares.trans (spares_tellBankLeft (spares.waits out) (free b) b)
  gone reason q hq := tellBankLeft_gone (h.gone reason q hq) b _
  lives := h.lives.trans (lives_tellBankLeft b _ u)
  rests n down out := by
    have rests := h.rests n down out
    refine rests.trans (rests_tellBankLeft b _ (fun c hc e => ?_) (by rw [rests.down down]; decide) (mt rests.waits out))
    have runs := ruled.sound.runs (ruled.sound.banks.refilled b c hc).2
    rw [← e, down] at runs
    cases runs

/-! ### The loss of the banks (R77) -/

/-- The state but for the settings of banks, as cascades leave it. -/
def State.unbanked (s : State) : State := { s.steady with banks := Vector.replicate 12 .initial }

theorem unbanked_of_steady (h : t.steady = s.steady) : t.unbanked = s.unbanked := by
  unfold State.unbanked
  rw [h]

theorem lockStale_unbanked (b : BankId) (s : State) : (lockStale s b).unbanked = s.unbanked := by
  have marked : (staleBank b s).unbanked = s.unbanked := rfl
  unfold lockStale
  split
  · rfl
  · split
    · rfl
    · exact (unbanked_of_steady (steady_postBankState b (staleBank b s))).trans marked
  all_goals exact (unbanked_of_steady (steady_vacateBank b .locked (staleBank b s))).trans marked

/-- The banks have left service, and their holders are still to be told. -/
structure Locks (s t : State) : Prop where
  ruled : Ruled False t
  quits : Quits s t
  unbanked : t.unbanked = s.unbanked

theorem locks_lockStale (h : Ruled False s) : Locks s (allBanks.foldl lockStale s) ∧
    ∀ b, Shuttered (s.bank b) ((allBanks.foldl lockStale s).bank b) := by
  have keeps (u : State) (b : BankId) (_ : b ∈ allBanks) (hu : Locks s u) : Locks s (lockStale u b) :=
    ⟨(shuts_lockStale hu.ruled b).ruled, hu.quits.locks b, (lockStale_unbanked b u).trans hu.unbanked⟩
  refine ⟨foldl_keep (keep := Locks s) keeps ⟨h, .refl s, rfl⟩, fun b => ?_⟩
  exact foldl_once (f := lockStale) (a := b) (keep := Locks s) (before := fun u => u.bank b = s.bank b)
    (after := fun u => Shuttered (s.bank b) (u.bank b)) (by decide) (mem_allBanks b) keeps
    (fun u a _ ha hu same => ((shuts_lockStale hu.ruled a).others b (Ne.symm ha)).trans same)
    (fun u _ same => by
      rw [← same]
      exact lockStale_shutters b u)
    (fun u a _ ha hu shut => by
      rw [(shuts_lockStale hu.ruled a).others b (Ne.symm ha)]
      exact shut) ⟨h, .refl s, rfl⟩ rfl

theorem quits_banksLinkLost (h : Ruled False s) : Quits s (banksLinkLost s) ∧ (banksLinkLost s).unbanked = s.unbanked ∧
    ∀ b, Shuttered (s.bank b) ((banksLinkLost s).bank b) := by
  obtain ⟨locks, shut⟩ := locks_lockStale h
  obtain ⟨-, out, -⟩ := shut_lockStale allBanks h
  unfold banksLinkLost
  generalize allBanks.foldl lockStale s = v at *
  have out (b : BankId) : ¬ Serving (v.bank b) := out b (.inl (mem_allBanks b))
  have told (u : State) (b : BankId) (_ : b ∈ allBanks) (hu : Quits s u ∧ u.unbanked = s.unbanked ∧ ∀ b, u.bank b = v.bank b) :
      let t := if inService (s.bank b) then tellBankLeft b (s.bank b) u else u
      Quits s t ∧ t.unbanked = s.unbanked ∧ ∀ b, t.bank b = v.bank b := by
    obtain ⟨quits, unbanked, banks⟩ := hu
    dsimp only
    split
    · refine ⟨quits.tells h b, (unbanked_of_steady (steady_tellBankLeft b _ u)).trans unbanked, fun a => ?_⟩
      refine ((yields_tellBankLeft b (s.bank b) u).bank a fun idle => out a (Serving.of_idle ?_)).trans (banks a)
      rw [← banks a]
      exact idle
    · exact ⟨quits, unbanked, banks⟩
  obtain ⟨quits, unbanked, banks⟩ := foldl_keep (keep := fun u => Quits s u ∧ u.unbanked = s.unbanked ∧ ∀ b, u.bank b = v.bank b)
    told ⟨locks.quits, locks.unbanked, fun _ => rfl⟩
  exact ⟨quits, unbanked, fun b => by rw [banks]; exact shut b⟩

theorem wrecks_banksLinkLost (h : Ruled False s) : Wrecks Q s (banksLinkLost s) := by
  obtain ⟨quits, unbanked, -⟩ := quits_banksLinkLost h
  have lane (l : LaneId) : ((banksLinkLost s).lane l).steady = (s.lane l).steady := by
    have lanes := congrArg (fun u : State => u.lanes[l]) unbanked
    simpa [State.unbanked, State.steady, State.lane] using lanes
  refine ⟨fun q idle free => quits.spares q (h.idle_waits idle) free, quits.gone, fun q _ under => .inl (quits.lives q under),
    fun n down => (quits.rests n down (h.down_waits down)).down down, ?_,
    fun l => (congrArg Lane.islandEnable (lane l) : ((banksLinkLost s).lane l).steady.islandEnable = _),
    fun l off => (congrArg Lane.plantEnable (lane l) : ((banksLinkLost s).lane l).steady.plantEnable = _).trans off, fun zero => ?_⟩
  · exact congrArg (fun u : State => { u with
      positions := Vector.replicate 8 .initial, lanes := Vector.replicate 4 .initial
      cooling := .initial, freeCtr := 0 }) unbanked
  · exact (congrArg (fun u : State => u.cooling.capacity) unbanked :
      (banksLinkLost s).unbanked.cooling.capacity = s.unbanked.cooling.capacity).trans zero

end Sys2Proof.Machine
end

section
/-! SUPPORT. The loss of the plant, its actions taken in any order (R77, R90, R101, R121, R166). -/

namespace Sys2Proof.Machine

variable {p q : PosId} {a b : BankId} {c n : CompId} {l : LaneId} {s t u : State} {Q : PosId → Prop}

/-! ### One action -/

/-- Between the lanes, and between the compressors. -/
structure Wrecking (s t : State) : Prop where
  ruled : Ruled False t
  wrecks : Wrecks (fun _ => True) s t
  staffs : Staffs s t

theorem Wrecking.refl (h : Ruled False s) : Wrecking s s := ⟨h, .refl s, .refl s⟩

theorem Wrecks.mono {Q P : PosId → Prop} (h : Wrecks Q s t) (k : ∀ q, P q → Q q) : Wrecks P s t :=
  ⟨h.spares, h.gone, fun q hq => h.lives q (k q hq), h.down, h.backdrop, h.island, h.plant, h.capacity⟩

theorem wrecking_lane (h : Wrecking s u) (l : LaneId) : Wrecking s (setPlantEnable l false u) := by
  have ruled := ruled_setPlantEnable h.ruled l false
  rw [setPlantEnable_eq] at ruled ⊢
  exact ⟨ruled, h.wrecks.trans (wrecks_setEnable h.ruled l), h.staffs.trans (spent_setEnable h.ruled true l false).staffs⟩

theorem wrecking_compressor (h : Wrecking s u) (c : CompId) : Wrecking s (compressorLost u c) := by
  obtain ⟨wrecks, staffs, -⟩ := wrecks_compressorLost (Q := fun _ => True) h.ruled c
  exact ⟨ruled_compressorLost h.ruled c, h.wrecks.trans wrecks, h.staffs.trans staffs⟩

theorem wrecking_lanes (h : Ruled False s) : Wrecking s (allLanes.foldl (fun s l => setPlantEnable l false s) s) :=
  foldl_keep (keep := Wrecking s) (fun _ l _ hu => wrecking_lane hu l) (.refl h)

theorem wrecking_compressors (h : Ruled False s) : Wrecking s (allComps.foldl compressorLost s) :=
  foldl_keep (keep := Wrecking s) (fun _ c _ hu => wrecking_compressor hu c) (.refl h)

/-- The lanes have lost the enable of the plant. -/
theorem lanes_disabled (h : Ruled False s) (l : LaneId) :
    ((allLanes.foldl (fun s l => setPlantEnable l false s) s).lane l).plantEnable = false :=
  foldl_once (f := fun s l => setPlantEnable l false s) (a := l) (keep := Wrecking s) (before := fun _ => True)
    (after := fun u => (u.lane l).plantEnable = false) (by decide) (mem_allLanes l) (fun _ j _ hu => wrecking_lane hu j)
    (fun _ _ _ _ _ _ => trivial) (fun u _ _ => by rw [setPlantEnable_eq]; exact (setEnable_flags l u).1)
    (fun u j _ _ _ off => by rw [setPlantEnable_eq]; exact ((setEnable_flags j u).2 l).2 off) (.refl h) trivial

/-- The compressors have stopped. -/
theorem compressors_down (h : Ruled False s) (n : CompId) : ((allComps.foldl compressorLost s).comp n).state = .unavailable :=
  foldl_once (f := compressorLost) (a := n) (keep := Wrecking s) (before := fun _ => True)
    (after := fun u => (u.comp n).state = .unavailable) (by decide) (by revert n; decide) (fun _ c _ hu => wrecking_compressor hu c)
    (fun _ _ _ _ _ _ => trivial) (fun _ hu _ => (wrecks_compressorLost (Q := fun _ => True) hu.ruled n).2.2)
    (fun _ c _ _ hu down => (wrecks_compressorLost (Q := fun _ => True) hu.ruled c).1.down n down) (.refl h) trivial

/-- What an action leaves, but for the position that it is about. -/
theorem wrecks_plantLossAction (h : Losing False s) (a : LossAction) :
    Wrecks (fun q => a ≠ .position q) s (plantLossAction s a) ∧ (a ≠ .banks → Staffs s (plantLossAction s a)) := by
  unfold plantLossAction
  split
  next p =>
    exact ⟨(wrecks_endFill h.ruled p .plantLost).mono fun q hq e => hq (by rw [e]), fun _ => staffs_endFill h.ruled.sound p _⟩
  · have lanes := wrecking_lanes h.ruled
    exact ⟨lanes.wrecks.mono fun _ _ => trivial, fun _ => lanes.staffs⟩
  · obtain ⟨wrecks, staffs, -⟩ := wrecks_capacityLost (Q := fun _ => True) h
    exact ⟨wrecks.mono fun _ _ => trivial, fun _ => staffs⟩
  · have comps := wrecking_compressors h.ruled
    exact ⟨comps.wrecks.mono fun _ _ => trivial, fun _ => comps.staffs⟩
  · exact ⟨wrecks_banksLinkLost h.ruled, fun k => absurd rfl k⟩

/-! ### The banks, before their turn and after it -/

theorem Shuttered.out {x y : Bank} (h : Shuttered x y) : ¬ Serving y := by
  unfold Shuttered at h
  split at h
  next k => exact fun serves => serves.1 (by rw [h]; exact k)
  · rcases h with ⟨locked, -⟩ | ⟨-, locked, -⟩
    · exact fun serves => serves.2 locked
    · exact fun serves => serves.2 locked

/-- Before its turn a bank in service stays so, and one out of it stands. -/
theorem Shuttered.of_staffs {y : Bank} (h : Staffs s u) (k : Shuttered (u.bank b) y) : Shuttered (s.bank b) y := by
  by_cases serves : Serving (s.bank b)
  · obtain ⟨online, unlocked⟩ := h.serving b serves
    rw [Shuttered, if_neg online] at k
    rw [Shuttered, if_neg serves.1]
    exact .inl (k.resolve_right fun locked => unlocked locked.1)
  · rwa [← h.out b serves]

/-! ### The actions together -/

/-- The actions of the loss of the plant. -/
def plantActions : List LossAction := allPositions.map .position ++ [.lanes, .cooling, .refill, .banks]

theorem plantActions_nodup : plantActions.Nodup := by decide

theorem mem_plantActions (a : LossAction) : a ∈ plantActions := by
  cases a with
  | position p => exact List.mem_append_left _ (List.mem_map_of_mem (mem_allPositions p))
  | lanes | cooling | refill | banks => decide

/-- What the loss of the plant makes of the state. -/
structure PlantGone (s t : State) : Prop where
  ruled : Ruled False t
  backdrop : t.backdrop = s.backdrop
  island : ∀ l, (t.lane l).islandEnable = (s.lane l).islandEnable
  ended : ∀ p, endable (s.pos p).state = true → Gone .plantLost t p ∨ Gone .laneLost t p
  spares : ∀ q, endable (s.pos q).state = false → (∀ b, (s.bank b).holder ≠ some (.pos q)) → Spares q s t
  plant : ∀ l, (t.lane l).plantEnable = false
  capacity : t.cooling.capacity = 0
  down : ∀ n, (t.comp n).state = .unavailable
  banks : ∀ b, Shuttered (s.bank b) (t.bank b)

/-- Between the actions of the loss of the plant, from its start on. -/
structure Torn (s t : State) : Prop where
  losing : Losing False t
  wrecks : Wrecks (fun _ => False) s t

theorem Torn.next (h : Torn s u) (a : LossAction) : Torn s (plantLossAction u a) :=
  ⟨losing_plantLossAction h.losing a, h.wrecks.trans ((wrecks_plantLossAction h.losing a).1.mono fun _ k => k.elim)⟩

theorem plantGone_fold (h : Losing False s) {l : List LossAction} (once : l.Nodup) (mem : ∀ a, a ∈ l) :
    PlantGone s (l.foldl plantLossAction s) := by
  have start : Torn s s := ⟨h, .refl s⟩
  have next (u : State) (a : LossAction) (_ : a ∈ l) (hu : Torn s u) := hu.next a
  have all := foldl_keep (keep := Torn s) next start
  have frame {u : State} (hu : Torn s u) (a : LossAction) := wrecks_plantLossAction hu.losing a
  refine ⟨all.losing.ruled, all.wrecks.backdrop, all.wrecks.island, fun p under => ?_, all.wrecks.spares, fun j => ?_, ?_,
    fun n => ?_, fun b => ?_⟩
  · exact foldl_once (f := plantLossAction) (a := .position p) (keep := Torn s) (before := fun u => Running u p)
      (after := fun u => Gone .plantLost u p ∨ Gone .laneLost u p) once (mem _) next
      (fun u a _ ha hu runs => runs.elim ((frame hu a).1.lives p ha) fun gone => .inr ((frame hu a).1.gone _ p gone))
      (fun u hu runs => runs.elim (fun under => .inl (endFill_gone under))
        fun gone => .inr ((frame hu (.position p)).1.gone _ p gone))
      (fun u a _ _ hu gone => gone.imp ((frame hu a).1.gone _ p) ((frame hu a).1.gone _ p)) start (.inl under)
  · exact foldl_once (f := plantLossAction) (a := .lanes) (keep := Torn s) (before := fun _ => True)
      (after := fun u => (u.lane j).plantEnable = false) once (mem _) next (fun _ _ _ _ _ _ => trivial)
      (fun u hu _ => lanes_disabled hu.losing.ruled j) (fun u a _ _ hu off => (frame hu a).1.plant j off) start trivial
  · exact foldl_once (f := plantLossAction) (a := .cooling) (keep := Torn s) (before := fun _ => True)
      (after := fun u => u.cooling.capacity = 0) once (mem _) next (fun _ _ _ _ _ _ => trivial)
      (fun u hu _ => (wrecks_capacityLost (Q := fun _ => True) hu.losing).2.2)
      (fun u a _ _ hu zero => (frame hu a).1.capacity zero) start trivial
  · exact foldl_once (f := plantLossAction) (a := .refill) (keep := Torn s) (before := fun _ => True)
      (after := fun u => (u.comp n).state = .unavailable) once (mem _) next (fun _ _ _ _ _ _ => trivial)
      (fun u hu _ => compressors_down hu.losing.ruled n) (fun u a _ _ hu down => (frame hu a).1.down n down) start trivial
  · exact foldl_once (f := plantLossAction) (a := .banks) (keep := Torn s) (before := fun u => Staffs s u)
      (after := fun u => Shuttered (s.bank b) (u.bank b)) once (mem _) next
      (fun u a _ ha hu staffs => staffs.trans ((frame hu a).2 ha))
      (fun u hu staffs => .of_staffs staffs ((quits_banksLinkLost hu.losing.ruled).2.2 b))
      (fun u a _ ha hu shut => by
        rw [((frame hu a).2 ha).out b shut.out]
        exact shut) start (.refl s)

/-- The event is the loss of the plant, and an order is chosen. -/
theorem losing_start (h : Ruled False s) (apart : ∀ p, Draws s p → ¬ Cools s p) :
    Losing False ((budgetCause .plantLost (plantLossBegins s)).permute plantActions).1 := by
  have named : Unmoved (plantLossBegins s) (budgetCause .plantLost (plantLossBegins s)) := unmoved_of rfl rfl rfl rfl rfl rfl
  have permuted := unmoved_permuted plantActions (budgetCause .plantLost (plantLossBegins s))
  exact ⟨((h.loses apart).unmoved named rfl).unmoved permuted rfl, permuted.lost.trans named.lost⟩

/-- The start of the loss of the plant. -/
theorem plantLoss_start (s : State) : ∃ e k, ((budgetCause .plantLost (plantLossBegins s)).permute plantActions).1 =
    { s with evt := e, freeCtr := k } := ⟨_, _, rfl⟩

theorem PlantGone.from {e : Scratch} {k : Nat} (h : PlantGone { s with evt := e, freeCtr := k } t) : PlantGone s t := by
  have start (q : PosId) : Spares q s { s with evt := e, freeCtr := k } := ⟨rfl, rfl, rfl, id, id, id, fun _ => id⟩
  exact ⟨h.ruled, h.backdrop, h.island, h.ended, fun q idle free => (start q).trans (h.spares q idle free), h.plant,
    h.capacity, h.down, h.banks⟩

theorem plantGone_teardown (h : Ruled False s) (apart : ∀ p, Draws s p → ¬ Cools s p) {n : PortId} (hn : portRole n = .plant) :
    PlantGone s (teardown n s) := by
  obtain ⟨l, eq, once, mem⟩ := takeActions_eq plantActions_nodup plantLossAction (budgetCause .plantLost (plantLossBegins s))
  have torn : teardown n s = takeActions plantActions plantLossAction (budgetCause .plantLost (plantLossBegins s)) := by
    unfold teardown
    rw [hn]
    rfl
  have gone := plantGone_fold (losing_start h apart) once fun a => (mem a).2 (mem_plantActions a)
  obtain ⟨e, k, start⟩ := plantLoss_start s
  rw [torn, eq]
  rw [start] at gone ⊢
  exact gone.from

/-- Nobody draws, holds cooling or waits for it where no fill is under way and no compressor runs. -/
theorem PlantGone.empty (h : PlantGone s t)
    (free : ∀ q, endable (s.pos q).state = false → ∀ b, (s.bank b).holder ≠ some (.pos q)) :
    t.sumGrants = 0 ∧ t.drawList = [] ∧ t.cooling.wait = [] := by
  have idle (p : PosId) : endable (t.pos p).state = false := by
    cases hp : endable (s.pos p).state with
    | true => rcases h.ended p hp with gone | gone <;> rw [gone.state] <;> rfl
    | false =>
      rw [(h.spares p hp (free p hp)).pos]
      exact hp
  refine ⟨?_, List.eq_nil_iff_forall_not_mem.2 fun w hw => ?_, List.eq_nil_iff_forall_not_mem.2 fun w hw => ?_⟩
  · have fills (p : PosId) : (t.grantOf (.pos p)).grant = 0 := h.ruled.idle_grant (idle p)
    have comps (n : CompId) : (t.grantOf (.comp n)).grant = 0 := h.ruled.down_grant (h.down n)
    simp [State.sumGrants, fills, comps]
  · exact h.ruled.idle_waits (idle w.pos) (.inl ⟨w, hw, rfl⟩)
  · cases hr : w.who with
    | pos p => exact h.ruled.idle_waits (idle p) (.inr ⟨w, hw, hr⟩)
    | comp n => exact h.ruled.down_waits (h.down n) ⟨w, hw, hr⟩

end Sys2Proof.Machine
end

section
/-! SUPPORT. The expiry that loses a port (R164 to R167). -/

namespace Sys2Proof.Machine

variable {p q : PosId} {a b : BankId} {c k : CompId} {l : LaneId} {n : PortId} {s t u : State}

/-- The supervision of a port that is lost. -/
def Port.lost (x : Port) : Port := { x with supervision := { x.supervision with count := 2, state := .lost, timer := none } }

/-- The loss is noticed, and nothing is torn down yet. -/
def State.lossTold (n : PortId) (s : State) : State := postPortNotice .portLost n (s.modPort n Port.lost)

theorem lossTold_sends (n : PortId) (s : State) : Sends (s.modPort n Port.lost) (s.lossTold n) := sends_postNotice _ _ _ _ _

theorem intervalExpired_lost (h : (s.port n).supervision.count ≠ 0) : intervalExpired n s = teardown n (s.lossTold n) := if_neg h

/-- The telling moves ports alone. -/
theorem lossTold_rest (n : PortId) (s : State) : ∃ x, s.lossTold n = { s with ports := x } := by
  rw [(lossTold_sends n s).rest]
  exact ⟨_, rfl⟩

theorem unmoved_lossTold (n : PortId) (s : State) : Unmoved s (s.lossTold n) :=
  (unmoved_modPort n Port.lost s).trans (lossTold_sends n s).unmoved

theorem exec_portLost (h : Quiet s) (due : (s.port n).supervision.timer = some 0) (count : (s.port n).supervision.count ≠ 0) :
    exec (.intervalTimerExpiry n) s = .next (endEvent (teardown n (s.lossTold n))) := by
  have expires : exec (.intervalTimerExpiry n) s =
      .next (takeEvent (fun s => if Machine.due (s.port n).supervision.timer then intervalExpired n s else s) s) := rfl
  rw [expires, takeEvent, if_pos (beq_iff_eq.2 h.1), if_pos (by rw [due]; rfl), intervalExpired_lost count]

/-! ### What a loss leaves behind -/

/-- The supervision of a port, in the backdrop. -/
theorem backdrop_supervision (h : t.backdrop = s.backdrop) (n : PortId) : (t.port n).supervision = (s.port n).supervision := by
  have ports := congrArg (fun u : State => (u.ports[n]).supervision) h
  simpa [State.backdrop, State.steady, State.port, Port.steady, Port.settled] using ports

theorem lossTold_supervision (n : PortId) (s : State) : ((s.lossTold n).port n).supervision =
    { (s.port n).supervision with count := 2, state := .lost, timer := none } := by
  have told : (s.lossTold n).steady = (s.modPort n Port.lost).steady := by
    unfold State.lossTold postPortNotice
    simp
  rw [backdrop_supervision (backdrop_of_steady told)]
  simp [State.modPort, State.setPort, State.port, Port.lost]

/-- The parts of the state that no loss of a port reaches. -/
theorem backdrop_rest (h : t.backdrop = s.backdrop) :
    (t.store, t.clock, t.tod, t.pins, t.esd, t.ambient, t.rampTable, t.margin, t.windows, t.work.tariffs,
      t.work.totals, t.work.nextNumber, t.work.calibration, t.oneSecond, t.pending) =
    (s.store, s.clock, s.tod, s.pins, s.esd, s.ambient, s.rampTable, s.margin, s.windows, s.work.tariffs,
      s.work.totals, s.work.nextNumber, s.work.calibration, s.oneSecond, s.pending) := by
  have rest := congrArg (fun u : State => (u.store, u.clock, u.tod, u.pins, u.esd, u.ambient, u.rampTable, u.margin, u.windows,
    u.work.tariffs, u.work.totals, u.work.nextNumber, u.work.calibration, u.oneSecond, u.pending)) h
  exact rest

/-- The end of the event moves ports alone. -/
theorem endEvent_rest (u : State) : ∃ x, endEvent u = { u with evt := .empty, ports := x } := by
  rw [(sends_endEvent u).rest]
  exact ⟨_, rfl⟩

theorem teardown_backdrop (h : Ruled False s) (apart : ∀ p, Draws s p → ¬ Cools s p) (n : PortId) :
    (teardown n s).backdrop = s.backdrop := by
  cases hn : portRole n with
  | island => exact (islandGone_teardown h hn).dropping.backed.backdrop
  | plant => exact (plantGone_teardown h apart hn).backdrop
  | till =>
    unfold teardown
    rw [hn]

theorem Position.dropped_ending {x : Position} (h : x.state = .ending) : x.dropped = { x with closePending := some .linkLost } := by
  unfold Position.dropped
  rw [h]

theorem Position.dropped_others {x : Position} (ending : x.state ≠ .ending)
    (present : x.state ≠ .unavailable) : x.dropped = { Position.initial with lane := x.lane } := by
  unfold Position.dropped
  cases h : x.state with
  | ending => exact absurd h ending
  | unavailable => exact absurd h present
  | pulse | leakCheck | ramp | hold | waitNozzle | ready | idle | waitAuth | finished => rfl

theorem Lane.of_steady {x y : Lane} (h : y.steady = x.steady) : { y with warmTimer := x.warmTimer } = x :=
  congrArg (fun z : Lane => { z with warmTimer := x.warmTimer }) h

theorem out_of_service {x : Bank} (h : x.state = .offline ∨ x.state = .locked) : ¬ Serving x := fun serves => by
  rcases h with e | e
  · exact serves.1 e
  · exact serves.2 e

/-- A position without a fill under way holds no bank. -/
theorem HolderLaw.free (h : HolderLaw s) (idle : endable (s.pos q).state = false) (b : BankId) :
    (s.bank b).holder ≠ some (.pos q) := fun hb => by
  rcases (h.fills q b (h.drawn b q hb)).1 with e | e <;> rw [e] at idle <;> cases idle

/-- Settles O49: every action of a teardown leaves what the others do, in whichever order they are taken. -/
theorem portLossTearsDown : Obligations.PortLossTearsDown := by
  unfold Obligations.PortLossTearsDown
  intro s n quiet due count esd comp wait grant _ holder _
  have opens : Opens False s := ⟨.of_laws esd comp wait grant holder False.elim, holder⟩
  have told := unmoved_lossTold n s
  have ruled : Ruled False (s.lossTold n) := opens.ruled.unmoved told (by rw [(lossTold_sends n s).rest]; rfl)
  have apart (p : PosId) (hp : Draws (s.lossTold n) p) : ¬ Cools (s.lossTold n) p := fun hc =>
    opens.drawer p (told.draws p hp) ((told.cools p).1 hc)
  have island : portRole n = .island → IslandGone n (s.lossTold n) (teardown n (s.lossTold n)) := islandGone_teardown ruled
  have plant : portRole n = .plant → PlantGone (s.lossTold n) (teardown n (s.lossTold n)) := plantGone_teardown ruled apart
  have backdrop := (backdrop_of_steady (steady_endEvent _)).trans (teardown_backdrop ruled apart n)
  have supervision := (backdrop_supervision backdrop n).trans (lossTold_supervision n s)
  have rest := backdrop_rest backdrop
  refine ⟨_, exec_portLost quiet due count, supervision, ?_⟩
  obtain ⟨x, hs⟩ := lossTold_rest n s
  obtain ⟨y, ht⟩ := endEvent_rest (teardown n (s.lossTold n))
  rw [ht] at rest ⊢
  generalize teardown n (s.lossTold n) = u at *
  rw [hs] at rest island plant
  refine ⟨rest, fun hn => ?_, fun hn => ?_⟩
  · obtain ⟨dropping, cut, dropped, disabled, spares⟩ := island hn
    refine ⟨fun p hp => ⟨fun under => ?_, fun ending => ?_, fun idle ending present => ?_⟩, fun l g hg own => ?_, fun l g hg other => ?_,
      fun q hq out counted => ?_, fun b out => ?_, fun b => ?_, fun k still => ?_, dropping.backed.capacity⟩
    · have cut := cut p hp under
      exact ⟨cut.state, cut.closing, cut.endReason⟩
    · exact (dropped p hp ((congrArg endable ending).trans rfl)).trans (Position.dropped_ending ending)
    · exact (dropped p hp idle).trans (Position.dropped_others ending present)
    · exact disabled l ((congrArg (Option.map _) hg).trans (congrArg some own))
    · refine Lane.of_steady ((dropping.lanes l).2 fun own => other ?_)
      have named : (s.lane l).config.map (·.owner.val) = some n.val := own
      rw [hg] at named
      exact Option.some.inj named
    · have spares := spares q hq out fun l own => by
        obtain ⟨g, hg, eq⟩ := Option.map_eq_some_iff.1 own
        exact counted l g hg eq
      exact ⟨spares.pos, spares.chan⟩
    · exact dropping.staffs.out b (out_of_service out)
    · have settings := dropping.backed.banks b
      exact ⟨(congrArg Bank.config settings : (u.bank b).steady.config = _), (congrArg Bank.report settings : (u.bank b).steady.report = _),
        (congrArg Bank.causes settings : (u.bank b).steady.causes = _)⟩
    · refine (dropping.rests.rests k trivial (fun ready => ?_) fun waits => ?_).comp
      · rcases still with e | e <;> exact CompState.noConfusion (e.symm.trans ready)
      · rcases still with e | e <;> exact CompState.noConfusion (e.symm.trans (comp.waiting k waits))
  · have gone := plant hn
    obtain ⟨grants, drawers, waiters⟩ := gone.empty fun q idle => holder.free idle
    refine ⟨fun p under => ?_, fun p idle => (gone.spares p idle (holder.free idle)).pos, fun l => ⟨gone.plant l, gone.island l⟩,
      gone.capacity, grants, drawers, waiters, gone.down, gone.banks⟩
    rcases gone.ended p under with ended | ended
    · exact ⟨ended.state, .inl ended.endReason⟩
    · exact ⟨ended.state, .inr ended.endReason⟩

end Sys2Proof.Machine
end
